-- ==== Sys2Proof/Word.lean ====
section
/-!
DEFINITION. The words of the model and the one container its state uses: a bank, which is sparse data by number
in one canonical form (numbers strictly rising, no entry equal to what an unlisted number reads as).
-/

namespace Sys2Proof

/-- One byte. -/
abbrev Byte := BitVec 8

/-- One 32-bit register word. -/
abbrev Word := BitVec 32

/-- Data by number: registers by offset, queues by number, Hall bytes by address. A number that is not
listed reads as the type's `default`. -/
structure Bank (α : Type) where
  cells : List (Nat × α)
  deriving DecidableEq, Repr, Inhabited

variable {α : Type}

/-- The first entry listed for a number. -/
def Bank.find (i : Nat) : List (Nat × α) → Option α
  | [] => none
  | (j, v) :: t => if j = i then some v else Bank.find i t

/-- What number `i` reads as. -/
def Bank.get [Inhabited α] (b : Bank α) (i : Nat) : α := (Bank.find i b.cells).getD default

/-- Every entry but those of number `i`. -/
def Bank.without (i : Nat) (l : List (Nat × α)) : List (Nat × α) := l.filter (fun c => c.1 != i)

/-- Put an entry at its place in rising order. -/
def Bank.place (i : Nat) (v : α) : List (Nat × α) → List (Nat × α)
  | [] => [(i, v)]
  | (j, w) :: t => if i < j then (i, v) :: (j, w) :: t else (j, w) :: Bank.place i v t

/-- Write number `i`. Writing the default removes the entry, so that equal banks are equal data. -/
def Bank.set [Inhabited α] [DecidableEq α] (b : Bank α) (i : Nat) (v : α) : Bank α :=
  ⟨if v = default then Bank.without i b.cells else Bank.place i v (Bank.without i b.cells)⟩

/-- Change what every listed number reads as. -/
def Bank.each [Inhabited α] [DecidableEq α] (b : Bank α) (f : Nat → α → α) : Bank α :=
  b.cells.foldl (fun a c => a.set c.1 (f c.1 (b.get c.1))) b

/-- The bank with nothing listed. -/
def Bank.empty : Bank α := ⟨[]⟩

/-- The canonical form: numbers strictly rising, no entry equal to the default. -/
def Bank.wf [Inhabited α] [DecidableEq α] (b : Bank α) : Bool :=
  decide (b.cells.Pairwise (fun x y => x.1 < y.1)) && b.cells.all (fun c => decide (c.2 ≠ default))

end Sys2Proof
end

