-- ==== Sys2Proof/Config.lean ====
section
/-!
DEFINITION. The values the manual leaves open. Each is a constant without a body, applied to a plain counter of
the state (`State.free`) or to the operands the value depends on, so that nothing can prove which value it is.
-/

namespace Sys2Proof

/-- A number the manual leaves open: a choice among several, an order, a count it only bounds (log 3). -/
opaque Config.freeNat : Nat → Nat

/-- A 32-bit value the manual leaves open (log 3). -/
opaque Config.freeWord : Nat → Word

/-- Sign and payload of a NaN that an arithmetic operation produces, by its operands (R160, R246, R271, R289 say that
NaN propagates and leave its bits open; log 4). -/
opaque Config.nanBits : Word → Word → Word

/-- The SECDED check bits of a tier row, which the engine generates on a write (R74, R75); the manual gives no code (log 91). -/
opaque Config.checkBits : BitVec 1024 → BitVec 128

/-- ID_PART.BUILD: printed in the delivery notes, not fixed by the IP version (R401; log 5). -/
opaque Config.build : BitVec 16

end Sys2Proof
end

