-- ==== Sys2Proof/Syntax.lean ====
section
/-!
DEFINITION. The commands of the block: one constructor of `Instr` per row of spec/opcode_table.json, with the
operands its rule gives the step. What arrives from outside in one step (the beat a read returned, the parcel
that arrived, the level of a pin) is an operand; what the engine holds is in the state.
-/

namespace Sys2Proof

/-- The two wings (R9). A one-wing configuration point is the West wing alone (R3). -/
inductive Wing where
  | west | east
  deriving DecidableEq, Repr, Inhabited

/-- A parcel of the remote ports: its 32-byte header (R66) and its payload. Of one that arrives, `cls` is the class its flits
came in (R65), `pad` what its last flit holds behind the parcel's bytes, and `crcs` the CRC of each flit. -/
structure Parcel where
  ptype : Byte
  flags : Byte
  src : Byte
  dst : Byte
  pseq : Word
  table : BitVec 16
  status : Byte
  rsv : Byte
  epoch : Word
  batch : Word
  count : BitVec 16
  ebytes : BitVec 16
  addr : BitVec 64
  payload : List Byte
  cls : Bool
  pad : List Byte
  crcs : List Word
  deriving DecidableEq, Repr, Inhabited

/-- What the boot step in progress found (R352): whether its primary and its alternate met their own pass
condition, and the data the step worked on. Each step reads the fields that belong to it. -/
structure BootReport where
  ok : Bool
  altOk : Bool
  lanes : BitVec 64
  banks : BitVec 16
  tiers : BitVec 8
  /-- The signature of the image that the primary reads verifies against the boot ROM's key, and that of image B (R350). -/
  sigOk : Bool
  sigB : Bool
  seeds : List Word
  /-- Tier and number of each tier row that failed its test. -/
  rows : List (Nat × Nat)
  deriving DecidableEq, Repr, Inhabited

/-- The structure whose word had an uncorrectable error (the rows of R379's table), with what names the word's
user: the queue whose lanes or whose Porter read it, the index of the LOOKUP or UPDATE whose access it was (none: the
queue's task) and the access it belongs to (0 where it belongs to none), the table version, the set, the entry, the ring or
the semaphore. -/
inductive UeSite where
  | hall (q : Nat) (porter : Bool) (cmd : Option (BitVec 16)) (va : BitVec 56) (pa : BitVec 52)
  | versionStore (table : Nat) (epoch : Word)
  | larderWay (set way : Nat)
  | larderDir (set : Nat)
  | tagEntry (tag : BitVec 17) (isWrite : Bool)
  | rangeCache (pos : Nat)
  | laneStore (q : Nat) (itin : Nat)
  | ringPos (ring : Nat)
  | semaphore (idx : Nat)
  | blockBuffer (blk : Nat)
  | stewardSram
  deriving DecidableEq, Repr, Inhabited

/-- A port that takes part in the link drop of N2 entry (R360). -/
inductive LinkPort where
  | mem (p : Nat) | client (c : Nat) | remote (x : Nat)
  deriving DecidableEq, Repr, Inhabited

/-- The commands: the operations and events of spec/opcode_table.json, in its order. -/
inductive Instr where
  -- resets, pins and power handshake
  | poresetNRelease (devid : BitVec 6) (mfr : BitVec 11)
  | poresetNAssert
  | pllLock
  | warmresetNRelease
  | thermWarnEdge (level : Bool)
  | thermCritRise
  | thermCritFall
  | pmVlvlMatch
  | pmVlvlTimeout (lvl : BitVec 2)
  | pmLoadupHoldFall
  | rampUnitEnable (hold : Bool)
  -- test access port and control port
  | tapIdcode (code : Byte)
  | cpaccUpdateDr (dr : BitVec 58) (lock : Bool)
  | cpaccCaptureDr (lock : Bool)
  | registerWrite (mid : BitVec 8) (addr : BitVec 24) (data : Word)
  | controlPortTimeout (mid : BitVec 8) (isWrite : Bool) (addr : BitVec 24) (data : Word)
  -- memory ports
  | memLinkAckRise (p : Nat)
  | memLinkAbsent (p : Nat)
  | memCreditReturn (p : Nat) (rc : BitVec 3) (wc : BitVec 2)
  | portArbitration (p : Nat)
  | read (p : Nat) (k : BitVec 2) (tag : BitVec 17)
  | write (p : Nat) (k : BitVec 2) (tag : BitVec 17)
  | writeFinal (p : Nat) (k : BitVec 2) (tag : BitVec 17)
  | atomicAddFp32 (p : Nat) (k : BitVec 2) (tag : BitVec 17)
  | atomicAddBf16 (p : Nat) (k : BitVec 2) (tag : BitVec 17)
  | writeDataBeat (p : Nat) (j : BitVec 1) (tag : BitVec 17) (ofs : BitVec 2)
  | readResponseBeat (p : Nat) (tag : BitVec 17) (ofs : BitVec 2) (st : BitVec 2) (seq : BitVec 16) (data : BitVec 1024)
  | landedAck (p : Nat) (tag : BitVec 17) (st : BitVec 2) (seq : BitVec 16)
  | memPortWatchdog (p : Nat)
  | readWindowClose (lane q : Nat)
  | writeWindowClose (lane stream : Nat)
  -- client ports
  | clientLinkUp (c : Nat) (crd : BitVec 7)
  | clientLinkDown (c : Nat)
  | pushCreditReturn (c : Nat) (n : BitVec 2)
  | pushBeat (c : Nat)
  | pushLanded (c : Nat) (ring : BitVec 10) (slot : BitVec 6) (err : Bool)
  | semiInc (c : Nat) (op : BitVec 2) (idx : BitVec 6) (cnt : BitVec 20)
  | semiDec (c : Nat) (op : BitVec 2) (idx : BitVec 6) (cnt : BitVec 20)
  | stallReport (c : Nat) (kind : Bool) (id : BitVec 10)
  -- translation port
  | missRequest (id : BitVec 9)
  | missResponse (id : BitVec 9) (st : BitVec 2) (vstart : BitVec 44) (len : BitVec 28) (pbase : BitVec 40) (perm : BitVec 3)
  | missTimeout (id : BitVec 9)
  | invalidationAccept (id : BitVec 4) (all : Bool) (asid : BitVec 16) (va : BitVec 44) (len : BitVec 28)
  | invalidationComplete (id : BitVec 4)
  -- remote ports
  | remoteLinkUp (x : Nat) (c0 c1 : BitVec 8)
  | remoteLinkAbsent (x : Nat)
  | remoteLinkDown (x : Nat)
  | remoteCreditReturn (x : Nat) (cls : Bool)
  | parcelSend (x : Nat) (cls : Bool)
  | lkupReq (x : Nat) (p : Parcel)
  | lkupRsp (x : Nat) (p : Parcel)
  | rwrite (x : Nat) (p : Parcel)
  | rwriteFinal (x : Nat) (p : Parcel)
  | rwLanded (x : Nat) (p : Parcel)
  | nack (x : Nat) (p : Parcel)
  | parcelTimeout (dst : BitVec 6) (pseq : Word)
  -- Larder tiers and the Corridor
  | ltnReadyRise (t : Nat)
  | ltnReadyTimeout (t : Nat)
  | ltnReadyFall (t : Nat)
  | tierReadData (t : Nat) (k : BitVec 3) (data : BitVec 1024) (chk : BitVec 128)
  | corridorFlitArrival (toEast : Bool) (cls : BitVec 2)
  | corridorReplay (toEast : Bool) (cls : BitVec 2)
  -- queues
  | qctlCfgEn (q : Nat) (data : Word)
  | qctlDoorbell (q : Nat) (data : Word)
  | commandPrefetch (q : Nat)
  | suspend (q : Nat)
  | resume (q : Nat)
  | replay (q : Nat)
  | skip (q : Nat)
  | retire (q : Nat)
  | abort (q : Nat)
  | suspensionComplete (q : Nat)
  | preemptRelease (q : Nat)
  | progressTimeout (q : Nat)
  | stopComplete (q : Nat)
  | retireComplete (q : Nat)
  -- commands of a queue
  | run (q : Nat)
  | taskStart (q : Nat)
  | taskComplete (q : Nat)
  | signalCommand (q : Nat)
  | waitCommand (q : Nat)
  | fence (q : Nat)
  | marker (q : Nat)
  | nopCommand (q : Nat)
  | lookup (q : Nat)
  | update (q : Nat)
  | tableBind (q : Nat)
  | tableRetire (q : Nat)
  | versionRetired (q : Nat)
  | larderCtlPreload (q : Nat)
  | larderCtlInvalidate (q : Nat)
  | prewarm (q : Nat)
  | backgroundStartAfterRun (q : Nat)
  | ledgerBegin (q : Nat)
  | ledgerCommit (q : Nat)
  | ledgerRollback (q : Nat)
  | commitQuiesced
  | commitQuiescenceTimeout
  | larderWindowClearDone
  | rwtStagedWrite (mid : BitVec 8) (addr : BitVec 24) (data : Word)
  -- itinerary instructions, executed by a lane for the itinerary it runs
  | nopInstruction (lane : Nat)
  | halt (lane : Nat)
  | loop (lane : Nat)
  | endl (lane : Nat)
  | lcset (lane : Nat)
  | lcadd (lane : Nat)
  | arset (lane : Nat)
  | aradd (lane : Nat)
  | ixbind (lane : Nat)
  | ixget (lane : Nat)
  | ixseek (lane : Nat)
  | indexWindowFetch (lane slot ix : Nat)
  | claim (lane : Nat)
  | laggardTimeout (g : Nat)
  | publish (lane : Nat)
  | slotPublished (rel : Nat)
  | take (lane : Nat)
  | free (lane : Nat)
  | slotReleased (rel : Nat)
  | waitInstruction (lane : Nat)
  | signalInstruction (lane : Nat)
  | signalRelease (rel : Nat)
  | semaphoreGrant (idx : Nat)
  | drain (lane : Nat)
  | move (lane : Nat)
  | gather (lane : Nat)
  | xpand (lane : Nat)
  | reduce (lane : Nat)
  | poolout (lane : Nat)
  | xform (lane : Nat)
  | org (lane : Nat)
  | instructionRetry (lane slot : Nat)
  | laneSwitch (lane : Nat)
  | tileIssue (lane : Nat) (hold : Option Nat)
  | descriptorRead (lane slot d : Nat)
  | finalMarking (lane slot : Nat)
  -- Expander
  | expanderBlockStart (w : Wing)
  | blockCheck (w : Wing)
  | blockExpand (w : Wing)
  -- Porter and Larder
  | subWindowBuild (w : Wing) (batch : Nat)
  | subWindowPool (w : Wing) (sw : Nat)
  | subWindowFree (w : Wing) (sw : Nat)
  | updateSubWindow (w : Wing) (batch : Nat)
  | larderProbe (w : Wing)
  | larderInstall (w : Wing)
  | larderWriteInvalidate (p : Nat) (tag : BitVec 17)
  | promotionInstall (w : Wing)
  | loadWindowClose
  | loadReport
  | tteRecompute
  | ringHistory (r : Nat)
  -- semaphore and pigeonhole registers
  | semSetClrflags (idx : Nat) (data : Word)
  | semSetSetcnt (idx : Nat) (data : Word)
  | semSetSetown (idx : Nat) (data : Word)
  | semSetRelease (idx : Nat) (data : Word)
  | pghBind (p : Nat) (mid : BitVec 8) (data : Word)
  | pghPtrLoCommit (p : Nat) (towardsA : Bool) (mid : BitVec 8) (data : Word)
  | pghAck (p : Nat) (mid : BitVec 8) (data : Word)
  | pghRing (p : Nat) (mid : BitVec 8) (data : Word)
  | pghPendClear (p : Nat) (mid : BitVec 8) (data : Word)
  | pghMaskWrite (p : Nat) (mid : BitVec 8) (data : Word)
  -- Steward, boot and power
  | info (p : Nat)
  | loadrpt (p : Nat)
  | power (p : Nat)
  | bootStepEnd (rep : BootReport)
  | bootStepTimeout (rep : BootReport)
  | stewardWatchdog
  | stewardHeartbeat
  | reboot
  | jrnlRetry
  | stwImgLoWrite (which : BitVec 2) (data : Word)
  | pwrCtrlTarget (data : Word)
  | n1Entry
  | autowake
  | n2Entry
  | n2EntryTimeout
  | n2Exit
  | n3Entry
  -- reliability
  | correctedError (cls : BitVec 3) (w : Wing) (unit : BitVec 10) (index : Word) (syn : Byte)
  | uncorrectableError (cls : BitVec 3) (w : Wing) (unit : BitVec 10) (index : Word) (syn : Byte) (site : UeSite)
  | ceSubWindowRoll (cls : BitVec 3)
  | laneSpareSwap (lane : Nat)
  | tagBankSwap (w : Wing) (bank : Nat)
  | relInjectArm (data : Word)
  | relCeCfgWrite (cls : BitVec 3) (data : Word)
  -- Tally
  | snap
  | clear
  | freeze (on : Bool)
  | tallyEdge
  | tallyRecord
  | snapshotTask (q : Nat)
  | tlySelWrite (u k : Nat) (hi : Bool) (data : Word)
  | tlyCcycLoRead
  | traceTimeMark (stall : Bool)
  | warmresetNAssert
  | memLinkAckFall (p : Nat)
  | linkDropTimeout (port : LinkPort)
  deriving DecidableEq, Repr

end Sys2Proof
end

