-- ==== Sys2Proof/WellFormed.lean ====
section
/-!
DEFINITION. Which commands can be formed at all: every number names a unit of the largest configuration point (R1,
R3, R9) and what arrives in one step is no longer than its format allows.
-/

namespace Sys2Proof

def laneOk (l : Nat) : Bool := decide (l < 64)
def queueOk (q : Nat) : Bool := decide (q < 64)
def mportOk (p : Nat) : Bool := decide (p < 16)
def cportOk (c : Nat) : Bool := decide (c < 32)
def xportOk (x : Nat) : Bool := decide (x < 4)
def tierOk (t : Nat) : Bool := decide (t < 8)
def semOk (i : Nat) : Bool := decide (i < 1536)
def pghOk (p : Nat) : Bool := decide (p < 64)
def ringOk (r : Nat) : Bool := decide (r < 1024)
def slotOk (slot : Nat) : Bool := decide (slot < 8)

/-- The payload of a parcel has at most 8,192 bytes (R67). -/
def Parcel.wf (p : Parcel) : Bool := decide (p.payload.length ≤ 8192)

/-- The number of a port in the link drop (R360). -/
def LinkPort.wf : LinkPort → Bool
  | .mem p => mportOk p
  | .client c => cportOk c
  | .remote x => xportOk x

/-- A command that can be formed. -/
def Instr.wf : Instr → Bool
  | .poresetNRelease _ _ | .poresetNAssert | .pllLock | .warmresetNRelease | .thermWarnEdge _ | .thermCritRise
  | .thermCritFall | .pmVlvlMatch | .pmVlvlTimeout _ | .pmLoadupHoldFall | .rampUnitEnable _ | .tapIdcode _
  | .cpaccUpdateDr _ _ | .cpaccCaptureDr _ | .registerWrite _ _ _ | .controlPortTimeout _ _ _ _ => true
  | .memLinkAckRise p | .memLinkAbsent p | .memCreditReturn p _ _ | .portArbitration p | .read p _ _ | .write p _ _
  | .writeFinal p _ _ | .atomicAddFp32 p _ _ | .atomicAddBf16 p _ _ | .writeDataBeat p _ _ _
  | .readResponseBeat p _ _ _ _ _ | .landedAck p _ _ _ | .memPortWatchdog p | .memLinkAckFall p
  | .larderWriteInvalidate p _ => mportOk p
  | .readWindowClose lane q => laneOk lane && queueOk q
  | .writeWindowClose lane _ => laneOk lane
  | .clientLinkUp c _ | .clientLinkDown c | .pushCreditReturn c _ | .pushBeat c | .pushLanded c _ _ _
  | .semiInc c _ _ _ | .semiDec c _ _ _ | .stallReport c _ _ => cportOk c
  | .missRequest _ | .missResponse _ _ _ _ _ _ | .missTimeout _ | .invalidationAccept _ _ _ _ _
  | .invalidationComplete _ => true
  | .remoteLinkUp x _ _ | .remoteLinkAbsent x | .remoteLinkDown x | .remoteCreditReturn x _ | .parcelSend x _ =>
    xportOk x
  | .lkupReq x p | .lkupRsp x p | .rwrite x p | .rwriteFinal x p | .rwLanded x p | .nack x p => xportOk x && p.wf
  | .parcelTimeout _ _ => true
  | .ltnReadyRise t | .ltnReadyTimeout t | .ltnReadyFall t | .tierReadData t _ _ _ => tierOk t
  | .corridorFlitArrival _ _ | .corridorReplay _ _ => true
  | .qctlCfgEn q _ | .qctlDoorbell q _ | .commandPrefetch q | .suspend q | .resume q | .replay q | .skip q
  | .retire q | .abort q | .suspensionComplete q | .preemptRelease q | .progressTimeout q | .stopComplete q
  | .retireComplete q | .run q | .taskComplete q | .signalCommand q | .waitCommand q | .fence q | .marker q
  | .nopCommand q | .lookup q | .update q | .tableRetire q | .versionRetired q
  | .larderCtlInvalidate q | .prewarm q | .backgroundStartAfterRun q | .ledgerBegin q | .ledgerCommit q
  | .ledgerRollback q | .snapshotTask q | .taskStart q | .tableBind q
  | .larderCtlPreload q => queueOk q
  | .commitQuiesced | .commitQuiescenceTimeout | .larderWindowClearDone | .rwtStagedWrite _ _ _ => true
  | .nopInstruction lane | .halt lane | .loop lane | .endl lane | .lcset lane | .lcadd lane | .arset lane | .aradd lane
  | .ixbind lane | .ixget lane | .ixseek lane | .claim lane | .publish lane | .take lane | .free lane
  | .waitInstruction lane | .signalInstruction lane | .drain lane | .move lane | .gather lane | .xpand lane
  | .reduce lane | .poolout lane | .xform lane | .org lane | .laneSwitch lane | .laneSpareSwap lane => laneOk lane
  | .indexWindowFetch lane slot ix => laneOk lane && slotOk slot && decide (ix < 4)
  | .instructionRetry lane slot | .finalMarking lane slot => laneOk lane && slotOk slot
  | .descriptorRead lane slot d => laneOk lane && slotOk slot && decide (d < 16)
  | .tileIssue lane hold => laneOk lane && (match hold with
      | none => true
      | some slot => slotOk slot)
  | .laggardTimeout g => decide (g < 64)
  | .slotPublished _ | .slotReleased _ | .signalRelease _ => true
  | .semaphoreGrant idx => semOk idx
  | .expanderBlockStart _ | .blockCheck _ | .blockExpand _ => true
  | .subWindowBuild _ _ | .subWindowPool _ _ | .subWindowFree _ _ | .updateSubWindow _ _
  | .larderProbe _ | .larderInstall _ | .promotionInstall _ | .loadWindowClose | .loadReport | .tteRecompute =>
    true
  | .ringHistory r => ringOk r
  | .semSetClrflags idx _ | .semSetSetcnt idx _ | .semSetSetown idx _ | .semSetRelease idx _ => semOk idx
  | .pghBind p _ _ | .pghPtrLoCommit p _ _ _ | .pghAck p _ _ | .pghRing p _ _ | .pghPendClear p _ _
  | .pghMaskWrite p _ _ | .info p | .loadrpt p | .power p => pghOk p
  | .bootStepEnd rep | .bootStepTimeout rep => decide (rep.seeds.length ≤ 64)
  | .stewardWatchdog | .stewardHeartbeat | .reboot | .jrnlRetry | .stwImgLoWrite _ _ | .pwrCtrlTarget _ | .n1Entry
  | .autowake | .n2Entry | .n2EntryTimeout | .n2Exit | .n3Entry => true
  | .correctedError _ _ _ _ _ | .uncorrectableError _ _ _ _ _ _ | .ceSubWindowRoll _ | .tagBankSwap _ _
  | .relInjectArm _ | .relCeCfgWrite _ _ => true
  | .snap | .clear | .freeze _ | .tallyEdge | .tallyRecord => true
  | .tlySelWrite u k _ _ => decide (u < 130) && decide (k < 16)
  | .tlyCcycLoRead | .traceTimeMark _ | .warmresetNAssert => true
  | .linkDropTimeout port => port.wf

end Sys2Proof
end

