-- ==== Sys2Proof/Decode.lean ====
section
/-!
DEFINITION. The commands have no words: no row of spec/opcode_table.json gives bits, because the block takes
operations and events at its ports and not encoded instructions. The formats that memory holds for the block (queue
commands, descriptors, itinerary words) are read in Machine/Operands.lean.
-/

namespace Sys2Proof

/-- The command a word spells by the table's bits: none, since no row gives bits. -/
def decodeTableWord (_nbits _w : Nat) : Option Instr := none

end Sys2Proof
end

