-- ==== Sys2Proof/Machine/State.lean ====
section
/-!
DEFINITION. The state of the block as plain data, and the state after reset. Control-port registers that hold
a written word stand in `regs`, by their offset in the window (R400); registers that only show other state are
composed from it when they are read (Machine/Registers.lean).
-/

namespace Sys2Proof.Machine

/-- Why a step stops with a fault. -/
inductive Fault where
  /-- Raised by CLAIM and TAKE on a Hall ring whose slot would lie beyond the wing's Hall (R182, R365): the address
  does not exist. No structure that boot step 7 or a COMMIT accepts leads here. Safe: the machine stops where the
  manual describes no storage. -/
  | hallAddress
  deriving DecidableEq, Repr

/-- Why a command has no meaning. -/
inductive Refusal where
  /-- Raised by an arm of `exec` whose command has no meaning in this model. Safe: nothing is claimed of it. -/
  | notModelled (mnemonic : String)
  deriving DecidableEq, Repr

/-- The three configuration points of R1. -/
inductive ConfigPoint where
  | s | m | x
  deriving DecidableEq, Repr, Inhabited

/-- Pins that a step has driven or sampled (R77-R83, R86). -/
structure Pins where
  poreset : Bool
  warmreset : Bool
  pllLocked : Bool
  devid : BitVec 6
  mfr : BitVec 11
  thermWarn : Bool
  thermCrit : Bool
  pmVreq : BitVec 2
  pmVlvl : BitVec 2
  loadup : Bool
  hold : Bool
  trcStall : Bool
  /-- Levels of IRQ0-IRQ7 that the always-on island holds in N2 (R388). -/
  irqHeld : Byte
  deriving DecidableEq, Repr, Inhabited

/-- The power states (R357). -/
inductive PwrState where
  | n0 | n1 | n2 | n3
  deriving DecidableEq, Repr, Inhabited

/-- What a power transition in progress waits for (R358-R360). -/
inductive PwrPhase where
  | rest
  | drainToN1
  | ramp (next : Nat)
  | n2Wait
  | linkDrop
  | retentionVolt
  | wakeVolt
  /-- The ports that the exit from N2 links up again. -/
  | linkUp (waits : List LinkPort)
  | offVolt
  deriving DecidableEq, Repr, Inhabited

/-- A POWER request of a pigeonhole that has not been answered yet (R348). -/
structure PowerReq where
  hole : Nat
  req : BitVec 512
  target : BitVec 2
  /-- Its state was reached; it is answered back in N0 or N1. -/
  reached : Bool
  deriving DecidableEq, Repr, Inhabited

structure Power where
  st : PwrState
  phase : PwrPhase
  running : Nat
  /-- The ccyc at which the next ramp unit may be enabled (R359). -/
  due : BitVec 48
  wakeAt : BitVec 48
  /-- ccyc of the present exit that passed without clocks, before `wakeAt` (R363). -/
  before : Nat
  /-- The ports whose links the entry into N2 lowered. -/
  lowered : List LinkPort
  reqs : List PowerReq
  deriving DecidableEq, Repr, Inhabited

/-- One boot step's journal entry (R353, R362), less its policy, which the configuration point fixes. -/
structure JEntry where
  path : BitVec 2
  outcome : BitVec 4
  fails : Nat
  pfailed : Bool
  attempts : Nat
  code : Byte
  deriving DecidableEq, Repr, Inhabited

/-- The Steward and the boot journal (R345-R356, R362). -/
structure Boot where
  stwState : BitVec 4
  step : Nat
  booting : Bool
  imgB : Bool
  bypass : Bool
  ready : Bool
  stwEpoch : BitVec 16
  lmEpoch : BitVec 16
  fwver : Word
  lmver : Word
  peerMin : BitVec 16
  peerMax : BitVec 16
  jrnl : Bank JEntry
  starts : Nat
  cause : BitVec 4
  lanesFailed : BitVec 64
  /-- STW_IMG_* and STW_BOOTASID, in retention SRAM (R354), by offset. -/
  ret : Bank Word
  heartbeat : Word
  served : Word
  discarded : Word
  /-- The pigeonhole served last (R348). -/
  lastPgh : Nat
  /-- Replies that wait until their requester's side has acknowledged: the pigeonhole and the physical address. -/
  replies : List (Nat × BitVec 52)
  deriving DecidableEq, Repr, Inhabited

/-- The TAP: its instruction register (R84), and what it holds of its last CPACC access (R85). -/
structure Tap where
  ir : Byte
  busy : Bool
  done : Bool
  rdata : Word
  err : BitVec 2
  deriving DecidableEq, Repr, Inhabited

/-- A command of a queue between HEAD and the published tail: fetched, started, completed or failed. -/
structure Cmd where
  idx : BitVec 16
  bytes : BitVec 512
  started : Bool
  done : Bool
  failed : Bool
  /-- Pages of its range that a PREWARM or INVALIDATE has handled (R201, R306). -/
  pages : Nat
  /-- It is still on its way over the Corridor to its queue's wing (R17, R403). -/
  crossing : Bool := false
  /-- Its read has not given its bytes. -/
  unread : Bool := false
  deriving DecidableEq, Repr, Inhabited

/-- What the translation fault log entry of a fault holds (R321). -/
structure LogInfo where
  acc : BitVec 2
  /-- The wing of the miss entry; `none` where the fault has none, and its bit is open (log 90). -/
  east : Option Bool
  shared : Bool
  page : BitVec 44
  asid : BitVec 16
  missId : BitVec 9
  ccyc : BitVec 48
  deriving DecidableEq, Repr, Inhabited

/-- What the fault record of a fault holds besides the command (R110-R112). -/
structure FaultInfo where
  status : Byte
  unit : Byte
  itin : Option Nat
  va : BitVec 56
  pa : BitVec 52
  detail : Word
  instr : Nat
  ccyc : BitVec 48
  log : Option LogInfo
  deriving DecidableEq, Repr, Inhabited

/-- A stop of a queue's work in progress (R107): the fault that caused it, the command that failed, whether a
RETIRE continues after it, and the further faults met (EXTRA). -/
structure Stop where
  fault : Option FaultInfo
  failed : Option (BitVec 16)
  retire : Bool
  extra : Nat
  /-- The entry of the translation fault log has been written or dropped, or is on its way (R321). -/
  logged : Bool := false
  deriving DecidableEq, Repr, Inhabited

/-- One unit's part of a fault record's snapshots (R110). -/
structure UnitSnap where
  issued : Nat
  done : Nat
  active : Bool
  mask : BitVec 16
  detail : Word
  deriving DecidableEq, Repr, Inhabited

/-- Where a task stands: its RUN has started and it is being read and checked (R405), it waits for resident slots (R100), it
waits for its Tally record (R397), it runs. -/
inductive TaskPhase where
  | waiting | placing | snapshot | running
  deriving DecidableEq, Repr, Inhabited

/-- The task of a queue (R98), with the virtual address of its descriptor. -/
structure Task where
  cmd : BitVec 16
  va : BitVec 56
  phase : TaskPhase
  hdr : BitVec 512
  rings : List (BitVec 64)
  links : List (BitVec 64)
  snapVa : BitVec 56
  order : Nat
  deriving DecidableEq, Repr, Inhabited

inductive QState where
  | idle | running | suspended | faulted | retiring
  deriving DecidableEq, Repr, Inhabited

/-- A hardware queue (R87-R108). Its writable registers stand in `State.regs`. -/
structure Queue where
  st : QState
  suspSw : Bool
  suspPre : Bool
  suspTherm : Bool
  /-- A suspension has been asked for and its boundaries are not reached yet (R103). -/
  suspending : Bool
  lastSt : Byte
  head : BitVec 16
  tail : BitVec 16
  seq : Word
  cmds : List Cmd
  task : Option Task
  stop : Option Stop
  snaps : Bank UnitSnap
  /-- Lane groups on which the current or most recent task placed itineraries (R201). -/
  groups : List Nat
  /-- Elapsed ccyc of the progress timer, and the TMO_EXP in force since it last restarted (R90, R106). -/
  timer : Nat
  tmo : Nat
  deriving DecidableEq, Repr, Inhabited

/-- Who waits on a semaphore: a WAIT command of a queue, an itinerary in a resident slot, or an itinerary whose CLAIM of a
multicast leader waits on every member's FREE_SEM (R197). -/
inductive SemWho where
  | command (q : Nat)
  | itin (lane slot : Nat)
  | group (lane slot ring : Nat)
  deriving DecidableEq, Repr, Inhabited

structure SemWaiter where
  who : SemWho
  q : Nat
  k : BitVec 20
  deriving DecidableEq, Repr, Inhabited

/-- A semaphore (R202) with the engine-side takes that wait on it, oldest first (R204). -/
structure Sem where
  count : BitVec 20
  owned : Bool
  owner : BitVec 6
  ovf : Bool
  unf : Bool
  poisoned : Bool
  waiters : List SemWaiter
  deriving DecidableEq, Repr, Inhabited

/-- Who made an increment of the present ccyc: the client, a SIGNAL command, or an itinerary of a queue's task, by the task's
place in the order of starts (R206). -/
inductive IncSource where
  | client
  | command (q : Nat)
  | itin (q num task : Nat)
  deriving DecidableEq, Repr, Inhabited

/-- What the present ccyc has seen at a semaphore or a pigeonhole: the latest place in the order of R205 or R341 that an
operation has taken, the increments made, and whether they have overflowed (R206). -/
structure Turn where
  rank : Nat
  incs : List IncSource
  overflowed : Bool
  deriving DecidableEq, Repr, Inhabited

/-- A message of the semaphore-out channel (R42): 0 INC, 1 POISON, 2 FAULT. -/
structure Semo where
  op : BitVec 2
  idx : BitVec 6
  cnt : BitVec 20
  deriving DecidableEq, Repr, Inhabited

/-- The positions and counts of a ring (R183), its drain history (R188, R192, R193) and the semaphore that moves
the HEAD of a client ring (R184). -/
structure Ring where
  claimp : Nat
  tail : Nat
  takep : Nat
  head : Nat
  occ : Nat
  avail : Nat
  claimed : Nat
  pair : Option Nat
  frees : List (BitVec 48)
  tte : Nat
  hist : Bool
  broken : Bool
  /-- ccyc at which the positions were last reset (R193). -/
  since : BitVec 48
  deriving DecidableEq, Repr, Inhabited

/-- A cached translation range (R308), in pages. -/
structure Range where
  asid : BitVec 16
  vstart : BitVec 44
  pages : Nat
  pbase : BitVec 40
  perm : BitVec 3
  deriving DecidableEq, Repr, Inhabited

/-- What a read of a unit is for: a front-end read for a queue's command, the arrays and tables of a batch, the rows of a
PRELOAD, a tensor descriptor of an itinerary, the rows of an LKUP_REQ that is served, a boot image, the request of a
pigeonhole, a granule to promote (R29, R404). -/
inductive Reader where
  | command (q : Nat) (idx : BitVec 16)
  | batch (id : Nat)
  | preload (q : Nat) (idx : BitVec 16)
  | desc (stream : Nat)
  | serve (id : Nat)
  | image
  | hole (p : Nat)
  | promotion (id : Nat)
  deriving DecidableEq, Repr, Inhabited

/-- The reads of one reader: the pieces asked for, the bytes returned and the pieces that failed with a status, by the
address the reader uses (virtual, or physical for the Steward). -/
structure Reading where
  id : Nat
  who : Reader
  stream : Nat
  away : List (Nat × Nat)
  got : List (Nat × List Byte)
  failed : List (Nat × Nat × Byte)
  deriving DecidableEq, Repr, Inhabited

/-- Who waits for a miss's answer: a tile, a reading with the address a fault of it is reported at and the piece it needs,
a PREWARM or an INVALIDATE (R317, R320). -/
inductive MissWho where
  | tile (id : Nat)
  | reader (id item va len : Nat)
  | prewarm (q : Nat) (idx : BitVec 16)
  | invalidate (q : Nat) (idx : BitVec 16)
  deriving DecidableEq, Repr, Inhabited

structure MissWaiter where
  who : MissWho
  q : Nat
  acc : BitVec 2
  deriving DecidableEq, Repr, Inhabited

/-- From which share of a wing's 256 miss entries an entry was taken (R315). -/
inductive MissHolder where
  | lane (g : Nat) | porter | frontEnd | pool | prewarm
  deriving DecidableEq, Repr, Inhabited

structure Miss where
  east : Bool
  n : BitVec 8
  asid : BitVec 16
  page : BitVec 44
  acc : BitVec 2
  pre : Bool
  sent : Bool
  /-- The invalidations of its ASID accepted since the request was sent: the first page and the number of pages of each
  (R64). -/
  crossed : List (Nat × Nat)
  waiters : List MissWaiter
  holder : MissHolder
  deriving DecidableEq, Repr, Inhabited

/-- An invalidation that has been accepted and not completed, with the requests and tiles it waits for (R63, R314). -/
structure Inval where
  id : BitVec 4
  all : Bool
  asid : BitVec 16
  va : BitVec 44
  len : BitVec 28
  reqs : List Nat
  tiles : List Nat
  deriving DecidableEq, Repr, Inhabited

/-- A slot obtained by CLAIM or TAKE. -/
structure HeldSlot where
  ring : Nat
  slot : Nat
  deriving DecidableEq, Repr, Inhabited

/-- The binding of one origin component (R156). -/
structure OrgBind where
  offset : BitVec 32
  useLc : Bool
  lc : Nat
  scale : BitVec 16
  deriving DecidableEq, Repr, Inhabited

/-- An index-stream cursor (R165, R166): its binding, its position and the 512-byte windows fetched, by address. -/
structure Cursor where
  bound : Bool
  desc : BitVec 1024
  delta : Int
  pos : Word
  wins : List (Nat × List Byte)
  fetching : List Nat
  deriving DecidableEq, Repr, Inhabited

inductive TileKind where
  | move | gather | pool | reduce | poolout | xpand | indexWin | rowGroup | bagGroup | updateRows
  deriving DecidableEq, Repr, Inhabited

/-- Of a row group of an UPDATE, the offset and the length of the optimiser state it uses, and whether it only adds to memory
(R289, R291). -/
structure RowOpt where
  ofs : Nat
  len : Nat
  adds : Bool
  deriving DecidableEq, Repr, Inhabited

/-- Where a tile stands (R177): in the lane's tile queue, in its itinerary's miss hold, issued. -/
inductive TileStage where
  | queued | held | issued
  deriving DecidableEq, Repr, Inhabited

/-- A page a tile's pre-check has covered (R312): the side, the virtual page and the physical page, with the first page and
the pages of the cached range that covered it (R314). -/
structure Cover where
  wr : Bool
  page : Nat
  ppage : Nat
  vstart : Nat
  pages : Nat
  deriving DecidableEq, Repr, Inhabited

/-- A tile in a lane's datapath (R178): what the transfer instruction or the Porter handed over, the pages the
pre-check covered, the units it still waits for and the bytes that have returned, by virtual address. -/
structure Tile where
  id : Nat
  /-- The itinerary, or the batch, whose tile it is. -/
  stream : Nat
  lane : Nat
  q : Nat
  num : Nat
  instr : Nat
  kind : TileKind
  stage : TileStage
  rd : Option (BitVec 1024)
  wd : Option (BitVec 1024)
  rdVa : Nat
  wdVa : Nat
  dr : Int
  dw : Int
  orgR : List Int
  orgW : List Int
  t0 : Nat
  t1 : Nat
  sel : Byte
  rows : List Int
  wgts : List Word
  mean : Bool
  keep : Bool
  slotR : Option HeldSlot
  slotW : Option HeldSlot
  /-- Cursor of an index window, or sub-window of a row group or bag group. -/
  ref : Nat
  members : List Nat
  cover : List Cover
  want : List (Nat × Nat)
  data : Bank Byte
  written : Bool
  /-- R225: are its writes final; none while the marking is undecided. -/
  final : Option Bool
  opt : RowOpt
  deriving DecidableEq, Repr, Inhabited

/-- A unit a tile needs: virtual address, physical address, length. -/
structure Need where
  tile : Nat
  va : Nat
  pa : Nat
  len : Nat
  shared : Bool
  deriving DecidableEq, Repr, Inhabited

/-- A lane's open read window for one queue (R180): its 512-byte base and the needs that joined it. -/
structure ReadWindow where
  q : Nat
  base : Nat
  needs : List Need
  deriving DecidableEq, Repr, Inhabited

/-- An enabled byte that a tile writes. -/
structure WByte where
  tile : Nat
  pa : Nat
  byte : Byte
  deriving DecidableEq, Repr, Inhabited

/-- An itinerary's open write window (R181): its 512-byte base, its opcode and the writes that joined it, in program
order. -/
structure WriteWindow where
  base : Nat
  op : BitVec 3
  writes : List WByte
  deriving DecidableEq, Repr, Inhabited

/-- A line of a lane's read cache (R222); `valid` has a bit for each quarter. -/
structure CacheLine where
  q : Nat
  base : Nat
  valid : BitVec 4
  bytes : List (Nat × Byte)
  shared : Bool
  deriving DecidableEq, Repr, Inhabited

inductive ItinStatus where
  | ready | blocked | taking
  deriving DecidableEq, Repr, Inhabited

/-- An itinerary is resident in a slot, set aside by a suspension (R103), or has ended while tiles of it are in
flight (R172). -/
inductive ItinPlace where
  | resident | aside | ended
  deriving DecidableEq, Repr, Inhabited

/-- An itinerary (R144): its program, its registers and what it holds. -/
structure Itin where
  stream : Nat
  q : Nat
  num : Nat
  lane : Nat
  slot : Nat
  place : ItinPlace
  pin : Option Nat
  status : ItinStatus
  /-- Its lane has selected it since it last became ready (R175). -/
  chosen : Bool
  prog : List (BitVec 64)
  pc : Nat
  lc : Bank Word
  lim : Bank Word
  ar : Bank (BitVec 56)
  ix : Bank Cursor
  org : Bank OrgBind
  sel : Byte
  /-- The accumulator: its width in program order, the addends of each element (their order is open, R160) and its row
  count. -/
  accW : Option Nat
  acc : Bank (List Word)
  accN : Nat
  heldW : Option HeldSlot
  heldR : Option HeldSlot
  dtb : BitVec 56
  descs : Bank (Option (BitVec 1024))
  wwin : Option WriteWindow
  deriving DecidableEq, Repr, Inhabited

structure Lane where
  /-- The itinerary it runs or ran last, by its stream, and the resident slot last selected (R175, R176). -/
  run : Option Nat
  slot : Nat
  /-- ccyc the running itinerary has run since it was selected (R175). -/
  ran : Nat
  /-- ccyc of a switch that are still to come (R175). -/
  switching : Nat
  tileq : List Nat
  rwins : List ReadWindow
  cache : List CacheLine
  /-- The rounding generator (R140). -/
  lfsr : Word
  gated : Bool
  deriving DecidableEq, Repr, Inhabited

/-- What a release raises once the tiles it covers have landed or, for a FREE, have been read (R169, R170, R220). -/
inductive RelKind where
  | signal (sem : Nat) (k : BitVec 20)
  | slotPublish (ring slot : Nat) (full : Option Nat)
  | slotFree (ring : Nat) (freeSem : Option Nat)
  deriving DecidableEq, Repr, Inhabited

structure Release where
  id : Nat
  q : Nat
  itin : Nat
  east : Bool
  kind : RelKind
  tiles : List Nat
  deriving DecidableEq, Repr, Inhabited

/-- From which share a read tag or tracker entry is taken (R179). -/
inductive Holder where
  | lane (n : Nat) | porter | expander | frontEnd
  deriving DecidableEq, Repr, Inhabited

/-- The categories of R189. -/
inductive Category where
  | read | write | remote
  deriving DecidableEq, Repr, Inhabited

/-- Where returned bytes go: a tile, a block of an Expander, or a reading, with the address a fault of it is reported at. -/
inductive Dest where
  | tile (id va pa len : Nat)
  | block (id off pa len : Nat)
  | fetch (id va pa len item : Nat)
  deriving DecidableEq, Repr, Inhabited

/-- A write request of an UPDATE row (R294): the row's address, the address a fault of the request is reported at, and the
number of the row's write requests. -/
structure RowPart where
  va : Nat
  item : Nat
  parts : Nat
  deriving DecidableEq, Repr, Inhabited

/-- A memory request waiting for its port or outstanding there (R22, R404). `bytes` are the enabled write bytes. -/
structure Req where
  id : Nat
  port : Nat
  op : BitVec 3
  pa : Nat
  len : Nat
  east : Bool
  asid : BitVec 16
  prio : BitVec 2
  cat : Category
  q : Option Nat
  holder : Holder
  stream : Nat
  ring : Option Nat
  dests : List Dest
  bytes : List (Nat × Byte)
  tiles : List Nat
  /-- The RWRITE parcel it belongs to, at a remote write receiver (R71). -/
  service : Option Nat
  /-- The tile whose undecided marking holds it back (R225). -/
  heldFor : Option Nat
  /-- The request slot it has been picked for (R190). -/
  slot : Option Nat
  /-- The record it is a part of. -/
  record : Option Nat := none
  row : Option RowPart := none
  /-- A final write that is an atomic add: it keeps its opcode and waits like WRITE_FINAL (R34, R225). -/
  final : Bool := false
  deriving DecidableEq, Repr, Inhabited

/-- What a record write is for and what it ends in: a completion record, with its IRQ flag and the MARKER that completes with it (R94, R96, R97),
a fault record (R110), an entry of the fault log (R321), a load report (R282), a Tally record of KIND 0 or of a queue's
SNAPSHOT task, with the physical and virtual pages it goes to (R396, R397), a Steward reply (R348). -/
inductive Note where
  | done (q : Nat) (irq : Bool) (marker : Option (BitVec 16))
  | fault (q : Nat)
  | log (q : Nat)
  | load
  | tally
  | snap (q : Nat) (pages : List (Nat × Nat))
  | reply (hole : Nat) (pa : BitVec 52)
  deriving DecidableEq, Repr, Inhabited

/-- A record being written: its requests that have not landed, and whether one of them failed. -/
structure Record where
  id : Nat
  note : Note
  left : List Nat
  bad : Bool
  deriving DecidableEq, Repr, Inhabited

/-- A write of a queue's stream that can no longer land (R35, R39, R225): a request, or a parcel to a device. -/
structure LostWrite where
  q : Nat
  stream : Nat
  id : Nat
  dev : Option Nat
  deriving DecidableEq, Repr, Inhabited

/-- An outstanding request with its tag (R27, R28). -/
structure OutReq where
  req : Req
  tag : BitVec 17
  seq : BitVec 16
  fromPool : Bool
  quarters : List (BitVec 2)
  beats : List (BitVec 2)
  dead : Bool
  probed : Bool
  acked : Bool
  deriving DecidableEq, Repr, Inhabited

structure MPort where
  linkReq : Bool
  linkAck : Bool
  /-- Recorded as absent (R40). -/
  absent : Bool
  reqCred : Nat
  wdCred : Nat
  /-- Fixed-split counters (R190). -/
  cntR : Int
  cntW : Int
  cntX : Int
  /-- Picks made since reset, modulo 8 (R191). -/
  picks : Nat
  deriving DecidableEq, Repr, Inhabited

/-- A slot fill towards a client (R43-R45): its bytes by client SRAM address and the beats not yet sent. -/
structure Fill where
  port : Nat
  ring : Nat
  slot : Nat
  q : Nat
  tile : Nat
  bytes : List (Nat × Byte)
  beats : List Nat
  begun : Bool
  deriving DecidableEq, Repr, Inhabited

structure CPort where
  linkReq : Bool
  linkAck : Bool
  credits : Nat
  fills : List Fill
  await : List Fill
  heldSemo : List Semo
  /-- The next link-up sequence carries POISONs (R211). -/
  poisonDue : Bool
  deriving DecidableEq, Repr, Inhabited

/-- A parcel waiting to be sent or being sent (R66). -/
structure TxParcel where
  port : Nat
  cls : Bool
  q : Option Nat
  parcel : Parcel
  /-- Flits not sent yet. -/
  flits : Nat
  begun : Bool
  stream : Nat
  /-- The tile whose undecided marking holds it back (R225). -/
  heldFor : Option Nat
  /-- Of a response, the port its request came in on (R73). -/
  answers : Option Nat := none
  deriving DecidableEq, Repr, Inhabited

/-- A request-class parcel whose response has not arrived (R68, R72). -/
structure OutParcel where
  id : Nat
  dst : BitVec 6
  pseq : Word
  port : Nat
  q : Nat
  parcel : Parcel
  stream : Nat
  tiles : List Nat
  sw : Option Nat
  parts : List Nat
  /-- The record, and the part of it, that it carries (R69, R397). -/
  record : Option (Nat × Nat) := none
  deriving DecidableEq, Repr, Inhabited

/-- An RWRITE being performed for another device (R71). -/
structure RemoteWrite where
  id : Nat
  port : Nat
  parcel : Parcel
  reqs : List Nat
  /-- The port it came in on has lost its link: its response is discarded (R73). -/
  mute : Bool
  deriving DecidableEq, Repr, Inhabited

structure XPort where
  linkReq : Bool
  linkAck : Bool
  absent : Bool
  cred0 : Nat
  cred1 : Nat
  tx : List TxParcel
  deriving DecidableEq, Repr, Inhabited

/-- A request-class parcel that arrived in N1 and is served once N0 is reached (R358). -/
structure HeldParcel where
  port : Nat
  parcel : Parcel
  /-- The port it came in on has lost its link: its response is discarded (R73). -/
  mute : Bool := false
  deriving DecidableEq, Repr, Inhabited

/-- An LKUP_REQ being served or waiting for its turn (R270): the ASID and the descriptor of the version it is served from,
once it has begun, the parts of the answer sent, and whether the port it came in on has lost its link. -/
structure Serve where
  id : Nat
  port : Nat
  parcel : Parcel
  version : Option (BitVec 16 × BitVec 512)
  sent : Nat
  asked : Bool
  mute : Bool
  deriving DecidableEq, Repr, Inhabited

structure Remote where
  ports : Bank XPort
  pseq : Bank Word
  outs : List OutParcel
  service : List RemoteWrite
  held : List HeldParcel
  serves : List Serve
  /-- Request-class credits that a full reply buffer holds back, by port (R270). -/
  owed : Bank Nat
  deriving DecidableEq, Repr, Inhabited

/-- A Larder probe in its wing: the granule, where its units go, the row it belongs to (its number in the tile or the parcel)
and the table it serves. A probe that has missed stays until every probe of its row is known, so that one request reads the
row (R267). `seen` is the directory row it compares with: not asked for, on its way, or come (R274). -/
structure Probe where
  east : Bool
  granule : Nat
  dests : List Dest
  row : Nat
  table : Nat
  mult : Nat
  missed : Bool
  seen : Option (Option (BitVec 1024)) := none
  deriving DecidableEq, Repr, Inhabited

/-- An access of a register through the control port or the TAP: a write with the master's identity and the data, or a read
(R56, R85). -/
structure CpAccess where
  write : Option (BitVec 8 × Word)
  off : Nat
  tap : Bool
  deriving DecidableEq, Repr, Inhabited

/-- An item crossing the Corridor (R403), with the queue whose traffic it is. -/
inductive CorItem where
  | request (r : Req)
  /-- A returned quarter; `whole` says that the request asked for all 128 bytes of it. -/
  | quarter (r : Req) (base : Nat) (data : BitVec 1024) (whole : Bool)
  /-- The acknowledgement of a write, and a push-landed for a tile's fill of a ring. -/
  | landed (r : Req)
  /-- A returned quarter, or an acknowledgement, that says the request failed, with the address concerned (R26). -/
  | rejected (r : Req) (st : BitVec 2) (pa : Nat)
  | pushed (q tile ring : Nat)
  /-- The answer of the client port to a fill that failed (R46). -/
  | pushFailed (q tile ring port : Nat)
  | fill (f : Fill)
  | parcel (x : TxParcel)
  /-- A response that came in at the other wing's port. -/
  | inbound (x : Nat) (q : Nat) (p : Parcel)
  | semInc (src : IncSource) (sem : Nat) (k : BitVec 20)
  | semTake (idx : Nat) (w : SemWaiter)
  /-- A take of the other wing has been granted, or has failed on a poisoned semaphore (R204, R214). -/
  | semGrant (idx : Nat) (w : SemWaiter)
  | semNotice (idx : Nat) (w : SemWaiter)
  /-- A command of an East queue (R91, R403). -/
  | command (q : Nat) (idx : BitVec 16)
  /-- A miss of the East wing towards the agent, and its answer (R9, R17). -/
  | missAsk (id : BitVec 9)
  | missAnswer (id : BitVec 9) (st : BitVec 2) (vstart : BitVec 44) (len : BitVec 28) (pbase : BitVec 40) (perm : BitVec 3)
  /-- A Porter's request for a row's granules that are homed in the other wing, whose Larder they probe (R16). -/
  | larderAsk (q : Option Nat) (ps : List Probe)
  /-- An access of a register of the East wing, and its answer with the word read (R9, R17, R400). -/
  | access (a : CpAccess)
  | accessDone (tap : Bool) (v : Word)
  /-- The Tally reader's read of an East unit's counter for the record of a snapshot, and its answer (R9, R396). -/
  | tallyRead (snap : Word) (i : Nat)
  | tallyAnswer (snap : Word) (i : Nat)
  deriving DecidableEq, Repr, Inhabited

/-- The Corridor (R17-R20): the items in flight by direction and class, oldest first; by direction and class, the flits of
the item at the head that have arrived and the consecutive failed replays of its next flit; and by direction, the place
of the weighted round robin between parcel and data flits. -/
structure Corridor where
  toEast : Bank (List CorItem)
  toWest : Bank (List CorItem)
  got : Bank Nat
  replays : Bank Nat
  robin : Bank Nat
  failed : Bool
  deriving DecidableEq, Repr, Inhabited

inductive VerState where
  | current | superseded | retiring
  deriving DecidableEq, Repr, Inhabited

/-- A live table version (R295, R296). -/
structure Version where
  epoch : Word
  st : VerState
  asid : BitVec 16
  desc : BitVec 512
  deriving DecidableEq, Repr, Inhabited

structure Table where
  slots : List Version
  last : Word
  retcnt : Word
  deriving DecidableEq, Repr, Inhabited

/-- A LOOKUP or UPDATE in progress (R259, R284), bound to its version (R298). -/
structure Batch where
  id : Nat
  q : Nat
  cmd : BitVec 16
  isUpdate : Bool
  east : Bool
  table : Nat
  epoch : Word
  desc : BitVec 512
  hdr : BitVec 512
  out : BitVec 1024
  total : Nat
  bags : Nat
  atIdx : Nat
  atBag : Nat
  built : Nat
  stream : Nat
  /-- Indices resolved for the sub-window being built and lines of the remap table read for it that the Porter's counters already
  hold (R392). -/
  counted : Nat
  lines : List Nat
  deriving DecidableEq, Repr, Inhabited

/-- A distinct row of a sub-window (R265): its owner, its multiplicity and, once fetched, its stored bytes. -/
structure PRow where
  owner : Nat
  row : Nat
  mult : Nat
  data : Option (List Byte)
  deriving DecidableEq, Repr, Inhabited

/-- A pair of a sub-window (R265): a bag, a distinct row, the bag's count of it and its weight sum. -/
structure PPair where
  bag : Nat
  row : Nat
  count : Nat
  wsum : Word
  deriving DecidableEq, Repr, Inhabited

structure SubWin where
  id : Nat
  batch : Nat
  east : Bool
  num : Nat
  firstBag : Nat
  bagN : List Nat
  rows : List PRow
  pairs : List PPair
  pooled : Bool
  /-- Bags handed to lanes in bag groups (R271), or rows of an UPDATE handed to them in row groups. -/
  given : Nat
  /-- Combined gradients of an UPDATE, by distinct row (R288). -/
  sums : List (List Word)
  deriving DecidableEq, Repr, Inhabited

/-- A 512-byte line of a remap table in a wing's remap cache (R263, R266). -/
structure RemapLine where
  east : Bool
  table : Nat
  epoch : Word
  line : Nat
  bytes : List Byte
  deriving DecidableEq, Repr, Inhabited

structure Porter where
  batches : List Batch
  subs : List SubWin
  /-- Most recently read first. -/
  remap : List RemapLine
  deriving DecidableEq, Repr, Inhabited

/-- A directory entry of the Larder (R274). -/
structure Way where
  valid : Bool
  heat : BitVec 2
  tag : BitVec 26
  deriving DecidableEq, Repr, Inhabited

/-- A read under way at a tier, of a way or of the directory row of a set, with the row as it stood when the sub-bank took the
command (R75). -/
structure TierRead where
  data : BitVec 1024
  tier : Nat
  row : Nat
  set : Nat
  way : Nat
  granule : Nat
  dests : List Dest
  /-- A probe's read of the directory row. -/
  dir : Bool := false
  deriving DecidableEq, Repr, Inhabited

/-- An install that reads its granule or has read it, and has not yet written the directory (R276, R277, R279). -/
structure Install where
  id : Nat
  east : Bool
  granule : Nat
  table : Nat
  dropped : Bool
  /-- The PRELOAD it belongs to; none for a promotion. -/
  preload : Option (Nat × BitVec 16) := none
  deriving DecidableEq, Repr, Inhabited

/-- The counts of a table in one wing in the current load window (R281, R282). -/
structure LoadCount where
  fetch : Nat
  mult : Nat
  served : Nat
  hits : Nat
  promoted : Nat
  demoted : Nat
  deriving DecidableEq, Repr, Inhabited

/-- A load report that has fallen due (R282): its window, its end and the counts captured. -/
structure DueReport where
  window : Nat
  ccyc : BitVec 48
  winExp : Nat
  counts : Bank LoadCount
  /-- Current epochs of the tables counted, in order. -/
  epochs : List Word
  deriving DecidableEq, Repr, Inhabited

structure Larder where
  /-- The directory, by set number (East sets from 2^19), then by way. -/
  dir : Bank (Bank Way)
  /-- Data ways, by tier x 2^22 + tier row. -/
  rows : Bank (BitVec 1024)
  /-- Tiers that have raised LTn_READY, and tiers that have failed or are mapped out until reset (R76). -/
  tiersUp : Byte
  tiersOut : Byte
  probes : List Probe
  reads : List TierRead
  installs : List Install
  /-- Promotion queues: granule, and the table whose lookup posted it. -/
  promoW : List (Nat × Nat)
  promoE : List (Nat × Nat)
  est : Bank Nat
  posted : List (Nat × Nat)
  counts : Bank LoadCount
  due : Option DueReport
  windows : Nat
  /-- End of the present load window and its exponent; none until the first window has ended (R281). -/
  window : Option (Nat × Nat)
  /-- LOADRPT requests not yet in effect, with their replies: pigeonhole, request, address (R282, R348). -/
  newAddrs : List (Nat × BitVec 512 × BitVec 52)
  offSets : List Nat
  offWays : List (Nat × Nat)
  clearing : Bool
  deriving DecidableEq, Repr, Inhabited

inductive BlockStage where
  | accepted | header | payload | checked
  /-- It has failed a check, with the status; its task aborts in the blocks' start order (R245). -/
  | failed (st : Byte)
  deriving DecidableEq, Repr, Inhabited

/-- A low-rank block in an Expander (R244). -/
structure Block where
  id : Nat
  east : Bool
  tile : Nat
  q : Nat
  itin : Nat
  va : BitVec 56
  resv : Nat
  stage : BlockStage
  units : Nat
  want : List Nat
  data : Bank Byte
  poison : Bool
  /-- Its queue's work has stopped; it holds its buffer units until its reads have returned (R249). -/
  dropped : Bool := false
  deriving DecidableEq, Repr, Inhabited

inductive LedgerState where
  | closed | opened | committing
  deriving DecidableEq, Repr, Inhabited

structure Ledger where
  st : LedgerState
  staged : List (Nat × Word)
  txn : Word
  owner : Byte
  overflow : Bool
  cmd : BitVec 16
  clearing : Bool
  deriving DecidableEq, Repr, Inhabited

/-- State of a tag bank (R384). -/
inductive BankState where
  | inUse | draining | outOfUse
  deriving DecidableEq, Repr, Inhabited

structure Rel where
  /-- Eight sub-window counts of a repair unit, newest first, by class, wing and unit (R381). -/
  counts : Bank (List Nat)
  /-- The Larder rows tracked, most recent event last. -/
  tracked : List Nat
  /-- ccyc at which a class's sub-window last ended. -/
  rolled : Bank Nat
  lanesOut : BitVec 64
  /-- Lanes that are to be replaced and take no itinerary any more (R383). -/
  lanesWait : List Nat
  /-- Spare lanes in use by wing, a bit for each. -/
  laneSpares : Bank (BitVec 2)
  tagSpare : Bank Bool
  /-- By bank, East from 8. -/
  tagBanks : Bank BankState
  /-- Spare rows in use, by tier x 8 + sub-bank (R385). -/
  rowSpares : Bank Nat
  /-- Repair units that hold an injected flipped word, by class, wing and unit; the flag says that two bits are flipped
  (R386). -/
  flips : List (Nat × Bool × Nat × Bool)
  /-- Range cache entries out of use, as cache x 4,096 + entry; caches 0-7 are the L1s, 8 and 9 the L2s. -/
  cacheOff : List Nat
  deriving DecidableEq, Repr, Inhabited

/-- What a Tally edge is asked for: a snapshot for TLY_CTRL, with a record or without, or for a queue's SNAPSHOT task; a
clear; a freeze change (R394). -/
inductive TallyAsk where
  | snap (dump : Bool)
  | user (q : Nat)
  | clear
  | freeze (on : Bool)
  deriving DecidableEq, Repr, Inhabited

/-- A request with its edge's ccyc; none while a record is being written. -/
structure TallyReq where
  ask : TallyAsk
  due : Option Nat
  deriving DecidableEq, Repr, Inhabited

/-- A Tally record waiting to be written (R396, R397). `left` are the counters of East units whose reads have not been answered,
none before the reader has asked for them; `lost` are those that the Corridor's failure has cut off. -/
structure TallyRec where
  q : Option Nat
  frozen : Bool
  left : Option (List Nat) := none
  lost : List Nat := []
  deriving DecidableEq, Repr, Inhabited

structure Tally where
  cnt : Bank Nat
  /-- Occurrences in the present cycle, by counter (R391). -/
  occ : Bank Nat
  shadow : Bank Nat
  frozen : Bool
  reqs : List TallyReq
  snapSeq : Word
  snapCcyc : BitVec 48
  record : Option TallyRec
  trace : List (BitVec 128)
  deriving DecidableEq, Repr, Inhabited

/-- A pigeonhole (R331-R339). -/
structure Pgh where
  bind : Word
  unreadA : Bool
  unreadB : Bool
  abLo : Word
  abHi : Word
  baLo : Word
  baHi : Word
  pend : Word
  mask : Word
  deriving DecidableEq, Repr, Inhabited

/-- An item the block has driven at a port in a step. -/
inductive Out where
  | memReq (port : Nat) (slot : BitVec 2) (op : BitVec 3) (pa len : Nat) (tag : BitVec 17) (asid : BitVec 16) (prio : BitVec 2) (seq : BitVec 16)
  | memData (port : Nat) (slot : BitVec 1) (tag : BitVec 17) (ofs : BitVec 2) (bytes : List (Nat × Byte))
  | push (port ring slot addr : Nat) (last : Bool) (bytes : List (Nat × Byte))
  | semo (port : Nat) (m : Semo)
  | cause (port : Nat) (code : BitVec 3)
  | missReq (id : BitVec 9) (va : BitVec 44) (asid : BitVec 16) (acc : BitVec 2) (pre : Bool)
  | invDone (id : BitVec 4)
  | flits (port : Nat) (cls : Bool) (flits : List (List Byte))
  | flitCredits (port : Nat) (cls : Bool) (n : Nat)
  | tierRead (tier row : Nat)
  | tierWrite (tier row : Nat) (data : BitVec 1024) (chk : BitVec 128)
  | cpResponse (err : BitVec 2) (rdata : Word)
  | tdo (nbits : Nat) (bits : BitVec 64)
  | trace (packet : BitVec 128)
  deriving DecidableEq, Repr

/-- The state of the block. -/
structure State where
  /-- The commands that wait, first in, first out. -/
  pending : List Instr
  cfg : ConfigPoint
  pins : Pins
  /-- Control-port registers that hold a written word, by offset; `none` is the reset value. -/
  regs : Bank (Option Word)
  /-- TLY_CCYC, and the upper bits that a read of its low half latched (R393). -/
  ccyc : BitVec 48
  ccycLatch : BitVec 16
  power : Power
  boot : Boot
  tap : Tap
  /-- Accepted requests of the control port without a response, oldest first: one that crosses the Corridor, or a response that
  waits behind one (R55). -/
  cpWaits : List (Option (BitVec 2 × Word))
  queues : Bank Queue
  /-- Pre-emptions in force: the class-0 queue and the queue it suspended, in order (R102). -/
  preempted : List (Nat × Nat)
  /-- A number for the next started task, tile, request, release, block, batch or stream. -/
  nextId : Nat
  /-- Requests issued by each stream, modulo 2^16 (R29). -/
  seqs : Bank (BitVec 16)
  sems : Bank Sem
  /-- What the present ccyc has seen at each semaphore, and, from 2,000, at each pigeonhole (R205, R206, R341). -/
  turns : Bank Turn
  /-- INC messages that leave in the ccyc after their increments: the semaphore and the amount, oldest first; none for the INC
  after a FAULT, which carries the COUNT of that ccyc (R209). -/
  incsDue : List (Nat × Option (BitVec 20))
  rings : Bank Ring
  /-- Elapsed ccyc of a multicast group's laggard condition while it holds (R198, R199). -/
  lag : Bank (Option Nat)
  lanes : Bank Lane
  itins : List Itin
  tiles : List Tile
  releases : List Release
  mports : Bank MPort
  waiting : List Req
  outs : List OutReq
  /-- Writes that can no longer land, while their queue's stop goes on (R35, R225). -/
  lost : List LostWrite
  /-- Reads of the front end, the Porter, the Steward and of tensor descriptors (R29, R404). -/
  readings : List Reading
  records : List Record
  cports : Bank CPort
  l1 : Bank (List Range)
  l2 : Bank (List Range)
  misses : List Miss
  invals : List Inval
  remote : Remote
  corridor : Corridor
  tables : Bank Table
  porter : Porter
  larder : Larder
  blocks : List Block
  /-- The Halls' bytes, by address (East from 2^26). -/
  hall : Bank Byte
  ledger : Ledger
  rel : Rel
  tally : Tally
  pghs : Bank Pgh
  /-- The model's own: what the block has driven at its ports, newest first (log 6). -/
  out : List Out
  /-- The model's own: the counter the free values are taken at (log 3). -/
  free : Nat
  deriving DecidableEq, Repr

/-- The block while PORESET_N is asserted: every state at reset (R78, R202, R295, and the Reset columns of the
register tables), nothing pending. The configuration point is NRK3-X, the one R2 takes where none is named (log 2). -/
def State.reset : State where
  pending := []
  cfg := .x
  pins := { (default : Pins) with poreset := true, pmVreq := 2#2 }
  regs := .empty
  ccyc := 0
  ccycLatch := 0
  power := default
  boot := default
  tap := { (default : Tap) with ir := 0x01#8 }
  cpWaits := []
  queues := .empty
  preempted := []
  nextId := 1
  seqs := .empty
  sems := .empty
  turns := .empty
  incsDue := []
  rings := .empty
  lag := .empty
  lanes := .empty
  itins := []
  tiles := []
  releases := []
  mports := .empty
  waiting := []
  outs := []
  lost := []
  readings := []
  records := []
  cports := .empty
  l1 := .empty
  l2 := .empty
  misses := []
  invals := []
  remote := default
  corridor := default
  tables := .empty
  porter := default
  larder := default
  blocks := []
  hall := .empty
  ledger := default
  rel := default
  tally := default
  pghs := .empty
  out := []
  free := 0

end Sys2Proof.Machine
end

