-- ==== Sys2Proof/Machine/Params.lean ====
section
/-!
DEFINITION. What a configuration point fixes (R1, R3), and which wing owns which unit (R9).
-/

namespace Sys2Proof.Machine

/-- The three outcomes of a command. -/
abbrev Res := Host.Outcome State Fault Refusal

def ConfigPoint.twoWings : ConfigPoint → Bool
  | .x => true
  | _ => false

def ConfigPoint.lanes : ConfigPoint → Nat
  | .s => 8 | .m => 32 | .x => 64

def ConfigPoint.mports : ConfigPoint → Nat
  | .s => 2 | .m => 8 | .x => 16

def ConfigPoint.cports : ConfigPoint → Nat
  | .s => 4 | .m => 16 | .x => 32

def ConfigPoint.xports : ConfigPoint → Nat
  | .s => 1 | .m => 2 | .x => 4

def ConfigPoint.tiers : ConfigPoint → Nat
  | .s => 0 | .m => 4 | .x => 8

def ConfigPoint.queues : ConfigPoint → Nat
  | .s => 16 | .m => 32 | .x => 64

def ConfigPoint.sems : ConfigPoint → Nat
  | .s => 192 | .m => 768 | .x => 1536

/-- Lanes of one wing. -/
def ConfigPoint.wingLanes : ConfigPoint → Nat
  | .s => 8 | _ => 32

/-- Bytes of one wing's Hall. -/
def ConfigPoint.hallBytes : ConfigPoint → Nat
  | .s => 12 * 2 ^ 20 | _ => 48 * 2 ^ 20

/-- Read tags of one wing (R27), and tag banks of 8,192 among them (R381). -/
def ConfigPoint.wingTags : ConfigPoint → Nat
  | .s => 16384 | _ => 65536

def ConfigPoint.tagBanks : ConfigPoint → Nat
  | .s => 2 | _ => 8

/-- Spare lanes and spare tag banks per wing (R402). -/
def ConfigPoint.laneSpares : ConfigPoint → Nat
  | .s => 0 | .m => 1 | .x => 2

def ConfigPoint.tagSpares : ConfigPoint → Nat
  | .s => 0 | _ => 1

/-- Ramp units: lane groups, then Expanders (R359). -/
def ConfigPoint.laneGroups : ConfigPoint → Nat
  | .s => 1 | .m => 4 | .x => 8

def ConfigPoint.expanders : ConfigPoint → Nat
  | .x => 2 | _ => 1

/-- Distinct rows of a sub-window: 2^12 or 2^14 (R283). -/
def ConfigPoint.winRows : ConfigPoint → Nat
  | .s => 4096 | _ => 16384

/-- Bytes of a wing's lookup store (R266, R283). -/
def ConfigPoint.storeBytes : ConfigPoint → Nat
  | .s => 4 * 2 ^ 20 | _ => 16 * 2 ^ 20

/-- Shadow of `Wing`: is it the East one. -/
def wingEast : Wing → Bool
  | .west => false
  | .east => true

def laneEast (lane : Nat) : Bool := decide (32 ≤ lane)
def mportEast (p : Nat) : Bool := decide (8 ≤ p)
def cportEast (c : Nat) : Bool := decide (16 ≤ c)
def xportEast (x : Nat) : Bool := decide (2 ≤ x)
def tierEast (t : Nat) : Bool := decide (4 ≤ t)
def semEast (i : Nat) : Bool := decide (768 ≤ i)

/-- The wing exists in the configuration point. -/
def ConfigPoint.hasWing (c : ConfigPoint) (east : Bool) : Bool := !east || c.twoWings

/-- First lane of a wing. -/
def wingLane0 (east : Bool) : Nat := if east then 32 else 0

/-- A step whose own conditions do not hold does not take place (log 1). -/
def whenever (c : Bool) (s : State) (t : State → State) : Res := .next (if c then t s else s)

/-- A free number below `n` (log 3): one of the values the manual allows. -/
def State.freeBelow (s : State) (n : Nat) : Nat := Config.freeNat s.free % n

/-- The counter of the free values moves on. -/
def State.tick (s : State) : State := { s with free := s.free + 1 }

/-- The block drives an item at a port. -/
def State.drive (s : State) (o : Out) : State := { s with out := o :: s.out }

/-- A number for a new item. -/
def State.bump (s : State) : State := { s with nextId := s.nextId + 1 }

/-- The naturally aligned units of `w` bytes that hold `n` bytes from `a`. -/
def unitsOf (w a n : Nat) : List (Nat × Nat) :=
  (List.range ((a + n - 1) / w - a / w + 1)).map (fun i => ((a / w + i) * w, w))

/-- Keep the first of each. -/
def firsts {α : Type} [BEq α] (l : List α) : List α :=
  (l.foldl (fun a x => match a with
    | y :: _ => if y == x || a.contains x then a else x :: a
    | [] => [x]) []).reverse

/-- Kinds that belong to an itinerary's program order. -/
def TileKind.ordered : TileKind → Bool
  | .move | .gather | .pool | .reduce | .poolout | .xpand => true
  | .indexWin | .rowGroup | .bagGroup | .updateRows => false

end Sys2Proof.Machine
end

