-- ==== Sys2Proof/Machine/Layout.lean ====
section
/-!
DEFINITION. The control-port address map (R400): where each register stands, what the registers that hold a written
word read at reset, and how the state holds and sets them.
-/

namespace Sys2Proof.Machine

/-- Bits [lo+len-1:lo] of a word, as a number. -/
def bits {n : Nat} (w : BitVec n) (lo len : Nat) : Nat := (w.toNat / 2 ^ lo) % 2 ^ len

/-- A bit of a word. -/
def bitAt {n : Nat} (w : BitVec n) (i : Nat) : Bool := w.getLsbD i

/-- A word with one bit set. -/
def oneBit (i : Nat) : Word := BitVec.ofNat 32 (2 ^ i)

/-- A word with bits [lo+len-1:lo] set. -/
def maskBits (lo len : Nat) : Word := BitVec.ofNat 32 ((2 ^ len - 1) * 2 ^ lo)

/-- `n` brought into the range from `lo` to `hi` (the 'act as' clauses of exponent fields). -/
def clampTo (lo hi n : Nat) : Nat := if n < lo then lo else if hi < n then hi else n

/-- Word made of fields: value and position of each. -/
def packWord (fs : List (Nat × Nat)) : Word := BitVec.ofNat 32 (fs.foldl (fun a f => a + f.1 * 2 ^ f.2) 0)

-- Offsets of single registers.
def offIdDevice : Nat := 0x000010
def offSemEvents : Nat := 0x040000
def offXltTmo : Nat := 0x080000
def offXltEvents : Nat := 0x080004
def offFlogLo : Nat := 0x080020
def offFlogHi : Nat := 0x080024
def offFlogWp : Nat := 0x080028
def offXroute (i : Nat) : Nat := 0x0A0100 + 4 * i
def offXtmo : Nat := 0x0A0110
def offLoadrptLo : Nat := 0x0A0200
def offLoadrptHi : Nat := 0x0A0204
def offLoadEvents : Nat := 0x0A0208
def offLrdCtrl : Nat := 0x0D0000
def offLrdPromo (east : Bool) : Nat := if east then 0x0D001C else 0x0D0018
def offLrdPqdrop : Nat := 0x0D0020
def offLrdBase (n : Nat) : Nat := 0x0D0100 + 8 * n
def offLrdLim (n : Nat) : Nat := 0x0D0104 + 8 * n
def offPghEvents : Nat := 0x0E0000
def offPghLasterr : Nat := 0x0E0004
def offTlyCtrl : Nat := 0x0F0000
def offTlyStatus : Nat := 0x0F0004
def offTlyCcycLo : Nat := 0x0F0014
def offTlyDumpLo : Nat := 0x0F0020
def offTlyDumpHi : Nat := 0x0F0024
def offTlyUmask (w : Nat) : Nat := 0x0F0040 + 4 * w
def offTlyTrace : Nat := 0x0F0080
def offTlyTraceDrop : Nat := 0x0F0084
def offLdgStatus : Nat := 0x100000
def offLdgResult : Nat := 0x100008
def offLdgEvents : Nat := 0x10000C
def offLdgCounts : Nat := 0x100010
def offLdgCtrl : Nat := 0x100014
def offLdgImgid : Nat := 0x100018
def offLdgClientmap : Nat := 0x100100
def offLdgQwing (hi : Nat) : Nat := 0x100104 + 4 * hi
def offLdgIlv : Nat := 0x100110
def offLdgTiers : Nat := 0x100114
def offLdgSpare : Nat := 0x100118
def offLdgPool (east : Bool) (k : Nat) : Nat := (if east then 0x100210 else 0x100200) + 4 * k
def offStwStatus : Nat := 0x110000
def offStwEvents : Nat := 0x110004
def offStwCtrl : Nat := 0x110008
/-- STW_IMG_A, _B, _LM, _STRUCT: the _LO register; _HI follows it. -/
def offStwImg (which : Nat) : Nat := 0x110020 + 8 * which
def offStwBootasid : Nat := 0x110040
def offStwJrnl (n : Nat) : Nat := 0x110180 + 4 * n
def offStwFwinfo (n : Nat) : Nat := 0x118000 + 4 * n
def offPwrCtrl : Nat := 0x120000
def offPwrEvents : Nat := 0x120008
def offPwrWakecyc : Nat := 0x12000C
def offRelEvents : Nat := 0x130000
def offCeCfg (c : Nat) : Nat := 0x130010 + 4 * c
def offCeTotal (c : Nat) : Nat := 0x130030 + 4 * c
def offUeTotal : Nat := 0x130048
def offLastCe0 : Nat := 0x130050
def offLastCe1 : Nat := 0x130054
def offLastUe0 : Nat := 0x130058
def offLastUe1 : Nat := 0x13005C
def offRelInject : Nat := 0x130070
def offMportWdog : Nat := 0x130400
def offMportFailed : Nat := 0x130404
def offMportLink : Nat := 0x130408
def offCportLink : Nat := 0x13040C
def offXportLink : Nat := 0x130410
def offIrqForce : Nat := 0x14000C
def offIrqScfg (n : Nat) : Nat := 0x140100 + 4 * n
def offIrqQcfg (q : Nat) : Nat := 0x140200 + 4 * q

-- Offsets in repeated sets.
def offQ (q o : Nat) : Nat := 0x011000 + 0x80 * q + o
def offSemFlag (w : Nat) : Nat := 0x040100 + 4 * w
def offSemState (i : Nat) : Nat := 0x041000 + 8 * i
def offRingArb (east : Bool) : Nat := if east then 0x060004 else 0x060000
def offRing (r o : Nat) : Nat := 0x061000 + 0x20 * r + o
def offMg (g o : Nat) : Nat := 0x069000 + 0x10 * g + o
def offTbl (t o : Nat) : Nat := 0x0B0000 + 0x10 * t + o
def offExp (east : Bool) (o : Nat) : Nat := (if east then 0x0C1000 else 0x0C0000) + o
def offPgh (p o : Nat) : Nat := 0x0E1000 + 0x40 * p + o
def offTly (u o : Nat) : Nat := 0x0F1000 + 0x100 * u + o

-- Offsets within a queue's registers (R89).
def qCringLo : Nat := 0x00
def qCringHi : Nat := 0x04
def qCfg : Nat := 0x08
def qTmo : Nat := 0x0C
def qDoorbell : Nat := 0x10
def qPtrs : Nat := 0x14
def qStatus : Nat := 0x18
def qAction : Nat := 0x1C
def qCrecLo : Nat := 0x20
def qCrecHi : Nat := 0x24
def qFrecLo : Nat := 0x28
def qFrecHi : Nat := 0x2C
def qSeq : Nat := 0x30
def qEvents : Nat := 0x34

/-- An offset inside the per-queue registers. -/
def inQueues (off : Nat) : Bool := decide (0x011000 ≤ off) && decide (off < 0x013000)

/-- The word a register that holds a written word reads before anything has written it: the Reset column of its
table. The registers the structure image sets read 0 before the image loads (log 8). -/
def regReset (off : Nat) : Word :=
  if inQueues off then
    match (off - 0x011000) % 0x80 with
    | 0x04 => 0x04000000#32
    | 0x08 => 0x03FE0000#32
    | 0x0C => 24#32
    | 0x24 => 0x40000000#32
    | _ => 0#32
  else if decide (0x130010 ≤ off) && decide (off < 0x130028) then 0x00001018#32
  else
    match off with
    | 0x080000 => 18#32
    | 0x080024 => 0x60000000#32
    | 0x0A0110 => 20#32
    | 0x0D0000 => 0x98000040#32
    | 0x100014 => 20#32
    | 0x120000 => 0x80000000#32
    | 0x130400 => 20#32
    | _ => 0#32

/-- The word a register holds. -/
def State.reg (s : State) (off : Nat) : Word := (s.regs.get off).getD (regReset off)

/-- Put a word into a register. A word equal to the reset value is not listed, so that equal registers are equal
data. -/
def State.setReg (s : State) (off : Nat) (v : Word) : State :=
  { s with regs := s.regs.set off (if v = regReset off then none else some v) }

/-- A field of a register. -/
def State.fld (s : State) (off lo len : Nat) : Nat := bits (s.reg off) lo len

/-- A one-bit field of a register. -/
def State.flag (s : State) (off i : Nat) : Bool := bitAt (s.reg off) i

/-- Set bits of a register. -/
def State.setBits (s : State) (off : Nat) (m : Word) : State := s.setReg off (s.reg off ||| m)

/-- Clear bits of a register. -/
def State.clearBits (s : State) (off : Nat) (m : Word) : State := s.setReg off (s.reg off &&& ~~~m)

/-- Set or clear one bit of a register. -/
def State.putBit (s : State) (off i : Nat) (v : Bool) : State :=
  if v then s.setBits off (oneBit i) else s.clearBits off (oneBit i)

/-- Replace the bits of a register that a mask selects. -/
def State.putMasked (s : State) (off : Nat) (m v : Word) : State :=
  s.setReg off ((s.reg off &&& ~~~m) ||| (v &&& m))

/-- Add to a counter held in bits [lo+len-1:lo] of a register, saturating. -/
def State.countReg (s : State) (off lo len n : Nat) : State :=
  s.setReg off ((s.reg off &&& ~~~(maskBits lo len)) |||
    BitVec.ofNat 32 (min (2 ^ len - 1) (s.fld off lo len + n) * 2 ^ lo))

-- Configuration of a queue.
def State.qEn (s : State) (q : Nat) : Bool := s.flag (offQ q qCfg) 31
def State.qAsid (s : State) (q : Nat) : BitVec 16 := BitVec.ofNat 16 (s.fld (offQ q qCfg) 0 16)
def State.qPrio (s : State) (q : Nat) : BitVec 2 := BitVec.ofNat 2 (s.fld (offQ q qCfg) 16 2)
def State.qMaxOut (s : State) (q : Nat) : Nat := s.fld (offQ q qCfg) 18 9 + 1
def State.qTallyUser (s : State) (q : Nat) : Bool := s.flag (offQ q qCfg) 30
def State.qRingN (s : State) (q : Nat) : Nat := 2 ^ s.fld (offQ q qCringHi) 24 5

/-- The block is in ROM recovery mode (R355). -/
def State.recovery (s : State) : Bool := s.boot.stwState == 3#4

/-- QCTL_CFG.WING (R364): the queue's LDG_QWING bit. -/
def State.qEast (s : State) (q : Nat) : Bool := s.flag (offLdgQwing (q / 32)) (q % 32)

/-- Virtual address of command `idx` of a queue (R91). -/
def State.cmdVa (s : State) (q : Nat) (idx : BitVec 16) : BitVec 56 :=
  BitVec.ofNat 56 (s.fld (offQ q qCringHi) 0 24 * 2 ^ 32 + (s.reg (offQ q qCringLo)).toNat + 64 * idx.toNat)

/-- The block's device number (R69). -/
def State.devid (s : State) : Nat := s.pins.devid.toNat

/-- The device a physical address belongs to (R69). -/
def paDevice (pa : Nat) : Nat := (pa / 2 ^ 46) % 64

/-- The block is in reset: PORESET_N or WARMRESET_N is asserted. -/
def State.inReset (s : State) : Bool := s.pins.poreset || s.pins.warmreset

/-- Every clock outside the always-on island is stopped: in N2, and from the end of the entry into it until the clocks
restart (R360). -/
def State.clocksStopped (s : State) : Bool :=
  s.power.st == .n2 || s.power.phase == .retentionVolt

/-- The block runs: out of reset, its PLL locked, and its clocks not stopped (R357, R360). -/
def State.alive (s : State) : Bool :=
  !s.inReset && s.pins.pllLocked && !s.clocksStopped && s.power.st != .n3

/-- THERM_CRIT suspends the queues and gates the lanes: in N0; in N1 and N2 when the lanes next run (R83, R361). -/
def State.thermalStop (s : State) : Bool := s.pins.thermCrit && s.power.st == .n0

/-- Boot step 16 has passed (R352). -/
def State.ready (s : State) : Bool := s.boot.ready

/-- The Steward runs (R346). -/
def State.stwRunning (s : State) : Bool := s.boot.stwState == 2#4

end Sys2Proof.Machine
end

