-- ==== Sys2Proof/Machine/Flags.lean ====
section
/-!
DEFINITION. Event bits and the interrupt lines they drive (R77, R387, R388), and the doorbell outputs (R340).
-/

namespace Sys2Proof.Machine

/-- REL_EVENTS as it reads: two of its bits show other registers (R386). -/
def State.relEvents (s : State) : Word :=
  s.reg offRelEvents ||| (if s.flag offPwrEvents 2 then oneBit 6 else 0#32) |||
    (if s.flag offStwEvents 2 then oneBit 5 else 0#32)

/-- The event register of an interrupt source, less the bits its MASK cannot select (R387). -/
def State.irqEvents (s : State) : Nat → Word
  | 0 => s.relEvents &&& 0x0FFF#32
  | 1 => s.reg offPwrEvents &&& 0x00FB#32
  | 2 => s.reg offStwEvents &&& 0x000B#32
  | 3 => s.reg offSemEvents &&& 0x000F#32
  | 4 => s.reg offXltEvents &&& 0x0007#32
  | 5 => s.reg offLoadEvents &&& 0x0003#32
  | 6 => s.reg offPghEvents &&& 0x0007#32
  | 7 => s.reg offLdgEvents &&& 0x000F#32
  | _ => 0#32

/-- A source is pending and enabled: bit `n` of IRQ_PEND.SRC. -/
def State.irqSrc (s : State) (n : Nat) : Bool :=
  s.flag (offIrqScfg n) 31 && decide (s.irqEvents n &&& s.reg (offIrqScfg n) &&& 0xFFFF#32 ≠ 0#32)

/-- A queue is pending and enabled: its bit of IRQ_QPEND. -/
def State.irqQueue (s : State) (q : Nat) : Bool :=
  s.flag (offIrqQcfg q) 31 &&
    decide (s.reg (offQ q qEvents) &&& s.reg (offIrqQcfg q) &&& 0x3F#32 ≠ 0#32)

/-- The lines the sources and IRQ_FORCE drive. -/
def State.irqDriven (s : State) : Byte :=
  let src := (List.range 8).foldl (fun a n =>
    if s.irqSrc n then a ||| BitVec.ofNat 8 (2 ^ s.fld (offIrqScfg n) 24 3) else a) (0#8)
  let qs := (List.range s.cfg.queues).foldl (fun a q =>
    if s.irqQueue q then a ||| BitVec.ofNat 8 (2 ^ s.fld (offIrqQcfg q) 24 3) else a) src
  qs ||| BitVec.ofNat 8 (s.fld offIrqForce 0 8)

/-- The levels of IRQ0-IRQ7. With the clocks stopped the always-on island holds them (R388). -/
def State.irqLines (s : State) : Byte :=
  if s.clocksStopped then s.pins.irqHeld else s.irqDriven

/-- Set event bits of a register. -/
def State.raiseEvent (s : State) (off i : Nat) : State := s.setBits off (oneBit i)

/-- Set a bit of PWR_EVENTS. With the clocks stopped a bit that source 1 selects raises source 1's line (R388). -/
def State.raisePower (s : State) (i : Nat) : State :=
  let t := s.raiseEvent offPwrEvents i
  if t.clocksStopped && t.irqSrc 1 then
    { t with pins := { t.pins with irqHeld := t.pins.irqHeld ||| BitVec.ofNat 8 (2 ^ t.fld (offIrqScfg 1) 24 3) } }
  else t

/-- Set a bit of a queue's QCTL_EVENTS. -/
def State.raiseQueue (s : State) (q i : Nat) : State := s.raiseEvent (offQ q qEvents) i

/-- The unmasked pending doorbell bits of a pigeonhole towards side A, and towards side B (R340). -/
def Pgh.indicateA (p : Pgh) : Bool := decide (p.pend &&& ~~~p.mask &&& 0xFFFF0000#32 ≠ 0#32)
def Pgh.indicateB (p : Pgh) : Bool := decide (p.pend &&& ~~~p.mask &&& 0x0000FFFF#32 ≠ 0#32)

def Pgh.midA (p : Pgh) : BitVec 8 := BitVec.ofNat 8 (bits p.bind 0 8)
def Pgh.midB (p : Pgh) : BitVec 8 := BitVec.ofNat 8 (bits p.bind 8 8)
def Pgh.locked (p : Pgh) : Bool := bitAt p.bind 31

/-- PGH_DBO[p]: an unmasked doorbell bit is set towards a side that is a control-port master (R77, R340). -/
def State.dbo (s : State) (p : Nat) : Bool :=
  let h := s.pghs.get p
  (h.indicateA && h.midA != 0xFF#8) || (h.indicateB && h.midB != 0xFF#8)

/-- The Steward's doorbell interrupt of a pigeonhole (R340). -/
def State.stwDoorbell (s : State) (p : Nat) : Bool :=
  let h := s.pghs.get p
  (h.indicateA && h.midA == 0xFF#8) || (h.indicateB && h.midB == 0xFF#8)

end Sys2Proof.Machine
end

