-- ==== Sys2Proof/Machine/Access.lean ====
section
/-!
DEFINITION. Reading and replacing the parts of the state, the Tally's counting of occurrences (R389-R392) and the
forming of trace packets (R86, R399).
-/

namespace Sys2Proof.Machine

def State.queue (s : State) (q : Nat) : Queue := s.queues.get q
def State.setQueue (s : State) (q : Nat) (v : Queue) : State := { s with queues := s.queues.set q v }
def State.updQueue (s : State) (q : Nat) (f : Queue → Queue) : State := s.setQueue q (f (s.queue q))
def State.sem (s : State) (i : Nat) : Sem := s.sems.get i
def State.setSem (s : State) (i : Nat) (v : Sem) : State := { s with sems := s.sems.set i v }
def State.updSem (s : State) (i : Nat) (f : Sem → Sem) : State := s.setSem i (f (s.sem i))
def State.ring (s : State) (r : Nat) : Ring := s.rings.get r
def State.setRing (s : State) (r : Nat) (v : Ring) : State := { s with rings := s.rings.set r v }
def State.updRing (s : State) (r : Nat) (f : Ring → Ring) : State := s.setRing r (f (s.ring r))
def State.lane (s : State) (l : Nat) : Lane := s.lanes.get l
def State.setLane (s : State) (l : Nat) (v : Lane) : State := { s with lanes := s.lanes.set l v }
def State.updLane (s : State) (l : Nat) (f : Lane → Lane) : State := s.setLane l (f (s.lane l))
def State.mport (s : State) (p : Nat) : MPort := s.mports.get p
def State.updMport (s : State) (p : Nat) (f : MPort → MPort) : State :=
  { s with mports := s.mports.set p (f (s.mport p)) }
def State.cport (s : State) (c : Nat) : CPort := s.cports.get c
def State.updCport (s : State) (c : Nat) (f : CPort → CPort) : State :=
  { s with cports := s.cports.set c (f (s.cport c)) }
def State.xport (s : State) (x : Nat) : XPort := s.remote.ports.get x
def State.updXport (s : State) (x : Nat) (f : XPort → XPort) : State :=
  { s with remote := { s.remote with ports := s.remote.ports.set x (f (s.xport x)) } }
def State.table (s : State) (t : Nat) : Table := s.tables.get t
def State.setTable (s : State) (t : Nat) (v : Table) : State := { s with tables := s.tables.set t v }
def State.pgh (s : State) (p : Nat) : Pgh := s.pghs.get p
def State.setPgh (s : State) (p : Nat) (v : Pgh) : State := { s with pghs := s.pghs.set p v }

/-- An itinerary by its stream number. -/
def State.itin (s : State) (stream : Nat) : Option Itin := s.itins.find? (fun i => i.stream == stream)

/-- Change an itinerary. -/
def State.updItin (s : State) (stream : Nat) (f : Itin → Itin) : State :=
  { s with itins := s.itins.map (fun i => if i.stream == stream then f i else i) }

/-- The itinerary resident in a slot of a lane. -/
def State.resident (s : State) (lane slot : Nat) : Option Itin :=
  s.itins.find? (fun i => i.place == .resident && i.lane == lane && i.slot == slot)

/-- The itinerary a lane runs: resident on it, ready, and selected since it became ready (R175). -/
def State.running (s : State) (lane : Nat) : Option Itin :=
  match (s.lane lane).run with
  | none => none
  | some stream => (s.itin stream).filter (fun i => i.place == .resident && i.lane == lane && i.status == .ready && i.chosen)

def State.tile (s : State) (id : Nat) : Option Tile := s.tiles.find? (fun t => t.id == id)
def State.updTile (s : State) (id : Nat) (f : Tile → Tile) : State :=
  { s with tiles := s.tiles.map (fun t => if t.id == id then f t else t) }

-- Tally units (R389).
def unitLane (l : Nat) : Nat := l
def unitMport (p : Nat) : Nat := 64 + p
def unitCport (c : Nat) : Nat := 80 + c
def unitXport (x : Nat) : Nat := 112 + x
def unitPorter (east : Bool) : Nat := if east then 117 else 116
def unitLarder (east : Bool) : Nat := if east then 119 else 118
def unitExpander (east : Bool) : Nat := if east then 121 else 120
def unitXlate (east : Bool) : Nat := if east then 123 else 122
def unitSem (east : Bool) : Nat := if east then 125 else 124
def unitHall (east : Bool) : Nat := if east then 127 else 126
def unitCorridor : Nat := 128
def unitFront : Nat := 129

/-- Unit numbers of the client ports. -/
def isCportUnit (u : Nat) : Bool := decide (80 ≤ u) && decide (u < 112)

/-- TLY_SEL_LO of a counter as it reads: counters 0-7 of a client port are fixed (R390). -/
def State.tlySelLo (s : State) (u k : Nat) : Word :=
  if isCportUnit u && decide (k < 8) then packWord [(1, 31), (0x20 + k, 20)] else s.reg (offTly u (8 * k))

def State.tlySelHi (s : State) (u k : Nat) : Word :=
  if isCportUnit u && decide (k < 8) then 0#32 else s.reg (offTly u (8 * k + 4))

/-- 2^48 - 1, where SUM and PEAK saturate (R391). -/
def cntMax : Nat := 2 ^ 48 - 1

/-- A counter is selected for an event and its qualifier (R390, R391). -/
def State.tlyCounts (s : State) (u k ev qual : Nat) : Bool :=
  let lo := s.tlySelLo u k
  let hi := s.tlySelHi u k
  bitAt lo 31 && bits lo 20 8 == ev && (!bitAt hi 10 || bits hi 0 10 == qual)

/-- One counter takes `n` occurrences: SUM adds them at once; the other modes judge them at the end of the cycle. -/
def State.countOne (s : State) (u k n : Nat) : State :=
  let i := 16 * u + k
  let t := s.tally
  { s with tally := { t with
    occ := t.occ.set i (t.occ.get i + n)
    cnt := if bits (s.tlySelLo u k) 29 2 == 0 then t.cnt.set i (min cntMax (t.cnt.get i + n)) else t.cnt } }

/-- `n` occurrences of an event at a unit. Frozen counters do not change (R395). -/
def State.count (s : State) (u ev qual n : Nat) : State :=
  if s.tally.frozen || n = 0 then s
  else (List.range 16).foldl (fun a k => if a.tlyCounts u k ev qual then a.countOne u k n else a) s

/-- Form a trace packet. It is dropped and counted when the queue of 64 is full or TRC_STALL is 1 (R399). -/
def State.trace (s : State) (type unit : Nat) (q : Option Nat) (payload : Nat) : State :=
  let c := s.reg offTlyTrace
  let filtered := bitAt c 6 && type != 5 && type != 7 && q != some (bits c 0 6)
  if !bitAt c 31 || !bitAt c (15 + type) || filtered then s
  else if s.pins.trcStall || decide (64 ≤ s.tally.trace.length) then s.countReg offTlyTraceDrop 0 32 1
  else { s with tally := { s.tally with
    trace := s.tally.trace ++ [BitVec.ofNat 128 (type * 2 ^ 120 + unit * 2 ^ 104 + payload % 2 ^ 104)] } }

/-- The Tally edge of a request: the first ccyc, at least 40 after it, whose TLY_CCYC is a multiple of 20 (R394); TLY_CCYC
wraps at 2^48 (R393). -/
def edgeAfter (ccyc : Nat) : Nat :=
  let e := (ccyc + 59) / 20 * 20
  if e < 2 ^ 48 then e else (ccyc + 59 - 2 ^ 48) / 20 * 20

/-- A request for a Tally edge; while a record is being written it waits, and its edge is chosen afterwards. -/
def State.askTally (s : State) (a : TallyAsk) : State :=
  let r : TallyReq := { ask := a, due := if s.tally.record.isSome then none else some (edgeAfter s.ccyc.toNat) }
  { s with tally := { s.tally with reqs := s.tally.reqs ++ [r] } }

/-- ccyc from now to a value of TLY_CCYC. -/
def State.until (s : State) (e : Nat) : Nat := (BitVec.ofNat 48 e - s.ccyc).toNat

/-- The record being written is finished or given up: the requests that waited for it, and those whose edge fell meanwhile,
get their edges (R394). -/
def State.recordDone (s : State) : State :=
  let e := edgeAfter s.ccyc.toNat
  let late (r : TallyReq) : Bool := match r.due with
    | some d => s.until d == 0 || decide (2 ^ 47 ≤ s.until d)
    | none => true
  { s with tally := { s.tally with
    record := none, reqs := s.tally.reqs.map (fun r => if late r then { r with due := some e } else r) } }

/-- A request of a SNAPSHOT task that has been stopped meanwhile. -/
def State.askStale (s : State) : TallyAsk → Bool
  | .user q => match (s.queue q).task with
    | some t => t.phase != .snapshot
    | none => true
  | _ => false

def TallyAsk.user? : TallyAsk → Option Nat
  | .user q => some q
  | _ => none

def TallyAsk.isSnap : TallyAsk → Bool
  | .snap _ | .user _ => true
  | _ => false

/-- A snapshot at the edge (R395). The first record it owes is written next, TLY_CTRL's before those of SNAPSHOT tasks in
order of their requests; the tasks that must wait for another edge. -/
def State.takeSnapshot (s : State) (asks : List TallyAsk) : State × List Nat :=
  let t := s.tally
  let users := asks.filterMap TallyAsk.user?
  let own := asks.any (fun a => a == .snap true)
  let record : Option TallyRec := if own then some { q := none, frozen := t.frozen } else match users with
    | q :: _ => some { q := some q, frozen := t.frozen }
    | [] => none
  ({ s with tally := { t with shadow := t.cnt, snapSeq := t.snapSeq + 1, snapCcyc := s.ccyc, record := record } },
    if own then users else users.drop 1)

/-- Source unit of a packet that belongs to no unit; the manual leaves it open. -/
def State.traceFree (s : State) (type payload : Nat) : State := (s.trace type (s.freeBelow 130) none payload).tick

/-- The Tally edge of the present ccyc: the requests that are due at it apply in the order snapshot, clear, freeze change
(R394). -/
def State.tallyEdge (s : State) : State :=
  let due (r : TallyReq) : Bool := r.due == some s.ccyc.toNat
  let asks := ((s.tally.reqs.filter due).map (fun r => r.ask)).filter (fun a => !s.askStale a)
  let s : State := { s with tally := { s.tally with reqs := s.tally.reqs.filter (fun r => !due r) } }
  let snap := asks.any TallyAsk.isSnap
  let clear := asks.contains .clear
  let frz := asks.filterMap (fun a => match a with
    | .freeze on => some on
    | _ => none)
  let (s, later) := if snap then s.takeSnapshot asks else (s, [])
  let s := later.foldl (fun a q => a.askTally (.user q)) s
  let s : State := if clear then { s with tally := { s.tally with cnt := .empty, occ := .empty } } else s
  let s : State := { s with tally := { s.tally with frozen := frz.getLast?.getD s.tally.frozen } }
  let did (b : Bool) (w : Nat) : Nat := if b then w else 0
  s.traceFree 5 (s.tally.snapSeq.toNat * 2 ^ 72 + s.ccyc.toNat * 2 ^ 24 +
    (did snap 1 + did clear 2 + did (!frz.isEmpty) 4) * 2 ^ 21)

/-- ccyc from now to the next Tally edge that a request waits for; none while a record is being written (R394). -/
def State.nextEdge (s : State) : Option Nat :=
  if s.tally.record.isSome then none
  else s.tally.reqs.foldl (fun a r => match a, r.due with
    | some x, some y => some (min x (s.until y))
    | none, some y => some (s.until y)
    | a, none => a) none

/-- An injection is armed for a repair unit (R386). -/
def State.injects (s : State) (c : Nat) (east : Bool) (unit : Nat) : Bool :=
  let w := s.reg offRelInject
  bitAt w 31 && bits w 28 3 == c && bitAt w 27 == east && bits w 16 10 == unit

/-- A word is written into a repair unit of a class and wing. An armed injection for that unit stores it flipped, and is done
(R386); the error shows itself like a real one (DESIGN CHOICE outside the tiers, log 125). -/
def State.stored (s : State) (c : Nat) (east : Bool) (unit : Nat) : State :=
  if s.injects c east unit then
    { (s.putBit offRelInject 31 false) with
      rel := { s.rel with flips := s.rel.flips ++ [(c, east, unit, s.flag offRelInject 26)] } }
  else s

/-- The bits of a row that an injection flips as it is stored: one, or with DOUBLE two of one 64-bit word (R386). Which bits
they are is open (log 125). -/
def State.flipMask (s : State) : BitVec 1024 :=
  let a := s.freeBelow 1024
  let b := a / 64 * 64 + (a % 64 + 1 + a % 63) % 64
  BitVec.ofNat 1024 (2 ^ a + if s.flag offRelInject 26 then 2 ^ b else 0)

/-- A row is written at a tier, with the check bits of what is written (R75); an injection armed for the tier flips bits of
what is stored (R386). -/
def State.tierWrite (s : State) (tier row : Nat) (data : BitVec 1024) : State :=
  let east := decide (4 ≤ tier)
  if s.injects 3 east tier then
    ((s.stored 3 east tier).tick).drive (.tierWrite tier row (data ^^^ s.flipMask) (Config.checkBits data))
  else s.drive (.tierWrite tier row data (Config.checkBits data))

end Sys2Proof.Machine
end

