-- ==== Sys2Proof/Machine/Operands.lean ====
section
/-!
DEFINITION. The formats the block reads from memory, field by field: commands (R94, R95), task descriptors (R98),
tensor descriptors (R113) and itinerary instructions (R147, R148).
-/

namespace Sys2Proof.Machine

/-- A little-endian field of a record: `n` bytes from byte `off`, as a number. -/
def fieldAt {m : Nat} (w : BitVec m) (off n : Nat) : Nat := bits w (8 * off) (8 * n)

/-- A number of `n` bits read as two's complement. -/
def signedOf (n v : Nat) : Int := if 2 ^ (n - 1) ≤ v then (v : Int) - 2 ^ n else v

/-- The low `n` bits of an integer. -/
def wrapInt (n : Nat) (i : Int) : BitVec n := BitVec.ofInt n i

/-- Bits that no field of a format covers are zero: `fields` lists position and length of each field. -/
def onlyFields {m : Nat} (w : BitVec m) (fields : List (Nat × Nat)) : Bool :=
  let used := fields.foldl (fun a f => a ||| BitVec.ofNat m ((2 ^ f.2 - 1) * 2 ^ f.1)) 0#m
  decide (w &&& ~~~used = 0#m)

/-- The bytes of a record, lowest address first. -/
def bytesOf {m : Nat} (w : BitVec m) (n : Nat) : List Byte :=
  (List.range n).map (fun i => BitVec.ofNat 8 (fieldAt w i 1))

/-- A number made of little-endian bytes. -/
def leNat : List Byte → Nat
  | [] => 0
  | b :: t => b.toNat + 256 * leNat t

/-- The `n` little-endian bytes of a number. -/
def natBytes : Nat → Nat → List Byte
  | 0, _ => []
  | n + 1, v => BitVec.ofNat 8 v :: natBytes n (v / 256)

-- CRC-32C (R239).

def crcBit (c : Word) : Word := if c.getLsbD 0 then (c >>> 1) ^^^ 0x82F63B78#32 else c >>> 1

def crcByte (c : Word) (b : Byte) : Word := (List.range 8).foldl (fun a _ => crcBit a) (c ^^^ b.zeroExtend 32)

/-- CRC-32C of a list of bytes: polynomial 0x1EDC6F41 with reflected input and output, initial value and final XOR all
ones. -/
def crc32c (l : List Byte) : Word := ~~~(l.foldl crcByte 0xFFFFFFFF#32)

-- Parcels and their flits (R65, R66).

/-- The bytes of a parcel: its header and its payload. -/
def parcelBytes (p : Parcel) : List Byte :=
  [p.ptype, p.flags, p.src, p.dst] ++ natBytes 4 p.pseq.toNat ++ natBytes 2 p.table.toNat ++ [p.status, p.rsv] ++
    natBytes 4 p.epoch.toNat ++ natBytes 4 p.batch.toNat ++ natBytes 2 p.count.toNat ++ natBytes 2 p.ebytes.toNat ++
    natBytes 8 p.addr.toNat ++ p.payload

/-- Flits of a parcel: 154 parcel bytes each. -/
def parcelFlits (p : Parcel) : Nat := (32 + p.payload.length + 153) / 154

/-- Bytes of a parcel's last flit behind the parcel's own. -/
def parcelPad (p : Parcel) : Nat := 154 * parcelFlits p - (32 + p.payload.length)

/-- Bytes 0-155 of a flit: BODY, FRAME and VBYTES. -/
def flitFront (p : Parcel) (pad : List Byte) (i : Nat) : List Byte :=
  let body := ((parcelBytes p ++ pad).drop (154 * i)).take 154
  let last : Bool := decide (parcelFlits p ≤ i + 1)
  body ++ [BitVec.ofNat 8 ((if i = 0 then 128 else 0) + if last then 64 else 0),
    BitVec.ofNat 8 (if last then 154 - parcelPad p else 154)]

/-- A flit: 160 bytes, the last four its CRC. -/
def flitBytes (p : Parcel) (pad : List Byte) (i : Nat) : List Byte :=
  let f := flitFront p pad i
  f ++ natBytes 4 (crc32c f).toNat

/-- Every flit of a parcel that has arrived passes its CRC (R65, R67). -/
def parcelCrcOk (p : Parcel) : Bool :=
  p.pad.length == parcelPad p &&
    p.crcs == (List.range (parcelFlits p)).map (fun i => crc32c (flitFront p p.pad i))

-- Commands (R94, R95).

def cmdOp (b : BitVec 512) : Nat := fieldAt b 0 1
def cmdRec (b : BitVec 512) : Bool := bitAt b 8
def cmdIrq (b : BitVec 512) : Bool := bitAt b 9
def cmdUsertag (b : BitVec 512) : Nat := fieldAt b 4 4
def cmdTaskPtr (b : BitVec 512) : Nat := bits b 64 56
def cmdSem (b : BitVec 512) : Nat := bits b 64 11
def cmdSemCount (b : BitVec 512) : Nat := bits b 96 20
def cmdValue (b : BitVec 512) : Nat := fieldAt b 8 4
def cmdBatchPtr (b : BitVec 512) : Nat := bits b 64 56
def cmdTable (b : BitVec 512) : Nat := bits b 128 12
def cmdNIndex (b : BitVec 512) : Nat := bits b 160 21
def cmdNBags (b : BitVec 512) : Nat := bits b 192 21
def cmdNRows (b : BitVec 512) : Nat := bits b 160 21
def cmdRule (b : BitVec 512) : Nat := bits b 192 2
def cmdLr (b : BitVec 512) : Word := BitVec.ofNat 32 (fieldAt b 28 4)
def cmdEps (b : BitVec 512) : Word := BitVec.ofNat 32 (fieldAt b 32 4)
def cmdEpoch (b : BitVec 512) : Word := BitVec.ofNat 32 (fieldAt b 20 4)
def cmdCtlOp (b : BitVec 512) : Nat := bits b 64 1
def cmdPreN (b : BitVec 512) : Nat := bits b 160 17
def cmdCtlAddr (b : BitVec 512) : Nat := bits b 192 56
def cmdCtlLen (b : BitVec 512) : Nat := bits b 256 64
def cmdPreAcc (b : BitVec 512) : Nat := bits b 64 2
def cmdPreVa (b : BitVec 512) : Nat := bits b 128 56
def cmdPreLen (b : BitVec 512) : Nat := bits b 192 64
def cmdLdgOp (b : BitVec 512) : Nat := bits b 64 2
def cmdTxn (b : BitVec 512) : Word := BitVec.ofNat 32 (fieldAt b 12 4)

/-- The header's bits and the opcode's own bits; all others are reserved (R94, R95). -/
def cmdFields (b : BitVec 512) : List (Nat × Nat) :=
  let hdr := [(0, 8), (8, 2), (32, 32)]
  hdr ++ match cmdOp b with
    | 0x01 => [(64, 56)]
    | 0x02 | 0x03 => [(64, 11), (96, 20)]
    | 0x05 => [(64, 32)]
    | 0x10 => [(64, 56), (128, 12), (160, 21), (192, 21)]
    | 0x11 => [(64, 56), (128, 12), (160, 21), (192, 2), (224, 32), (256, 32)]
    | 0x12 => [(64, 56), (128, 12), (160, 32)]
    | 0x13 => [(128, 12), (160, 32)]
    | 0x14 => if cmdCtlOp b = 0 then [(64, 1), (128, 12), (160, 17), (192, 56)] else [(64, 1), (192, 56), (256, 64)]
    | 0x20 => [(64, 2), (128, 56), (192, 64)]
    | 0x30 => [(64, 2), (96, 32)]
    | _ => []

/-- A length of 4 KiB to 2^40, a multiple of 4 KiB (R95). -/
def lenOk (n : Nat) : Bool := decide (4096 ≤ n) && decide (n ≤ 2 ^ 40) && decide (n % 4096 = 0)

/-- The ranges and alignments of an opcode's fields; false for a reserved opcode (R94, R95). -/
def cmdRanges (b : BitVec 512) (sems : Nat) : Bool :=
  match cmdOp b with
  | 0x01 => decide (cmdTaskPtr b % 64 = 0)
  | 0x02 | 0x03 => decide (cmdSem b < sems) && decide (1 ≤ cmdSemCount b)
  | 0x04 | 0x05 | 0x3F => true
  | 0x10 => decide (cmdBatchPtr b % 64 = 0) && decide (1 ≤ cmdNIndex b) && decide (cmdNIndex b ≤ 1048576) &&
      decide (1 ≤ cmdNBags b) && decide (cmdNBags b ≤ cmdNIndex b)
  | 0x11 => decide (cmdBatchPtr b % 64 = 0) && decide (1 ≤ cmdNRows b) && decide (cmdNRows b ≤ 1048576) &&
      decide (cmdRule b < 2)
  | 0x12 => decide (cmdBatchPtr b % 64 = 0)
  | 0x13 => true
  | 0x14 => if cmdCtlOp b = 0 then
      decide (1 ≤ cmdPreN b) && decide (cmdPreN b ≤ 65536) && decide (cmdCtlAddr b % 8 = 0)
    else decide (cmdCtlAddr b % 4096 = 0) && lenOk (cmdCtlLen b)
  | 0x20 => decide (cmdPreAcc b < 3) && decide (cmdPreVa b % 4096 = 0) && lenOk (cmdPreLen b)
  | 0x30 => decide (cmdLdgOp b < 3)
  | _ => false

/-- A command that R94 does not complete with ST_DESC_INVALID. -/
def cmdOk (b : BitVec 512) (sems : Nat) : Bool := onlyFields b (cmdFields b) && cmdRanges b sems

/-- PREWARM and LARDER_CTL PRELOAD are background commands (R96). -/
def cmdBackground (b : BitVec 512) : Bool :=
  decide (cmdOp b = 0x20) || (decide (cmdOp b = 0x14) && decide (cmdCtlOp b = 0))

-- Task descriptors (R98).

def taskNItin (h : BitVec 512) : Nat := fieldAt h 1 1
def taskNRings (h : BitVec 512) : Nat := fieldAt h 2 1
def taskNLinks (h : BitVec 512) : Nat := fieldAt h 3 1
def taskKind (h : BitVec 512) : Nat := bits h 32 2
def taskTag (h : BitVec 512) : Nat := fieldAt h 8 8

/-- The header follows R98. -/
def taskHdrOk (h : BitVec 512) : Bool :=
  onlyFields h [(0, 32), (32, 2), (64, 64)] && decide (fieldAt h 0 1 = 3) && decide (1 ≤ taskNItin h) &&
    decide (taskNItin h ≤ 16) && decide (taskNRings h ≤ 32) && decide (taskNLinks h ≤ 32) &&
    decide (taskKind h < 2)

-- Itinerary entries.
def ieProg (e : BitVec 256) : Nat := fieldAt e 0 8
def ieNInstr (e : BitVec 256) : Nat := fieldAt e 8 1
def iePin (e : BitVec 256) : Option Nat := if bitAt e 79 then some (bits e 72 5) else none
def ieArg0 (e : BitVec 256) : BitVec 56 := BitVec.ofNat 56 (bits e 128 56)
def ieArg1 (e : BitVec 256) : BitVec 56 := BitVec.ofNat 56 (bits e 192 56)
def ieOk (e : BitVec 256) : Bool :=
  onlyFields e [(0, 56), (64, 8), (72, 5), (79, 1), (128, 56), (192, 56)] && decide (ieProg e % 8 = 0) &&
    decide (1 ≤ ieNInstr e) && decide (ieNInstr e ≤ 128)

-- Ring and link entries.
def reRing (e : BitVec 64) : Nat := bits e 0 10
def reReset (e : BitVec 64) : Bool := bitAt e 16
def reOk (e : BitVec 64) : Bool := onlyFields e [(0, 10), (16, 1)]
def leFull (e : BitVec 64) : Nat := bits e 0 11
def leFree (e : BitVec 64) : Nat := bits e 16 11
def leRing (e : BitVec 64) : Nat := bits e 32 10
def leInit (e : BitVec 64) : Bool := bitAt e 48
def leOk (e : BitVec 64) : Bool := onlyFields e [(0, 11), (16, 11), (32, 10), (48, 1)]

-- Tensor descriptors (R113).

def tdDtype (d : BitVec 1024) : Nat := bits d 8 4
def tdNdim (d : BitVec 1024) : Nat := bits d 16 3
/-- Access width in bytes. -/
def tdAccw (d : BitVec 1024) : Nat := 16 * 2 ^ bits d 24 2
def tdAccum (d : BitVec 1024) : Bool := bitAt d 32
def tdShared (d : BitVec 1024) : Bool := bitAt d 33
def tdPadskip (d : BitVec 1024) : Bool := bitAt d 34
def tdSlot (d : BitVec 1024) : Bool := bitAt d 35
def tdBase (d : BitVec 1024) : Nat := fieldAt d 8 8
def tdFill (d : BitVec 1024) : Word := BitVec.ofNat 32 (fieldAt d 16 4)
def tdScaleBase (d : BitVec 1024) : Nat := fieldAt d 24 8
/-- The extent of dimension k; 1 at or above NDIM (R114). -/
def tdExtent (d : BitVec 1024) (k : Nat) : Nat := if k < tdNdim d then fieldAt d (32 + 16 * k) 4 else 1
/-- The stride of dimension k; 0 at or above NDIM. -/
def tdStride (d : BitVec 1024) (k : Nat) : Int :=
  if k < tdNdim d then signedOf 56 (bits d (8 * (40 + 16 * k)) 56) else 0

/-- Bits of one element at storage size: an int4 element counts as half a byte (R116, R132). -/
def dtypeBits : Nat → Nat
  | 0x2 => 4
  | 0x3 | 0x7 | 0x8 => 16
  | 0x4 | 0x9 => 32
  | _ => 8

/-- Element size in bytes where the rules take int4 as 1 (R118). -/
def dtypeSize (t : Nat) : Nat := (dtypeBits t + 7) / 8

def isShared8 (t : Nat) : Bool := t = 0xA || t = 0xB

/-- A descriptor that R114 calls invalid. -/
def tdInvalid (d : BitVec 1024) : Bool :=
  let n := tdNdim d
  let dims := List.range 6
  fieldAt d 0 1 != 3 || bits d 12 4 != 0 || bits d 19 5 != 0 || bits d 26 6 != 0 || bits d 36 4 != 0 ||
    bits d 40 24 != 0 || bits d 160 32 != 0 || decide (0xD ≤ tdDtype d) || decide (n = 0) || decide (6 < n) ||
    bits d 24 2 = 3 ||
    dims.any (fun k =>
      let e := fieldAt d (32 + 16 * k) 4
      let s := fieldAt d (40 + 16 * k) 8
      fieldAt d (36 + 16 * k) 4 != 0 ||
        (if k < n then decide (e = 0) || (s / 2 ^ 55 != 0 && s / 2 ^ 55 != 2 ^ 9 - 1) else e != 0 || s != 0)) ||
    (tdSlot d && decide (2 ^ 20 ≤ tdBase d)) || (!tdSlot d && decide (2 ^ 56 ≤ tdBase d)) ||
    decide (2 ^ dtypeBits (tdDtype d) ≤ (tdFill d).toNat) ||
    (if isShared8 (tdDtype d) then decide (2 ^ 56 ≤ tdScaleBase d) else tdScaleBase d != 0)

/-- Divides, by magnitude (R118). -/
def divides (n : Nat) (i : Int) : Bool := decide (i.natAbs % n = 0)

/-- The stride and extent rules of R132, R133 and R135: the status of the first that fails. -/
def tdStrideRules (d : BitVec 1024) : Option Byte :=
  let t := tdDtype d
  let s0 := tdStride d 0
  if t = 0x2 then
    if s0 ≠ 1 ∧ s0 ≠ 0 then some 0x24#8 else if tdExtent d 0 % 2 ≠ 0 then some 0x21#8 else none
  else if isShared8 t then
    if s0 ≠ 1 ∨ tdExtent d 0 % 32 ≠ 0 ∨ !([1, 2, 3, 4, 5].all fun k => divides 32 (tdStride d k)) ∨
        tdScaleBase d % 16 ≠ 0 then some 0x21#8 else none
  else if t = 0xC then if s0 ≠ 1 then some 0x21#8 else none
  else none

/-- R118 as far as it is checked when the descriptor is read: its strides and BASE, negative values by magnitude
(log 84). -/
def tdAligned (d : BitVec 1024) : Bool :=
  let w := tdAccw d
  let s0 := tdStride d 0
  decide (tdBase d % w = 0) && ([1, 2, 3, 4, 5].all fun k => divides w (tdStride d k)) &&
    (divides w s0 || decide (s0.natAbs = dtypeSize (tdDtype d)))

/-- The checks a lane applies when it reads a descriptor, in the order of R142: the status of the first that
fails. `asWrite` says that the instruction names it as its write side. -/
def tdReadCheck (d : BitVec 1024) (asWrite : Bool) : Option Byte :=
  if tdInvalid d then some 0x20#8
  else match tdStrideRules d with
  | some st => some st
  | none =>
    if !tdAligned d then some 0x21#8
    else if asWrite && !tdAccum d && ((List.range 6).any fun k => tdStride d k == 0 && decide (1 < tdExtent d k)) then
      some 0x22#8
    else if asWrite && tdAccum d && tdDtype d != 0x8 && tdDtype d != 0x9 then some 0x24#8
    else if asWrite && isShared8 (tdDtype d) then some 0x24#8
    else none

-- Itinerary instructions (R147, R148).

def insOp (w : BitVec 64) : Nat := bits w 56 8
def insLc (w : BitVec 64) : Nat := bits w 52 3
def insLcs (w : BitVec 64) : Nat := bits w 49 3
def insLoopSrc (w : BitVec 64) : Bool := bitAt w 55
def insTarget (w : BitVec 64) : Nat := bits w 39 7
def insImm32 (w : BitVec 64) : Word := BitVec.ofNat 32 (bits w 0 32)
def insIx (w : BitVec 64) : Nat := bits w 54 2
def insRing (w : BitVec 64) : Nat := bits w 46 10
def insSem (w : BitVec 64) : Nat := bits w 45 11
def insCount20 (w : BitVec 64) : BitVec 20 := BitVec.ofNat 20 (bits w 0 20)
def insRd (w : BitVec 64) : Nat := bits w 52 4
def insWd (w : BitVec 64) : Nat := bits w 48 4
def insRar (w : BitVec 64) : Nat := bits w 45 3
def insWar (w : BitVec 64) : Nat := bits w 42 3
def insT0 (w : BitVec 64) : Nat := bits w 16 16 + 1
def insT1 (w : BitVec 64) : Nat := bits w 0 16 + 1
def insGix (w : BitVec 64) : Nat := bits w 40 2
def insPool (w : BitVec 64) : Bool := bitAt w 39
def insWgt (w : BitVec 64) : Bool := bitAt w 38
def insWix (w : BitVec 64) : Nat := bits w 36 2
def insCsrc (w : BitVec 64) : Bool := bitAt w 35
def insClc (w : BitVec 64) : Nat := bits w 32 3
def insRows (w : BitVec 64) : Nat := bits w 0 13
def insMode (w : BitVec 64) : Nat := bits w 40 2
def insKeep (w : BitVec 64) : Bool := bitAt w 39

/-- The bits the field table names for an opcode; all others are reserved (R147). -/
def insFields (op : Nat) : List (Nat × Nat) :=
  (56, 8) :: match op with
    | 0x04 => [(55, 1), (52, 3), (49, 3), (39, 7), (0, 32)]
    | 0x05 => [(52, 3), (39, 7)]
    | 0x10 => [(52, 3), (0, 32)]
    | 0x11 => [(52, 3), (49, 3), (0, 32)]
    | 0x14 => [(52, 3), (0, 48)]
    | 0x15 => [(52, 3), (49, 3), (46, 3), (45, 1), (0, 32)]
    | 0x18 => [(54, 2), (50, 4), (47, 3)]
    | 0x19 => [(54, 2), (51, 3)]
    | 0x1A => [(54, 2), (53, 1), (50, 3), (0, 32)]
    | 0x20 | 0x21 | 0x22 | 0x23 => [(46, 10)]
    | 0x28 | 0x29 => [(45, 11), (0, 20)]
    | 0x30 | 0x32 => [(52, 4), (48, 4), (45, 3), (42, 3), (16, 16), (0, 16)]
    | 0x31 => [(52, 4), (48, 4), (45, 3), (42, 3), (40, 2), (39, 1), (38, 1), (36, 2), (35, 1), (32, 3),
        (16, 16), (0, 13)]
    | 0x33 => [(52, 4), (45, 3), (38, 1), (36, 2), (16, 16), (0, 16)]
    | 0x34 => [(48, 4), (42, 3), (40, 2), (39, 1)]
    | 0x38 => [(0, 8)]
    | 0x3C => [(55, 1), (52, 3), (51, 1), (48, 3), (32, 16), (0, 32)]
    | _ => []

/-- The opcode is in the opcode table. -/
def insKnown (op : Nat) : Bool :=
  [0x01, 0x02, 0x04, 0x05, 0x10, 0x11, 0x14, 0x15, 0x18, 0x19, 0x1A, 0x20, 0x21, 0x22, 0x23, 0x28, 0x29, 0x2C,
    0x30, 0x31, 0x32, 0x33, 0x34, 0x38, 0x3C].contains op

/-- Fields that a row requires to be 0 are 0 (R148). -/
def insZeros (w : BitVec 64) : Bool :=
  match insOp w with
  | 0x04 => if insLoopSrc w then bits w 0 32 == 0 else insLcs w == 0
  | 0x15 => bitAt w 45 || bits w 46 3 == 0
  | 0x1A => if bitAt w 53 then bits w 0 32 == 0 else bits w 50 3 == 0
  | 0x31 => (!insPool w || (insWd w == 0 && insWar w == 0)) && (insWgt w || insWix w == 0) &&
      (if insCsrc w then insRows w == 0 else insClc w == 0)
  | 0x33 => insWgt w || insWix w == 0
  | 0x3C => bitAt w 51 || (bits w 48 3 == 0 && bits w 32 16 == 0)
  | _ => true

/-- The instruction names a tensor descriptor. -/
def insNames (w : BitVec 64) : Bool := [0x18, 0x30, 0x31, 0x32, 0x33, 0x34].contains (insOp w)

/-- A transfer instruction (R150). -/
def insTransfer (w : BitVec 64) : Bool := [0x30, 0x31, 0x32, 0x33, 0x34].contains (insOp w)

/-- The descriptors a transfer instruction or IXBIND names, each with its side (true: the write side). -/
def insDescs (w : BitVec 64) : List (Nat × Bool) :=
  match insOp w with
  | 0x18 => [(bits w 50 4, false)]
  | 0x30 | 0x32 => [(insRd w, false), (insWd w, true)]
  | 0x31 => if insPool w then [(insRd w, false)] else [(insRd w, false), (insWd w, true)]
  | 0x33 => [(insRd w, false)]
  | 0x34 => [(insWd w, true)]
  | _ => []

end Sys2Proof.Machine
end

