-- ==== Sys2Proof/Machine/Numbers.lean ====
section
/-!
DEFINITION. Exact values, the element types of R132, conversions with one rounding (R137-R140) and binary32
arithmetic with round-to-nearest-even.
-/

namespace Sys2Proof.Machine

/-- A value of an element: a NaN with its sign and the upper mantissa bits as a binary32 mantissa, an infinity, or
the finite number m x 2^e with a sign. -/
inductive Num where
  | nan (neg : Bool) (mant : Nat)
  | inf (neg : Bool)
  | fin (neg : Bool) (m : Nat) (e : Int)
  deriving DecidableEq, Repr, Inhabited

/-- The rounding of a conversion: to nearest even, or stochastic with the 16-bit number r (R137, R140). -/
inductive Rounding where
  | nearest
  | stochastic (r : Nat)
  deriving DecidableEq, Repr, Inhabited

def Num.ofInt (i : Int) : Num := .fin (decide (i < 0)) i.natAbs 0

/-- A floating-point code with `eb` exponent bits and `mb` mantissa bits. `e4m3` marks the type without infinity. -/
def decodeFloat (eb mb : Nat) (e4m3 : Bool) (w : Nat) : Num :=
  let neg := w / 2 ^ (eb + mb) % 2 == 1
  let e := w / 2 ^ mb % 2 ^ eb
  let m := w % 2 ^ mb
  let bias := 2 ^ (eb - 1) - 1
  if e4m3 && e == 15 && m == 7 then .nan neg (m * 2 ^ (23 - mb))
  else if !e4m3 && e == 2 ^ eb - 1 then
    if m == 0 then .inf neg else .nan neg (m * 2 ^ (23 - mb))
  else if e == 0 then .fin neg m (1 - (bias : Int) - mb)
  else .fin neg (2 ^ mb + m) ((e : Int) - bias - mb)

/-- The value of an element code of a type of R132, without a shared or row scale. -/
def decodeElem (t w : Nat) : Num :=
  match t with
  | 0x0 | 0xC => .ofInt (signedOf 8 w)
  | 0x1 => .ofInt w
  | 0x2 => .ofInt (signedOf 4 w)
  | 0x3 => .ofInt (signedOf 16 w)
  | 0x4 => .ofInt (signedOf 32 w)
  | 0x5 | 0xA => decodeFloat 4 3 true w
  | 0x6 | 0xB => decodeFloat 5 2 false w
  | 0x7 => decodeFloat 5 10 false w
  | 0x8 => decodeFloat 8 7 false w
  | _ => decodeFloat 8 23 false w

/-- A value times 2^(e-127) for a shared scale byte e; 0xFF makes every element NaN (R133). -/
def scaleE8 (e : Nat) : Num → Num
  | .nan n m => .nan n m
  | .inf n => if e = 255 then .nan n (2 ^ 22) else .inf n
  | .fin n m x => if e = 255 then .nan n (2 ^ 22) else .fin n m (x + e - 127)

/-- Floor of the base-2 logarithm of num / den. -/
def ratLog (num den : Nat) : Int :=
  let k : Int := (Nat.log2 num : Int) - Nat.log2 den
  if den * 2 ^ k.toNat ≤ num * 2 ^ (-k).toNat then k else k - 1

/-- Round the positive number (num / den) x 2^e to a multiple of 2^q: the multiple (R137, R140). A negative number's
upper neighbour is the one of smaller magnitude. -/
def roundAt (rm : Rounding) (neg : Bool) (num den : Nat) (e q : Int) : Nat :=
  let n := num * 2 ^ (e - q).toNat
  let d := den * 2 ^ (q - e).toNat
  let fl := n / d
  let rem := n % d
  if rem = 0 then fl
  else match rm with
    | .nearest => if d < 2 * rem || (d == 2 * rem && fl % 2 == 1) then fl + 1 else fl
    | .stochastic r =>
      if neg then (if r < 2 ^ 16 * (d - rem) / d then fl else fl + 1)
      else (if r < 2 ^ 16 * rem / d then fl + 1 else fl)

/-- What a magnitude above the largest finite value becomes (R138). -/
inductive Overflow where
  | saturate (maxCode : Nat)
  | infinity
  deriving DecidableEq, Repr, Inhabited

/-- Convert (num / den) x 2^e with a sign to a floating-point code: the code and whether it saturated (R138). -/
def encodeFloat (eb mb : Nat) (ov : Overflow) (rm : Rounding) (neg : Bool) (num den : Nat) (e : Int) : Nat × Bool :=
  let sign := if neg then 2 ^ (eb + mb) else 0
  let bias : Int := 2 ^ (eb - 1) - 1
  if num = 0 then (sign, false)
  else
    let q := max (ratLog num den + e - mb) (1 - bias - mb)
    let m0 := roundAt rm neg num den e q
    let (m, x) := if m0 = 2 ^ (mb + 1) then (m0 / 2, q + 1) else (m0, q)
    if m = 0 then (sign, false)
    else
      let ef := if m < 2 ^ mb then 0 else (x + mb + bias).toNat
      let code := ef * 2 ^ mb + m % 2 ^ mb
      match ov with
      | .saturate mx => if mx < code then (sign + mx, true) else (sign + code, false)
      | .infinity => if 2 ^ eb - 1 ≤ ef then (sign + (2 ^ eb - 1) * 2 ^ mb, false) else (sign + code, false)

/-- Convert a value to a floating-point type: fp8 saturates, the wider types overflow to infinity (R138). -/
def toFloat (eb mb : Nat) (ov : Overflow) (nanCode : Nat) (rm : Rounding) : Num → Nat × Bool
  | .nan n m =>
    let sign := if n then 2 ^ (eb + mb) else 0
    match ov with
    | .saturate _ => (sign + nanCode, false)
    | .infinity => (sign + (2 ^ eb - 1) * 2 ^ mb + (m / 2 ^ (23 - mb)) % 2 ^ (mb - 1) + 2 ^ (mb - 1), false)
  | .inf n =>
    let sign := if n then 2 ^ (eb + mb) else 0
    match ov with
    | .saturate mx => (sign + mx, true)
    | .infinity => (sign + (2 ^ eb - 1) * 2 ^ mb, false)
  | .fin n m e => encodeFloat eb mb ov rm n m 1 e

/-- Convert a value to an integer type with range lo to hi: round, then saturate; NaN gives 0 (R139). -/
def toInteger (lo hi : Int) (w : Nat) (rm : Rounding) : Num → Nat × Bool
  | .nan _ _ => (0, true)
  | .inf n => ((wrapInt w (if n then lo else hi)).toNat, true)
  | .fin n m e =>
    let a : Int := roundAt rm n m 1 e 0
    let i := if n then -a else a
    if i < lo then ((wrapInt w lo).toNat, true) else if hi < i then ((wrapInt w hi).toNat, true)
    else ((wrapInt w i).toNat, false)

/-- Convert a value to an element code of a type: the code, and whether the Tally counts it (R138, R139). -/
def convert (t : Nat) (rm : Rounding) (v : Num) : Nat × Bool :=
  match t with
  | 0x0 | 0xC => toInteger (-128) 127 8 rm v
  | 0x1 => toInteger 0 255 8 rm v
  | 0x2 => toInteger (-8) 7 4 rm v
  | 0x3 => toInteger (-32768) 32767 16 rm v
  | 0x4 => toInteger (-2147483648) 2147483647 32 rm v
  | 0x5 => toFloat 4 3 (.saturate 0x7E) 0x7F rm v
  | 0x6 => toFloat 5 2 (.saturate 0x7B) 0x7E rm v
  | 0x7 => toFloat 5 10 .infinity 0 rm v
  | 0x8 => toFloat 8 7 .infinity 0 rm v
  | _ => toFloat 8 23 .infinity 0 rm v

/-- The binary32 word of a value, rounded to nearest even. -/
def toWord (v : Num) : Word := BitVec.ofNat 32 (convert 0x9 .nearest v).1

def ofWord (w : Word) : Num := decodeElem 0x9 w.toNat

/-- A NaN that an operation on two binary32 words produces: its sign and payload are open (log 4). -/
def nanWord (a b : Word) : Word := 0x7FC00000#32 ||| (Config.nanBits a b &&& 0x803FFFFF#32)

/-- The exact sum of two finite values. A zero sum is -0 only when both are negative. -/
def finAdd (n1 : Bool) (m1 : Nat) (e1 : Int) (n2 : Bool) (m2 : Nat) (e2 : Int) : Num :=
  let e := min e1 e2
  let a : Int := (m1 * 2 ^ (e1 - e).toNat : Nat)
  let b : Int := (m2 * 2 ^ (e2 - e).toNat : Nat)
  let sum := (if n1 then -a else a) + (if n2 then -b else b)
  if sum = 0 then .fin (n1 && n2) 0 0 else .fin (decide (sum < 0)) sum.natAbs e

/-- The exact sum of two values that are no NaN; an infinity wins. -/
def Num.plus : Num → Num → Num
  | .fin a b c, .fin d e f => finAdd a b c d e f
  | .fin _ _ _, v => v
  | v, _ => v

/-- Binary32 addition, round to nearest even. -/
def addWord (a b : Word) : Word :=
  match ofWord a, ofWord b with
  | .nan _ _, _ => nanWord a b
  | _, .nan _ _ => nanWord a b
  | .inf n, .inf k => if n == k then a else nanWord a b
  | .inf _, _ => a
  | _, .inf _ => b
  | .fin n1 m1 e1, .fin n2 m2 e2 => toWord (finAdd n1 m1 e1 n2 m2 e2)

/-- Binary32 multiplication, round to nearest even. -/
def mulWord (a b : Word) : Word :=
  match ofWord a, ofWord b with
  | .nan _ _, _ => nanWord a b
  | _, .nan _ _ => nanWord a b
  | .inf n, .inf k => toWord (.inf (n != k))
  | .inf n, .fin k m _ => if m = 0 then nanWord a b else toWord (.inf (n != k))
  | .fin n m _, .inf k => if m = 0 then nanWord a b else toWord (.inf (n != k))
  | .fin n1 m1 e1, .fin n2 m2 e2 => toWord (.fin (n1 != n2) (m1 * m2) (e1 + e2))

/-- Binary32 division, round to nearest even. -/
def divWord (a b : Word) : Word :=
  match ofWord a, ofWord b with
  | .nan _ _, _ => nanWord a b
  | _, .nan _ _ => nanWord a b
  | .inf _, .inf _ => nanWord a b
  | .inf n, .fin k _ _ => toWord (.inf (n != k))
  | .fin n _ _, .inf k => toWord (.fin (n != k) 0 0)
  | .fin n1 m1 e1, .fin n2 m2 e2 =>
    if m2 = 0 then (if m1 = 0 then nanWord a b else toWord (.inf (n1 != n2)))
    else BitVec.ofNat 32 (encodeFloat 8 23 .infinity .nearest (n1 != n2) m1 m2 (e1 - e2)).1

/-- Binary32 square root, round to nearest even: the root is taken with enough bits that a sticky bit settles the
rounding. -/
def sqrtWord (a : Word) : Word :=
  match ofWord a with
  | .nan _ _ => nanWord a a
  | .inf n => if n then nanWord a a else a
  | .fin n m e =>
    if m = 0 then a
    else if n then nanWord a a
    else
      let (m', e') := if e % 2 = 0 then (m, e) else (2 * m, e - 1)
      let big := m' * 2 ^ 60
      let r := Nat.sqrt big
      toWord (.fin false (2 * r + (if r * r = big then 0 else 1)) (e' / 2 - 31))

/-- s x q + b of a 0xC row, computed in binary32 with one rounding (R135). -/
def rowValue (scale bias code : Nat) : Num :=
  match decodeElem 0x7 scale, decodeElem 0x7 bias, decodeElem 0x0 code with
  | .fin sn sm se, .fin bn bm be, .fin qn qm qe =>
    ofWord (toWord (finAdd (sn != qn) (sm * qm) (se + qe) bn bm be))
  | s, b, q => ofWord (addWord (mulWord (toWord s) (toWord q)) (toWord b))

/-- Bfloat16 addition, the exact sum rounded once to nearest even (R34). -/
def addBf16 (a b : Nat) : Nat :=
  let w (x : Nat) : Word := BitVec.ofNat 32 (x * 2 ^ 16)
  match decodeElem 0x8 a, decodeElem 0x8 b with
  | .nan _ _, _ => (addWord (w a) (w b)).toNat / 2 ^ 16
  | _, .nan _ _ => (addWord (w a) (w b)).toNat / 2 ^ 16
  | .inf n, .inf k => if n == k then a else (addWord (w a) (w b)).toNat / 2 ^ 16
  | x, y => (convert 0x8 .nearest (x.plus y)).1

/-- The rounding generator of a lane, advanced once (R140). -/
def lfsrNext (w : Word) : Word :=
  if w.getLsbD 0 then (w >>> 1) ^^^ 0x80200003#32 else w >>> 1

end Sys2Proof.Machine
end

