-- ==== Sys2Proof/Machine/Ops.lean ====
section
/-!
DEFINITION. The operations shared by the commands: starting, completing and failing a queue's commands (R94-R97,
R104), the records (R109, R110), beginning a stop (R107), and the semaphores (R202-R215).
-/

namespace Sys2Proof.Machine

-- Corridor classes in the order of R17 (log 21).
def corControl : Nat := 0
def corSemaphore : Nat := 1
def corParcel : Nat := 2
def corData : Nat := 3

-- Status codes (R112).
def stOk : Byte := 0x00#8
def stAborted : Byte := 0x01#8
def stNotPresent : Byte := 0x10#8
def stPermission : Byte := 0x11#8
def stAgentError : Byte := 0x12#8
def stAccessKey : Byte := 0x13#8
def stDescInvalid : Byte := 0x20#8
def stAlign : Byte := 0x21#8
def stProgramIllegal : Byte := 0x23#8
def stDtype : Byte := 0x24#8
def stCheckMismatch : Byte := 0x30#8
def stExpandSize : Byte := 0x31#8
def stEcc : Byte := 0x32#8
def stSemOverflow : Byte := 0x40#8
def stSemUnderflow : Byte := 0x41#8
def stSemPoisoned : Byte := 0x42#8
def stQueueTimeout : Byte := 0x50#8
def stRemoteTimeout : Byte := 0x51#8
def stLaggard : Byte := 0x52#8
def stRemoteNack : Byte := 0x60#8
def stUnreachable : Byte := 0x61#8
def stEpochRetired : Byte := 0x70#8
def stIndexRange : Byte := 0x71#8
def stLdgConflict : Byte := 0x80#8
def stLdgNotQuiesced : Byte := 0x81#8
def stFwIncompatible : Byte := 0x90#8
def stInternal : Byte := 0xF0#8

-- Queues.

/-- A progress event (R106): the timer restarts, and QCTL_TMO as it now reads applies (R90). -/
def State.progress (s : State) (q : Nat) : State :=
  s.updQueue q (fun v => { v with timer := 0, tmo := s.fld (offQ q qTmo) 0 5 })

/-- QCTL_STATUS.STATE (R104). -/
def qStateCode : QState → Nat
  | .idle => 0 | .running => 1 | .suspended => 2 | .faulted => 3 | .retiring => 4

/-- A stop of the queue's work is in progress (R107). -/
def Queue.stopping (v : Queue) : Bool := v.stop.isSome

/-- The commands in front of a command, in ring order. -/
def Queue.earlier (v : Queue) (idx : BitVec 16) : List Cmd := v.cmds.takeWhile (fun c => c.idx != idx)

/-- The oldest command that has not completed. -/
def Queue.oldest (v : Queue) : Option Cmd := v.cmds.find? (fun c => !c.done)

/-- The oldest foreground command in flight. -/
def Queue.oldestForeground (v : Queue) : Option Cmd :=
  v.cmds.find? (fun c => c.started && !c.done && !cmdBackground c.bytes)

def Queue.cmd (v : Queue) (idx : BitVec 16) : Option Cmd := v.cmds.find? (fun c => c.idx == idx)

def Queue.updCmd (v : Queue) (idx : BitVec 16) (f : Cmd → Cmd) : Queue :=
  { v with cmds := v.cmds.map (fun c => if c.idx == idx then f c else c) }

/-- Key of a unit's snapshot for a command among the snapshots of a queue. -/
def snapKey (idx : BitVec 16) (u : Nat) : Nat := 8 * idx.toNat + u

/-- The snapshots of a command that has ended are over. -/
def Queue.endSnaps (v : Queue) (idx : BitVec 16) : Queue :=
  { v with snaps := v.snaps.each (fun k p => if k / 8 == idx.toNat then default else p) }

/-- Every earlier foreground command has completed. -/
def Queue.foregroundDone (v : Queue) (idx : BitVec 16) : Bool :=
  (v.earlier idx).all (fun c => c.done || cmdBackground c.bytes)

/-- Every earlier command has completed, background ones included. -/
def Queue.allDone (v : Queue) (idx : BitVec 16) : Bool := (v.earlier idx).all (fun c => c.done)

/-- A LOOKUP starts behind at most one other that is in flight (R96). -/
def Queue.lookupMayStart (v : Queue) (idx : BitVec 16) : Bool :=
  let open' := (v.earlier idx).filter (fun c => !c.done && !cmdBackground c.bytes)
  open'.all (fun c => cmdOp c.bytes == 0x10) && decide (open'.length ≤ 1)

/-- The start condition of a command (R96). A FENCE starts on reaching it: when every command before it has started. -/
def Queue.mayStart (v : Queue) (c : Cmd) : Bool :=
  match cmdOp c.bytes with
  | 0x10 => v.lookupMayStart c.idx
  | 0x04 => (v.earlier c.idx).all (fun e => e.started || e.done)
  | 0x30 => v.allDone c.idx
  | _ => v.foregroundDone c.idx

/-- The first command of the opcodes asked for that has not started, stands in its queue's wing and may start (R96). -/
def Queue.next (v : Queue) (isOp : Nat → Bool) : Option Cmd :=
  v.cmds.find? (fun c => !c.started && !c.done && !c.crossing && !c.unread && isOp (cmdOp c.bytes) && v.mayStart c)

/-- The queue executes commands: Running, no suspension asked for, no stop in progress (R96, R103, R107). -/
def Queue.executing (v : Queue) : Bool := v.st == .running && !v.suspending && !v.stopping

/-- What a command's own step finds: nothing to do yet, a command refused at its start, or a command to run. -/
inductive Gate where
  | wait
  | refuse (c : Cmd) (st : Byte) (unit : Byte)
  | go (c : Cmd)
  deriving DecidableEq, Repr, Inhabited

/-- The opcodes of the command table (R95). -/
def opKnown (op : Nat) : Bool :=
  [0x01, 0x02, 0x03, 0x04, 0x05, 0x10, 0x11, 0x12, 0x13, 0x14, 0x20, 0x30, 0x3F].contains op

/-- The start of a queue's next command, if its opcode is one that `isOp` takes: R96, then in ROM recovery mode
R355, then R94. -/
def State.gate (s : State) (q : Nat) (isOp : Nat → Bool) : Gate :=
  let v := s.queue q
  if !s.alive || !v.executing then .wait
  else match v.next isOp with
  | none => .wait
  | some c =>
    if s.recovery && opKnown (cmdOp c.bytes) && cmdOp c.bytes != 0x3F && cmdOp c.bytes != 0x05 &&
        cmdOp c.bytes != 0x04 then .refuse c stFwIncompatible 0x8#8
    else if !cmdOk c.bytes s.cfg.sems then .refuse c stDescInvalid 0x0#8
    else .go c

/-- Payload of a command trace packet (R399). -/
def cmdPayload (q op : Nat) (complete : Bool) (st : Byte) (seq : Word) : Nat :=
  q * 2 ^ 98 + op * 2 ^ 90 + (if complete then 2 ^ 89 else 0) + st.toNat * 2 ^ 81 + seq.toNat * 2 ^ 49

/-- A command starts. A progress event (R106). -/
def State.startCmd (s : State) (q : Nat) (c : Cmd) : State :=
  let s := (s.updQueue q (fun v => v.updCmd c.idx (fun c => { c with started := true }))).progress q
  (s.count unitFront 0x01 q 1).trace 3 unitFront (some q) (cmdPayload q (cmdOp c.bytes) false stOk (s.queue q).seq)

/-- The completed commands at the front of the ring leave it, and HEAD passes them (R92). -/
def State.advanceHead (s : State) (q : Nat) : State :=
  let v := s.queue q
  let n := (v.cmds.takeWhile (fun c => c.done)).length
  s.setQueue q { v with
    cmds := v.cmds.drop n
    head := BitVec.ofNat 16 ((v.head.toNat + n) % s.qRingN q) }

/-- A Running queue whose HEAD has reached TAIL is Idle (R104); one that is being suspended becomes Suspended first (R103). -/
def State.settle (s : State) (q : Nat) : State :=
  let v := s.queue q
  if v.st == .running && v.head == v.tail && !v.stopping && !v.suspending then s.setQueue q { v with st := .idle } else s

/-- Mark a command complete. A progress event. -/
def State.closeCmd (s : State) (q : Nat) (idx : BitVec 16) : State :=
  (((s.updQueue q (fun v => (v.updCmd idx (fun c => { c with started := true, done := true })).endSnaps idx)).progress
    q).advanceHead q).settle q

/-- A command leaves the commands in flight with ST_OK. -/
def State.endCmd (s : State) (q : Nat) (c : Cmd) : State :=
  (s.trace 3 unitFront (some q) (cmdPayload q (cmdOp c.bytes) true stOk (s.queue q).seq)).closeCmd q c.idx

/-- Physical base of the completion record ring and of the fault record slot (R109, R110). -/
def State.crecBase (s : State) (q : Nat) : Nat :=
  s.fld (offQ q qCrecHi) 0 20 * 2 ^ 32 + (s.reg (offQ q qCrecLo)).toNat
def State.frecBase (s : State) (q : Nat) : Nat :=
  s.fld (offQ q qFrecHi) 0 20 * 2 ^ 32 + (s.reg (offQ q qFrecLo)).toNat

/-- A fault without addresses, detail or itinerary. -/
def State.fault (s : State) (st unit : Byte) : FaultInfo :=
  { (default : FaultInfo) with status := st, unit := unit, ccyc := s.ccyc }

/-- Record bytes from fields, each a value and its length in bytes. -/
def record (fs : List (Nat × Nat)) : List Byte := fs.flatMap (fun f => natBytes f.2 f.1)

-- Faults.

/-- DETAIL of a semaphore fault: index, OWNER and OWNED (R111). -/
def State.semDetail (s : State) (i : Nat) : Word :=
  packWord [(i, 0), ((s.sem i).owner.toNat, 16), (if (s.sem i).owned then 1 else 0, 22)]

/-- The unit held work of the queue (R110, ACTIVE). -/
def State.unitActive (s : State) (q : Nat) : Nat → Bool
  | 0 => (s.queue q).cmds.any (fun c => c.started && !c.done)
  | 1 => s.itins.any (fun i => i.q == q && i.place != .ended) || s.tiles.any (fun t => t.q == q)
  | 2 => s.misses.any (fun m => m.waiters.any (fun w => w.q == q))
  | 3 => s.porter.batches.any (fun b => b.q == q)
  | 4 => s.blocks.any (fun b => b.q == q)
  | 5 => s.remote.outs.any (fun o => o.q == q)
  | 6 => s.sems.cells.any (fun c => c.2.waiters.any (fun w => w.q == q)) || s.releases.any (fun r => r.q == q)
  | 7 => s.waiting.any (fun r => r.q == some q) || s.outs.any (fun o => o.req.q == some q) ||
      s.cports.cells.any (fun c => (c.2.fills ++ c.2.await).any (fun f => f.q == q))
  | _ => false

/-- Itineraries that have work in a unit (R110, ITIN_MASK). -/
def State.unitMask (s : State) (q : Nat) (u : Nat) : BitVec 16 :=
  let ns : List Nat := match u with
    | 1 => (s.itins.filter (fun i => i.q == q && i.place != .ended)).map (fun i => i.num) ++
        (s.tiles.filter (fun t => t.q == q && !t.written)).map (fun t => t.num)
    | 2 => (s.tiles.filter (fun t => t.q == q && s.misses.any (fun m => m.waiters.any (fun w => w.who == .tile t.id)))).map
        (fun t => t.num)
    | 4 => (s.blocks.filter (fun b => b.q == q)).map (fun b => b.itin)
    | 6 => (s.itins.filter (fun i => i.q == q && i.status == .taking)).map (fun i => i.num)
    | 7 => (s.tiles.filter (fun t => t.q == q && t.stage == .issued)).map (fun t => t.num)
    | _ => []
  ns.foldl (fun a n => a ||| BitVec.ofNat 16 (2 ^ n)) 0#16

def State.updSnap (s : State) (q : Nat) (idx : BitVec 16) (u : Nat) (f : UnitSnap → UnitSnap) : State :=
  s.updQueue q (fun v => { v with snaps := v.snaps.set (snapKey idx u) (f (v.snaps.get (snapKey idx u))) })

/-- The snapshots of the failed command take the units' activity at the fault. -/
def State.snapUnits (s : State) (q : Nat) (idx : BitVec 16) : State :=
  (List.range 8).foldl (fun a u =>
    a.updSnap q idx u (fun p => { p with active := s.unitActive q u, mask := s.unitMask q u })) s

/-- The command whose work a stream is: the LOOKUP or UPDATE of its batch, or else the RUN of the queue's task. -/
def State.streamCmd (s : State) (q stream : Nat) : Option (BitVec 16) :=
  match s.porter.batches.find? (fun b => b.stream == stream && b.q == q) with
  | some b => some b.cmd
  | none => (s.queue q).task.map (fun t => t.cmd)

/-- The snapshot of a unit for the command whose work a stream is changes. -/
def State.streamSnap (s : State) (q stream u : Nat) (f : UnitSnap → UnitSnap) : State := match s.streamCmd q stream with
  | some idx => s.updSnap q idx u f
  | none => s

/-- Count a tile, block, parcel or row group that a unit has issued for a command, or completed (R110). -/
def State.snapIssued (s : State) (q stream u n : Nat) : State :=
  s.streamSnap q stream u (fun p => { p with issued := p.issued + n })
def State.snapDone (s : State) (q stream u n : Nat) : State :=
  s.streamSnap q stream u (fun p => { p with done := p.done + n })
def State.snapDetail (s : State) (q stream u : Nat) (d : Word) : State :=
  s.streamSnap q stream u (fun p => { p with detail := d })

/-- Rings the queue's task names. -/
def State.taskRings (s : State) (q : Nat) : List Nat :=
  match (s.queue q).task with
  | some t => t.rings.map reRing
  | none => []

/-- Held slots are abandoned (R186): CLAIMP returns to TAIL and TAKEP to HEAD; what was published stays. -/
def Ring.abandon (r : Ring) : Ring := { r with claimp := r.tail, takep := r.head, avail := r.occ, claimed := 0 }

def Req.dropTiles (keep : Nat → Bool) (r : Req) : Req := { r with tiles := r.tiles.filter keep }

/-- Number of a direction and class among the Corridor's counts. -/
def corKey (toEast : Bool) (cls : Nat) : Nat := cls + if toEast then 4 else 0

def Corridor.lane (c : Corridor) (toEast : Bool) : Bank (List CorItem) := if toEast then c.toEast else c.toWest

/-- Items leave the Corridor; the counts of the flit at the head start again where the item at the head has left. -/
def Corridor.retain (c : Corridor) (keep : CorItem → Bool) : Corridor :=
  let stays (k : Nat) : Bool := match ((c.lane (decide (4 ≤ k))).get (k % 4)).head? with
    | some i => keep i
    | none => true
  { c with
    toEast := c.toEast.each (fun _ l => l.filter keep), toWest := c.toWest.each (fun _ l => l.filter keep)
    got := c.got.each (fun k n => if stays k then n else 0), replays := c.replays.each (fun k n => if stays k then n else 0) }

/-- The items in flight on the Corridor. -/
def State.corItems (s : State) : List CorItem := (s.corridor.toEast.cells ++ s.corridor.toWest.cells).flatMap (fun c => c.2)

/-- The request that an item carries, or carries an answer to. -/
def CorItem.req? : CorItem → Option Req
  | .request r | .quarter r _ _ _ | .landed r | .rejected r _ _ => some r
  | _ => none

/-- An item enters the Corridor (R17, R403). -/
def State.corPush (s : State) (toEast : Bool) (cls : Nat) (i : CorItem) : State :=
  let c := s.corridor
  { s with corridor :=
    if toEast then { c with toEast := c.toEast.set cls (c.toEast.get cls ++ [i]) }
    else { c with toWest := c.toWest.set cls (c.toWest.get cls ++ [i]) } }

/-- ST_INTERNAL of the Corridor. -/
def State.corridorFault (s : State) : FaultInfo :=
  { s.fault stInternal 0x0#8 with detail := 0x60#32 }

-- The route of a memory request (R354, R367).

/-- Number of ones in the low `n` bits. -/
def popcount (m n : Nat) : Nat := ((List.range n).filter (fun i => m / 2 ^ i % 2 == 1)).length

/-- The k-th set bit of a mask, counted from bit 0 (R367). -/
def nthBit (m k : Nat) : Nat := ((List.range 8).filter (fun i => m / 2 ^ i % 2 == 1)).getD k 0

/-- The lowest-numbered memory port whose link is up (R354). -/
def State.lowestPort (s : State) : Option Nat :=
  (List.range s.cfg.mports).find? (fun p => s.flag offMportLink p)

/-- Step 7 of the start has passed and the block is not in recovery: R367 routes, not R354. -/
def State.structured (s : State) : Bool := !s.recovery && (s.boot.ready || decide (7 < s.boot.step))

/-- The interleave of R367. -/
def State.interleave (s : State) (pa : Nat) : Nat :=
  let ilv := s.reg offLdgIlv
  let a := pa % 2 ^ 46
  let east := s.cfg.twoWings && a / 2 ^ bits ilv 24 6 % 2 == 1
  let mask := if east then bits ilv 8 8 else bits ilv 0 8
  let w := Nat.log2 (popcount mask 8)
  let g := 9 + bits ilv 16 4
  let k := if w = 0 then 0 else (a / 2 ^ g % 2 ^ w) ^^^ (a / 2 ^ (g + w) % 2 ^ w)
  nthBit mask k + (if east then 8 else 0)

/-- The memory port of a local physical address. -/
def State.portOf (s : State) (pa : Nat) : Option Nat :=
  if s.structured then some (s.interleave pa) else s.lowestPort

/-- The memory port of an address, whatever the state of the links. -/
def State.portFor (s : State) (pa : Nat) : Nat := (s.portOf pa).getD 0

-- Requests on their way out of their unit.

/-- A memory port takes requests: its link is up and it has not been declared failed (R39, R40). -/
def State.mportUp (s : State) (p : Nat) : Bool :=
  decide (p < s.cfg.mports) && s.flag offMportLink p && !s.flag offMportFailed p

/-- ST_INTERNAL of a memory port (R111, R112). -/
def State.mportFault (s : State) (p : Nat) : FaultInfo :=
  { s.fault stInternal 0x7#8 with detail := BitVec.ofNat 32 p }

/-- Tag banks of a wing that are out of use. -/
def State.banksOut (s : State) (east : Bool) : Nat :=
  ((List.range s.cfg.tagBanks).filter (fun b => s.rel.tagBanks.get (b + if east then 8 else 0) == .outOfUse)).length

/-- A write the lane issues invalidates the overlapping quarters in all of its lines. -/
def State.cacheWritten (s : State) (lane pa len : Nat) : State :=
  s.updLane lane (fun v => { v with cache := v.cache.map (fun c =>
    if c.base != pa / 512 * 512 then c
    else { c with valid := BitVec.ofNat 4 (([0, 1, 2, 3].filter (fun k => bitAt c.valid k &&
      !(decide (c.base + 128 * k < pa + len) && decide (pa < c.base + 128 * k + 128)))).foldl (fun a k => a + 2 ^ k) 0) }) })

/-- A final write that waits behind a write which can no longer land (R35, R225). -/
def State.stranded (s : State) (stream id : Nat) (dev : Option Nat) : Bool :=
  s.lost.any (fun l => l.stream == stream && l.dev == dev && decide (l.id < id))

/-- A write marked final: WRITE_FINAL, or an atomic add, which keeps its opcode (R34, R225; DESIGN CHOICE, log 114). -/
def Req.isFinal (r : Req) : Bool := r.op == 2#3 || r.final

/-- Where a request goes when its unit sends it: it waits for its marking (R225), enters the arbitration of its port, or
crosses the Corridor to the port's wing (R15); a stranded final write is discarded (R35). A port that is failed or absent
fails it (R39, R40), as does a read in a wing without tag banks (R384). -/
inductive ReqPath where
  | hold | enter | cross | gone
  | fail (f : FaultInfo)
  deriving DecidableEq, Repr, Inhabited

def State.pathOf (s : State) (r : Req) : ReqPath :=
  if r.heldFor.isSome then .hold
  else if r.isFinal && s.stranded r.stream r.id none then .gone
  else if r.op == 0#3 && s.banksOut r.east == s.cfg.tagBanks then .fail (s.fault stInternal 0x0#8)
  else if !s.mportUp r.port then .fail (s.mportFault r.port)
  else if mportEast r.port == r.east then .enter
  else if s.corridor.failed then .fail s.corridorFault
  else .cross

/-- A lane's write leaves it: its read cache is invalidated (R222). -/
def State.leavesLane (s : State) (r : Req) : State := match r.holder with
  | .lane l => if r.op == 0#3 then s else s.cacheWritten l r.pa r.len
  | _ => s

/-- A request takes its path; one that fails goes nowhere. -/
def State.sendReq (s : State) (r : Req) : ReqPath → State
  | .hold => { s with waiting := s.waiting ++ [r] }
  | .enter => { (s.leavesLane r) with waiting := s.waiting ++ [r] }
  | .cross => (s.leavesLane r).corPush (mportEast r.port) corData (.request r)
  | .gone => s
  | .fail _ => s

/-- A fault met during a stop is counted in EXTRA (R107, R110). -/
def State.extraFault (s : State) (q : Nat) : State :=
  let v := s.queue q
  match v.stop with
  | some p => s.setQueue q { v with stop := some { p with extra := min 65535 (p.extra + 1) } }
  | none => s

/-- A write held for its marking goes out as an ordinary write in its queue's stop (R225). -/
def State.letGo (s : State) (q : Nat) (r : Req) : State :=
  match s.pathOf { r with heldFor := none } with
  | .fail _ => s.extraFault q
  | p => s.sendReq { r with heldFor := none } p

/-- The lanes' part of a stop (R107): itineraries end, tiles that have not issued are dropped, data of reads in
flight will be discarded, and writes held for their marking go out as ordinary writes (R225). -/
def State.stopLanes (s : State) (q : Nat) : State :=
  let mine (t : Tile) : Bool := t.q == q
  let gone := (s.tiles.filter (fun t => mine t && !t.written)).map (fun t => t.id)
  let held (r : Req) : Bool := r.q == some q && r.heldFor.isSome
  let t : State := { s with
    itins := (s.itins.map (fun i => if i.q == q then { i with place := .ended, heldW := none, heldR := none } else i))
    tiles := (s.tiles.filter (fun t => !gone.contains t.id)).map (fun t =>
      if mine t then { t with final := some (t.final.getD false) } else t)
    lanes := s.lanes.each (fun _ v => { v with
      tileq := v.tileq.filter (fun i => !gone.contains i), rwins := v.rwins.filter (fun w => w.q != q) })
    waiting := s.waiting.filter (fun r => !held r)
    releases := s.releases.filter (fun r => r.q != q) }
  (s.waiting.filter held).foldl (fun a r => a.letGo q r) t

/-- The semaphore and translation units' part: pending takes are dropped, misses keep their other waiters. An increment that
has been raised stands, on the Corridor too (R203). -/
def State.stopWaiters (s : State) (q : Nat) : State :=
  let keep (i : CorItem) : Bool := match i with
    | .semTake _ w | .semGrant _ w | .semNotice _ w => w.q != q
    | _ => true
  { s with
    sems := s.sems.each (fun _ v => { v with waiters := v.waiters.filter (fun w => w.q != q) })
    corridor := s.corridor.retain keep
    misses := s.misses.map (fun m => { m with waiters := m.waiters.filter (fun w => w.q != q) }) }

/-- The queue whose work a reading is. -/
def State.readingQueue (s : State) (r : Reading) : Option Nat :=
  match r.who with
  | .command q _ | .preload q _ => some q
  | .batch id => (s.porter.batches.find? (fun b => b.id == id)).map (fun b => b.q)
  | .desc stream => (s.itin stream).map (fun i => i.q)
  | .serve _ | .image | .hole _ | .promotion _ => none

/-- A write of the same UPDATE row no longer waits: it has been issued or has left its wing (R294). -/
def State.rowBegun (s : State) (r : Req) : Bool := match r.row with
  | none => false
  | some p => decide ((s.waiting.filter (fun x => x.tiles == r.tiles && x.row.any (fun y => y.va == p.va))).length < p.parts)

/-- The queue of a tile, a block or a reading that bytes are for. -/
def State.destsQueue (s : State) (ds : List Dest) : Option Nat :=
  match ds with
  | [] => none
  | .tile id _ _ _ :: _ => (s.tile id).map (fun t => t.q)
  | .block id _ _ _ :: _ => (s.blocks.find? (fun b => b.id == id)).map (fun b => b.q)
  | .fetch id _ _ _ _ :: _ => (s.readings.find? (fun r => r.id == id)).bind s.readingQueue

/-- A write parcel held for its marking goes out as an ordinary one in its queue's stop (R225); one that cannot cross the
Corridor is not sent. -/
def State.letGoParcel (s : State) (q : Nat) (x : TxParcel) : State :=
  let x := { x with heldFor := none }
  if xportEast x.port == s.qEast q then s.updXport x.port (fun v => { v with tx := v.tx ++ [x] })
  else if s.corridor.failed then { s.extraFault q with remote := { s.remote with
    outs := s.remote.outs.filter (fun o => !(o.dst.toNat == x.parcel.dst.toNat && o.pseq == x.parcel.pseq)) } }
  else s.corPush (xportEast x.port) corParcel (.parcel x)

/-- The Porter's and the remote unit's part: sub-windows end at once, their reads and outstanding LKUP_REQ parcels are
abandoned, and a batch stays bound until the stop is complete (R298); a write parcel that has not begun is not sent, but for
those held for their marking. -/
def State.stopPorter (s : State) (q : Nat) : State :=
  let ids := (s.porter.batches.filter (fun b => b.q == q)).map (fun b => b.id)
  let crossing := s.corItems.filterMap (fun i => match i with
    | .parcel x => some x
    | _ => none)
  let waits := (s.remote.ports.cells.flatMap (fun c => c.2.tx) ++ crossing).filter (fun x => x.q == some q && !x.begun)
  let held := waits.filter (fun x => x.heldFor.isSome)
  let unsent := waits.filter (fun x => x.heldFor.isNone && x.parcel.ptype != 0x01#8)
  let keep (i : CorItem) : Bool := match i with
    | .parcel x => x.q != some q
    | .larderAsk k _ => k != some q
    | _ => true
  let t : State := { s with
    corridor := s.corridor.retain keep
    porter := { s.porter with subs := s.porter.subs.filter (fun w => !ids.contains w.batch) }
    -- A row of an UPDATE of which a write has issued is written to the end (R294).
    waiting := s.waiting.filter (fun r => !(r.q == some q && r.holder == .porter) || s.rowBegun r)
    larder := { s.larder with
      probes := s.larder.probes.filter (fun p => s.destsQueue p.dests != some q)
      installs := s.larder.installs.filter (fun i => !i.preload.any (fun p => p.1 == q)) }
    remote := { s.remote with
      ports := s.remote.ports.each (fun _ v => { v with tx := v.tx.filter (fun x => x.q != some q || x.begun) })
      outs := s.remote.outs.filter (fun o => !(o.q == q && (o.parcel.ptype == 0x01#8 ||
        unsent.any (fun x => x.parcel.pseq == o.pseq && x.parcel.dst == o.parcel.dst)))) } }
  held.foldl (fun a x => a.letGoParcel q x) t

/-- The client ports' part: a slot fill in progress completes, others are not begun. The Expander drops the queue's
blocks; one that has reads on their way keeps its buffer units until they have returned (R249). -/
def State.stopPushes (s : State) (q : Nat) : State :=
  { s with
    cports := s.cports.each (fun _ v => { v with fills := v.fills.filter (fun f => f.q != q || f.begun) })
    blocks := (s.blocks.filter (fun b => b.q != q || !b.want.isEmpty)).map (fun b =>
      if b.q == q then { b with dropped := true } else b) }

/-- A read that brings bytes for a reading. -/
def Req.fetches (r : Req) : Bool := r.dests.any (fun d => match d with
  | .fetch _ _ _ _ _ => true
  | _ => false)

/-- The reads of a queue's commands and batches are given up: what has not been asked for is not, what is on its way will be
discarded; a MARKER no longer ends with its record (R107). -/
def State.stopReads (s : State) (q : Nat) : State := { s with
  readings := s.readings.filter (fun r => s.readingQueue r != some q)
  waiting := s.waiting.filter (fun r => !(r.q == some q && r.fetches))
  records := s.records.map (fun r => match r.note with
    | .done k irq _ => if k == q then { r with note := .done k irq none } else r
    | _ => r) }

/-- Every unit begins to stop the queue's work (R107). -/
def State.stopUnits (s : State) (q : Nat) : State :=
  let s := (s.taskRings q).foldl (fun a r => a.updRing r Ring.abandon) s
  let s := ((((s.stopReads q).stopWaiters q).stopPorter q).stopLanes q).stopPushes q
  -- A COMMIT that waits ends with nothing applied (R377).
  if q = 0 ∧ s.ledger.st = .committing then
    { s with ledger := { s.ledger with st := .opened, clearing := false } }
  else s

/-- LDG_RESULT (R378): ERR_WORD holds offset bits [20:2]. -/
def State.ledgerResult (s : State) (st : Byte) (check off : Nat) : State :=
  s.setReg offLdgResult (packWord [(st.toNat, 24), (check, 20), (off / 4 % 2 ^ 19, 0)])

/-- A COMMIT that waits fails with the status its queue's stop gives it (R377, R378). -/
def State.commitStopped (s : State) (q : Nat) (st : Byte) : State :=
  if q = 0 ∧ s.ledger.st = .committing then (s.ledgerResult st 0 0).raiseEvent offLdgEvents 1 else s

/-- Index of an itinerary's next instruction. -/
def State.insIndex (s : State) (q : Nat) (n : Option Nat) : Nat :=
  match n with
  | some n => ((s.itins.find? (fun i => i.q == q && i.num == n)).map (fun i => i.pc)).getD 0
  | none => 0

/-- The lanes' snapshot gives the instruction index of the itinerary that a fault names (R110). -/
def State.snapInstr (s : State) (q : Nat) (idx : BitVec 16) (f : FaultInfo) : State :=
  if f.itin.isSome then s.updSnap q idx 1 (fun p => { p with detail := BitVec.ofNat 32 f.instr }) else s

/-- The blocks of a queue that have failed a check while earlier ones are still being checked: the stop counts them (R245). -/
def State.failedBlocks (s : State) (q : Nat) : List Block := s.blocks.filter (fun b => b.q == q && !b.dropped && (match b.stage with
  | .failed _ => true
  | _ => false))

/-- The queue's work stops for a fault of one of its commands (R97, R107). A fault that meets a stop in progress is
counted in EXTRA. -/
def State.failCmd (s : State) (q : Nat) (idx : BitVec 16) (f : FaultInfo) : State :=
  let v := s.queue q
  match v.stop with
  | some _ => s.extraFault q
  | none =>
    if v.st == .running || v.st == .suspended then
      let t0 := (s.snapUnits q idx).snapInstr q idx f
      let t := t0.updQueue q (fun v => { v with
        stop := some { fault := some f, failed := some idx, retire := false, extra := (t0.failedBlocks q).length } })
      (t.commitStopped q f.status).stopUnits q
    else s

/-- The command that a timeout, an ABORT or a unit's fault fails: the task's RUN, or else the oldest foreground command in
flight (R106). With none in flight the model takes the oldest foreground command that has not completed, then the next
command that has not been read, then the one at HEAD (DESIGN CHOICE, log 92: R106 and R108 name no command there). -/
def Queue.workCmd (v : Queue) (ringN : Nat) : BitVec 16 :=
  match v.task with
  | some t => t.cmd
  | none => match v.oldestForeground, v.cmds.find? (fun c => !c.done && !cmdBackground c.bytes) with
    | some c, _ => c.idx
    | none, some c => c.idx
    | none, none =>
      let next := BitVec.ofNat 16 ((v.head.toNat + v.cmds.length) % ringN)
      if next == v.tail then v.head else next

/-- A unit aborts the queue's task (R26, R107). -/
def State.abort (s : State) (q : Nat) (f : FaultInfo) : State := s.failCmd q ((s.queue q).workCmd (s.qRingN q)) f

/-- A command completes with a status other than ST_OK at its start (R97). -/
def State.refuseCmd (s : State) (q : Nat) (c : Cmd) (st unit : Byte) : State :=
  s.failCmd q c.idx (s.fault st unit)

/-- ASID of the Steward's memory accesses (R345). -/
def State.stwAsid (s : State) : BitVec 16 := BitVec.ofNat 16 (bits (s.boot.ret.get offStwBootasid) 0 16)

-- Records (R109, R110, R282, R321, R348, R396, R404).

/-- The streams of a queue's front end and of the Steward (R29): their counters lie above every numbered stream. -/
def feStream (q : Nat) : Nat := 2 ^ 64 + q
def stwStream : Nat := 2 ^ 64 + 64

/-- The bytes at an address by the 512-byte windows they lie in (R23). -/
def windowsOf (pa : Nat) (bytes : List Byte) : List (Nat × List Byte) :=
  (List.range ((511 + (bytes.length + pa)) / 512 - pa / 512)).map (fun k =>
    let lo := max pa ((pa / 512 + k) * 512)
    (lo, (bytes.drop (lo - pa)).take ((pa / 512 + k + 1) * 512 - lo)))

/-- Who writes a record: the queue whose record it is, the stream, the ASID and the priority class (R29, R404). -/
structure Writer where
  q : Option Nat
  stream : Nat
  asid : BitVec 16
  prio : BitVec 2

/-- The write request `id` of a piece of record `rid`: it is issued from the West wing (R404). -/
def State.recordReq (s : State) (w : Writer) (rid id pa : Nat) (bytes : List Byte) : Req := {
  id := id, port := s.portFor pa, op := 1, pa := pa, len := bytes.length, east := false, asid := w.asid, prio := w.prio
  cat := .write, q := w.q, holder := .frontEnd, stream := w.stream, ring := none, dests := []
  bytes := bytes.zipIdx.map (fun b => (pa + b.2, b.1)), tiles := [], service := none, heldFor := none, slot := none
  record := some rid }

/-- What follows a record that has been written, or has not. -/
def State.noteActs (s : State) (n : Note) (bad : Bool) : State :=
  match n with
  | .done q irq marker =>
    let s := if bad then s.raiseQueue q 5 else s
    let s := if irq then s.raiseQueue q 0 else s
    match marker.bind (s.queue q).cmd with
    | some c => if c.started && !c.done then s.endCmd q c else s
    | none => s
  | .fault q => if bad then s.raiseQueue q 4 else s
  | .log _ => if bad then s.raiseEvent offXltEvents 2 else s
  | .load => s.raiseEvent offLoadEvents (if bad then 1 else 0)
  | .tally => (s.raiseEvent offTlyStatus (if bad then 1 else 0)).recordDone
  | .snap q _ =>
    let s := s.recordDone
    if bad then s
    else s.updQueue q (fun v => { v with task := v.task.map (fun t => { t with phase := .running }) })
  | .reply hole pa =>
    -- The reply's address is committed once the requester's side has acknowledged (R338, R348).
    if bad then s else { s with boot := { s.boot with replies := s.boot.replies ++ [(hole, pa)] } }

/-- One request of a record is over; with the last of them the record is. -/
def State.recordPart (s : State) (rid id : Nat) (bad : Bool) : State :=
  match s.records.find? (fun r => r.id == rid) with
  | none => s
  | some r =>
    let r := { r with left := r.left.filter (fun i => i != id), bad := r.bad || bad }
    if r.left.isEmpty then
      ({ s with records := s.records.filter (fun x => x.id != rid) } : State).noteActs r.note r.bad
    else { s with records := s.records.map (fun x => if x.id == rid then r else x) }

/-- A request of a record fails. The record of a SNAPSHOT task aborts the task, with the record's address (R397). -/
def State.recordFails (s : State) (rid id : Nat) (f : FaultInfo) : State :=
  match s.records.find? (fun r => r.id == rid) with
  | some r => match r.note, (match r.note with
      | .snap q _ => (s.queue q).task
      | _ => none) with
    | .snap q _, some t =>
      (({ s with records := s.records.filter (fun x => x.id != rid) } : State).recordDone).failCmd q t.cmd
        (if f.status == stInternal then f else { f with unit := 0x0#8, va := t.snapVa })
    | _, _ => s.recordPart rid id true
  | none => s

/-- A request of a record leaves. -/
def State.sendPart (s : State) (r : Req) : State :=
  match s.pathOf r, r.record with
  | .fail f, some rid => s.recordFails rid r.id f
  | p, _ => s.sendReq r p

/-- A record begins: its number, and its pieces with the numbers of their requests. -/
def State.openRecord (s : State) (n : Note) (chunks : List (Nat × List Byte)) : State × Nat × List ((Nat × List Byte) × Nat) :=
  let parts := chunks.flatMap (fun c => windowsOf c.1 c.2)
  let rid := s.nextId
  let ids := (List.range parts.length).map (fun k => rid + 1 + k)
  ({ s with
    nextId := rid + 1 + parts.length, records := s.records ++ [{ id := rid, note := n, left := ids, bad := false }] },
    rid, parts.zip ids)

/-- Write a record: its pieces go out as requests of their own. -/
def State.writeRecord (s : State) (n : Note) (w : Writer) (chunks : List (Nat × List Byte)) : State :=
  match s.openRecord n chunks with
  | (t, rid, parts) => parts.foldl (fun a p => a.sendPart (a.recordReq w rid p.2 p.1.1 p.1.2)) t

/-- The front end as the writer of a queue's records. -/
def State.feWriter (s : State) (q : Nat) : Writer := ⟨some q, feStream q, s.qAsid q, s.qPrio q⟩

/-- The Steward as a writer (R345, R404). -/
def State.stwWriter (s : State) : Writer := ⟨none, stwStream, s.stwAsid, 1#2⟩

/-- Write a completion record (R109, R110): dropped with CREC_LOST when its ring lies on another device or the write
returns a non-OK status. SEQ advances either way. DONE and the end of a MARKER wait for it (R94, R96). -/
def State.completionRecord (s : State) (q : Nat) (c : Cmd) (detail : Nat) : State :=
  let v := s.queue q
  let n := 2 ^ s.fld (offQ q qCrecHi) 28 4
  let pa := s.crecBase q + 32 * (v.seq.toNat % n)
  let bytes := record [(v.seq.toNat, 4), (cmdUsertag c.bytes, 4), ((s.cmdVa q c.idx).toNat, 8), (cmdOp c.bytes, 1),
    (0, 1), (q, 1), (0, 1), (detail, 4), (s.ccyc.toNat, 8)]
  let note := Note.done q (cmdIrq c.bytes) (if cmdOp c.bytes == 0x05 then some c.idx else none)
  let t := s.setQueue q { v with seq := v.seq + 1 }
  if paDevice (s.crecBase q) != s.devid then t.noteActs note true else t.writeRecord note (s.feWriter q) [(pa, bytes)]

/-- A command completes with ST_OK: its record if REC is set, DONE if IRQ is set and no record is written (R94, R97). A MARKER
always writes a record, and completes with it (R96). -/
def State.finishCmd (s : State) (q : Nat) (c : Cmd) (detail : Nat) : State :=
  if cmdOp c.bytes == 0x05 then s.completionRecord q c detail
  else
    let s := if cmdRec c.bytes then s.completionRecord q c detail
      else if cmdIrq c.bytes then s.raiseQueue q 0 else s
    s.endCmd q c

-- Semaphores.

def semMax : Nat := 2 ^ 20 - 1

/-- The client port a semaphore belongs to (R47). -/
def semPort (i : Nat) : Nat := i / 48

/-- A client port's link is up. -/
def State.cportUp (s : State) (c : Nat) : Bool := s.flag offCportLink c

/-- Send a semaphore-out message, or hold it while the link is down (R52, R209). -/
def State.sendSemo (s : State) (i : Nat) (op : BitVec 2) (cnt : BitVec 20) : State :=
  let c := semPort i
  let m : Semo := ⟨op, BitVec.ofNat 6 (i % 48), cnt⟩
  if s.cportUp c then (s.drive (.semo c m)).count (unitCport c) 0x04 0 1
  else s.updCport c (fun v => { v with heldSemo := v.heldSemo ++ [m] })

/-- An INC with the full COUNT of a semaphore, if that is not 0 (R49, R209). -/
def State.sendFull (s : State) (i : Nat) : State :=
  if (s.sem i).count == 0#20 then s else s.sendSemo i 0#2 (s.sem i).count

/-- An INC message that was due leaves. -/
def State.sendDue (s : State) (m : Nat × Option (BitVec 20)) : State := match m.2 with
  | some k => s.sendSemo m.1 0#2 k
  | none => s.sendFull m.1

/-- INC messages that were due leave, oldest first (R209). -/
def State.flushIncs (s : State) (p : Nat × Option (BitVec 20) → Bool) : State :=
  (s.incsDue.filter p).foldl State.sendDue { s with incsDue := s.incsDue.filter (fun m => !p m) }

/-- The INCs of a semaphore's earlier increments leave before the message of a later change (R209). -/
def State.flushEarlier (s : State) (i : Nat) : State := s.flushIncs (fun m => m.1 == i && m.2.isSome)

/-- FAULT; in the ccyc after it an INC with the full COUNT of that time follows (R209), one for all the FAULTs of a ccyc (log 69). -/
def State.sendFault (s : State) (i : Nat) : State :=
  let s := (s.flushEarlier i).sendSemo i 2#2 0#20
  { s with incsDue := s.incsDue.filter (fun m => m.1 != i) ++ [(i, none)] }

/-- Payload of a semaphore trace packet (R399). -/
def semPayload (i kind k : Nat) : Nat := i * 2 ^ 93 + kind * 2 ^ 90 + k * 2 ^ 70

/-- Slots of a ring (R182). -/
def State.nslot (s : State) (r : Nat) : Nat := s.fld (offRing r 0) 0 7
def State.ringValid (s : State) (r : Nat) : Bool := s.flag (offRing r 0) 31
def State.ringClient (s : State) (r : Nat) : Bool := s.flag (offRing r 0) 30
def State.ringPort (s : State) (r : Nat) : Nat := s.fld (offRing r 0) 24 5
def State.ringEast (s : State) (r : Nat) : Bool := s.flag (offRing r 0) 29
def State.slotBytes (s : State) (r : Nat) : Nat := 2 ^ s.fld (offRing r 0) 16 5
def State.ringBase (s : State) (r : Nat) : Nat := s.fld (offRing r 4) 9 23 * 512

/-- A position moved on by n slots, modulo NSLOT (R183). -/
def advance (p n nslot : Nat) : Nat := (p + n) % nslot

/-- `n` slots of a ring are freed now: HEAD moves, OCC falls, and the drain history grows (R183, R192). -/
def State.freeSlots (s : State) (r n : Nat) : State :=
  s.updRing r (fun v => { v with
    head := advance v.head n (s.nslot r)
    occ := v.occ - n
    frees := (List.replicate n s.ccyc ++ v.frees).filter (fun c => decide ((s.ccyc - c).toNat < 1024)) })

/-- An increment of the paired FREE_SEM moves the HEAD of a client ring by min(k, OCC) (R184). -/
def State.movePaired (s : State) (i k : Nat) : State :=
  (s.rings.cells.filter (fun c => c.2.pair == some i && s.ringClient c.1)).foldl (fun a c =>
    let n := min k (a.ring c.1).occ
    (a.freeSlots c.1 n).updRing c.1 (fun v => { v with takep := v.head })) s

-- The order of operations in one ccyc (R205, R341).

/-- Places in the order of R205. -/
def rankInc : Nat := 0
def rankDec : Nat := 1
def rankPoison : Nat := 2
def rankGrant : Nat := 3

/-- An operation takes its place in the present ccyc. -/
def State.takeTurn (s : State) (key rank : Nat) : State :=
  let t := s.turns.get key
  { s with turns := s.turns.set key { t with rank := max t.rank rank } }

/-- The increments of the present ccyc, this one among them, would take COUNT above 2^20 - 1 (R206). -/
def State.semOverflows (s : State) (i : Nat) (k : BitVec 20) : Bool :=
  !(s.sem i).poisoned && ((s.turns.get i).overflowed || decide (semMax < (s.sem i).count.toNat + k.toNat))

/-- An operation comes too late for the present ccyc: one with a later place has been applied, or it is an increment that
would make a SIGNAL command's increment of this ccyc overflow although the command has completed (log 69). -/
def State.outOfTurn (s : State) (i rank : Nat) (k : BitVec 20) : Bool :=
  let t := s.turns.get i
  decide (rank < t.rank) || (rank == rankInc && !t.overflowed && s.semOverflows i k && t.incs.any (fun x => match x with
    | .command _ => true
    | _ => false))

/-- The owning queue of a semaphore faults on a client's overflow or underflow, if it is Running or Suspended: its
oldest command not yet complete fails (R206, R207). -/
def State.ownerFault (s : State) (i : Nat) (st : Byte) : State :=
  let v := s.sem i
  let q := v.owner.toNat
  let w := s.queue q
  if v.owned && (w.st == .running || w.st == .suspended) then
    match w.oldest with
    | some c => s.failCmd q c.idx { s.fault st 0x6#8 with detail := s.semDetail i }
    | none => s.failCmd q w.head { s.fault st 0x6#8 with detail := s.semDetail i }
  else s

/-- An engine-side increment that overflows fails: its command aborts, or its task if it has not ended (R206). -/
def State.incFails (s : State) (i : Nat) : IncSource → State
  | .client => s
  | .command q => s.abort q { s.fault stSemOverflow 0x6#8 with detail := s.semDetail i }
  | .itin q num task => if (s.queue q).task.any (fun t => t.order == task) then
      s.abort q { s.fault stSemOverflow 0x6#8 with
        detail := s.semDetail i, itin := some num, instr := s.insIndex q (some num) }
    else s

/-- The queue whose packets an increment's belongs to (R399). -/
def IncSource.queue? : IncSource → Option Nat
  | .client => none
  | .command q | .itin q _ _ => some q

/-- The increments that begin to count as overflowing fail: each engine-side one on its own, and for clients' ones the
owning queue once in the ccyc (R206). -/
def State.overflowActs (s : State) (i : Nat) (before : Turn) (src : IncSource) : State :=
  let srcs := if before.overflowed then [src] else before.incs ++ [src]
  let s := srcs.foldl (fun a x => a.incFails i x) s
  if srcs.contains .client && !(before.overflowed && before.incs.contains .client) then s.ownerFault i stSemOverflow
  else s

/-- COUNT saturates: OVF is set, and FAULT takes the place of the INC messages of the ccyc (R206, R209). -/
def State.semSaturate (s : State) (i : Nat) (before : Turn) (src : IncSource) : State :=
  let s := (s.updSem i (fun v => { v with count := BitVec.ofNat 20 semMax, ovf := true })).raiseEvent offSemEvents 0
  let s : State := { s with incsDue := s.incsDue.filter (fun m => m.1 != i || m.2.isNone) }
  let s := if before.overflowed then s else s.sendFault i
  s.overflowActs i before src

/-- Increment a semaphore by k (R203, R205, R206, R209, R215): discarded when it is poisoned; overflow is judged on the total
of the ccyc. A client is not told of its own increments unless they overflow. -/
def State.semIncrement (s : State) (i : Nat) (k : BitVec 20) (src : IncSource) : State :=
  let v := s.sem i
  let u := unitSem (semEast i)
  if v.poisoned then s.count u 0x03 0 1
  else
    let t := s.turns.get i
    let over' := s.semOverflows i k
    let s := ((s.movePaired i k.toNat).count u 0x01 0 1).trace 4 u src.queue? (semPayload i 0 k.toNat)
    let s : State := { s with turns := s.turns.set i { t with incs := t.incs ++ [src], overflowed := over' } }
    if over' then s.semSaturate i t src
    else
      let s := s.setSem i { v with count := v.count + k }
      -- The INC after a FAULT of this ccyc carries this amount too.
      if src == .client || s.incsDue.contains (i, none) then s else { s with incsDue := s.incsDue ++ [(i, some k)] }

/-- Decrement by a client (R207, R215). -/
def State.semDecrement (s : State) (i : Nat) (k : BitVec 20) : State :=
  let v := s.sem i
  let u := unitSem (semEast i)
  if v.poisoned then s.count u 0x03 0 1
  else
    let s := (s.takeTurn i rankDec).trace 4 u none (semPayload i 1 k.toNat)
    if v.count.toNat < k.toNat then
      (((s.setSem i { v with count := 0#20, unf := true }).raiseEvent offSemEvents 1).sendFault i).ownerFault i
        stSemUnderflow
    else s.setSem i { v with count := v.count - k }

/-- A take of k that COUNT covers, by queue `q`: k is removed (R204). -/
def State.semRemove (s : State) (i : Nat) (k : BitVec 20) (q : Nat) : State :=
  let u := unitSem (semEast i)
  (((s.takeTurn i rankGrant).updSem i (fun v => { v with count := v.count - k })).count u 0x02 0 1).trace 4 u (some q)
    (semPayload i 2 k.toNat)

/-- A take fails on a poisoned semaphore: its queue faults with ST_SEM_POISONED from unit 0x6 (R214, R215). -/
def State.takePoisoned (s : State) (i : Nat) (q : Nat) (num : Option Nat) : State :=
  s.abort q { s.fault stSemPoisoned 0x6#8 with detail := s.semDetail i, itin := num, instr := s.insIndex q num }

/-- The itinerary number of a waiter. -/
def State.waiterNum (s : State) : SemWho → Option Nat
  | .command _ => none
  | .itin lane slot => (s.resident lane slot).map (fun i => i.num)
  | .group lane slot _ => (s.resident lane slot).map (fun i => i.num)

/-- Wing of a waiter: its lane's, or its queue's for a WAIT command. -/
def State.waiterEast (s : State) (w : SemWaiter) : Bool := match w.who with
  | .command q => s.qEast q
  | .itin lane _ => laneEast lane
  | .group lane _ _ => laneEast lane

/-- The answer to a take goes back to its waiter: at once in the semaphore's own wing, over the Corridor's semaphore class
to the other wing, whose waiting queue faults when the Corridor has failed (R17, R20, R204). -/
def State.toWaiter (s : State) (i : Nat) (w : SemWaiter) (item : CorItem) (f : State → State) : State :=
  if s.waiterEast w == semEast i then f s
  else if s.corridor.failed then s.abort w.q s.corridorFault
  else s.corPush (s.waiterEast w) corSemaphore item

/-- The waiters of a semaphore leave it. A waiter on a whole group leaves every member. -/
def State.dropWaiters (s : State) (ws : List SemWaiter) : State :=
  { s with sems := s.sems.each (fun _ v => { v with waiters := v.waiters.filter (fun w => !ws.contains w) }) }

/-- Poison a semaphore (R214, R379): COUNT 0, every engine-side waiter fails, POISON goes to the client. A RETIRE
also releases it. -/
def State.semPoison (s : State) (i : Nat) (release : Bool) : State :=
  let v := s.sem i
  let s := (s.takeTurn i rankPoison).setSem i
    { v with count := 0#20, poisoned := true, owned := v.owned && !release, waiters := [] }
  let s := s.dropWaiters (v.waiters.filter (fun w => match w.who with
    | .group _ _ _ => true
    | _ => false))
  let s := (((s.flushEarlier i).raiseEvent offSemEvents 2).sendSemo i 1#2 0#20).trace 4 (unitSem (semEast i))
    (if release then some v.owner.toNat else none) (semPayload i 3 0)
  v.waiters.foldl (fun a w => a.toWaiter i w (.semNotice i w) (fun s => s.takePoisoned i w.q (s.waiterNum w.who))) s

/-- A take reaches a semaphore (R204, R215): granted at once when nothing waits and COUNT covers it, otherwise it
joins the waiters. The caller has checked that the semaphore is not poisoned. -/
def State.semGrantsNow (s : State) (i : Nat) (k : BitVec 20) : Bool :=
  (s.sem i).waiters.isEmpty && decide (k.toNat ≤ (s.sem i).count.toNat)

def State.semQueue (s : State) (i : Nat) (w : SemWaiter) : State :=
  s.updSem i (fun v => { v with waiters := v.waiters ++ [w] })

end Sys2Proof.Machine
end

