-- ==== Sys2Proof/Machine/Structure.lean ====
section
/-!
DEFINITION. The structure registers (R364): the bits each has, the rules a structure keeps (R182, R195, R366, R367,
R373), and what a staged structure holds back (R374).
-/

namespace Sys2Proof.Machine

/-- Bits that a structure register defines; none for an offset that is no structure register (R364). -/
def structBits (off : Nat) : Option Word :=
  if off = 0x060000 ∨ off = 0x060004 then some 0x9FFFFFFF#32
  else if decide (0x061000 ≤ off) && decide (off < 0x069000) then
    match off % 0x20 with
    | 0 => some 0xFF1FBF7F#32
    | 4 => some 0xFFFFFE00#32
    | _ => none
  else if decide (0x069000 ≤ off) && decide (off < 0x069400) then
    if off % 0x10 = 0 then some 0x9F0003FF#32 else none
  else if decide (0x0A0100 ≤ off) && decide (off ≤ 0x0A010C) && off % 4 == 0 then some 0xFFFFFFFF#32
  else if decide (0x0D0100 ≤ off) && decide (off < 0x0D0140) then
    match off % 8 with
    | 0 => some 0x803FFFFF#32
    | 4 => some 0x003FFFFF#32
    | _ => none
  else match off with
  | 0x100100 | 0x100104 | 0x100108 => some 0xFFFFFFFF#32
  | 0x100110 => some 0x3F0FFFFF#32
  | 0x100114 => some 0xFF#32
  | 0x100118 => some 0x7F#32
  | _ => if decide (0x100200 ≤ off) && decide (off < 0x100220) && off % 4 == 0 then some 0x83FF03FF#32 else none

/-- Registers that only the image load writes (R364). -/
def loadOnly (off : Nat) : Bool := off == offLdgIlv || off == offLdgTiers || off == offLdgSpare

/-- RWT registers (R7, R364). -/
def isRwt (off : Nat) : Bool := (structBits off).isSome && !loadOnly off

/-- Registers of the East wing alone. -/
def eastOnly (off : Nat) : Bool := off == 0x060004 || (decide (0x100210 ≤ off) && decide (off < 0x100220))

/-- LDG_TIERS and LDG_SPARE with every tier and spare of the configuration point (R370). -/
def tiersAll (c : ConfigPoint) : Word := BitVec.ofNat 32 (2 ^ c.tiers - 1)
def sparesAll (c : ConfigPoint) : Word := match c with
  | .s => 0x00#32
  | .m => 0x11#32
  | .x => 0x7F#32

/-- The value of a structure register that no image entry names (R370). -/
def structDefault (c : ConfigPoint) (off : Nat) : Word :=
  if off = 0x060000 ∨ (off = 0x060004 ∧ c.twoWings) then 0x0A010101#32
  else if off = offLdgTiers then tiersAll c
  else if off = offLdgSpare then sparesAll c
  else 0#32

/-- A value sets a reserved bit, or a bit that names a unit the instance does not have (R3, R370, R373, log 86). -/
def structBad (c : ConfigPoint) (off : Nat) (v : Word) : Bool :=
  match structBits off with
  | none => true
  | some m =>
    decide (v &&& ~~~m ≠ 0#32) || (!c.twoWings && eastOnly off && v != 0#32) ||
      (if decide (0x061000 ≤ off) && decide (off < 0x069000) && off % 0x20 == 0 then
        (bitAt v 30 && decide (c.cports ≤ bits v 24 5)) || (bitAt v 29 && !c.twoWings)
      else match off with
        | 0x100100 => decide (2 ^ c.cports ≤ v.toNat)
        | 0x100104 => decide (2 ^ c.queues ≤ v.toNat)
        | 0x100108 => decide (2 ^ (c.queues - 32) ≤ v.toNat)
        | 0x100114 => decide (2 ^ c.tiers ≤ v.toNat)
        | 0x100118 => decide (v &&& ~~~(sparesAll c) ≠ 0#32)
        | _ => false)

-- A structure is read through a function from offsets to words.

def stValid (f : Nat → Word) (r : Nat) : Bool := bitAt (f (offRing r 0)) 31
def stClient (f : Nat → Word) (r : Nat) : Bool := bitAt (f (offRing r 0)) 30
def stEast (f : Nat → Word) (r : Nat) : Bool := bitAt (f (offRing r 0)) 29
def stPort (f : Nat → Word) (r : Nat) : Nat := bits (f (offRing r 0)) 24 5
def stLog (f : Nat → Word) (r : Nat) : Nat := bits (f (offRing r 0)) 16 5
def stNslot (f : Nat → Word) (r : Nat) : Nat := bits (f (offRing r 0)) 0 7
def stMember (f : Nat → Word) (r g : Nat) : Bool :=
  stValid f r && bitAt (f (offRing r 0)) 15 && bits (f (offRing r 0)) 8 6 == g
def stBase (f : Nat → Word) (r : Nat) : Nat := bits (f (offRing r 4)) 9 23 * 512
def stEnd (f : Nat → Word) (r : Nat) : Nat := stBase f r + stNslot f r * 2 ^ stLog f r

/-- A ring keeps R182 as far as it concerns the ring alone. -/
def ringOk182 (f : Nat → Word) (r : Nat) : Bool :=
  decide (3 ≤ stNslot f r) && decide (stNslot f r ≤ 64) && decide (9 ≤ stLog f r) && decide (stLog f r ≤ 20) &&
    (!stClient f r || decide (stEnd f r ≤ 2 ^ 32))

/-- Two rings share storage: Hall rings of one wing, or client rings of one port. -/
def ringsMeet (f : Nat → Word) (a b : Nat) : Bool :=
  stClient f a == stClient f b && (if stClient f a then stPort f a == stPort f b else stEast f a == stEast f b) &&
    decide (stBase f a < stEnd f b) && decide (stBase f b < stEnd f a)

/-- A pool of a wing: enabled, first and last unit. -/
def stPool (f : Nat → Word) (east : Bool) (k : Nat) : Bool × Nat × Nat :=
  let v := f (offLdgPool east k)
  (bitAt v 31, bits v 16 10, bits v 0 10)

/-- First and last unit of the carvable area (R365). -/
def carvable (c : ConfigPoint) : Nat × Nat := match c with
  | .s => (112, 191)
  | _ => (400, 767)

/-- A Hall ring lies in an enabled pool. -/
def inPool (f : Nat → Word) (east : Bool) (k r : Nat) : Bool :=
  let (en, lo, hi) := stPool f east k
  en && decide (lo * 65536 ≤ stBase f r) && decide (stEnd f r ≤ (hi + 1) * 65536)

/-- A pool breaks R366. -/
def poolBad (c : ConfigPoint) (f : Nat → Word) (east : Bool) (k : Nat) : Bool :=
  let (en, lo, hi) := stPool f east k
  en && (decide (lo < (carvable c).1) || decide ((carvable c).2 < hi) || decide (hi < lo) ||
    (List.range k).any (fun j =>
      let (e, l, h) := stPool f east j
      e && decide (lo ≤ h) && decide (l ≤ hi)))

/-- An enabled group breaks R195. -/
def groupBad (f : Nat → Word) (valid : List Nat) (g : Nat) : Bool :=
  let v := f (offMg g 0)
  let ms := valid.filter (fun r => stMember f r g)
  bitAt v 31 && (decide (ms.length < 2) || decide (8 < ms.length) || !ms.contains (bits v 0 10) ||
    ms.any (fun r => !stClient f r || stNslot f r != stNslot f (bits v 0 10) || stLog f r != stLog f (bits v 0 10)))

/-- The first check of R373 from 3 to 6 that a structure fails, with the register concerned. -/
def structCheck (c : ConfigPoint) (f : Nat → Word) : Option (Nat × Nat) :=
  let valid := (List.range 1024).filter (stValid f)
  let wings : List Bool := if c.twoWings then [false, true] else [false]
  match valid.find? (fun r => !ringOk182 f r) with
  | some r => some (3, offRing r 0)
  | none =>
    match valid.find? (fun r => valid.any (fun q => decide (q < r) && ringsMeet f q r)) with
    | some r => some (4, offRing r 0)
    | none =>
      match wings.findSome? (fun e => ([0, 1, 2, 3].find? (poolBad c f e)).map (fun k => offLdgPool e k)) with
      | some o => some (5, o)
      | none =>
        match valid.find? (fun r => !stClient f r && !(([0, 1, 2, 3] : List Nat).any (fun k => inPool f (stEast f r) k r))) with
        | some r => some (5, offRing r 4)
        | none =>
          match (List.range 64).find? (groupBad f valid) with
          | some g => some (6, offMg g 0)
          | none =>
            if !c.twoWings && f (offLdgQwing 0) != 0#32 then some (7, offLdgQwing 0)
            else if !c.twoWings && f (offLdgQwing 1) != 0#32 then some (7, offLdgQwing 1)
            else none

/-- LDG_ILV breaks R367. `absent` tells which ports are absent. -/
def interleaveBad (c : ConfigPoint) (v : Word) (absent : Nat → Bool) : Bool :=
  let west := bits v 0 8
  let east := bits v 8 8
  let gran := bits v 16 4
  let wsel := bits v 24 6
  let pop (m : Nat) : Nat := ((List.range 8).filter (fun i => m / 2 ^ i % 2 == 1)).length
  let badCount (m : Nat) : Bool := !([1, 2, 4, 8].contains (pop m))
  let names (m p0 n : Nat) : Bool := (List.range 8).any (fun i => m / 2 ^ i % 2 == 1 && (decide (n ≤ i) || absent (p0 + i)))
  decide (7 < gran) ||
    (if c.twoWings then
      badCount west || badCount east || decide (wsel < 15 + gran) || decide (45 < wsel) || names west 0 8 || names east 8 8
    else badCount west || east != 0 || wsel != 0 || names west 0 c.mports)

-- Staged writes.

/-- The value a register would have after the staged writes. -/
def State.structAfter (s : State) (off : Nat) : Word :=
  match s.ledger.staged.find? (fun e => e.1 == off) with
  | some e => e.2
  | none => s.reg off

/-- A register is staged to change. -/
def State.changes (s : State) (off : Nat) : Bool := s.ledger.staged.any (fun e => e.1 == off && e.2 != s.reg off)

def State.isStaged (s : State) (off : Nat) : Bool := s.ledger.staged.any (fun e => e.1 == off)

/-- The structure in force, or as the staged writes would leave it. -/
def State.structNow (s : State) (after : Bool) : Nat → Word := fun off => if after then s.structAfter off else s.reg off

/-- A staged write concerns a ring (the rows of R374's table that name rings). -/
def State.ringAffected (s : State) (r : Nat) : Bool :=
  s.isStaged (offRing r 0) || s.isStaged (offRing r 4) ||
    [false, true].any (fun a =>
      let f := s.structNow a
      (List.range 64).any (fun g => s.isStaged (offMg g 0) && stMember f r g) ||
        (stValid f r && !stClient f r && [0, 1, 2, 3].any (fun k => s.isStaged (offLdgPool (stEast f r) k) && inPool f (stEast f r) k r)) ||
        (stClient f r && bitAt (s.reg offLdgClientmap) (stPort f r) && !bitAt (s.structAfter offLdgClientmap) (stPort f r)))

/-- A staged LDG_QWING write changes a queue's wing. -/
def State.wingStaged (s : State) (q : Nat) : Bool :=
  bitAt (s.reg (offLdgQwing (q / 32))) (q % 32) != bitAt (s.structAfter (offLdgQwing (q / 32))) (q % 32)

/-- A RUN is held back by a COMMIT that waits: its task names an affected ring (R374). -/
def State.heldBack (s : State) (rings : List (BitVec 64)) : Bool :=
  s.ledger.st == .committing && rings.any (fun e => s.ringAffected (reRing e))

-- What stands a queue's progress timer.

/-- The block is in N0 and is not asked to leave it: a RUN, LOOKUP or UPDATE may start (R358, R359). -/
def State.mayWork (s : State) : Bool := s.power.st == .n0 && s.power.phase == .rest

/-- The task has not started: it is being read and checked, or it waits for resident slots. -/
def Task.unstarted (t : Task) : Bool := t.phase == .waiting || t.phase == .placing

/-- The queue has a RUN, LOOKUP or UPDATE that waits under R358: one that may start, or a RUN whose task has not started. -/
def State.powerHeld (s : State) (q : Nat) : Bool :=
  let v := s.queue q
  !s.mayWork && ((v.next (fun op => [0x01, 0x10, 0x11].contains op)).isSome ||
    (match v.task with
      | some t => t.unstarted
      | none => false))

/-- A TABLE_RETIRE of the queue waits for batches to drain. -/
def Queue.retireWaits (v : Queue) : Bool :=
  v.cmds.any (fun c => c.started && !c.done && cmdOp c.bytes == 0x13)

/-- The progress timer of a queue stands (R83, R106, R107, R358, R374, R376). -/
def State.timerStands (s : State) (q : Nat) : Bool :=
  let v := s.queue q
  v.st != .running || v.retireWaits || s.thermalStop || v.stopping || s.powerHeld q ||
    (q == 0 && s.ledger.st == .committing) ||
    (match v.task with
      | some t => t.unstarted && s.heldBack t.rings
      | none => false)

end Sys2Proof.Machine
end

