-- ==== Sys2Proof/Machine/Traffic.lean ====
section
/-!
DEFINITION. Memory requests between their issuer and their port: routing (R354, R367), crossing the Corridor (R15,
R17), tags and tracker entries (R27, R179, R384), arbitration (R189-R191), port failure (R39), and parcels on their
way to a remote port (R66-R70).
-/

namespace Sys2Proof.Machine

-- Batches and their sub-windows.

def State.batch (s : State) (id : Nat) : Option Batch := s.porter.batches.find? (fun b => b.id == id)
def State.subWin (s : State) (id : Nat) : Option SubWin := s.porter.subs.find? (fun w => w.id == id)
def State.updSub (s : State) (id : Nat) (f : SubWin → SubWin) : State :=
  { s with porter := { s.porter with subs := s.porter.subs.map (fun w => if w.id == id then f w else w) } }
def State.updBatch (s : State) (id : Nat) (f : Batch → Batch) : State :=
  { s with porter := { s.porter with batches := s.porter.batches.map (fun b => if b.id == id then f b else b) } }

-- Parcels.

/-- The remote port TBL_XROUTE gives for a device (R70). -/
def State.xroute (s : State) (d : Nat) : Nat := s.fld (offXroute (d / 16)) (2 * (d % 16)) 2

/-- A device is reachable: its port exists and its link is up (R70). -/
def State.reachable (s : State) (d : Nat) : Bool :=
  decide (s.xroute d < s.cfg.xports) && s.flag offXportLink (s.xroute d)

/-- Request-class parcels (R66). -/
def isRequestType (t : Byte) : Bool := t == 0x01#8 || t == 0x03#8 || t == 0x04#8

/-- Snapshot 3 notes the sub-window of a Porter tile that fails (R272, R294). -/
def State.porterSnap (s : State) (t : Tile) : State :=
  if t.kind.ordered || t.kind == .indexWin || (s.queue t.q).stopping then s
  else s.snapDetail t.q t.stream 3 (BitVec.ofNat 32 (((s.subWin t.ref).map (fun w => w.num)).getD 0))

/-- The failure of a memory port is raised by unit 0x3 for an UPDATE (R294) and by unit 0x7 for everything else (R112). -/
def Batch.portFault (b : Batch) (f : FaultInfo) : FaultInfo :=
  if b.isUpdate && f.status == stInternal && f.unit == 0x7#8 then { f with unit := 0x3#8 } else f

/-- The work of a stream fails: the batch it belongs to, or else the queue's task. The front end's own writes to another
device are those of a SNAPSHOT task's record, whose address their fault reports (R397). -/
def State.streamFault (s : State) (q stream : Nat) (f : FaultInfo) : State :=
  match s.porter.batches.find? (fun b => b.stream == stream && b.q == q), (s.queue q).task with
  | some b, _ => s.failCmd q b.cmd (b.portFault f)
  | none, some t => s.abort q (if stream == feStream q && f.status != stInternal then { f with unit := 0x0#8, va := t.snapVa } else f)
  | none, none => s.abort q f

/-- The wing that a request parcel comes from and its answer goes to: its queue's, or the West wing for a record (R404). -/
def State.outEast (s : State) (o : OutParcel) : Bool := o.record.isNone && s.qEast o.q

/-- An RWRITE_FINAL whose stream has lost an earlier parcel to the same device: it is never sent (R225). -/
def State.strandedParcel (s : State) (x : TxParcel) : Bool :=
  x.parcel.ptype == 0x04#8 && s.remote.outs.any (fun o => o.dst.toNat == x.parcel.dst.toNat && o.pseq == x.parcel.pseq &&
    s.stranded x.stream o.id (some o.dst.toNat))

/-- Snapshot 3 notes the sub-window a failing request belongs to: that of an LKUP_REQ, or of the tile whose output it
carries (R272). -/
def State.outSnap (s : State) (o : OutParcel) : State :=
  if (s.queue o.q).stopping then s
  else match o.sw.bind s.subWin, o.tiles.head?.bind s.tile with
    | some w, _ => s.snapDetail o.q o.stream 3 (BitVec.ofNat 32 w.num)
    | none, some t => s.porterSnap t
    | none, none => s

/-- The request of this device that a parcel carries. -/
def State.outOf (s : State) (x : TxParcel) : Option OutParcel :=
  if x.cls then none else s.remote.outs.find? (fun o => o.dst.toNat == x.parcel.dst.toNat && o.pseq == x.parcel.pseq)

/-- The work of a request parcel fails, its sub-window noted (R272). -/
def State.outFails (s : State) (o : OutParcel) (f : FaultInfo) : State := (s.outSnap o).streamFault o.q o.stream f

/-- A parcel that is not to be sent leaves the requests that wait for an answer. -/
def State.forgetParcel (s : State) (x : TxParcel) : State :=
  { s with remote := { s.remote with outs := s.remote.outs.filter (fun o =>
    x.cls || !(o.dst.toNat == x.parcel.dst.toNat && o.pseq == x.parcel.pseq)) } }

/-- The parcel's work fails; an answer to another device is dropped. -/
def State.parcelFails (s : State) (x : TxParcel) (f : FaultInfo) : State :=
  match x.q, s.outOf x with
  | some _, some o => (s.outFails o f).forgetParcel x
  | some q, none => s.streamFault q x.stream f
  | none, _ => s.forgetParcel x

/-- Hand a parcel to its remote port, over the Corridor when the port belongs to the other wing (R20, R70). -/
def State.enqueueParcel (s : State) (east : Bool) (x : TxParcel) : State :=
  if s.strandedParcel x then s.forgetParcel x
  else if xportEast x.port == east then s.updXport x.port (fun v => { v with tx := v.tx ++ [x] })
  else if s.corridor.failed then s.parcelFails x s.corridorFault
  else s.corPush (xportEast x.port) corParcel (.parcel x)

/-- A parcel that has not begun transmission follows the route that TBL_XROUTE now gives (R70, R375). A parcel held for its
marking stays in its lane's wing. -/
def State.moveParcel (s : State) (x : TxParcel) : State :=
  let d := x.parcel.dst.toNat % 64
  if !s.reachable d then s.parcelFails x { s.fault stUnreachable 0x5#8 with
    detail := BitVec.ofNat 32 d, pa := BitVec.ofNat 52 d }
  else
    let y := { x with port := s.xroute d }
    let s : State := { s with remote := { s.remote with outs := s.remote.outs.map (fun o =>
      if !x.cls && o.dst.toNat == d && o.pseq == x.parcel.pseq then { o with port := y.port } else o) } }
    if x.heldFor.isSome then s.updXport y.port (fun v => { v with tx := v.tx ++ [y] }) else s.enqueueParcel (xportEast x.port) y

/-- The parcels that have not begun transmission leave by the ports of the present routes (R375). -/
def State.reroute (s : State) : State :=
  let moves := s.remote.ports.cells.flatMap (fun c => c.2.tx.filter (fun x =>
    !x.begun && s.xroute (x.parcel.dst.toNat % 64) != x.port))
  let ports := s.remote.ports.each (fun _ v => { v with tx := v.tx.filter (fun x => !moves.contains x) })
  moves.foldl (fun a x => a.moveParcel x) { s with remote := { s.remote with ports := ports } }

/-- Send a response to a request that came in on port `x`, if the device it answers is reachable (R70). -/
def State.sendResponse (s : State) (x : Nat) (r : Parcel) : State :=
  let d := r.dst.toNat % 64
  if s.reachable d then
    s.enqueueParcel (xportEast x) { port := s.xroute d, cls := true, q := none, parcel := r, flits := parcelFlits r,
                                    begun := false, stream := 0, heldFor := none, answers := some x }
  else s

/-- Answer a request-class parcel (R68, R71, R270). -/
def State.respond (s : State) (x : Nat) (p : Parcel) (ptype status : Byte) : State :=
  s.sendResponse x { (default : Parcel) with
    ptype := ptype, src := BitVec.ofNat 8 s.devid, dst := p.src, pseq := p.pseq, batch := p.batch,
    status := if ptype == 0x06#8 then status else 0#8 }

/-- A write of an RWRITE parcel was rejected: NACK, and the rest of the parcel is forgotten (R71). -/
def State.nackService (s : State) (id : Nat) (st : Byte) : State :=
  match s.remote.service.find? (fun w => w.id == id) with
  | none => s
  | some w =>
    let s : State := { s with remote := { s.remote with service := s.remote.service.filter (fun v => v.id != id) } }
    if w.mute then s else s.respond w.port w.parcel 0x06#8 st

-- Requests.

/-- The unit of a request's issuer in fault records (R112). -/
def holderUnit : Holder → Byte
  | .lane _ => 0x1#8 | .porter => 0x3#8 | .expander => 0x4#8 | .frontEnd => 0x0#8

/-- An LKUP_REQ that is served, or waits for it, is answered with NACK (R270). -/
def State.nackServe (s : State) (id : Nat) (st : Byte) : State :=
  match s.remote.serves.find? (fun v => v.id == id) with
  | none => s
  | some v =>
    let s : State := { s with
      remote := { s.remote with serves := s.remote.serves.filter (fun x => x.id != id) }
      readings := s.readings.filter (fun r => r.who != .serve id) }
    if v.mute then s else s.respond v.port v.parcel 0x06#8 st

/-- Pieces of a reading fail with a fault. The work it belongs to aborts; a PRELOAD skips the row, and the Steward goes on
without the data (R97, R270, R279, R320). -/
def State.readFails (s : State) (id : Nat) (pieces : List (Nat × Nat)) (f : FaultInfo) : State :=
  match s.readings.find? (fun r => r.id == id) with
  | none => s
  | some r => match r.who with
    | .command q idx => s.failCmd q idx f
    | .batch b => match s.batch b with
      | none => s
      | some b =>
        let s := if (s.queue b.q).stopping then s else s.snapDetail b.q b.stream 3 (BitVec.ofNat 32 b.built)
        s.failCmd b.q b.cmd (b.portFault f)
    | .desc stream => match s.itin stream with
      | some i => s.abort i.q f
      | none => s
    | .serve v => s.nackServe v f.status
    | .preload _ _ | .image | .hole _ | .promotion _ =>
      { s with readings := s.readings.map (fun x => if x.id == id then { x with
          away := x.away.filter (fun p => !pieces.contains p)
          failed := x.failed ++ pieces.map (fun p => (p.1, p.2, f.status)) } else x) }

/-- The pieces of readings that a request brings, by reading. -/
def Req.pieces (r : Req) (id : Nat) : List (Nat × Nat) := r.dests.filterMap (fun d => match d with
  | .fetch k va _ len _ => if k == id then some (va, len) else none
  | _ => none)

/-- Readings that a request brings pieces for. -/
def Req.readings (r : Req) : List Nat := firsts (r.dests.filterMap (fun d => match d with
  | .fetch k _ _ _ _ => some k
  | _ => none))

/-- The Porter's tile a request belongs to is noted in the snapshots. -/
def State.reqSnap (s : State) (r : Req) : State :=
  match r.tiles.head?.bind s.tile with
  | some t => s.porterSnap t
  | none => s

/-- A request fails: its task or batch aborts, its reading or its record fails, or its RWRITE parcel is answered with
NACK. -/
def State.requestFault (s : State) (r : Req) (f : FaultInfo) : State :=
  match r.record, r.service with
  | some rid, _ => s.recordFails rid r.id f
  | none, some id => s.nackService id f.status
  | none, none =>
    if r.fetches then
      -- Of a reading that a stop has given up the fault is a further one (R107, R110).
      if s.readings.any (fun x => r.readings.contains x.id) then r.readings.foldl (fun a id => a.readFails id (r.pieces id) f) s
      else match r.q with
        | some q => s.extraFault q
        | none => s
    else match r.q with
    | some q => (s.reqSnap r).streamFault q r.stream f
    | none => s

/-- What a failing request fails: one number for each piece of work, so that one event fails it once. -/
def State.workOf (s : State) (r : Req) : Nat × Nat :=
  match r.record, r.service with
  | some _, _ => (0, r.id)
  | none, some id => (1, id)
  | none, none =>
    if r.fetches then
      match r.readings.head?.bind (fun id => s.readings.find? (fun x => x.id == id)) with
      | none => (2, r.id)
      | some x => match x.who with
        | .preload _ _ | .image | .hole _ | .promotion _ => (2, r.id)
        | .serve id => (3, id)
        | .batch id => (4, id)
        | .command q _ => (5, q)
        | .desc _ => (5, r.q.getD 64)
    else match s.porter.batches.find? (fun b => b.stream == r.stream && r.q == some b.q) with
      | some b => (4, b.id)
      | none => (5, r.q.getD 64)

/-- Requests that fail together: each piece of work fails once (R20, R39). -/
def State.requestsFault (s : State) (rs : List Req) (f : State → FaultInfo) : State :=
  let ks := firsts (rs.map s.workOf)
  (ks.filterMap (fun k => rs.find? (fun r => s.workOf r == k))).foldl (fun a r => a.requestFault r (f a)) s

/-- A request leaves its unit; one that cannot go on fails (R15, R39, R40, R384). -/
def State.submit (s : State) (r : Req) : State :=
  match s.pathOf r with
  | .fail f => s.requestFault r f
  | p => s.sendReq r p

/-- A request that has reached its port's wing enters the port's arbitration (R39, R40); a read of a wing without tag banks
fails (R384). -/
def State.enterPort (s : State) (r : Req) : State :=
  if r.op == 0#3 && s.banksOut r.east == s.cfg.tagBanks then s.requestFault r (s.fault stInternal 0x0#8)
  else if s.mportUp r.port then { s with waiting := s.waiting ++ [r] } else s.requestFault r (s.mportFault r.port)

/-- The write-class opcodes (R23). -/
def isWriteOp (op : BitVec 3) : Bool := op != 0#3

/-- Requests of a stream that are on their way, outstanding, or whose answer is on its way over the Corridor. -/
def State.streamReqs (s : State) (stream : Nat) : List Req :=
  ((s.waiting ++ s.outs.map (fun o => o.req)) ++ s.corItems.filterMap CorItem.req?).filter (fun r => r.stream == stream)

/-- Every earlier write-class request of the stream has landed (R35). -/
def State.writesBefore (s : State) (stream id : Nat) : Bool :=
  (s.streamReqs stream).all (fun r => !isWriteOp r.op || decide (id ≤ r.id))

-- Tags (R27, R179, R384).

/-- A holder's reservation before any bank is lost. -/
def reserveOf (_cfg : ConfigPoint) (east wr : Bool) : Holder → Nat
  | .lane _ => if wr then 64 else 512
  | .porter => if wr then 1024 else 4096
  | .expander => if wr then 0 else 1024
  | .frontEnd => if east then 0 else if wr then 128 else 512

/-- All reservations of a wing together. -/
def reserveSum (cfg : ConfigPoint) (east wr : Bool) : Nat :=
  cfg.wingLanes * reserveOf cfg east wr (.lane 0) + reserveOf cfg east wr .porter + reserveOf cfg east wr .expander +
    reserveOf cfg east wr .frontEnd

/-- Tags or tracker entries of a wing that are in use by the division. -/
def State.tagsLeft (s : State) (east wr : Bool) : Nat :=
  if wr then 8192 else s.cfg.wingTags - 8192 * s.banksOut east

/-- How often the reservations are halved so that they fit what is left (R384); at most 16 halvings are needed. -/
def halvings (sum left : Nat) : Nat := ((List.range 16).find? (fun h => decide (sum / 2 ^ h ≤ left))).getD 16

def State.reserve (s : State) (east wr : Bool) (h : Holder) : Nat :=
  reserveOf s.cfg east wr h / 2 ^ halvings (reserveSum s.cfg east wr) (s.tagsLeft east wr)

def State.poolSize (s : State) (east wr : Bool) : Nat :=
  s.tagsLeft east wr - reserveSum s.cfg east wr / 2 ^ halvings (reserveSum s.cfg east wr) (s.tagsLeft east wr)

/-- From where a request's tag comes: its reservation first, then the shared pool, else it waits (R179). -/
def State.tagShare (s : State) (r : Req) : Option Bool :=
  let wr := isWriteOp r.op
  let same := s.outs.filter (fun o => isWriteOp o.req.op == wr && o.req.east == r.east)
  if (same.filter (fun o => o.req.holder == r.holder && !o.fromPool)).length < s.reserve r.east wr r.holder then
    some false
  else if (same.filter (fun o => o.fromPool)).length < s.poolSize r.east wr then some true
  else none

/-- A tag the wing may allocate to a request: in its range, its bank in use, not outstanding (R27, R28, R384). -/
def State.tagFree (s : State) (r : Req) (tag : BitVec 17) : Bool :=
  let wr := isWriteOp r.op
  let low := tag.toNat % 65536
  (decide (65536 ≤ tag.toNat) == r.east) &&
    (if wr then decide (low < 8192)
     else decide (low < s.cfg.wingTags) && s.rel.tagBanks.get (low / 8192 + if r.east then 8 else 0) == .inUse) &&
    s.outs.all (fun o => o.tag != tag || isWriteOp o.req.op != wr)

-- Arbitration.

/-- Time-to-empty of the ring a request feeds; a multicast leader counts its group's smallest (R191). -/
def State.groupRings (s : State) (r : Nat) : List Nat :=
  if s.flag (offRing r 0) 15 && s.flag (offMg (s.fld (offRing r 0) 8 6) 0) 31 then
    (List.range 1024).filter (fun m => s.ringValid m && s.flag (offRing m 0) 15 &&
      s.fld (offRing m 0) 8 6 == s.fld (offRing r 0) 8 6)
  else [r]

/-- The deadline of a read that feeds a ring: the smallest TTE of its group; none unless every member has history (R191; DESIGN
CHOICE, log 118: R191 does not say whose history makes a multicast leader's read a deadline request). -/
def State.deadline (s : State) (r : Nat) : Option Nat :=
  let ms := s.groupRings r
  if ms.all (fun m => (s.ring m).hist) then ms.foldl (fun a m => match a with
    | none => some (s.ring m).tte
    | some t => some (min t (s.ring m).tte)) none
  else none

/-- The request's deadline when the wing is in deadline mode and it is urgent (R191). -/
def State.urgency (s : State) (east : Bool) (r : Req) : Option Nat :=
  if !s.flag (offRingArb east) 31 || isWriteOp r.op || r.cat != .read then none
  else match r.ring with
    | none => none
    | some g => (s.deadline g).filter (fun t => decide (t < 2 ^ clampTo 8 20 (s.fld (offRingArb east) 24 5)))

/-- Shares of the categories; all zero act as 1 each (R190, R194). -/
def State.shares (s : State) (east : Bool) : Nat × Nat × Nat :=
  let r := s.fld (offRingArb east) 0 8
  let w := s.fld (offRingArb east) 8 8
  let x := s.fld (offRingArb east) 16 8
  if r = 0 ∧ w = 0 ∧ x = 0 then (1, 1, 1) else (r, w, x)

/-- A record's write waits for one to the same bytes that is picked or outstanding (R37): records of one slot of a ring, or two
fault records. -/
def State.recordBehind (s : State) (r : Req) : Bool :=
  r.record.isSome && (s.waiting.filter (fun x => x.slot.isSome) ++ s.outs.map (fun o => o.req)).any (fun x =>
    x.record.isSome && decide (x.pa < r.pa + r.len) && decide (r.pa < x.pa + x.len))

/-- A waiting request that the arbiter may pick: not held, not picked, a tag or tracker entry free for it, and for a
final write every earlier write landed (R35, R179). -/
def State.pickable (s : State) (p : Nat) (r : Req) : Bool :=
  r.port == p && r.heldFor.isNone && r.slot.isNone && (s.tagShare r).isSome && !s.recordBehind r &&
    (!r.isFinal || s.writesBefore r.stream r.id)

/-- One pick at a port (R189-R191): the request's id, and the port's new counters. -/
def State.pickOne (s : State) (p : Nat) : Option (Nat × MPort × Bool) :=
  let east := mportEast p
  let v := s.mport p
  let all := s.waiting.filter (s.pickable p)
  match all.foldl (fun a r => match a with
      | none => some r.prio.toNat
      | some c => some (min c r.prio.toNat)) none with
  | none => none
  | some cls =>
    let set := all.filter (fun r => r.prio.toNat == cls)
    let urgent := set.filterMap (fun r => (s.urgency east r).map (fun t => (t, r)))
    let fixedPick : Option (Nat × MPort × Bool) :=
      let (sr, sw, sx) := s.shares east
      let has (c : Category) : Bool := set.any (fun r => r.cat == c)
      let r1 : Int := v.cntR + if has .read then sr else 0
      let w1 : Int := v.cntW + if has .write then sw else 0
      let x1 : Int := v.cntX + if has .remote then sx else 0
      let sum : Int := (if has .read then (sr : Int) else 0) + (if has .write then (sw : Int) else 0) +
        (if has .remote then (sx : Int) else 0)
      -- A category with share 0 wins only when no other category waits.
      let ok (c : Category) (sh : Nat) : Bool := has c && (decide (0 < sh) ||
        !((has .read && decide (0 < sr)) || (has .write && decide (0 < sw)) || (has .remote && decide (0 < sx))))
      let best := [(Category.read, sr, r1), (.write, sw, w1), (.remote, sx, x1)].foldl (fun a c =>
        if ok c.1 c.2.1 then match a with
          | none => some c
          | some b => if b.2.2 < c.2.2 then some c else a
        else a) none
      match best with
      | none => none
      | some b =>
        let v' := { v with
          cntR := if b.1 == .read then r1 - sum else r1
          cntW := if b.1 == .write then w1 - sum else w1
          cntX := if b.1 == .remote then x1 - sum else x1
          picks := (v.picks + 1) % 8 }
        (set.find? (fun r => r.cat == b.1)).map (fun r => (r.id, v', false))
    match urgent.foldl (fun a c => match a with
        | none => some c
        | some b => if c.1 < b.1 then some c else a) none with
    | some b => if v.picks % 8 = 7 then fixedPick else some (b.2.id, { v with picks := (v.picks + 1) % 8 }, true)
    | none => fixedPick

def catCode : Category → Nat
  | .read => 0 | .write => 1 | .remote => 2

/-- Pick for request slot k. -/
def State.pickSlot (s : State) (p k : Nat) : State :=
  match s.pickOne p with
  | none => s
  | some (id, v, urgent) =>
    let cat := ((s.waiting.find? (fun r => r.id == id)).map (fun r => catCode r.cat)).getD 0
    let s := (s.updMport p (fun _ => v)).count (unitMport p) 0x01 cat 1
    let s := if urgent then s.count (unitMport p) 0x02 0 1 else s
    { s with waiting := s.waiting.map (fun r => if r.id == id then { r with slot := some k } else r) }

-- Issue.

/-- Payload of a request trace packet (R399). -/
def reqPayload (p : Nat) (tag : BitVec 17) (seq : BitVec 16) (op : BitVec 3) (q : Option Nat) (pa : Nat) : Nat :=
  p * 2 ^ 96 + tag.toNat * 2 ^ 79 + seq.toNat * 2 ^ 63 + op.toNat * 2 ^ 60 + (q.getD 0) * 2 ^ 54 + pa % 2 ^ 52

/-- The request picked for slot k of a port that has an opcode. -/
def State.pickedReq (s : State) (p : Nat) (k : BitVec 2) (op : BitVec 3) : Option Req :=
  s.waiting.find? (fun r => r.port == p && r.slot == some k.toNat && r.op == op)

/-- A picked request may issue with a tag: the port takes requests, it holds a credit, the tag is free (R22, R32). -/
def State.mayIssue (s : State) (p : Nat) (r : Req) (tag : BitVec 17) : Bool :=
  s.alive && s.mportUp p && decide (0 < (s.mport p).reqCred) && s.tagFree r tag && (s.tagShare r).isSome

/-- Issue a request on a slot of its port (R22, R28, R29, R32). -/
def State.issueReq (s : State) (p : Nat) (k : BitVec 2) (r : Req) (tag : BitVec 17) : State :=
  let seq := s.seqs.get r.stream
  let o : OutReq := { req := { r with slot := none }, tag := tag, seq := seq, fromPool := (s.tagShare r).getD false,
                      quarters := [], beats := [], dead := false, probed := false, acked := false }
  let s := { s with
    waiting := s.waiting.filter (fun w => w.id != r.id)
    outs := s.outs ++ [o]
    seqs := s.seqs.set r.stream (seq + 1) }
  let s := if isWriteOp r.op then s else s.stored 2 r.east (tag.toNat % 65536 / 8192)
  let s := s.updMport p (fun v => { v with reqCred := v.reqCred - 1 })
  let s := s.drive (.memReq p k r.op r.pa r.len tag r.asid r.prio seq)
  s.trace 1 (unitMport p) r.q (reqPayload p tag seq r.op r.q r.pa)

/-- The quarters of a request: of its 512-byte window, those its range touches (R23). -/
def Req.quarters (r : Req) : List (BitVec 2) :=
  ([0, 1, 2, 3] : List Nat).filterMap (fun q =>
    let base := r.pa / 512 * 512 + 128 * q
    if decide (base < r.pa + r.len) && decide (r.pa < base + 128) then some (BitVec.ofNat 2 q) else none)

-- Port failure (R39).

/-- What a write-class request of a queue leaves when it can no longer land. -/
def lostReq (r : Req) : Option LostWrite :=
  match if r.record.isSome then none else r.q with
  | some q => if isWriteOp r.op then some { q := q, stream := r.stream, id := r.id, dev := none } else none
  | none => none

/-- What a write parcel leaves when it is answered by NACK or not at all. -/
def lostParcel (o : OutParcel) : LostWrite := { q := o.q, stream := o.stream, id := o.id, dev := some o.dst.toNat }

/-- Writes can no longer land: the final writes that wait behind them are discarded (R35, R39, R225). -/
def State.loseWrites (s : State) (l : List LostWrite) : State :=
  let s : State := { s with lost := s.lost ++ l }
  let bad (r : Req) : Bool := r.isFinal && s.stranded r.stream r.id none
  let keep (i : CorItem) : Bool := match i with
    | .request r => !bad r
    | .parcel x => !s.strandedParcel x
    | _ => true
  { s with
    waiting := s.waiting.filter (fun r => !bad r)
    corridor := s.corridor.retain keep
    remote := { s.remote with
      ports := s.remote.ports.each (fun _ v => { v with tx := v.tx.filter (fun x => !s.strandedParcel x) })
      outs := s.remote.outs.filter (fun o => !(o.parcel.ptype == 0x04#8 && s.stranded o.stream o.id (some o.dst.toNat))) } }

/-- A memory port is declared failed (R39). Its outstanding tags stay reserved until warm reset. -/
def State.failPort (s : State) (p : Nat) : State :=
  if s.flag offMportFailed p then s
  else
    let s : State := (s.putBit offMportFailed p true).raiseEvent offRelEvents 7
    let gone := (s.waiting ++ (s.outs.filter (fun o => !o.dead)).map (fun o => o.req)).filter (fun r => r.port == p)
    let s : State := { s with
      waiting := s.waiting.filter (fun r => r.port != p)
      outs := s.outs.map (fun o => if o.req.port == p then { o with dead := true } else o) }
    let s := s.loseWrites (gone.filterMap lostReq)
    s.requestsFault gone (fun a => a.mportFault p)

/-- The engine status of a non-OK RSP_STATUS or LND_STATUS (R26). -/
def rspStatus (st : BitVec 2) : Byte :=
  match st.toNat with
  | 0 => stOk | 1 => stAccessKey | 2 => stEcc | _ => stAgentError

/-- The engine raises Mn_LINK_REQ and the link comes up in REL_MPORT_LINK (R31). -/
def State.mportAlive (s : State) (p : Nat) : Bool := s.alive && decide (p < s.cfg.mports)

end Sys2Proof.Machine
end

