-- ==== Sys2Proof/Machine/Paging.lean ====
section
/-!
DEFINITION. Translation: cached ranges and their two levels (R308-R310), misses (R315, R316) and the faults they give
(R61, R320).
-/

namespace Sys2Proof.Machine

/-- Access kinds of T_MREQ_ACC; each is the bit of PERM it needs (R59). -/
def accRead : BitVec 2 := 0#2
def accWrite : BitVec 2 := 1#2
def accAtomic : BitVec 2 := 2#2

/-- Lane group of a lane (R9). -/
def laneGroup (lane : Nat) : Nat := lane / 8

/-- Number of a wing in the per-wing banks. -/
def wingNo (east : Bool) : Nat := if east then 1 else 0

def Range.covers (r : Range) (asid : BitVec 16) (page : Nat) : Bool :=
  r.asid == asid && decide (r.vstart.toNat ≤ page) && decide (page < r.vstart.toNat + r.pages)

def Range.allows (r : Range) (acc : BitVec 2) : Bool := bitAt r.perm acc.toNat

/-- Physical page of a covered virtual page (R308). -/
def Range.ppage (r : Range) (page : Nat) : Nat := r.pbase.toNat + (page - r.vstart.toNat)

/-- Two ranges of one ASID have a page in common. -/
def Range.overlaps (r : Range) (asid : BitVec 16) (vstart pages : Nat) : Bool :=
  r.asid == asid && decide (r.vstart.toNat < vstart + pages) && decide (vstart < r.vstart.toNat + r.pages)

/-- Install a range in a cache, held most recently used first: overlapping entries leave, then the least recently
used when the cache is full (R310). -/
def installIn (cap : Nat) (r : Range) (l : List Range) : List Range :=
  (r :: l.filter (fun e => !e.overlaps r.asid r.vstart.toNat r.pages)).take cap

/-- A hit makes its entry most recently used. -/
def touchIn (r : Range) (l : List Range) : List Range := r :: l.filter (fun e => e != r)

/-- Entries of range cache `c` in use: caches 0-7 are the L1s, 8 and 9 the wings' L2s; disabled entries are out of use
(R309, R382). -/
def State.cacheSize (s : State) (c : Nat) : Nat :=
  (if c < 8 then 32 else 4096) - (s.rel.cacheOff.filter (fun e => e / 4096 == c)).length

def State.installL1 (s : State) (g : Nat) (r : Range) : State :=
  let s := s.stored 4 (decide (4 ≤ g)) (64 * g)
  { s with l1 := s.l1.set g (installIn (s.cacheSize g) r (s.l1.get g)) }
def State.installL2 (s : State) (east : Bool) (r : Range) : State :=
  let s := s.stored 4 east (64 * 8)
  { s with l2 := s.l2.set (wingNo east) (installIn (s.cacheSize (8 + wingNo east)) r (s.l2.get (wingNo east))) }

/-- Look a page up in a wing's L2 (R309). -/
def State.findL2 (s : State) (east : Bool) (asid : BitVec 16) (page : Nat) : Option Range :=
  (s.l2.get (wingNo east)).find? (fun r => r.covers asid page)

/-- The lookup of the Porter and the front end: the L2 alone, nothing installed in any L1. -/
def State.lookupL2 (s : State) (east : Bool) (asid : BitVec 16) (page : Nat) : State × Option Range :=
  match s.findL2 east asid page with
  | some r => ({ s with l2 := s.l2.set (wingNo east) (touchIn r (s.l2.get (wingNo east))) }, some r)
  | none => (s.count (unitXlate east) 0x03 0 1, none)

/-- A lane's lookup: its group's L1, then the wing's L2, whose range is installed in the L1 (R309, R310). -/
def State.lookupLane (s : State) (lane : Nat) (asid : BitVec 16) (page : Nat) : State × Option Range :=
  let g := laneGroup lane
  let u := unitXlate (laneEast lane)
  let s := s.count u 0x01 0 1
  match (s.l1.get g).find? (fun r => r.covers asid page) with
  | some r => ({ s with l1 := s.l1.set g (touchIn r (s.l1.get g)) }, some r)
  | none =>
    match (s.count u 0x02 0 1).lookupL2 (laneEast lane) asid page with
    | (t, some r) => (t.installL1 g r, some r)
    | (t, none) => (t, none)

-- Misses.

/-- Entries of a holder's reservation (R315). -/
def missReserve : MissHolder → Nat
  | .lane _ => 32 | .porter => 32 | .frontEnd => 16 | .pool => 0 | .prewarm => 0

def State.missPool (s : State) : Nat := if s.cfg == .s then 176 else 80

/-- The share a new miss takes its entry from: the requester's reservation, then the pool. A PREWARM takes from the
pool alone, at most 32 at once (R201, R315). -/
def State.missShare (s : State) (east : Bool) (h : MissHolder) : Option MissHolder :=
  let mine := s.misses.filter (fun m => m.east == east)
  let held (x : MissHolder) : Nat := (mine.filter (fun m => m.holder == x)).length
  let poolFree : Bool := decide (held .pool + held .prewarm < s.missPool)
  if h == .prewarm then (if held .prewarm < 32 && poolFree then some .prewarm else none)
  else if held h < missReserve h then some h
  else if poolFree then some .pool
  else none

/-- A waiter's work fails: a PREWARM skips the page and counts it (R96, R201). -/
def State.waiterFails (s : State) (w : MissWaiter) (f : FaultInfo) : State :=
  match w.who with
  | .tile id => match s.tile id with
    | some t => (s.porterSnap t).streamFault t.q t.stream f
    | none => s
  | .reader id _ va len => s.readFails id [(va, len)] f
  | .prewarm q _ => s.count unitFront 0x03 q 1
  | .invalidate q idx => s.failCmd q idx f

/-- Open or join a miss for a page (R316). `false` when no entry is free and the miss waits. A miss of the East wing reaches
the agent over the Corridor: when that has failed, its queue's work fails (R9, R20). -/
def State.openMiss (s : State) (east : Bool) (h : MissHolder) (asid : BitVec 16) (page : Nat) (w : MissWaiter) :
    State × Bool :=
  let key (m : Miss) : Bool := m.east == east && m.asid == asid && m.page.toNat == page
  if east && s.corridor.failed then (s.waiterFails w s.corridorFault, true)
  else if s.misses.any key then
    ({ (s.count (unitXlate east) 0x04 0 1) with misses := s.misses.map (fun m =>
      if key m && !m.waiters.contains w then { m with waiters := m.waiters ++ [w] } else m) }, true)
  else match s.missShare east h with
  | none => (s, false)
  | some share =>
    let m : Miss := {
      east := east, n := 0, asid := asid, page := BitVec.ofNat 44 page, acc := w.acc, pre := h == .prewarm
      sent := false, crossed := [], waiters := [w], holder := share }
    ({ s with misses := s.misses ++ [m] }, true)

/-- The fault of a translation, with what its log entry holds (R320, R321). -/
def State.xlateFault (s : State) (st unit : Byte) (va : Nat) (itin : Option Nat) (instr : Nat) (l : LogInfo) : FaultInfo :=
  { s.fault st unit with va := BitVec.ofNat 56 va, itin := itin, instr := instr, log := some l }

/-- Log information of a cached range whose PERM lacks the access (R319, R321). -/
def State.permLog (s : State) (asid : BitVec 16) (page : Nat) (acc : BitVec 2) : LogInfo :=
  { acc := acc, east := none, shared := false, page := BitVec.ofNat 44 page, asid := asid, missId := 0, ccyc := s.ccyc }

/-- Pages of a stretch of virtual addresses. -/
def pagesOf (va len : Nat) : List Nat := (List.range ((4095 + (len + va)) / 4096 - va / 4096)).map (fun i => va / 4096 + i)

/-- Log information of a request that memory rejected: KEY and DECODE have an entry (R321, R322). -/
def State.rejectLog (s : State) (asid : BitVec 16) (page : Nat) (acc : BitVec 2) (st : Byte) : Option LogInfo :=
  if st == stAccessKey || st == stAgentError then
    some { acc := acc, east := none, shared := false, page := BitVec.ofNat 44 page, asid := asid, missId := 0,
           ccyc := s.ccyc }
  else none

/-- Remove the cached ranges through which a virtual page was translated, in both wings (R322). -/
def State.dropPage (s : State) (asid : BitVec 16) (page : Nat) : State :=
  let keep (r : Range) : Bool := !r.covers asid page
  { s with
    l1 := s.l1.each (fun _ l => l.filter keep)
    l2 := s.l2.each (fun _ l => l.filter keep) }

/-- Remove the cached ranges that overlap the invalidated pages (R63). -/
def State.invalidate (s : State) (all : Bool) (asid : BitVec 16) (vstart pages : Nat) : State :=
  let keep (r : Range) : Bool := !(r.overlaps (if all then r.asid else asid) vstart pages)
  { s with
    l1 := s.l1.each (fun _ l => l.filter keep)
    l2 := s.l2.each (fun _ l => l.filter keep) }

end Sys2Proof.Machine
end

