-- ==== Sys2Proof/Machine/Reads.lean ====
section
/-!
DEFINITION. The reads that are not a tile's (R29, R93, R404): the front end's commands and descriptors, a batch's arrays and
tables, tensor descriptors, the rows of a PRELOAD or of an incoming LKUP_REQ, and what the Steward reads. A step that needs
bytes asks for them; they go out as requests like any other, and the step goes on when they have come.
-/

namespace Sys2Proof.Machine

/-- How the reads of a reading are issued: the wing that issues and translates them, ASID, class, category, holder and queue
(R404); `physical` reads are not translated. -/
structure Issuer where
  east : Bool
  looks : Bool
  asid : BitVec 16
  prio : BitVec 2
  cat : Category
  holder : Holder
  share : MissHolder
  q : Option Nat
  unit : Byte
  physical : Bool
  itin : Option Itin
  deriving Inhabited

/-- The Steward's accesses (R345, R404). -/
def State.stwIssuer (s : State) : Issuer :=
  { east := false, looks := false, asid := s.stwAsid, prio := 1#2, cat := .read, holder := .frontEnd, share := .frontEnd
    q := none, unit := 0x8#8, physical := true, itin := none }

/-- The Porter's accesses for a queue. -/
def State.porterIssuer (s : State) (q : Nat) : Issuer :=
  { east := s.qEast q, looks := s.qEast q, asid := s.qAsid q, prio := s.qPrio q, cat := .read, holder := .porter
    share := .porter, q := some q, unit := 0x3#8, physical := false, itin := none }

/-- The issuer of a reading. -/
def State.issuer (s : State) (r : Reading) : Issuer :=
  match r.who with
  | .command q _ => { s.porterIssuer q with east := false, holder := .frontEnd, share := .frontEnd, unit := 0x0#8 }
  | .preload q _ => s.porterIssuer q
  | .batch id => s.porterIssuer (((s.batch id).map (fun b => b.q)).getD 64)
  | .desc stream => match s.itin stream with
    | some i => { s.porterIssuer i.q with
        east := laneEast i.lane, looks := laneEast i.lane, holder := .lane i.lane, share := .lane (laneGroup i.lane)
        unit := 0x1#8, itin := some i }
    | none => default
  | .serve id => match s.remote.serves.find? (fun v => v.id == id) with
    | some v => { s.porterIssuer 64 with
        east := xportEast v.port, looks := xportEast v.port, asid := (v.version.map (fun x => x.1)).getD 0, prio := 1#2
        cat := .remote, q := none }
    | none => default
  | .image | .hole _ | .promotion _ => s.stwIssuer

/-- The fault of a reading: UNIT, FAULT_VA, and for another device's address or POISON FAULT_PA and DETAIL (R93, R110-R112,
R272, R320, R380). -/
def State.readFault (s : State) (i : Issuer) (st : Byte) (item pa : Nat) (l : Option LogInfo) : FaultInfo :=
  { s.fault st i.unit with
    va := BitVec.ofNat 56 item, pa := BitVec.ofNat 52 (if st == stUnreachable || st == stEcc then pa else 0), log := l
    detail := if st == stUnreachable then BitVec.ofNat 32 (paDevice pa) else 0#32
    itin := i.itin.map (fun x => x.num), instr := (i.itin.map (fun x => x.pc)).getD 0 }

def State.reading (s : State) (who : Reader) : Option Reading := s.readings.find? (fun r => r.who == who)

/-- Stream of a new reading (R29). A PRELOAD's reads are one stream of their own (DESIGN CHOICE, log 104). -/
def State.readStream (s : State) : Reader → Nat
  | .command q _ => feStream q
  | .batch id => ((s.batch id).map (fun b => b.stream)).getD 0
  | .desc stream => stream
  | .serve id => id
  | .preload _ _ => s.nextId
  | .image | .hole _ | .promotion _ => stwStream

/-- The reading of a reader, begun if there is none. -/
def State.openReading (s : State) (who : Reader) : State × Reading :=
  match s.reading who with
  | some r => (s, r)
  | none =>
    let r : Reading := { id := s.nextId, who := who, stream := s.readStream who, away := [], got := [], failed := [] }
    ({ s.bump with readings := s.readings ++ [r] }, r)

/-- A reader has used what it has read. -/
def State.closeReading (s : State) (who : Reader) : State := { s with readings := s.readings.filter (fun r => r.who != who) }

/-- The byte at an address, if it has come. -/
def Reading.byte (r : Reading) (a : Nat) : Option Byte :=
  (r.got.find? (fun p => decide (p.1 ≤ a) && decide (a < p.1 + p.2.length))).bind (fun p => p.2[a - p.1]?)

/-- The bytes of a stretch, if all of them have come. -/
def Reading.bytes (r : Reading) (va len : Nat) : Option (List Byte) :=
  ((List.range len).map (fun i => r.byte (va + i))).foldr (fun x a => match x, a with
    | some b, some l => some (b :: l)
    | _, _ => none) (some [])

/-- A stretch cut at the 128-byte quarters. -/
def piecesOf (va len : Nat) : List (Nat × Nat) :=
  if len = 0 then []
  else (unitsOf 128 va len).map (fun u => (max va u.1, min (va + len) (u.1 + 128) - max va u.1))

/-- Two stretches meet. -/
def stretchesMeet (a b : Nat × Nat) : Bool := decide (a.1 < b.1 + b.2) && decide (b.1 < a.1 + a.2)

/-- What a step finds of the bytes it needs. -/
inductive Got where
  | bytes (l : List Byte)
  | wait
  | failed (st : Byte)
  deriving DecidableEq, Repr, Inhabited

/-- What an address is translated to: a page, a page that is being asked for, or a fault. -/
inductive Look where
  | found (ppage : Nat)
  | wait
  | denied (f : FaultInfo)
  deriving DecidableEq, Repr, Inhabited

/-- Translate one page for an access of a reading, opening a miss when nothing covers it (R309, R316). An address of another
device is not read (R69). -/
def State.lookPage (s : State) (i : Issuer) (acc : BitVec 2) (page : Nat) (who : MissWho) (item : Nat) : State × Look :=
  -- Virtual addresses are taken modulo 2^56 (log 104).
  let page := page % 2 ^ 44
  let same (w : MissWaiter) : Bool := match w.who, who with
    | .reader a _ _ _, .reader b _ _ _ => a == b
    | _, _ => false
  if i.physical then (s, .found (page % 2 ^ 40))
  else if s.misses.any (fun m => m.east == i.looks && m.asid == i.asid && m.page.toNat == page && m.waiters.any same) then
    (s, .wait)
  else match (match i.holder with
      | .lane l => s.lookupLane l i.asid page
      | _ => s.lookupL2 i.looks i.asid page) with
  | (t, some r) =>
    let pa := r.ppage page * 4096
    if !r.allows acc then (t, .denied (t.readFault i stPermission item pa (some (t.permLog i.asid page acc))))
    else if acc == accRead && paDevice pa != s.devid then (t, .denied (t.readFault i stUnreachable item (pa + item % 4096) none))
    else (t, .found (r.ppage page))
  | (t, none) => ((t.openMiss i.looks i.share i.asid page { who := who, q := i.q.getD 64, acc := acc }).1, .wait)

/-- A read request that brings pieces of a reading: the 16-byte units from the first byte to the last (R22, R23). -/
def State.fetchReq (s : State) (r : Reading) (ds : List Dest) (lo hi : Nat) : Req :=
  let i := s.issuer r
  { id := s.nextId, port := s.portFor lo, op := 0, pa := lo / 16 * 16, len := (hi + 15) / 16 * 16 - lo / 16 * 16, east := i.east, asid := i.asid, prio := i.prio
    cat := i.cat, q := i.q, holder := i.holder, stream := r.stream, ring := none, dests := ds, bytes := [], tiles := []
    service := none, heldFor := none, slot := none }

/-- A read request for a Porter's tile (R23, R404). -/
def State.tileReq (s : State) (t : Tile) (holder : Holder) (ring : Option Nat) (pa len : Nat) (dests : List Dest)
    (tiles : List Nat) : Req := {
  id := s.nextId, port := s.portFor pa, op := 0, pa := pa, len := len, east := s.qEast t.q, asid := s.qAsid t.q
  prio := s.qPrio t.q, cat := .read, q := some t.q, holder := holder, stream := t.stream, ring := ring
  dests := dests, bytes := [], tiles := tiles, service := none, heldFor := none, slot := none }

/-- First byte and end of the memory a destination is filled from, and what it belongs to. -/
def Dest.span : Dest → Nat × Nat
  | .tile _ _ pa len | .block _ _ pa len | .fetch _ _ pa len _ => (pa, pa + len)
def Dest.owner : Dest → Nat × Nat
  | .tile id _ _ _ => (0, id)
  | .block id _ _ _ => (1, id)
  | .fetch id _ _ _ _ => (2, id)

/-- The request that fills destinations of one owner; none when the owner is gone. -/
def State.destReq (s : State) (ds : List Dest) (lo hi : Nat) : Option Req :=
  match ds with
  | .tile id _ _ _ :: _ => (s.tile id).map (fun t => s.tileReq t .porter none lo (hi - lo) ds [t.id])
  | .fetch id _ _ _ _ :: _ => (s.readings.find? (fun r => r.id == id)).map (fun r => s.fetchReq r ds lo hi)
  | _ => none

/-- Destinations are read from memory: one request for each 512-byte window (R267). `crossed` says that the request has
already come over the Corridor to the wing of its port (R16). -/
def State.readDests (s : State) (ds : List Dest) (crossed : Bool) : State :=
  (firsts (ds.map (fun d => d.span.1 / 512))).foldl (fun a w =>
    let mine := ds.filter (fun d => d.span.1 / 512 == w)
    let lo := mine.foldl (fun x d => min x d.span.1) (w * 512 + 511)
    let hi := mine.foldl (fun x d => max x d.span.2) lo
    match a.destReq mine lo hi with
    | none => a
    | some r => if crossed then a.bump.enterPort r else a.bump.submit r) s

/-- Pieces of a reading have been asked for. -/
def State.piecesAway (s : State) (id : Nat) (ps : List (Nat × Nat)) : State :=
  { s with readings := s.readings.map (fun x => if x.id == id then { x with away := x.away ++ ps } else x) }

/-- Pages of the pieces that are still to be asked for, with what they are translated to; a denied page fails the reading. -/
def State.fetchPages (s : State) (r : Reading) (ps : List (Nat × Nat)) (item : Nat → Nat) : State × List (Nat × Nat) :=
  (firsts (ps.map (fun p => p.1 / 4096))).foldl (fun (a : State × List (Nat × Nat)) page =>
    match a.1.readings.find? (fun x => x.id == r.id), ps.filter (fun p => p.1 / 4096 == page) with
    | some r, mine@(p :: _) =>
      -- The piece that opened the miss waits for it.
      match a.1.lookPage (a.1.issuer r) accRead page (.reader r.id (item p.1) p.1 p.2) (item p.1) with
      | (t, .found pp) => (t, a.2 ++ [(page, pp)])
      | (t, .wait) => (t, a.2)
      | (t, .denied f) => (t.readFails r.id mine f, a.2)
    | _, _ => a) (s, [])

/-- Pieces of a stretch that have neither come nor been asked for. -/
def Reading.missing (r : Reading) (va len : Nat) : List (Nat × Nat) := (piecesOf va len).filter (fun p =>
  (r.bytes p.1 p.2).isNone && !r.away.any (stretchesMeet p) && !r.failed.any (fun f => stretchesMeet p (f.1, f.2.1)))

/-- The missing pieces of a stretch whose pages are covered, as destinations: every page of it is translated, and one that is
not covered is asked for. `item` names the address that a fault of a piece reports. -/
def State.fetchDests (s : State) (r : Reading) (va len : Nat) (item : Nat → Nat) : State × List Dest :=
  let ps := r.missing va len
  match s.fetchPages r ps item with
  | (t, pages) =>
    let ds := ps.filterMap (fun p => (pages.find? (fun x => x.1 == p.1 / 4096)).map (fun x =>
      (p, Dest.fetch r.id p.1 (x.2 * 4096 + p.1 % 4096) p.2 (item p.1))))
    (t.piecesAway r.id (ds.map (fun d => d.1)), ds.map (fun d => d.2))

/-- Ask for the missing pieces of a stretch: what is covered is read. -/
def State.askFor (s : State) (r : Reading) (va len : Nat) (item : Nat → Nat) : State :=
  match s.fetchDests r va len item with
  | (t, ds) => t.readDests ds false

/-- The bytes a step needs at an address: they have come, or the stretch `win` that holds them is asked for. `item` names the
address that a fault of a piece reports. -/
def State.needIn (s : State) (who : Reader) (win : Nat × Nat) (va len : Nat) (item : Nat → Nat) : State × Got :=
  match s.openReading who with
  | (t, r) => match r.bytes va len, r.failed.find? (fun f => stretchesMeet (va, len) (f.1, f.2.1)) with
    | some l, _ => (t, .bytes l)
    | none, some f => (t, .failed f.2.2)
    | none, none => (t.askFor r win.1 win.2 item, .wait)

/-- The 512-byte window of an array that an element begins in, cut to the array, or up to the element's end where that lies
behind it (log 104). -/
def arrayWindow (base len va n : Nat) : Nat × Nat :=
  let lo := max base (va / 512 * 512)
  (lo, min (base + len) (max (va + n) (va / 512 * 512 + 512)) - lo)

/-- The bytes of an element of an array: the array is read window by window. -/
def State.needElem (s : State) (who : Reader) (base len va n : Nat) : State × Got :=
  s.needIn who (arrayWindow base len va n) va n (fun a => base + (a - base) / n * n)

/-- `needIn` for exactly the stretch needed. -/
def State.needItem (s : State) (who : Reader) (va len : Nat) (item : Nat → Nat) : State × Got :=
  s.needIn who (va, len) va len item

/-- `needItem` where a fault reports the address of the stretch. -/
def State.need (s : State) (who : Reader) (va len : Nat) : State × Got := s.needItem who va len (fun _ => va)

/-- A reader no longer needs the bytes of a stretch. -/
def State.forgetRead (s : State) (who : Reader) (va len : Nat) : State :=
  { s with readings := s.readings.map (fun r => if r.who == who then { r with
      got := r.got.filter (fun p => !stretchesMeet (va, len) (p.1, p.2.length))
      failed := r.failed.filter (fun p => !stretchesMeet (va, len) (p.1, p.2.1)) } else r) }

/-- A piece of a reading has come. -/
def State.arriveFetch (s : State) (id va : Nat) (l : List Byte) : State :=
  { s with readings := s.readings.map (fun r => if r.id == id then { r with
      away := r.away.erase (va, l.length), got := r.got ++ [(va, l)] } else r) }

/-- Words of 8 and of 4 bytes, and entries of 16. -/
def words64 (l : List Byte) : List (BitVec 64) := (List.range (l.length / 8)).map (fun i => BitVec.ofNat 64 (leNat ((l.drop (8 * i)).take 8)))
def words32 (l : List Byte) : List Word := (List.range (l.length / 4)).map (fun i => BitVec.ofNat 32 (leNat ((l.drop (4 * i)).take 4)))
def words256 (l : List Byte) : List (BitVec 256) :=
  (List.range (l.length / 32)).map (fun i => BitVec.ofNat 256 (leNat ((l.drop (32 * i)).take 32)))
def words128 (l : List Byte) : List (BitVec 128) :=
  (List.range (l.length / 16)).map (fun i => BitVec.ofNat 128 (leNat ((l.drop (16 * i)).take 16)))
def words512 (l : List Byte) : BitVec 512 := BitVec.ofNat 512 (leNat l)

end Sys2Proof.Machine
end

