-- ==== Sys2Proof/Machine/Tensors.lean ====
section
/-!
DEFINITION. The layout unit: where the elements of a tile lie (R113-R136), the order of its checks (R142), and the
bytes it produces from what it has read (R120-R131, R136-R140, R158-R162).
-/

namespace Sys2Proof.Machine

-- Index space (R115, R158).

def Tile.gathers (t : Tile) : Bool := t.kind == .gather || t.kind == .pool

/-- Rows of the read side: of a gather, one for each index taken. -/
def Tile.nRows (t : Tile) : Nat := if t.gathers then t.rows.length else t.t1

def Tile.transposed (t : Tile) : Bool := bitAt t.sel 0
def Tile.sround (t : Tile) : Bool := bitAt t.sel 1

/-- Positions of the read side in index order, (0, 0) first (R127). -/
def Tile.positions (t : Tile) : List (Nat × Nat) :=
  (List.range t.nRows).flatMap (fun j1 => (List.range t.t0).map (fun j0 => (j0, j1)))

def Tile.readIdx (t : Tile) (j0 j1 : Nat) : List Int :=
  (List.range 6).map (fun k =>
    let o := t.orgR.getD k 0
    match k with
    | 0 => o + j0
    | 1 => if t.gathers then o + t.rows.getD j1 0 else o + j1
    | _ => o)

/-- Write-side position of a read-side position (R116, R131). -/
def Tile.writePos (t : Tile) (j0 j1 : Nat) : Nat × Nat := if t.transposed then (j1, j0) else (j0, j1)

def Tile.writeIdx (t : Tile) (w0 w1 : Nat) : List Int :=
  (List.range 6).map (fun k =>
    let o := t.orgW.getD k 0
    match k with
    | 0 => o + w0
    | 1 => o + w1
    | _ => o)

/-- An element is in bounds when every index lies below its extent (R115). -/
def inBounds (d : BitVec 1024) (idx : List Int) : Bool :=
  (List.range 6).all (fun k =>
    let i := idx.getD k 0
    decide (0 ≤ i) && decide (i < tdExtent d k))

/-- Byte displacement of an element from base + displacement; two int4 elements share a byte (R115, R132). -/
def elemOfs (d : BitVec 1024) (idx : List Int) : Int :=
  (List.range 6).foldl (fun a k =>
    let i := idx.getD k 0
    let i := if k = 0 ∧ tdDtype d = 0x2 then (if tdStride d 0 = 1 then i / 2 else 0) else i
    a + i * (if k = 0 ∧ tdDtype d = 0x2 then 1 else tdStride d k)) 0

/-- Address of an element: virtual, or for a SLOT descriptor the offset within the slot. -/
def elemAddr (d : BitVec 1024) (delta : Int) (idx : List Int) : Int := tdBase d + delta + elemOfs d idx

/-- A virtual address, modulo 2^56 (log 93). -/
def wrapVa (a : Int) : Nat := (a % 2 ^ 56).toNat

/-- Address of the scale byte of an element's block (R133). -/
def scaleAddr (d : BitVec 1024) (delta : Int) (idx : List Int) : Nat :=
  let i0 := idx.getD 0 0 / 32 * 32
  wrapVa (tdScaleBase d + (delta + elemOfs d (idx.set 0 i0)) / 32)

/-- Start of the 4-byte tail of an element's row (R135). -/
def tailAddr (d : BitVec 1024) (delta : Int) (idx : List Int) : Int :=
  elemAddr d delta (idx.set 0 0) + tdExtent d 0

/-- Addresses of a row's tail, and the units that hold it. -/
def tailBytes (d : BitVec 1024) (delta : Int) (idx : List Int) : List Nat :=
  (List.range 4).map (fun i => wrapVa (tailAddr d delta idx + i))
def tailUnits (d : BitVec 1024) (delta : Int) (idx : List Int) : List (Nat × Nat) :=
  (tailBytes d delta idx).flatMap (fun a => unitsOf (tdAccw d) a 1)

/-- Bytes of an element. -/
def elemBytes (d : BitVec 1024) : Nat := dtypeSize (tdDtype d)

/-- The units of the scale bytes that one read-side row needs (R133). They lie in memory for a SLOT descriptor too. -/
def Tile.scaleUnits (t : Tile) (d : BitVec 1024) (j1 : Nat) : List (Nat × Nat) :=
  if !isShared8 (tdDtype d) then []
  else firsts ((List.range t.t0).flatMap (fun j0 =>
    let idx := t.readIdx j0 j1
    if inBounds d idx then unitsOf 16 (scaleAddr d t.dr idx) 1 else []))

/-- The units one read-side row needs where BASE points: of each in-bounds element, and its row's tail (R119, R135). R117
checks elements alone: a tail outside the address space or the slot has no check of its own, and its address is taken
modulo 2^56 (DESIGN CHOICE, log 93). -/
def Tile.dataUnits (t : Tile) (d : BitVec 1024) (j1 : Nat) : List (Nat × Nat) :=
  firsts ((List.range t.t0).flatMap (fun j0 =>
    let idx := t.readIdx j0 j1
    if !inBounds d idx then []
    else unitsOf (tdAccw d) (elemAddr d t.dr idx).toNat (elemBytes d) ++
      (if tdDtype d = 0xC then tailUnits d t.dr idx else [])))

/-- The units one read-side row needs (R119, R133, R135). -/
def Tile.rowUnits (t : Tile) (d : BitVec 1024) (j1 : Nat) : List (Nat × Nat) :=
  firsts (t.dataUnits d j1 ++ t.scaleUnits d j1)

/-- Where a SLOT descriptor's bytes stand in a tile's data, which memory keeps by virtual address below 2^56. -/
def slotKey (d : BitVec 1024) : Nat := if tdSlot d then 2 ^ 56 else 0

/-- The read-side origin of an XPAND is in bounds: there is a block to read (R242). -/
def Tile.hasBlock (t : Tile) (d : BitVec 1024) : Bool := inBounds d (t.readIdx 0 0)

/-- Address of an XPAND's block and the size of its reservation (R240, R241). -/
def Tile.blockVa (t : Tile) (d : BitVec 1024) : Int := elemAddr d t.dr (t.readIdx 0 0)
def Tile.resv (t : Tile) (d : BitVec 1024) : Nat := (32 + t.t0 * t.t1 * dtypeSize (tdDtype d) + 511) / 512 * 512

/-- The units of memory the read side of a tile needs, in index order; of an XPAND, its block's whole reservation (R243); of
a SLOT descriptor, its scale plane alone (R133). R127 leaves the address order of a tile's accesses open: the model asks
for them, and writes, in index order (DESIGN CHOICE, log 94). -/
def Tile.readUnits (t : Tile) : List (Nat × Nat) :=
  match t.rd with
  | none => []
  | some d =>
    if t.kind == .xpand then
      if t.hasBlock d then (List.range (t.resv d / 512)).map (fun i => ((t.blockVa d).toNat + 512 * i, 512)) else []
    else firsts ((List.range t.nRows).flatMap (fun j1 => if tdSlot d then t.scaleUnits d j1 else t.rowUnits d j1))

/-- The units a tile takes from its slot. -/
def Tile.slotUnits (t : Tile) (d : BitVec 1024) : List (Nat × Nat) :=
  firsts ((List.range t.nRows).flatMap (fun j1 => t.dataUnits d j1))

/-- A fill-origin element came from R120, or from an XPAND whose block does not exist (R242). -/
def Tile.isFill (t : Tile) (j0 j1 : Nat) : Bool :=
  match t.kind, t.rd with
  | .move, some d | .gather, some d => !inBounds d (t.readIdx j0 j1)
  | .xpand, some d => !t.hasBlock d
  | _, _ => false

/-- The element at a read-side position is written (R121, R123, R124). -/
def Tile.isWritten (t : Tile) (d : BitVec 1024) (j0 j1 : Nat) : Bool :=
  let w := t.writePos j0 j1
  inBounds d (t.writeIdx w.1 w.2) && !(t.isFill j0 j1 && (tdPadskip d || tdAccum d))

/-- The units the write side of a tile touches: no dropped element, no skipped fill (R312). -/
def Tile.writeUnits (t : Tile) : List (Nat × Nat) :=
  match t.wd with
  | none => []
  | some d => firsts (t.positions.flatMap (fun p =>
      let w := t.writePos p.1 p.2
      let idx := t.writeIdx w.1 w.2
      if !t.isWritten d p.1 p.2 then []
      else unitsOf (tdAccw d) (elemAddr d t.dw idx).toNat (elemBytes d) ++
        (if tdDtype d = 0xC then tailUnits d t.dw idx else [])))

/-- A side of a tile that lies in memory. -/
def memSide (d : Option (BitVec 1024)) : Bool := match d with
  | some d => !tdSlot d
  | none => false

/-- The access the write side makes. -/
def Tile.writeAcc (t : Tile) : BitVec 2 :=
  match t.wd with
  | some d => if tdAccum d then 2#2 else 1#2
  | none => if t.opt.adds then 2#2 else 1#2

/-- The stored rows of a row group, and the optimiser states beside them: addresses and lengths. -/
def Tile.rowItems (t : Tile) : List (Nat × Nat) := t.rows.flatMap (fun r =>
  let va := ((t.rdVa : Int) + r * t.dr).toNat
  (va, t.t0) :: if t.opt.len = 0 then [] else [(va + t.opt.ofs, t.opt.len)])

/-- Pages a tile touches, read side before write side, in index order (R312). A row group touches its rows (R267). -/
def Tile.touched (t : Tile) : List (Bool × Nat) :=
  if t.kind == .rowGroup then (firsts (t.want.map (fun u => u.1 / 4096))).map (fun p => (false, p))
  else if t.kind == .updateRows then (firsts (t.want.map (fun u => u.1 / 4096))).map (fun p => (false, p)) ++
    (firsts (t.rowItems.flatMap (fun x => pagesOf x.1 x.2))).map (fun p => (true, p))
  else (firsts (t.readUnits.map (fun u => u.1 / 4096))).map (fun p => (false, p)) ++
    (if memSide t.wd then (firsts (t.writeUnits.map (fun u => u.1 / 4096))).map (fun p => (true, p)) else [])

/-- Physical address of a touched unit, by the translations the pre-check found. -/
def Tile.phys (t : Tile) (wr : Bool) (va : Nat) : Nat :=
  match t.cover.find? (fun c => c.wr == wr && c.page == va / 4096) with
  | some c => c.ppage * 4096 + va % 4096
  | none => 0

-- The checks of a tile (R142).

/-- Bytes of a tile on a side: an int4 element counts half a byte (R116). -/
def tileSize (n : Nat) (d : BitVec 1024) : Nat := (n * dtypeBits (tdDtype d) + 7) / 8

/-- Address of the first in-bounds element of a side, or the descriptor's address (R142). -/
def Tile.firstVa (t : Tile) (wr : Bool) : Nat :=
  let d := if wr then t.wd else t.rd
  let va := if wr then t.wdVa else t.rdVa
  match d with
  | none => va
  | some d =>
    if !wr && t.kind == .xpand then (if t.hasBlock d then (t.blockVa d % 2 ^ 56).toNat else va)
    else
      let idxs := t.positions.map (fun p =>
        if wr then (let w := t.writePos p.1 p.2; t.writeIdx w.1 w.2) else t.readIdx p.1 p.2)
      match idxs.find? (inBounds d) with
      | some idx => (elemAddr d (if wr then t.dw else t.dr) idx % 2 ^ 56).toNat
      | none => va

/-- Step 1: the shape limits of R116, R131 and R241. The bags of a bag group are tiles of their own (R261). -/
def Tile.shapeBad (t : Tile) : Bool :=
  let n := t.t0 * t.nRows
  let tooBig (d : Option (BitVec 1024)) : Bool := match d with
    | some d => decide (65536 < tileSize n d)
    | none => false
  let xp : Bool := t.kind == .xpand && (decide (256 < t.t0) || decide (256 < t.t1) || !memSide t.rd)
  (t.kind != .bagGroup && (tooBig t.rd || tooBig t.wd)) || xp ||
    (t.transposed && (decide (256 < t.t0) || decide (256 < t.nRows)))

/-- Step 2: the refused combinations of R137. What an Expander hands over is binary32 (R241, R248). -/
def Tile.typesBad (t : Tile) : Bool :=
  match t.rd, t.wd with
  | some r, some w =>
    let a := if t.kind == .xpand then 0x9 else tdDtype r
    let b := tdDtype w
    (t.kind == .xpand && !(decide (0x5 ≤ tdDtype r) && decide (tdDtype r ≤ 0x9))) || (a != 0xC && b == 0xC) || (a == 0xC && b == 0xC && tdExtent r 0 != tdExtent w 0) ||
      (t.transposed && (a == 0x2 || isShared8 a || a == 0xC || b == 0x2 || b == 0xC))
  | none, some w => tdDtype w == 0xC
  | _, none => false

/-- Step 3: base + displacement, and the parities of int4 and the shared-scale types. -/
def alignBad (d : BitVec 1024) (delta : Int) : Bool :=
  !divides (tdAccw d) (tdBase d + delta) || (isShared8 (tdDtype d) && !divides 32 delta)

def Tile.alignW (t : Tile) (d : BitVec 1024) : Bool :=
  alignBad d t.dw || (tdDtype d == 0x2 && (t.orgW.getD 0 0 % 2 != 0 || t.t0 % 2 != 0))

/-- Step 4: an in-bounds element outside the address space, or outside the slot (R117). -/
def reachBad (d : BitVec 1024) (delta : Int) (slotBytes : Nat) (idx : List Int) : Bool :=
  if !inBounds d idx then false
  else
    let a := elemAddr d delta idx
    let n : Int := elemBytes d
    let lim : Int := if tdSlot d then slotBytes else 2 ^ 56
    decide (a < 0) || decide (lim < a + n)

def State.slotSize (s : State) (h : Option HeldSlot) : Nat := match h with
  | some h => s.slotBytes h.ring
  | none => 0

/-- Every component of an origin lies in the signed 32-bit range (R156). -/
def originOk (o : List Int) : Bool := o.all (fun x => decide (-(2 ^ 31) ≤ x) && decide (x < 2 ^ 31))

/-- A tile of an instruction meets a condition of R173 as it issues: an origin outside its range, or a SLOT descriptor on a
side with no held slot (R130, R156). -/
def Tile.illegal (t : Tile) : Bool :=
  let slotless (d : Option (BitVec 1024)) (h : Option HeldSlot) : Bool := match d with
    | some d => tdSlot d && h.isNone
    | none => false
  t.kind.ordered && (!originOk t.orgR || !originOk t.orgW || slotless t.rd t.slotR || slotless t.wd t.slotW)

/-- The first condition that a tile meets as it issues, of R173 and then of steps 1 to 4: its status and FAULT_VA. -/
def State.tileCheck (s : State) (t : Tile) : Option (Byte × Nat) :=
  let both := t.firstVa t.rd.isNone
  let rb (f : BitVec 1024 → Bool) : Bool := match t.rd with
    | some d => f d
    | none => false
  let wb (f : BitVec 1024 → Bool) : Bool := match t.wd with
    | some d => f d
    | none => false
  let xp := t.kind == .xpand
  let ri := t.positions.map (fun p => t.readIdx p.1 p.2)
  let wi := t.positions.map (fun p => let w := t.writePos p.1 p.2; t.writeIdx w.1 w.2)
  if t.illegal then some (stProgramIllegal, 0)
  else if t.shapeBad then some (stProgramIllegal, both)
  else if t.typesBad then some (stDtype, both)
  else if rb (fun d => alignBad d t.dr || (xp && t.hasBlock d && !divides 512 (t.blockVa d))) then some (stAlign, t.firstVa false)
  else if wb (fun d => t.alignW d) then some (stAlign, t.firstVa true)
  else if rb (fun d => if xp then t.hasBlock d && (decide (t.blockVa d < 0) || decide (2 ^ 56 < t.blockVa d + t.resv d))
      else ri.any (reachBad d t.dr (s.slotSize t.slotR))) then some (stDescInvalid, t.firstVa false)
  else if wb (fun d => wi.any (reachBad d t.dw (s.slotSize t.slotW))) then some (stDescInvalid, t.firstVa true)
  else none

-- Elements.

/-- An element on its way through the layout unit: its code and exact value, and its fill-origin mark (R122). -/
structure Elem where
  code : Nat
  val : Num
  fill : Bool
  deriving DecidableEq, Repr, Inhabited

/-- `n` little-endian bytes a tile has received. -/
def Tile.load (t : Tile) (a n : Nat) : Nat := leNat ((List.range n).map (fun i => t.data.get (a + i)))

/-- The element at a read-side position: fetched, or the descriptor's FILL (R120, R122, R132-R135). -/
def Tile.elem (t : Tile) (d : BitVec 1024) (j0 j1 : Nat) : Elem :=
  let idx := t.readIdx j0 j1
  let ty := tdDtype d
  if !inBounds d idx then ⟨(tdFill d).toNat, decodeElem ty (tdFill d).toNat, true⟩
  else
    let a := slotKey d + (elemAddr d t.dr idx).toNat
    if ty = 0x2 then
      let b := t.load a 1
      let c := if tdStride d 0 = 1 ∧ idx.getD 0 0 % 2 = 1 then b / 16 else b % 16
      ⟨c, decodeElem ty c, false⟩
    else
      let c := t.load a (elemBytes d)
      let v := if isShared8 ty then scaleE8 (t.load (scaleAddr d t.dr idx) 1) (decodeElem ty c)
        else if ty = 0xC then
          let tail := (tailBytes d t.dr idx).map (fun a => t.data.get (slotKey d + a))
          rowValue (leNat (tail.take 2)) (leNat (tail.drop 2)) c
        else decodeElem ty c
      ⟨c, v, false⟩

/-- Advance a lane's generator and take its number (R140). -/
def State.roll (s : State) (lane : Nat) : State × Nat :=
  let w := lfsrNext (s.lane lane).lfsr
  (s.updLane lane (fun v => { v with lfsr := w }), w.toNat % 65536)

/-- A conversion to a type, with the rounding the transform selection asks for; the lane counts those that saturate
(R137-R140). -/
def State.cast (s : State) (lane : Nat) (sround : Bool) (ty : Nat) (v : Num) : State × Nat :=
  if sround then
    let (s, r) := s.roll lane
    let (c, sat) := convert ty (.stochastic r) v
    (if sat then s.count (unitLane lane) 0x12 0 1 else s, c)
  else
    let (c, sat) := convert ty .nearest v
    (if sat then s.count (unitLane lane) 0x12 0 1 else s, c)

/-- Equal types copy bits; other pairs convert. -/
def State.castElem (s : State) (lane : Nat) (sround : Bool) (from' to' : Nat) (e : Elem) : State × Nat :=
  if from' = to' then (s, e.code) else s.cast lane sround to' e.val

/-- One of the orders a list can be taken in, chosen by free numbers (log 3). -/
def shuffle {α : Type} (seed : Nat) : Nat → List α → List α
  | 0, l => l
  | n + 1, l =>
    let k := Config.freeNat (seed + n) % l.length
    match l.drop k with
    | x :: t => x :: shuffle seed n (l.take k ++ t)
    | [] => l

/-- Sum of binary32 values in an order that is not specified, with nothing added to the first (R128, R265, R288). -/
def State.sumBare (s : State) (l : List Word) : State × Word :=
  ({ s with free := s.free + l.length }, match shuffle s.free l.length l with
    | [] => 0#32
    | x :: t => t.foldl addWord x)

/-- Binary32 sum in an order that is not specified, onto an accumulator that stands at +0.0. -/
def State.sumAny (s : State) (l : List Word) : State × Word :=
  ({ s with free := s.free + l.length }, (shuffle s.free l.length l).foldl addWord 0#32)

/-- One of several bytes that alias (R129). -/
def State.pickAny (s : State) (l : List Byte) : State × Byte :=
  if l.length ≤ 1 then (s, l.getD 0 0) else (s.tick, l.getD (s.freeBelow l.length) 0)

/-- Numbers in increasing order. -/
def rising (l : List Nat) : List Nat :=
  l.foldl (fun a x => a.takeWhile (fun y => decide (y < x)) ++ x :: a.dropWhile (fun y => decide (y < x))) []

/-- Cut a list into pieces of at most `n`. -/
def pieces {α : Type} (n : Nat) (l : List α) : List (List α) :=
  (List.range ((l.length + n - 1) / max 1 n)).map (fun k => (l.drop (n * k)).take n)

/-- Put a value with a key into groups, in order of first appearance. -/
def groupIn {α : Type} (k : Nat) (x : α) : List (Nat × List α) → List (Nat × List α)
  | [] => [(k, [x])]
  | (j, l) :: t => if j = k then (j, l ++ [x]) :: t else (j, l) :: groupIn k x t

/-- The elements a tile hands to its write side, in index order: write-side indices, element. -/
def Tile.handed (t : Tile) (elems : Nat → Nat → Elem) : List (List Int × Elem) :=
  t.positions.map (fun p =>
    let w := t.writePos p.1 p.2
    (t.writeIdx w.1 w.2, elems p.1 p.2))

/-- The bytes a write side without ACCUM receives, by address: each element's, and of a packed byte both halves
(R121, R123, R132). Elements that are then dropped or skipped are cast too: the generator advances and saturation counts;
an ACCUM write side casts none of them (DESIGN CHOICE, log 95: R140 leaves open what a conversion handles). -/
def State.plainBytes (s : State) (t : Tile) (d : BitVec 1024) (from' : Nat) (es : List (List Int × Elem)) :
    State × List (Nat × Byte) :=
  let ty := tdDtype d
  let (s, out) := es.foldl (fun a e =>
    let (s, c) := a.1.castElem t.lane t.sround from' ty e.2
    if !inBounds d e.1 then (s.count (unitLane t.lane) 0x11 0 1, a.2)
    else
      let adr := (elemAddr d t.dw e.1).toNat
      if ty = 0x2 then
        -- Halves go by in pairs, the low one first; the pair's mark is that of its low half until the high one passes.
        if e.1.getD 0 0 % 2 = 0 then (s, (adr, BitVec.ofNat 8 (c % 16), e.2.fill) :: a.2)
        else match a.2 with
          | (x, b, f) :: rest =>
            if x = adr then (s, (adr, b ||| BitVec.ofNat 8 (c % 16 * 16), f && e.2.fill) :: rest)
            else (s, (adr, BitVec.ofNat 8 (c % 16 * 16), e.2.fill) :: a.2)
          | [] => (s, [(adr, BitVec.ofNat 8 (c % 16 * 16), e.2.fill)])
      else
        (s, ((natBytes (elemBytes d) c).zipIdx.map (fun b => (adr + b.2, b.1, e.2.fill))).reverse ++ a.2))
    (s, ([] : List (Nat × Byte × Bool)))
  (s, (out.reverse.filter (fun b => !(b.2.2 && tdPadskip d))).map (fun b => (b.1, b.2.1)))

/-- The addends of an ACCUM write side: one for each address that in-bounds elements which are not fill address
(R124, R128). -/
def State.accumBytes (s : State) (t : Tile) (d : BitVec 1024) (from' : Nat) (es : List (List Int × Elem)) :
    State × List (Nat × Byte) :=
  let ty := tdDtype d
  let s := s.count (unitLane t.lane) 0x11 0 (es.filter (fun e => !inBounds d e.1)).length
  let groups := es.foldl (fun a e =>
    if inBounds d e.1 && !e.2.fill then groupIn (elemAddr d t.dw e.1).toNat e.2 a else a) []
  groups.foldl (fun a g =>
    match g.2 with
    | [e] =>
      let (s, c) := a.1.castElem t.lane t.sround from' ty e
      (s, a.2 ++ (natBytes (elemBytes d) c).zipIdx.map (fun b => (g.1 + b.2, b.1)))
    | es =>
      let (s, w) := a.1.sumBare (es.map (fun e => toWord e.val))
      let (s, c) := s.castElem t.lane t.sround 0x9 ty ⟨w.toNat, ofWord w, false⟩
      (s, a.2 ++ (natBytes (elemBytes d) c).zipIdx.map (fun b => (g.1 + b.2, b.1)))) (s, [])

/-- The tails of a 0xC to 0xC move (R136). -/
def Tile.tails (t : Tile) (r d : BitVec 1024) : List (Nat × Byte) :=
  (List.range t.nRows).flatMap (fun j1 =>
    match (List.range t.t0).find? (fun j0 => t.isWritten d j0 j1) with
    | none => []
    | some j0 =>
      let src := (List.range t.t0).find? (fun i => inBounds r (t.readIdx i j1))
      let bytes := match src with
        | some i => (tailBytes r t.dr (t.readIdx i j1)).map (fun a => t.data.get (slotKey r + a))
        | none => natBytes 4 0x3C00
      (tailBytes d t.dw (t.writeIdx j0 j1)).zip bytes)

/-- The bytes of a tile that moves elements, by write-side address. -/
def State.moveBytes (s : State) (t : Tile) : State × List (Nat × Byte) :=
  match t.rd, t.wd with
  | some r, some d =>
    let es := t.handed (fun j0 j1 => t.elem r j0 j1)
    if tdAccum d then s.accumBytes t d (tdDtype r) es
    else
      let (s, l) := s.plainBytes t d (tdDtype r) es
      (s, l ++ if tdDtype r = 0xC ∧ tdDtype d = 0xC then t.tails r d else [])
  | _, _ => (s, [])

/-- The bytes of a tile whose elements are binary32 words, as a POOLOUT writes them (R162). -/
def State.wordBytes (s : State) (t : Tile) (w : Nat → Nat → Word) : State × List (Nat × Byte) :=
  match t.wd with
  | some d =>
    let es := t.handed (fun j0 j1 => ⟨(w j0 j1).toNat, ofWord (w j0 j1), false⟩)
    if tdAccum d then s.accumBytes t d 0x9 es else s.plainBytes t d 0x9 es
  | none => (s, [])

/-- The addends of a pooled GATHER or REDUCE for each accumulator element, and the rows counted (R160, R161). Each
row takes the next weight, whether or not it is added. -/
def State.poolAddends (s : State) (t : Tile) : State × List (Nat × Word) × Nat :=
  match t.rd with
  | none => (s, [], 0)
  | some d =>
    (List.range t.nRows).foldl (fun a j1 =>
      let i1 := (t.readIdx 0 j1).getD 1 0
      let rowIn : Bool := decide (0 ≤ i1) && decide (i1 < tdExtent d 1)
      if t.kind == .pool && !rowIn then (a.1.count (unitLane t.lane) 0x13 0 1, a.2)
      else
        let (s, l) := (List.range t.t0).foldl (fun b j0 =>
          let e := t.elem d j0 j1
          if t.kind == .pool && e.fill then b
          else
            let (s, c) := b.1.castElem t.lane false (tdDtype d) 0x9 e
            let w := BitVec.ofNat 32 c
            let w := match t.wgts.drop j1 with
              | g :: _ => mulWord w g
              | [] => w
            (s, (j0, w) :: b.2)) (a.1, [])
        (s, a.2.1 ++ l.reverse, a.2.2 + 1)) (s, [], 0)

end Sys2Proof.Machine
end

