-- ==== Sys2Proof/Machine/Rows.lean ====
section
/-!
DEFINITION. Reading the rows of tables: the Larder first, then memory (R16, R267, R273, R274), for row groups and for the
LKUP_REQ parcels of other devices, which the Porter serves in order of arrival (R269, R270).
-/

namespace Sys2Proof.Machine

-- Table descriptors (R253).
def tbDtype (d : BitVec 512) : Nat := bits d 8 4
def tbLarder (d : BitVec 512) : Bool := bitAt d 16
def tbRange (d : BitVec 512) : Bool := bitAt d 17
def tbNdev (d : BitVec 512) : Nat := fieldAt d 3 1
def tbDevbase (d : BitVec 512) : Nat := bits d 32 6
def tbOptkind (d : BitVec 512) : Nat := bits d 40 2
def tbDim (d : BitVec 512) : Nat := fieldAt d 6 2
def tbBase (d : BitVec 512) : Nat := bits d 64 56
def tbPitch (d : BitVec 512) : Nat := fieldAt d 16 4
def tbOptOfs (d : BitVec 512) : Nat := fieldAt d 20 2
def tbNLocal (d : BitVec 512) : Nat := fieldAt d 24 8
def tbNGlobal (d : BitVec 512) : Nat := fieldAt d 32 8
def tbRangePtr (d : BitVec 512) : Nat := fieldAt d 40 8
def tbRemapPtr (d : BitVec 512) : Nat := fieldAt d 48 8
def tbNRemap (d : BitVec 512) : Nat := fieldAt d 56 4
/-- Bytes of a stored row (R254). -/
def tbRowBytes (d : BitVec 512) : Nat := tbDim d * dtypeSize (tbDtype d) + if tbDtype d = 0xC then 4 else 0
/-- Virtual address of a local row. -/
def tbRowVa (d : BitVec 512) (row : Nat) : Nat := tbBase d + row * tbPitch d

-- The Larder first, then memory (R267, R273, R274).

/-- Set of a granule in its wing: 2^19 set numbers (R273). -/
def larderSet (g : Nat) : Nat := (g % 2 ^ 19) ^^^ (g / 2 ^ 19 % 2 ^ 19) ^^^ (g / 2 ^ 38 % 2 ^ 7)
def larderTag (g : Nat) : BitVec 26 := BitVec.ofNat 26 (g / 2 ^ 19)

/-- Tier of a wing's set. -/
def setTier (east : Bool) (set : Nat) : Nat := set / 2 ^ 17 % 4 + if east then 4 else 0

/-- Number of a wing's set in `Larder.dir`. -/
def setKey (east : Bool) (set : Nat) : Nat := set + if east then 2 ^ 19 else 0

/-- The Larder is bypassed (R280). -/
def State.larderBypass (s : State) : Bool := s.boot.bypass

/-- LTn is in use and in service (R76). -/
def State.tierUp (s : State) (t : Nat) : Bool :=
  decide (t < s.cfg.tiers) && bitAt s.larder.tiersUp t && s.flag offLdgTiers t

/-- The granule's set has a tier in use that is not mapped out, and no directory error has taken the set out of use
(R273, R379). -/
def State.setUp (s : State) (east : Bool) (set : Nat) : Bool :=
  !s.larderBypass && s.tierUp (setTier east set) && !s.larder.offSets.contains (setKey east set)

/-- Home wing of a physical address (R16). -/
def State.homeEast (s : State) (pa : Nat) : Bool := mportEast (s.portFor pa)

/-- Change the counts of a table in a wing in the present load window (R281). -/
def State.countLoad (s : State) (table : Nat) (east : Bool) (f : LoadCount → LoadCount) : State :=
  let k := 2 * table + wingNo east
  { s with larder := { s.larder with counts := s.larder.counts.set k (f (s.larder.counts.get k)) } }

/-- What a probe belongs to: its owner, the number of the row and the wing. -/
def Probe.key (p : Probe) : (Nat × Nat) × Nat × Bool := ((p.dests.head?.map Dest.owner).getD (3, 0), p.row, p.east)

/-- Once no probe of a row in a wing is unknown, the granules that missed are read from that wing's memory (R16). -/
def State.rowMissed (s : State) (p0 : Probe) (crossed : Bool) : State :=
  let mine (p : Probe) : Bool := p.key == p0.key
  let ps := s.larder.probes.filter mine
  if ps.isEmpty || ps.any (fun p => !p.missed) then s
  else
    ({ s with larder := { s.larder with probes := s.larder.probes.filter (fun p => !mine p) } } : State).readDests
      (ps.flatMap (fun p => p.dests)) crossed

/-- The wing that a request for destinations comes from. -/
def State.destsEast (s : State) (ds : List Dest) : Bool := ((s.destReq ds 0 0).map (fun r => r.east)).getD false

/-- A row's probes reach the Larder of their wing. A granule without a set in service misses at once. -/
def State.askLarder (s : State) (ps : List Probe) : State :=
  match ps with
  | [] => s
  | p0 :: _ =>
    let ps := ps.map (fun p => { p with missed := !s.setUp p.east (larderSet p.granule) })
    let s : State := { s with larder := { s.larder with probes := s.larder.probes ++ ps } }
    s.rowMissed p0 (s.destsEast p0.dests != p0.east)

/-- The units of a row are fetched: one probe per granule where the table's rows may be held in the Larder, reads from memory
otherwise. The request for granules homed in the other wing crosses the Corridor (R16). -/
def State.fetchRow (s : State) (ds : List Dest) (d : BitVec 512) (table row mult : Nat) : State :=
  if ds.isEmpty then s
  else if !tbLarder d || s.larderBypass then s.readDests ds false
  else
    let east := s.destsEast ds
    let ps : List Probe := (firsts (ds.map (fun x => x.span.1 / 128))).map (fun g =>
      { east := s.homeEast (g * 128), granule := g, dests := ds.filter (fun x => x.span.1 / 128 == g), row := row
        table := table, mult := mult, missed := false })
    let far := ps.filter (fun p => p.east != east)
    let s := s.askLarder (ps.filter (fun p => p.east == east))
    if far.isEmpty then s
    else if s.corridor.failed then match s.destReq ds 0 0 with
      | some r => s.requestFault r s.corridorFault
      | none => s
    else s.corPush (!east) corData (.larderAsk (s.destsQueue ds) far)

-- Bytes that return.

/-- Bytes arrive at a tile: they are kept by virtual address, and the unit is no longer wanted. -/
def Tile.receive (t : Tile) (va : Nat) (bytes : List Byte) : Tile :=
  { t with
    data := bytes.zipIdx.foldl (fun a b => a.set (va + b.2) b.1) t.data
    want := t.want.filter (fun u => !(u.1 == va && u.2 == bytes.length)) }

def State.updBlock (s : State) (id : Nat) (f : Block → Block) : State :=
  { s with blocks := s.blocks.map (fun b => if b.id == id then f b else b) }

/-- A byte of a returned quarter. -/
def beatByte (data : BitVec 1024) (pa : Nat) : Byte := BitVec.ofNat 8 (fieldAt data (pa % 128) 1)

/-- Bytes of one quarter reach one destination. -/
def State.deliverTo (s : State) (data : BitVec 1024) : Dest → State
  | .tile id va pa len => s.updTile id (fun t => t.receive va ((List.range len).map (fun i => beatByte data (pa + i))))
  | .block id off pa len => s.updBlock id (fun b => if b.dropped then b else { b with
      data := (List.range len).foldl (fun a i => a.set (off + i) (beatByte data (pa + i))) b.data
      want := b.want.erase off })
  | .fetch id va pa len _ => s.arriveFetch id va ((List.range len).map (fun i => beatByte data (pa + i)))

-- Serving other devices (R269, R270).

/-- Row number of an entry of an LKUP_REQ, with the bits above it. -/
def reqEntry (p : Parcel) (i : Nat) : Nat := leNat ((p.payload.drop (8 * i)).take 8)

/-- Rows a reply parcel can hold (R268). -/
def rowsPerReply (rb : Nat) : Nat := 8192 / max 1 rb

/-- The version of a table that has an epoch and is not retired (R270). -/
def Table.version (t : Table) (e : Word) : Option Version := t.slots.find? (fun v => v.epoch == e)

/-- A part of the answer to an LKUP_REQ (R269). -/
def replyPart (p : Parcel) (dev rb k : Nat) (rows : List (List Byte)) : Parcel :=
  let mine := (rows.drop (k * rowsPerReply rb)).take (rowsPerReply rb)
  { (default : Parcel) with
    ptype := 0x02#8, src := BitVec.ofNat 8 dev, dst := p.src, pseq := p.pseq, batch := p.batch, epoch := p.epoch
    table := BitVec.ofNat 16 (k * 2 ^ 12 + bits p.table 0 12), count := BitVec.ofNat 16 mine.length
    ebytes := BitVec.ofNat 16 rb, payload := mine.flatten }

/-- The owner-service reply buffer (R263). -/
def ConfigPoint.replyBytes : ConfigPoint → Nat
  | .s => 2 ^ 17
  | _ => 2 ^ 19

/-- The first entry and the number of entries of the part a served parcel has reached. -/
def Serve.part (v : Serve) (d : BitVec 512) : Nat × Nat :=
  let r := rowsPerReply (tbRowBytes d)
  (v.sent * r, min r (v.parcel.count.toNat - v.sent * r))

/-- Bytes of a wing's reply buffer in use: parts that wait for their port or are being sent, and the part being read. -/
def State.replyUsed (s : State) (east : Bool) : Nat :=
  let mine (x : TxParcel) : Bool := x.parcel.ptype == 0x02#8 && x.answers.any (fun p => xportEast p == east)
  let txs := s.remote.ports.cells.flatMap (fun c => c.2.tx) ++ s.corItems.filterMap (fun i => match i with
    | .parcel x => some x
    | _ => none)
  (txs.filter mine).foldl (fun n x => n + x.parcel.payload.length) 0 +
    (s.remote.serves.filter (fun v => v.asked && xportEast v.port == east)).foldl (fun n v => match v.version with
      | some (_, d) => n + (v.part d).2 * tbRowBytes d
      | none => n) 0

/-- The reply buffer of a wing cannot hold another part (R270). -/
def State.replyFull (s : State) (east : Bool) : Bool := decide (s.cfg.replyBytes < s.replyUsed east + 8192)

def State.updServe (s : State) (id : Nat) (f : Serve → Serve) : State :=
  { s with remote := { s.remote with serves := s.remote.serves.map (fun v => if v.id == id then f v else v) } }

/-- A parcel's turn comes: its version and its entries are checked before any row is read (R270). -/
def State.serveBegin (s : State) (v : Serve) : State :=
  let p := v.parcel
  let es := (List.range p.count.toNat).map (reqEntry p)
  match (s.table (bits p.table 0 12)).version p.epoch with
  | none => s.nackServe v.id stEpochRetired
  | some x =>
    if es.any (fun e => decide (2 ^ 40 ≤ e)) then s.nackServe v.id stDescInvalid
    else if es.any (fun e => decide (tbNLocal x.desc ≤ e)) then s.nackServe v.id stIndexRange
    else s.updServe v.id (fun v => { v with version := some (x.asid, x.desc) })

/-- The rows of a part are read, through the Larder and the memory ports (R270). -/
def State.serveAsk (s : State) (v : Serve) (d : BitVec 512) : State :=
  let (lo, n) := v.part d
  (List.range n).foldl (fun a i =>
    if a.remote.serves.all (fun x => x.id != v.id) then a
    else match a.openReading (.serve v.id) with
      | (t, r) =>
        let va := tbRowVa d (reqEntry v.parcel (lo + i))
        match t.fetchDests r va (tbRowBytes d) (fun _ => va) with
        | (u, ds) => u.fetchRow ds d (bits v.parcel.table 0 12) (lo + i) 1) s

/-- The rows of a part have been read: it is sent. With the last part the parcel has been served. -/
def State.servePart (s : State) (v : Serve) (d : BitVec 512) (rows : List (List Byte)) : State :=
  let (lo, n) := v.part d
  let table := bits v.parcel.table 0 12
  let east := xportEast v.port
  let s := (s.count (unitPorter east) 0x05 0 n).countLoad table east (fun c => { c with served := c.served + n })
  let s := s.updServe v.id (fun v => { v with sent := v.sent + 1, asked := false })
  let s : State := if v.parcel.count.toNat ≤ lo + n then
      { s with
        remote := { s.remote with serves := s.remote.serves.filter (fun x => x.id != v.id) }
        readings := s.readings.filter (fun r => r.who != .serve v.id) }
    else s
  if v.mute then s else s.sendResponse v.port (replyPart v.parcel s.devid (tbRowBytes d) v.sent rows)

/-- The parcel whose turn it is in a wing goes on (R270). -/
def State.serveOne (s : State) (east : Bool) : State :=
  match s.remote.serves.find? (fun v => xportEast v.port == east) with
  | none => s
  | some v => match v.version with
    | none => s.serveBegin v
    | some (_, d) =>
      let (lo, n) := v.part d
      let rb := tbRowBytes d
      let rows : Option (List (List Byte)) := if n = 0 then some [] else (s.reading (.serve v.id)).bind (fun r =>
        ((List.range n).map (fun i => r.bytes (tbRowVa d (reqEntry v.parcel (lo + i))) rb)).foldr (fun x a => match x, a with
          | some b, some l => some (b :: l)
          | _, _ => none) (some []))
      if v.asked then match rows with
        | some l => s.servePart v d l
        | none => s.serveAsk v d
      else if s.replyFull east then s
      else (s.updServe v.id (fun v => { v with asked := true })).serveAsk v d

/-- Credits that a full reply buffer held back go out when it has room again (R270). -/
def State.payCredits (s : State) (east : Bool) : State :=
  if s.replyFull east then s
  else (s.remote.owed.cells.filter (fun c => xportEast c.1 == east && decide (0 < c.2))).foldl (fun a c =>
    ({ a with remote := { a.remote with owed := a.remote.owed.set c.1 0 } } : State).drive (.flitCredits c.1 false c.2)) s

/-- Both Porters go on with the parcels they serve: what is there is answered, a parcel's turn comes when the one before it
has been served. A parcel has at most 16 parts, each asked for and sent. -/
def State.serveAll (s : State) : State :=
  if s.remote.serves.isEmpty && s.remote.owed.cells.isEmpty then s
  else
    let s := (List.range (34 * s.remote.serves.length)).foldl (fun a _ => (a.serveOne false).serveOne true) s
    (s.payCredits false).payCredits true

end Sys2Proof.Machine
end

