-- ==== Sys2Proof/Machine/Lanework.lean ====
section
/-!
DEFINITION. The lane datapath: read windows and the read cache (R180, R222), write windows and final writes (R181,
R225), issuing a tile (R312), completing it, and landing (R219).
-/

namespace Sys2Proof.Machine

/-- An itinerary's fault: unit 0x1, with the itinerary and the instruction index of snapshot 1 (R142, R173). -/
def State.laneAbort (s : State) (q : Nat) (st : Byte) (num instr va : Nat) : State :=
  s.abort q { s.fault st 0x1#8 with va := BitVec.ofNat 56 va, itin := some num, instr := instr }

-- The Hall.

/-- Address of a byte of a Hall slot in `State.hall`. -/
def State.hallAddr (s : State) (r slot off : Nat) : Nat :=
  (if s.ringEast r then 2 ^ 26 else 0) + s.ringBase r + slot * s.slotBytes r + off

/-- A slot lies inside its wing's Hall. -/
def State.hallFits (s : State) (r slot : Nat) : Bool :=
  s.ringClient r || decide (s.ringBase r + (slot + 1) * s.slotBytes r ≤ s.cfg.hallBytes)

-- The read cache (R222).

def CacheLine.quarterOf (pa : Nat) : Nat := pa / 128 % 4

/-- A unit is served from a line of its queue; a SHARED read needs a line marked shared. -/
def CacheLine.serves (c : CacheLine) (q pa : Nat) (shared : Bool) : Bool :=
  c.q == q && c.base == pa / 512 * 512 && bitAt c.valid (CacheLine.quarterOf pa) && (!shared || c.shared)

/-- Drop the lines of a lane that a predicate selects. -/
def State.dropLines (s : State) (lane : Nat) (p : CacheLine → Bool) : State :=
  s.updLane lane (fun v => { v with cache := v.cache.filter (fun c => !p c) })

/-- Every lane of a wing drops lines. -/
def State.dropWingLines (s : State) (east : Bool) (p : CacheLine → Bool) : State :=
  (List.range s.cfg.wingLanes).foldl (fun a i => a.dropLines (wingLane0 east + i) p) s

/-- An acquire: the lane drops the lines marked shared of the queue (R223). -/
def State.acquire (s : State) (lane q : Nat) : State := s.dropLines lane (fun c => c.q == q && c.shared)

/-- A quarter returned whole fills the line of its window (R222); the least recently used of 64 lines is replaced. A refill that
marks a line shared drops the quarters the line held before it was (DESIGN CHOICE, log 119: R222 says only that the refill marks
the line). -/
def State.cacheFill (s : State) (lane q base : Nat) (shared : Bool) (bytes : List (Nat × Byte)) : State :=
  let win := base / 512 * 512
  (s.stored 0 (laneEast lane) lane).updLane lane (fun v =>
    let old := v.cache.find? (fun c => c.q == q && c.base == win)
    let keep := match old with
      | some c => if shared && !c.shared then none else some c
      | none => none
    let c : CacheLine := match keep with
      | some c => { c with
          valid := c.valid ||| BitVec.ofNat 4 (2 ^ CacheLine.quarterOf base)
          bytes := c.bytes.filter (fun b => decide (b.1 < base) || decide (base + 128 ≤ b.1)) ++ bytes }
      | none => { q := q, base := win, valid := BitVec.ofNat 4 (2 ^ CacheLine.quarterOf base), bytes := bytes,
                  shared := shared }
    { v with cache := c :: (v.cache.filter (fun x => !(x.q == q && x.base == win))).take 63 })

-- Requests.

/-- The ring a tile's output fills, or the one its itinerary holds a write slot of (R191). -/
def State.feeds (s : State) (t : Tile) : Option Nat :=
  match t.slotW with
  | some h => some h.ring
  | none => ((s.itin t.stream).bind (fun i => i.heldW)).map (fun h => h.ring)

/-- A lane reads (R180). -/
def State.readReq (s : State) (t : Tile) (holder : Holder) (ring : Option Nat) (pa len : Nat) (dests : List Dest)
    (tiles : List Nat) : State := s.bump.submit (s.tileReq t holder ring pa len dests tiles)

/-- The needed quarters of a window, and their maximal runs of neighbours. -/
def runsOf (qs : List Nat) : List (Nat × Nat) :=
  (([0, 1, 2, 3].filter (fun q => qs.contains q)).foldl (fun a q => match a with
    | (lo, hi) :: t => if hi + 1 = q then (lo, q) :: t else (q, q) :: a
    | [] => [(q, q)]) []).reverse

/-- Close a read window: one request for each run of quarters that hold a needed unit, from the first needed byte to
the last (R180). The request belongs to the stream of the oldest need. -/
def State.closeReads (s : State) (lane base : Nat) (needs : List Need) : State :=
  (runsOf (needs.map (fun n => CacheLine.quarterOf n.pa))).foldl (fun a r =>
    let ns := needs.filter (fun n => decide (r.1 ≤ n.pa / 128 % 4) && decide (n.pa / 128 % 4 ≤ r.2))
    match ns with
    | [] => a
    | n0 :: _ =>
      let lo := ns.foldl (fun x n => min x n.pa) n0.pa
      let hi := ns.foldl (fun x n => max x (n.pa + n.len)) base
      match a.tile n0.tile with
      | none => a
      | some t => a.readReq t (.lane lane) (a.feeds t) lo (hi - lo)
          (ns.map (fun n => Dest.tile n.tile n.va n.pa n.len)) (firsts (ns.map (fun n => n.tile)))) s

/-- Close a lane's open read window for a queue. -/
def State.closeReadWindow (s : State) (lane q : Nat) : State :=
  match (s.lane lane).rwins.find? (fun w => w.q == q) with
  | none => s
  | some w =>
    (s.updLane lane (fun v => { v with rwins := v.rwins.filter (fun x => x.q != q) })).closeReads lane w.base w.needs

/-- A needed unit joins the open window of its queue, or closes it and opens a new one (R180). -/
def State.joinReads (s : State) (lane q : Nat) (n : Need) : State :=
  let base := n.pa / 512 * 512
  let s : State := match (s.lane lane).rwins.find? (fun w => w.q == q) with
    | some w => if w.base = base then s else s.closeReadWindow lane q
    | none => s
  let s : State := match (s.lane lane).rwins.find? (fun w => w.q == q) with
    | some _ => s.updLane lane (fun v => { v with rwins := v.rwins.map (fun (w : ReadWindow) =>
        if w.q == q then { w with needs := w.needs ++ [n] } else w) })
    | none => s.updLane lane (fun v => { v with rwins := v.rwins ++ [ReadWindow.mk q base [n]] })
  match (s.lane lane).rwins.find? (fun w => w.q == q) with
  | some w => if [0, 1, 2, 3].all (fun k => w.needs.any (fun m => m.pa / 128 % 4 == k)) then s.closeReadWindow lane q else s
  | none => s

/-- A tile needs a unit: from the read cache when a line serves it, otherwise from memory (R222). -/
def State.needUnit (s : State) (t : Tile) (va len : Nat) (alone : Bool) : State :=
  let pa := t.phys false va
  let shared := match t.rd with
    | some d => tdShared d
    | none => false
  let u := unitLane t.lane
  match (s.lane t.lane).cache.find? (fun (c : CacheLine) => memSide t.rd && c.serves t.q pa shared) with
  | some c =>
    let bytes := (List.range len).map (fun i => ((c.bytes.find? (fun b => b.1 == pa + i)).map (fun b => b.2)).getD 0)
    let c' : CacheLine := { c with shared := c.shared || shared }
    let s := s.updLane t.lane (fun v => { v with
      cache := c' :: v.cache.filter (fun x => !(x.q == c.q && x.base == c.base)) })
    (s.updTile t.id (fun t => t.receive va bytes)).count u 0x0F 0 1
  | none =>
    let n : Need := { tile := t.id, va := va, pa := pa, len := len, shared := shared }
    let s := if memSide t.rd then s.count u 0x10 0 1 else s
    if alone then s.closeReads t.lane (pa / 512 * 512) [n] else s.joinReads t.lane t.q n

/-- One request for the units of a gathered row that lie in one 512-byte window, whatever quarters they lie in (R159). -/
def State.rowRead (s : State) (lane : Nat) (ns : List Need) : State :=
  match ns with
  | [] => s
  | n0 :: _ =>
    let lo := ns.foldl (fun x n => min x n.pa) n0.pa
    let hi := ns.foldl (fun x n => max x (n.pa + n.len)) lo
    match s.tile n0.tile with
    | none => s
    | some t => s.readReq t (.lane lane) (s.feeds t) lo (hi - lo) (ns.map (fun n => Dest.tile n.tile n.va n.pa n.len)) [t.id]

/-- The units of one gathered row: each 512-byte window of it is a window of its own (R159, R180). -/
def State.needRow (s : State) (t : Tile) (units : List (Nat × Nat)) : State :=
  let shared := match t.rd with
    | some d => tdShared d
    | none => false
  let hit (u : Nat × Nat) : Bool := memSide t.rd && (s.lane t.lane).cache.any (fun c => c.serves t.q (t.phys false u.1) shared)
  let s := (units.filter hit).foldl (fun a u => a.needUnit t u.1 u.2 true) s
  let rest := units.filter (fun u => !hit u)
  let ns : List Need := rest.map (fun u =>
    { tile := t.id, va := u.1, pa := t.phys false u.1, len := u.2, shared := shared })
  let s := if memSide t.rd then s.count (unitLane t.lane) 0x10 0 ns.length else s
  (ns.foldl (fun a n => groupIn (n.pa / 512) n a) []).foldl (fun a g => a.rowRead t.lane g.2) s

-- Writes.

/-- Drop a fill byte list into beats of 512 bytes, in increasing address order (R45). -/
def beatsOf (bytes : List (Nat × Byte)) : List Nat :=
  let bs := firsts (bytes.map (fun b => b.1 / 512 * 512))
  bs.foldl (fun a b => a.takeWhile (fun x => decide (x < b)) ++ b :: a.dropWhile (fun x => decide (x < b))) []

/-- Remove earlier bytes of the same address: the later in program order supplies it (R181). -/
def lastWins (bytes : List (Nat × Byte)) : List (Nat × Byte) :=
  bytes.foldr (fun b a => if a.any (fun x => x.1 == b.1) then a else b :: a) []

/-- The 16-byte units that hold an enabled byte, as maximal runs: first unit and count. -/
def unitRuns (pas : List Nat) : List (Nat × Nat) :=
  ((List.range 32).filter (fun u => pas.any (fun p => p % 512 / 16 == u))).foldl (fun a u => match a with
    | (lo, n) :: t => if lo + n = u then (lo, n + 1) :: t else (u, 1) :: a
    | [] => [(u, 1)]) [] |>.reverse

/-- ST_OWNER_UNREACHABLE for a device: DETAIL and FAULT_PA name it (R70, R110, R111). -/
def State.unreachable (s : State) (unit : Byte) (d : Nat) : FaultInfo :=
  { s.fault stUnreachable unit with detail := BitVec.ofNat 32 d, pa := BitVec.ofNat 52 d }

/-- A byte of a parcel's 16-byte unit that no write enables: the spec names no value (log 24). -/
def State.openByte (s : State) : State × Byte := (s.tick, BitVec.ofNat 8 (s.freeBelow 256))

/-- Send writes to another device as RWRITE or RWRITE_FINAL parcels (R67-R70, R225). -/
def State.remoteWrite (s : State) (q stream : Nat) (final : Bool) (held : Option Nat)
    (bytes : List (Nat × Byte)) (tiles : List Nat) (record : Option (Nat × Nat) := none) : State :=
  match bytes with
  | [] => s
  | (a0, _) :: _ =>
    let d := paDevice a0
    if !s.reachable d then (match tiles.head?.bind s.tile with
      | some t => s.porterSnap t
      | none => s).streamFault q stream (s.unreachable 0x5#8 d)
    else
      (unitRuns (bytes.map (fun b => b.1))).foldl (fun s r =>
        let lo := a0 / 512 * 512 + 16 * r.1
        let (s, load) := (List.range (16 * r.2)).foldl (fun a i =>
          match bytes.find? (fun b => b.1 == lo + i) with
          | some b => (a.1, a.2 ++ [b.2])
          | none =>
            let (t, x) := a.1.openByte
            (t, a.2 ++ [x])) (s, ([] : List Byte))
        let pseq := s.remote.pseq.get d
        let p : Parcel := { (default : Parcel) with
          ptype := if final then 0x04#8 else 0x03#8
          src := BitVec.ofNat 8 s.devid, dst := BitVec.ofNat 8 d, pseq := pseq
          table := s.qAsid q, batch := BitVec.ofNat 32 stream, count := BitVec.ofNat 16 r.2, ebytes := 16#16
          addr := BitVec.ofNat 64 lo, payload := load }
        let x : TxParcel := { port := s.xroute d, cls := false, q := some q, parcel := p, flits := parcelFlits p,
                              begun := false, stream := stream, heldFor := held }
        let o : OutParcel := { id := s.nextId, dst := BitVec.ofNat 6 d, pseq := pseq, port := s.xroute d, q := q, parcel := p,
                               stream := stream, tiles := tiles, sw := none, parts := [], record := record }
        let s : State := { s.bump with remote := { s.remote with
          pseq := s.remote.pseq.set d (pseq + 1), outs := s.remote.outs ++ [o] } }
        if held.isSome then s.updXport x.port (fun v => { v with tx := v.tx ++ [x] })
        else s.enqueueParcel (s.outEast o) x) s

/-- A write-class request of a queue's stream, local or remote, for enabled bytes inside one 512-byte window and one
run of quarters (R181). -/
def State.writeReq (s : State) (q stream : Nat) (holder : Holder) (op : BitVec 3) (final : Bool) (held : Option Nat)
    (bytes : List (Nat × Byte)) (tiles : List Nat) (row : Option RowPart := none) : State :=
  match bytes with
  | [] => s
  | (a0, _) :: _ =>
    if paDevice a0 != s.devid then s.remoteWrite q stream final held bytes tiles
    else
      let lo := bytes.foldl (fun x b => min x b.1) a0 / 16 * 16
      let hi := (bytes.foldl (fun x b => max x b.1) a0) / 16 * 16 + 16
      let r : Req := {
        id := s.nextId, port := s.portFor lo, op := if op == 1#3 && final then 2#3 else op, pa := lo, len := hi - lo
        east := s.qEast q, asid := s.qAsid q, prio := s.qPrio q, cat := .write, q := some q, holder := holder
        stream := stream, ring := none, dests := [], bytes := bytes, tiles := tiles, service := none, heldFor := held
        slot := none, row := row, final := final }
      s.bump.submit r

/-- Close an itinerary's write window: one request for each run of quarters that hold an enabled byte (R181). It waits for
the marking of a tile that has none yet, and is final when a tile of the window is (R225; log 25). -/
def State.closeWrites (s : State) (lane q stream : Nat) (w : WriteWindow) : State :=
  let tiles := firsts (w.writes.map (fun b => b.tile))
  let mark (id : Nat) : Option Bool := ((s.tile id).map (fun t => t.final)).getD (some false)
  let held := tiles.find? (fun id => (mark id).isNone)
  let final := tiles.any (fun id => mark id == some true)
  (runsOf (w.writes.map (fun b => b.pa / 128 % 4))).foldl (fun a r =>
    let ws := w.writes.filter (fun b => decide (r.1 ≤ b.pa / 128 % 4) && decide (b.pa / 128 % 4 ≤ r.2))
    a.writeReq q stream (.lane lane) w.op final held (lastWins (ws.map (fun b => (b.pa, b.byte))))
      (firsts (ws.map (fun b => b.tile)))) s

/-- Close the open write window of an itinerary. -/
def State.closeWriteWindow (s : State) (stream : Nat) : State :=
  match s.itin stream with
  | none => s
  | some i => match i.wwin with
    | none => s
    | some w => (s.updItin stream (fun i => { i with wwin := none })).closeWrites i.lane i.q stream w

/-- Every quarter of a window holds an enabled byte. -/
def WriteWindow.full (w : WriteWindow) : Bool := [0, 1, 2, 3].all (fun k => w.writes.any (fun b => b.pa / 128 % 4 == k))

/-- A tile may join a window: the same range and opcode; atomic adds only with those of the same tile (R181). -/
def WriteWindow.mayJoin (w : WriteWindow) (t : Tile) (op : BitVec 3) (base : Nat) : Bool :=
  w.base == base && w.op == op && (op == 1#3 || w.writes.all (fun b => b.tile == t.id))

/-- The writes of a tile to memory, in order, through the itinerary's write window. -/
def State.writeMem (s : State) (t : Tile) (op : BitVec 3) (bytes : List (Nat × Byte)) : State :=
  let ws := bytes.map (fun b => ({ tile := t.id, pa := t.phys true b.1, byte := b.2 } : WByte))
  let runs := (ws.foldl (fun a w => match a with
    | (base, l) :: r => if w.pa / 512 * 512 = base then (base, w :: l) :: r else (w.pa / 512 * 512, [w]) :: a
    | [] => [(w.pa / 512 * 512, [w])]) ([] : List (Nat × List WByte))).reverse
  let s := s.count (unitLane t.lane) 0x0E t.q ws.length
  runs.foldl (fun s r =>
    let s : State := match (s.itin t.stream).bind (fun i => i.wwin) with
      | some w => if w.mayJoin t op r.1 then s else s.closeWriteWindow t.stream
      | none => s
    let s := s.updItin t.stream (fun i => { i with wwin := match i.wwin with
      | some w => some { w with writes := w.writes ++ r.2.reverse }
      | none => some { base := r.1, op := op, writes := r.2.reverse } })
    match (s.itin t.stream).bind (fun i => i.wwin) with
    | some w => if w.full then s.closeWriteWindow t.stream else s
    | none => s) s

/-- Members of the group a ring leads, or the ring alone (R197). -/
def State.slotRings (s : State) (r : Nat) : List Nat := s.groupRings r

/-- The bytes of one address choose among those that alias (R129). -/
def State.resolve (s : State) (bytes : List (Nat × Byte)) : State × List (Nat × Byte) :=
  (bytes.foldl (fun a b => groupIn b.1 b.2 a) []).foldl (fun a g =>
    let (s, b) := a.1.pickAny g.2
    (s, a.2 ++ [(g.1, b)])) (s, [])

/-- The sum of an element that stands in a slot and an addend, each in its bytes: binary32 or bfloat16 (R34, R128). -/
def addElem (ty : Nat) (old new : List Byte) : List Byte :=
  if ty = 0x9 then natBytes 4 (addWord (BitVec.ofNat 32 (leNat old)) (BitVec.ofNat 32 (leNat new))).toNat
  else natBytes 2 (addBf16 (leNat old) (leNat new))

/-- The bytes that the addends of an ACCUM descriptor leave in a Hall slot. -/
def State.hallSums (s : State) (h : HeldSlot) (ty : Nat) (bytes : List (Nat × Byte)) : List (Nat × Byte) :=
  (pieces (dtypeSize ty) bytes).flatMap (fun g =>
    (g.map (fun b => b.1)).zip (addElem ty (g.map (fun b => s.hall.get (s.hallAddr h.ring h.slot b.1))) (g.map (fun b => b.2))))

/-- Words are written into a wing's Hall. Which bank holds an address is not stated: whether an armed injection's bank is among
those written stays open (R386; log 101). -/
def State.hallStored (s : State) (east : Bool) : State :=
  if s.flag offRelInject 31 && s.fld offRelInject 28 3 == 1 then
    (if s.freeBelow 2 == 1 then s.stored 1 east (s.fld offRelInject 16 10) else s).tick
  else s

/-- The writes of a tile into its itinerary's slot: into the Hall at once, or as a slot fill at each member ring's
client port (R45, R197, R219). An ACCUM descriptor adds to what stands in a Hall slot (R128); the push port has no adding
message, so the beats to a client carry the addends (DESIGN CHOICE, log 96). When several tiles write one claimed slot, each
forms a fill of its own, with its own LAST and acknowledgement (DESIGN CHOICE, log 97: R45 and R51 do not say). A fill formed
while the client's link is down waits in the port's list until the link is up (DESIGN CHOICE, log 98: R52). Where several tiles
write one byte of a Hall slot, the byte of the tile that writes last stays (DESIGN CHOICE, log 26: R129 leaves it open). -/
def State.writeSlot (s : State) (t : Tile) (d : BitVec 1024) (h : HeldSlot) (bytes : List (Nat × Byte)) : State :=
  let (s, bytes) := if tdAccum d then (s, if s.ringClient h.ring then bytes else s.hallSums h (tdDtype d) bytes)
    else s.resolve bytes
  let s := s.count (unitLane t.lane) 0x0E t.q bytes.length
  if s.ringClient h.ring then
    (s.slotRings h.ring).foldl (fun s r =>
      -- Each member's slot is the one claimed with the leader's: its own claim position.
      let slot := if r == h.ring then h.slot else (h.slot + (s.ring r).claimp + s.nslot r - (s.ring h.ring).claimp) % s.nslot r
      let base := s.ringBase r + slot * s.slotBytes r
      let bs := bytes.map (fun b => (base + b.1, b.2))
      if bs.isEmpty then s
      else
        let f : Fill := { port := s.ringPort r, ring := r, slot := slot, q := t.q, tile := t.id, bytes := bs,
                          beats := beatsOf bs, begun := false }
        if cportEast f.port == laneEast t.lane then s.updCport f.port (fun v => { v with fills := v.fills ++ [f] })
        else if s.corridor.failed then s.abort t.q s.corridorFault
        else s.corPush (cportEast f.port) corData (.fill f)) s
  else
    let s := (s.count (unitHall (s.ringEast h.ring)) 0x02 0 bytes.length).hallStored (s.ringEast h.ring)
    { s with hall := bytes.foldl (fun a b => a.set (s.hallAddr h.ring h.slot b.1) b.2) s.hall }

/-- Memory opcode of a tile's writes (R128). -/
def Tile.writeOp (t : Tile) : BitVec 3 :=
  match t.wd with
  | some d => if !tdAccum d then 1#3 else if tdDtype d = 0x9 then 3#3 else 4#3
  | none => 1#3

/-- A tile hands its bytes to its destination. -/
def State.writeTile (s : State) (t : Tile) (bytes : List (Nat × Byte)) : State :=
  match t.wd with
  | none => s
  | some d => match tdSlot d, t.slotW with
    | true, some h => s.writeSlot t d h bytes
    | true, none => s
    | false, _ => s.writeMem t t.writeOp bytes

-- The Porter's tiles (R267, R271).

/-- The accumulator element a POOLOUT writes (R162). -/
def poolValue (mean : Bool) (n : Nat) (sum : Word) : Word :=
  if n = 0 then 0#32 else if mean then divWord sum (toWord (.ofInt n)) else sum

/-- The exact value of element j of a stored row. -/
def rowElem (d : BitVec 512) (row : List Byte) (j : Nat) : Num :=
  let n := dtypeSize (tbDtype d)
  let c := leNat ((row.drop (j * n)).take n)
  if tbDtype d = 0xC then
    rowValue (leNat ((row.drop (tbDim d)).take 2)) (leNat ((row.drop (tbDim d + 2)).take 2)) c
  else decodeElem (tbDtype d) c

/-- The pooled elements of a bag (R271): each pair's product rounded, the products added in an order that is not
specified, and the mean. -/
def State.poolBag (s : State) (b : Batch) (w : SubWin) (bag : Nat) : State × List Word :=
  let ps := w.pairs.filter (fun p => p.bag == bag)
  let mode := bits b.hdr 8 2
  (List.range (tbDim b.desc)).foldl (fun a j =>
    let ts := ps.map (fun p =>
      let x := toWord (rowElem b.desc (((w.rows.getD p.row default).data).getD []) j)
      mulWord x (if mode = 2 then p.wsum else toWord (.ofInt p.count)))
    let (s, sum) := a.1.sumAny ts
    (s, a.2 ++ [if mode = 1 then poolValue true (w.bagN.getD bag 0) sum else sum])) (s, [])

/-- Writes of a Porter tile, in requests of their own: one for each run of quarters of each 512-byte window. -/
def State.porterWrites (s : State) (t : Tile) (op : BitVec 3) (bytes : List (Nat × Byte)) : State :=
  let ws := bytes.map (fun b => (t.phys true b.1, b.2))
  let s := s.count (unitLane t.lane) 0x0E t.q ws.length
  (ws.foldl (fun a b => groupIn (b.1 / 512) b a) []).foldl (fun s g =>
    (runsOf (g.2.map (fun b => b.1 / 128 % 4))).foldl (fun s r =>
      s.writeReq t.q t.stream .porter op false none
        (lastWins (g.2.filter (fun b => decide (r.1 ≤ b.1 / 128 % 4) && decide (b.1 / 128 % 4 ≤ r.2)))) [t.id]) s) s

end Sys2Proof.Machine
end

