-- ==== Sys2Proof/Machine/Updating.lean ====
section
/-!
DEFINITION. What the lane that carries a row group of an UPDATE computes (R289-R291): the optimiser's arithmetic, the
requantisation of 0xC rows, the addends of a scatter-add, and the writes of a row.
-/

namespace Sys2Proof.Machine

def ubGtype (h : BitVec 512) : Nat := bits h 8 4
def ubSround (h : BitVec 512) : Bool := bitAt h 16

/-- The command of a batch. -/
def State.batchCmd (s : State) (b : Batch) : BitVec 512 := (((s.queue b.q).cmd b.cmd).map (fun c => c.bytes)).getD 0#512

/-- Bytes of optimiser state beside a row (R254). -/
def tbStateBytes (d : BitVec 512) : Nat :=
  match tbOptkind d with
  | 1 => 4
  | 2 => 4 * tbDim d
  | _ => 0

/-- An UPDATE that only adds to memory (R291). -/
def scatters (c : BitVec 512) (d : BitVec 512) : Bool := cmdRule c == 0 && (tbDtype d == 0x9 || tbDtype d == 0x8)

/-- Bytes of optimiser state that an UPDATE uses. -/
def stateUsed (c : BitVec 512) (d : BitVec 512) : Nat := if cmdRule c = 0 then 0 else tbStateBytes d

/-- Address of a row's optimiser state. -/
def tbStateVa (d : BitVec 512) (row : Nat) : Nat := tbRowVa d row + tbOptOfs d

/-- a - b in binary32. -/
def subWord (a b : Word) : Word := addWord a (b ^^^ 0x80000000#32)

/-- Words of optimiser state. -/
def stateWords (l : List Byte) (n : Nat) : List Word :=
  (List.range n).map (fun i => BitVec.ofNat 32 (leNat ((l.drop (4 * i)).take 4)))

/-- The new elements and the new state of a row (R289). -/
def State.optimise (s : State) (c d : BitVec 512) (w g : List Word) (a : List Byte) : State × List Word × List Word :=
  let lr := cmdLr c
  let step (d : Word) (j : Nat) : Word := subWord (w.getD j 0) (divWord (mulWord lr (g.getD j 0)) d)
  let js := List.range (tbDim d)
  if cmdRule c = 0 then (s, js.map (fun j => addWord (w.getD j 0) (mulWord lr (g.getD j 0))), [])
  else if tbOptkind d = 1 then
    let (s, sq) := s.sumAny (g.map (fun x => mulWord x x))
    let a2 := addWord ((stateWords a 1).getD 0 0) (divWord sq (toWord (.ofInt (tbDim d))))
    let den := addWord (sqrtWord a2) (cmdEps c)
    (s, js.map (step den), [a2])
  else
    let a2 := js.map (fun j => addWord ((stateWords a (tbDim d)).getD j 0) (mulWord (g.getD j 0) (g.getD j 0)))
    (s, js.map (fun j => step (addWord (sqrtWord (a2.getD j 0)) (cmdEps c)) j), a2)

-- Requantisation of 0xC rows (R290).

/-- Round the positive number (num / den) x 2^e up to fp16; beyond 65,504 it becomes 65,504. -/
def fp16Up (num den : Nat) (e : Int) : Nat :=
  let q := max (ratLog num den + e - 10) (-24)
  let n := num * 2 ^ (e - q).toNat
  let dd := den * 2 ^ (q - e).toNat
  let m0 := (n + dd - 1) / dd
  let (m, x) := if m0 = 2048 then (1024, q + 1) else (m0, q)
  let ef := if m < 1024 then 0 else (x + 25).toNat
  min 0x7BFF (ef * 1024 + m % 1024)

/-- fp16(): to nearest even, with +-65,504 for what lies beyond. -/
def fp16Of (v : Num) : Nat :=
  let c := (convert 0x7 .nearest v).1
  if c % 2 ^ 15 = 0x7C00 then c - 1 else c

/-- a x 2^k and -a of a value. -/
def Num.scale (k : Int) : Num → Num
  | .fin n m e => .fin n m (e + k)
  | v => v

def Num.minus : Num → Num
  | .fin n m e => .fin (!n) m e
  | .inf n => .inf (!n)
  | v => v

/-- The order of values that are no NaN. -/
def Num.below (a b : Num) : Bool := match a.plus b.minus with
  | .fin n m _ => n && m != 0
  | .inf n => n && a != b
  | .nan _ _ => false

def Num.isNan : Num → Bool
  | .nan _ _ => true
  | _ => false

def Num.isZero : Num → Bool
  | .fin _ m _ => m == 0
  | _ => false

/-- Scale of a row that spans `d` > 0: d / 255 rounded up. -/
def rowScale (d : Num) : Nat := match d with
  | .fin _ m e => fp16Up m 255 e
  | _ => 0x7BFF

/-- A quotient of a value by a finite positive one, rounded and saturated to a code of 0xC; counted when it saturates. -/
def State.castCode (s : State) (lane : Nat) (sround : Bool) (v : Num) (den : Num) : State × Nat :=
  let (s, rm) := if sround then (let (t, r) := s.roll lane; (t, Rounding.stochastic r)) else (s, .nearest)
  let (c, sat) := match v, den with
    | .fin n m e, .fin _ dm de =>
      let k : Int := roundAt rm n m dm (e - de) 0
      toInteger (-128) 127 8 .nearest (.ofInt (if n then -k else k))
    | v, _ => toInteger (-128) 127 8 .nearest v
  (if sat then s.count (unitLane lane) 0x12 0 1 else s, c)

/-- The stored bytes of a 0xC row of new values. The rounding generator advances for every element (R140). -/
def State.requantise (s : State) (lane : Nat) (sround : Bool) (w2 : List Word) : State × List Byte :=
  let vs := w2.map ofWord
  let zeros := w2.map (fun _ => (0#8 : Byte))
  let skip : State := if sround then w2.foldl (fun a _ => (a.roll lane).1) s else s
  if vs.any Num.isNan then (skip, zeros ++ natBytes 2 0x7E00 ++ natBytes 2 0x7E00)
  else match vs with
  | [] => (s, [])
  | v :: t =>
    let lo := t.foldl (fun a x => if x.below a then x else a) v
    let hi := t.foldl (fun a x => if a.below x then x else a) v
    if !lo.below hi then (skip, zeros ++ natBytes 2 0x3C00 ++ natBytes 2 (fp16Of lo))
    else
      let sc := rowScale (hi.plus lo.minus)
      let sv := decodeElem 0x7 sc
      let bi := fp16Of (lo.plus (sv.scale 7))
      let bv := decodeElem 0x7 bi
      let (s, codes) := vs.foldl (fun a x =>
        let (t, c) := a.1.castCode lane sround (x.plus bv.minus) sv
        (t, a.2 ++ natBytes 1 c)) (s, ([] : List Byte))
      (s, codes ++ natBytes 2 sc ++ natBytes 2 bi)

/-- The stored bytes of a row of new values (R290). -/
def State.encodeRow (s : State) (lane : Nat) (sround : Bool) (d : BitVec 512) (w2 : List Word) : State × List Byte :=
  if tbDtype d = 0xC then s.requantise lane sround w2
  else w2.foldl (fun a w =>
    let (t, c) := a.1.castElem lane sround 0x9 (tbDtype d) ⟨w.toNat, ofWord w, false⟩
    (t, a.2 ++ natBytes (dtypeSize (tbDtype d)) c)) (s, [])

/-- The exact product of two finite values; else what the binary32 product gives. -/
def exactProduct (a b : Word) : Num :=
  match ofWord a, ofWord b with
  | .fin n m e, .fin k l f => .fin (n != k) (m * l) (e + f)
  | _, _ => ofWord (mulWord a b)

/-- The addends of a scatter-add: the product is rounded once, to the table's type, stochastically with SROUND (R291). -/
def State.addends (s : State) (lane : Nat) (sround : Bool) (c d : BitVec 512) (g : List Word) : State × List Byte :=
  g.foldl (fun a x =>
    let (t, w) := a.1.cast lane sround (tbDtype d) (exactProduct (cmdLr c) x)
    (t, a.2 ++ natBytes (dtypeSize (tbDtype d)) w)) (s, [])

/-- The writes of one row and its state leave, in requests of their own: one for each run of quarters of each 512-byte window.
A fault of one reports the row or the state that it begins with (R294). -/
def State.rowWrites (s : State) (t : Tile) (op : BitVec 3) (row : Nat) (items : List (Nat × List Byte)) : State :=
  let ws := items.flatMap (fun i => i.2.zipIdx.map (fun b => (i.1, t.phys true (i.1 + b.2), b.1)))
  let s := s.count (unitLane t.lane) 0x0E t.q ws.length
  let parts := (ws.foldl (fun a b => groupIn (b.2.1 / 512) b a) []).flatMap (fun g =>
    (runsOf (g.2.map (fun b => b.2.1 / 128 % 4))).map (fun r =>
      g.2.filter (fun b => decide (r.1 ≤ b.2.1 / 128 % 4) && decide (b.2.1 / 128 % 4 ≤ r.2))))
  parts.foldl (fun s p => match p with
    | [] => s
    | b :: _ => s.writeReq t.q t.stream .porter op false none (p.map (fun b => b.2)) [t.id]
        (some { va := row, item := b.1, parts := parts.length })) s

/-- One distinct row is computed and its writes leave (R289-R291). -/
def State.updateRow (s : State) (b : Batch) (c : BitVec 512) (t : Tile) (row : Nat) (g : List Word) : State :=
  let d := b.desc
  let va := tbRowVa d row
  let sr := ubSround b.hdr
  let stored (a n : Nat) : List Byte := (List.range n).map (fun i => t.data.get (a + i))
  if (s.queue b.q).stopping then s
  else if scatters c d then
    let (s, bytes) := s.addends t.lane sr c d g
    s.rowWrites t (if tbDtype d = 0x9 then 3#3 else 4#3) va [(va, bytes)]
  else
    let old := stored va (tbRowBytes d)
    let w := (List.range (tbDim d)).map (fun j => toWord (rowElem d old j))
    let (s, w2, a2) := s.optimise c d w g (stored (tbStateVa d row) (stateUsed c d))
    let (s, bytes) := s.encodeRow t.lane sr d w2
    s.rowWrites t 1#3 va ((va, bytes) :: if a2.isEmpty then [] else [(tbStateVa d row, a2.flatMap (fun a => natBytes 4 a.toNat))])

/-- A row group of an UPDATE has its rows and states: each row is computed and written. -/
def State.runUpdateRows (s : State) (t : Tile) : State :=
  match (s.subWin t.ref).bind (fun w => (s.batch w.batch).map (fun b => (w, b))) with
  | none => s
  | some (w, b) => (t.members.zip t.rows).foldl (fun a m => a.updateRow b (a.batchCmd b) t m.2.toNat (w.sums.getD m.1 [])) s

end Sys2Proof.Machine
end

