-- ==== Sys2Proof/Machine/Completion.lean ====
section
/-!
DEFINITION. What a tile does when everything it reads has come, landing and retiring (R219, R178), handing out the Porter's
tiles (R267, R271), the final marking (R225), the pre-check (R312) and issue (R177, R244).
-/

namespace Sys2Proof.Machine

/-- A row group has arrived: its rows are in the stage (R267). A progress event (R106). -/
def State.runRows (s : State) (t : Tile) : State :=
  match s.subWin t.ref with
  | none => s
  | some w => match s.batch w.batch with
    | none => s
    | some b =>
      let put (r : PRow) (k : Nat) : PRow :=
        if t.members.contains k then { r with data := some ((List.range (tbRowBytes b.desc)).map (fun i =>
          t.data.get (tbRowVa b.desc r.row + i))) } else r
      s.updSub t.ref (fun w => { w with rows := w.rows.zipIdx.map (fun x => put x.1 x.2) })

/-- A bag group pools its bags and writes them, each as a tile of its own (R261, R271). -/
def State.runBags (s : State) (t : Tile) : State :=
  match s.subWin t.ref with
  | none => s
  | some w => match s.batch w.batch with
    | none => s
    | some b =>
      t.members.foldl (fun s bag =>
        let (s, l) := s.poolBag b w bag
        let (s, bytes) := s.wordBytes { t with t1 := 1, orgW := [0, ((w.firstBag + bag : Nat) : Int), 0, 0, 0, 0] }
          (fun j0 _ => l.getD j0 0)
        s.porterWrites t t.writeOp bytes) s

-- Completing tiles.

/-- A number that stands for no cursor: an index window of a binding that has been replaced (R165). -/
def noCursor : Nat := 16

/-- Everything a tile reads has arrived. -/
def State.tileReady (s : State) (t : Tile) : Bool :=
  t.stage == .issued && !t.written && t.want.isEmpty && !s.blocks.any (fun b => b.tile == t.id)

/-- A tile that has everything it reads takes effect: it pools, or its bytes go to its write side. -/
def State.runTile (s : State) (t : Tile) : State :=
  let s := s.updTile t.id (fun t => { t with written := true })
  match t.kind with
  | .move | .gather =>
    let (s, l) := s.moveBytes t
    s.writeTile t l
  | .xpand =>
    let (s, l) := match t.wd, t.rd with
      | some d, some r =>
        let es := t.handed (fun j0 j1 =>
          let w := BitVec.ofNat 32 (t.load (4 * (j0 + t.t0 * j1)) 4)
          if t.hasBlock r then ⟨w.toNat, ofWord w, false⟩ else ⟨0, ofWord 0, true⟩)
        if tdAccum d then s.accumBytes t d 0x9 es else s.plainBytes t d 0x9 es
      | _, _ => (s, [])
    -- DONE counts the blocks whose output has passed to a lane (R249).
    let s := if t.rd.any t.hasBlock then s.snapDone t.q t.stream 4 1 else s
    s.writeTile t l
  | .pool | .reduce =>
    let (s, l, n) := s.poolAddends t
    s.updItin t.stream (fun i => { i with
      acc := l.foldl (fun a x => a.set x.1 (a.get x.1 ++ [x.2])) i.acc
      accN := i.accN + n })
  | .poolout =>
    match s.itin t.stream with
    | none => s
    | some i =>
      let (s, sums) := (List.range t.t0).foldl (fun a k =>
        let (s, w) := a.1.sumAny (i.acc.get k)
        (s, a.2 ++ [w])) (s, ([] : List Word))
      let s := s.updItin t.stream (fun i => if t.keep then { i with
          acc := sums.zipIdx.foldl (fun a x => a.set x.2 [x.1]) .empty }
        else { i with acc := .empty, accN := 0 })
      let (s, l) := s.wordBytes t (fun j0 _ => poolValue t.mean i.accN (sums.getD j0 0))
      s.writeTile t l
  | .indexWin =>
    let fill (c : Cursor) : Cursor := { c with
      wins := c.wins ++ [(t.t0, (List.range 512).map (fun k => t.data.get (t.t0 + k)))]
      fetching := c.fetching.filter (fun f => f != t.t0) }
    let s := if t.ref == noCursor then s
      else s.updItin t.stream (fun i => { i with ix := i.ix.set t.ref (fill (i.ix.get t.ref)) })
    { s with tiles := s.tiles.filter (fun u => u.id != t.id) }
  | .rowGroup => s.runRows t
  | .bagGroup => s.runBags t
  | .updateRows => s.runUpdateRows t

/-- Every tile whose turn has come takes effect: tiles of one itinerary in program order (R151, R248; log 26). -/
def State.finishTiles (s : State) : State :=
  (s.tiles.map (fun t => t.id)).foldl (fun s id =>
    match s.tile id with
    | none => s
    | some t =>
      let before := s.tiles.takeWhile (fun u => u.id != id)
      let first := !t.kind.ordered || before.all (fun u => u.stream != t.stream || u.written || !u.kind.ordered)
      if s.tileReady t && first then s.runTile t else s) s

-- Landing (R219).

/-- A Corridor item carries a write of a tile, or its acknowledgement. -/
def CorItem.concerns (id : Nat) : CorItem → Bool
  | .request r | .rejected r _ _ => isWriteOp r.op && r.tiles.contains id
  | .landed r => r.tiles.contains id
  | .pushed _ t _ | .pushFailed _ t _ _ => t == id
  | .fill f => f.tile == id
  | .quarter _ _ _ _ | .parcel _ | .inbound _ _ _ | .semInc _ _ _ | .semTake _ _ | .semGrant _ _ |
    .semNotice _ _ | .command _ _ | .missAsk _ | .missAnswer _ _ _ _ _ _ | .larderAsk _ _ | .access _ | .accessDone _ _ |
    .tallyRead _ _ | .tallyAnswer _ _ => false

/-- Something a tile has written has not landed (R219). -/
def State.inFlight (s : State) (id : Nat) : Bool :=
  s.waiting.any (fun r => isWriteOp r.op && r.tiles.contains id) ||
    s.outs.any (fun o => !o.dead && isWriteOp o.req.op && o.req.tiles.contains id) ||
    s.itins.any (fun i => match i.wwin with
      | some w => w.writes.any (fun b => b.tile == id)
      | none => false) ||
    s.cports.cells.any (fun c => (c.2.fills ++ c.2.await).any (fun f => f.tile == id)) ||
    s.remote.outs.any (fun o => o.tiles.contains id) ||
    (s.corridor.toEast.cells ++ s.corridor.toWest.cells).any (fun c => c.2.any (CorItem.concerns id))

/-- Tiles that have taken effect and landed leave: their transfer is no longer outstanding (R178). A progress event of
the queue (R106). -/
def State.retireTiles (s : State) : State :=
  let gone := s.tiles.filter (fun t => t.written && !s.inFlight t.id)
  let s := gone.foldl (fun a t =>
    let a := if t.kind == .bagGroup then a else (a.progress t.q).snapDone t.q t.stream (if t.kind.ordered then 1 else 3) 1
    { a with tiles := a.tiles.filter (fun u => u.id != t.id) }) s
  -- An itinerary that has ended stays only while tiles of it are in flight.
  let s : State := { s with itins := s.itins.filter (fun i => i.place != .ended || s.tiles.any (fun t => t.stream == i.stream) ||
      i.wwin.isSome) }
  { s with readings := s.readings.filter (fun r => match r.who with
    | .desc stream => s.itins.any (fun i => i.stream == stream && i.place == .resident)
    | _ => true) }

-- Handing out the Porter's tiles.

/-- Tiles of a lane's residents that a suspension had taken out of its tile queue and that have not entered it again
(R103, R177). -/
def State.outside (s : State) (lane : Nat) : List Tile :=
  s.tiles.filter (fun t => t.lane == lane && t.stage == .queued && t.kind.ordered && !(s.lane lane).tileq.contains t.id &&
    s.itins.any (fun i => i.stream == t.stream && i.place == .resident))

/-- Tiles in a lane's queue of four, or in front of it (R177). -/
def State.queued (s : State) (lane : Nat) : Nat := (s.lane lane).tileq.length + (s.outside lane).length

/-- Tiles that wait in front of a lane's tile queue enter it while it has room (R177). -/
def State.fillQueue (s : State) (lane : Nat) : State :=
  let n := 4 - (s.lane lane).tileq.length
  let ids := ((s.outside lane).take n).map (fun t => t.id)
  if ids.isEmpty then s else s.updLane lane (fun v => { v with tileq := v.tileq ++ ids })

/-- The lane of a wing with the fewest tiles queued, if it has room (R267). -/
def State.idlestLane (s : State) (east : Bool) : Option Nat :=
  let ls := ((List.range s.cfg.wingLanes).map (fun i => wingLane0 east + i)).filter (fun l =>
    !(s.lane l).gated && !bitAt s.rel.lanesOut l && decide (s.queued l < 4))
  ls.foldl (fun a l => match a with
    | none => some l
    | some m => if s.queued l < s.queued m then some l else a) none

/-- A tile of a batch. -/
def State.porterTile (s : State) (b : Batch) (w : SubWin) (lane : Nat) (kind : TileKind) : Tile :=
  { (default : Tile) with
    id := s.nextId, stream := b.stream, lane := lane, q := b.q, kind := kind, stage := .queued, ref := w.id
    final := some false }

/-- 16-byte units of a stored row (R267). -/
def rowUnits16 (d : BitVec 512) (row : Nat) : List (Nat × Nat) := unitsOf 16 (tbRowVa d row) (tbRowBytes d)

/-- Transfers of a queue in the datapaths (R178). -/
def State.transfersOf (s : State) (q : Nat) : Nat := (s.tiles.filter (fun t => t.q == q && t.kind != .indexWin)).length

/-- A tile enters a lane's tile queue. -/
def State.pushTile (s : State) (lane : Nat) (t : Tile) : State :=
  ({ s.bump with tiles := s.tiles ++ [t] } : State).updLane lane (fun v => { v with tileq := v.tileq ++ [t.id] })

/-- The rows of an update sub-window may be read: every row write of the batch's earlier ones has landed (R287). -/
def State.updateTurn (s : State) (w : SubWin) : Bool :=
  (s.porter.subs.takeWhile (fun x => x.id != w.id)).all (fun x => x.batch != w.batch ||
    (x.given == x.rows.length && !s.tiles.any (fun t => t.kind == .updateRows && t.ref == x.id)))

/-- The next row group of an update sub-window goes to a lane (R267, R289). -/
def State.feedUpdate (s : State) (b : Batch) (w : SubWin) (lane : Nat) : State :=
  let c := s.batchCmd b
  let todo := ((w.rows.zipIdx.drop w.given).take 64)
  if todo.isEmpty then s
  else
    let o : RowOpt := { ofs := tbOptOfs b.desc, len := stateUsed c b.desc, adds := scatters c b.desc }
    let t : Tile := { s.porterTile b w lane .updateRows with
      members := todo.map (fun r => r.2), rows := todo.map (fun r => (r.1.row : Int)), opt := o
      rdVa := tbBase b.desc, dr := tbPitch b.desc, t0 := tbRowBytes b.desc }
    let t := { t with want := if o.adds then [] else t.rowItems.flatMap (fun x => unitsOf 16 x.1 x.2) }
    ((s.updSub w.id (fun w => { w with given := w.given + todo.length })).pushTile lane t).snapIssued b.q b.stream 3 1

/-- The next row group or bag group of a sub-window goes to a lane, while the queue is below its limit (R178, R267,
R271). -/
def State.feedOne (s : State) (w : SubWin) : State :=
  match s.batch w.batch with
  | none => s
  | some b => match s.idlestLane b.east with
    | none => s
    | some lane =>
      if s.qMaxOut b.q ≤ s.transfersOf b.q then s
      else if b.isUpdate then
        if s.updateTurn w then s.feedUpdate b w lane else s
      else
        let out := (s.tiles.filter (fun t => t.ref == w.id && t.kind == .rowGroup)).flatMap (fun t => t.members)
        let todo := ((w.rows.zipIdx.filter (fun r => r.1.owner == s.devid && r.1.data.isNone && !out.contains r.2)).take 64)
        if !todo.isEmpty then
          (s.pushTile lane { s.porterTile b w lane .rowGroup with
            members := todo.map (fun r => r.2), rows := todo.map (fun r => (r.1.row : Int))
            want := todo.flatMap (fun r => rowUnits16 b.desc r.1.row)
            rdVa := tbBase b.desc, dr := tbPitch b.desc, t0 := tbRowBytes b.desc }).snapIssued b.q b.stream 3 1
        else if w.pooled && decide (w.given < w.bagN.length) then
          let n := min 64 (w.bagN.length - w.given)
          (s.updSub w.id (fun w => { w with given := w.given + n })).pushTile lane { s.porterTile b w lane .bagGroup with
            members := (List.range n).map (fun k => w.given + k), wd := some b.out, wdVa := fieldAt b.hdr 32 8
            orgW := [0, ((w.firstBag + w.given : Nat) : Int), 0, 0, 0, 0], t0 := tbDim b.desc, t1 := n }
        else s

/-- Hand out groups until nothing more can go: a sub-window has at most 16,384 rows and 2^20 bags. -/
def State.feed (s : State) : State :=
  (List.range 16).foldl (fun a _ => a.porter.subs.foldl (fun a w => match a.subWin w.id with
    | some w => a.feedOne w
    | none => a) a) s

/-- A read of a block is on its way or outstanding. -/
def State.blockReads (s : State) (id : Nat) : Bool :=
  let mine (r : Req) : Bool := r.dests.any (fun d => match d with
    | .block b _ _ _ => b == id
    | _ => false)
  s.waiting.any mine || s.outs.any (fun o => !o.dead && mine o.req) || s.corItems.any (fun i => match i with
    | .request r | .quarter r _ _ _ | .rejected r _ _ => mine r
    | _ => false)

/-- Buffer units of a dropped block are free once its last read has returned (R249). -/
def State.freeBlocks (s : State) : State :=
  { s with blocks := s.blocks.filter (fun b => !b.dropped || s.blockReads b.id) }

/-- After bytes have arrived or writes have landed. -/
def State.sweep (s : State) : State := s.freeBlocks.finishTiles.retireTiles.feed.serveAll

-- Final marking (R225).

/-- The marking of undecided tiles is decided: held requests and parcels go out. -/
def State.markTiles (s : State) (among : Tile → Bool) (final : Bool) : State :=
  let ids := (s.tiles.filter (fun t => among t && t.final.isNone && t.kind.ordered)).map (fun t => t.id)
  if ids.isEmpty then s
  else
    let s : State := { s with tiles := s.tiles.map (fun t => if ids.contains t.id then { t with final := some final } else t) }
    let heldBy (h : Option Nat) : Bool := match h with
      | some id => ids.contains id
      | none => false
    let rs := s.waiting.filter (fun r => heldBy r.heldFor)
    let s : State := { s with waiting := s.waiting.filter (fun r => !heldBy r.heldFor) }
    let s := rs.foldl (fun a r => a.submit { r with heldFor := none, op := if final && r.op == 1#3 then 2#3 else r.op, final := final }) s
    let ps := s.remote.ports.cells.flatMap (fun c => c.2.tx.filter (fun x => heldBy x.heldFor))
    let ports := s.remote.ports.each (fun _ v => { v with tx := v.tx.filter (fun x => !heldBy x.heldFor) })
    let s : State := { s with remote := { s.remote with ports := ports } }
    ps.foldl (fun a x =>
      let x : TxParcel := { x with heldFor := none, parcel := if final then { x.parcel with ptype := 0x04#8 } else x.parcel }
      match x.q with
      | some q => a.enqueueParcel (a.qEast q) x
      | none => a) s

/-- The marking of an itinerary's undecided tiles is decided. -/
def State.mark (s : State) (stream : Nat) (final : Bool) : State := s.markTiles (fun t => t.stream == stream) final

/-- Instructions that decide the marking, and the two that decide it final (R225). -/
def decides (op : Nat) : Bool :=
  [0x30, 0x31, 0x32, 0x33, 0x34, 0x2C, 0x02, 0x20, 0x22, 0x28, 0x19, 0x21, 0x29].contains op
def decidesFinal (op : Nat) : Bool := op == 0x2C || op == 0x02

-- Pre-check and issue.

/-- Misses a tile waits for. -/
def State.tileMisses (s : State) (id : Nat) : Nat :=
  (s.misses.filter (fun m => m.waiters.any (fun w => w.who == .tile id))).length

/-- The access a side of a tile needs. -/
def Tile.sideAcc (t : Tile) (wr : Bool) : BitVec 2 := if wr then t.writeAcc else accRead

/-- A cached range covers every touched page of one side that it holds (R312). Pages are taken modulo 2^44 (log 104). -/
def Tile.coverBy (t : Tile) (wr : Bool) (r : Range) (pages : List (Bool × Nat)) : Tile :=
  { t with cover := pages.foldl (fun a p =>
      if p.1 == wr && r.covers r.asid (p.2 % 2 ^ 44) && !a.any (fun c => c.wr == wr && c.page == p.2) then
        a ++ [{ wr := wr, page := p.2, ppage := r.ppage (p.2 % 2 ^ 44), vstart := r.vstart.toNat, pages := r.pages }] else a) t.cover }

/-- Address of the item of a Porter tile that lies in a page: the row, or the output of its first bag (R272, R294). -/
def Tile.itemVa (t : Tile) (wr : Bool) (page : Nat) : Nat :=
  if wr && t.kind == .bagGroup then t.firstVa true
  else ((t.rowItems.find? (fun x => (pagesOf x.1 x.2).contains page)).map (fun x => x.1)).getD (page * 4096)

/-- What a walk of a tile's pre-check ends in. -/
inductive Walk where
  | covered | waiting | denied
  deriving DecidableEq, Repr, Inhabited

/-- The pre-check of a tile has covered a page (R312). -/
def Tile.covers (t : Tile) (p : Bool × Nat) : Bool := t.cover.any (fun c => c.wr == p.1 && c.page == p.2)

/-- A tile waits for a miss of a page. -/
def State.tileWaits (s : State) (t : Tile) (p : Bool × Nat) : Bool :=
  s.misses.any (fun m => m.east == laneEast t.lane && m.asid == s.qAsid t.q && m.page.toNat == p.2 % 2 ^ 44 &&
    m.waiters.any (fun x => x.who == .tile t.id && x.acc == t.sideAcc p.1))

/-- The walk of a Porter's tile can go on: a page that it has not covered hits, or may open a miss, or all are covered (R312). -/
def State.walkGoes (s : State) (t : Tile) : Bool :=
  let east := laneEast t.lane
  let asid := s.qAsid t.q
  let left := t.touched.filter (fun p => !t.covers p && !s.tileWaits t p)
  let hits (p : Bool × Nat) : Bool := (s.findL2 east asid (p.2 % 2 ^ 44)).isSome
  let opens (p : Bool × Nat) : Bool := (east && s.corridor.failed) || (s.missShare east .porter).isSome ||
    s.misses.any (fun m => m.east == east && m.asid == asid && m.page.toNat == p.2 % 2 ^ 44)
  (left.isEmpty && s.tileMisses t.id == 0) || left.any hits || (decide (s.tileMisses t.id < 4) && left.any opens)

/-- Walk the touched pages of a tile that nothing covers yet (R312, R316). -/
def State.walk (s : State) (t : Tile) : State × Walk :=
  let asid := s.qAsid t.q
  let east := laneEast t.lane
  let pages := t.touched
  pages.foldl (fun (a : State × Walk) (p : Bool × Nat) =>
    match a.2 with
    | .denied => a
    | w =>
      let s := a.1
      let page := p.2 % 2 ^ 44
      match s.tile t.id with
      | none => (s, .denied)
      | some t =>
        if t.covers p then a
        else if s.tileWaits t p then (s, .waiting)
        else
          match if t.kind.ordered then s.lookupLane t.lane asid page else s.lookupL2 east asid page with
          | (s, some r) =>
            if r.allows (t.sideAcc p.1) then (s.updTile t.id (fun t => t.coverBy p.1 r pages), w)
            else if !t.kind.ordered then
              ((s.porterSnap t).streamFault t.q t.stream (s.xlateFault stPermission 0x3#8 (t.itemVa p.1 p.2) none 0 (s.permLog asid page
                (t.sideAcc p.1))), .denied)
            else
              (s.abort t.q (s.xlateFault stPermission 0x1#8 (t.firstVa p.1) (some t.num) t.instr
                (s.permLog asid page (t.sideAcc p.1))), .denied)
          | (s, none) =>
            if 4 ≤ s.tileMisses t.id then (s, .waiting)
            else ((s.openMiss east (if t.kind.ordered then .lane (laneGroup t.lane) else .porter) asid page
              { who := .tile t.id, q := t.q, acc := t.sideAcc p.1 }).1, .waiting)) (s, .covered)

/-- The Expander's block queue has room (R244). -/
def State.blockRoom (s : State) (east : Bool) : Bool :=
  decide ((s.blocks.filter (fun b => b.east == east)).length < if s.cfg == .s then 16 else 64)

/-- A row group that has issued fetches its rows (R267, R289). -/
def State.fetchRows (s : State) (t : Tile) : State :=
  match (s.subWin t.ref).bind (fun w => (s.batch w.batch).map (fun b => (w, b))) with
  | none => s
  | some (w, b) =>
    let mults := (t.members.map (fun k => (w.rows.getD k default).mult)).sum
    let s := s.count (unitLane t.lane) 0x0D t.q (t.want.foldl (fun n u => n + u.2) 0)
    let s := if t.want.isEmpty then s
      else s.countLoad b.table b.east (fun c => { c with fetch := c.fetch + t.members.length, mult := c.mult + mults })
    let dests (a n : Nat) : List Dest := ((unitsOf 16 a n).filter t.want.contains).map (fun u =>
      Dest.tile t.id u.1 (t.phys false u.1) u.2)
    (t.members.zip t.rows).foldl (fun s m =>
      let va := ((t.rdVa : Int) + m.2 * t.dr).toNat
      let s := s.fetchRow (dests va t.t0) b.desc b.table m.1 ((w.rows.getD m.1 default).mult)
      if t.opt.len = 0 then s else s.readDests (dests (va + t.opt.ofs) t.opt.len) false) s

/-- A tile that has passed every check issues: its reads begin, or its block goes to the Expander (R244, R312). -/
def State.issueTile (s : State) (t : Tile) : State :=
  let rows := t.kind == TileKind.rowGroup || t.kind == TileKind.updateRows
  let reads := if rows then t.want else t.readUnits
  match reads.find? (fun u => paDevice (t.phys false u.1) != s.devid) with
  | some u =>
    let pa := t.phys false u.1
    if !t.kind.ordered then
      (s.porterSnap t).streamFault t.q t.stream { s.unreachable 0x3#8 (paDevice pa) with
        va := BitVec.ofNat 56 (t.itemVa false (u.1 / 4096)), pa := BitVec.ofNat 52 pa }
    else
    s.abort t.q { s.unreachable 0x1#8 (paDevice pa) with
      va := BitVec.ofNat 56 (t.firstVa false), pa := BitVec.ofNat 52 pa, itin := some t.num, instr := t.instr }
  | none =>
    let s := (s.updTile t.id (fun t => { t with stage := .issued })).count (unitLane t.lane) 0x0C t.q 1
    let s : State := if t.kind.ordered then s.snapIssued t.q t.stream 1 1 else s
    let s := s.updLane t.lane (fun v => { v with tileq := v.tileq.filter (fun i => i != t.id) })
    let s : State := match t.rd with
      | none => if rows then s.fetchRows t else s
      | some d =>
        if t.kind == TileKind.xpand then
          if t.hasBlock d then
            let b : Block := {
              id := s.nextId, east := laneEast t.lane, tile := t.id, q := t.q, itin := t.num
              va := BitVec.ofInt 56 (t.blockVa d), resv := t.resv d, stage := .accepted, units := 0, want := []
              data := .empty, poison := false }
            { (s.bump.snapIssued t.q t.stream 4 1) with blocks := s.blocks ++ [b] }
          else s
        else
          let units := t.readUnits
          let s := s.updTile t.id (fun t => { t with want := units })
          -- Bytes of a slot are there at once.
          let s : State := match tdSlot d, t.slotR with
            | true, some h => s.updTile t.id (fun t => (t.slotUnits d).foldl (fun t u => t.receive (slotKey d + u.1)
                ((List.range u.2).map (fun i => s.hall.get (s.hallAddr h.ring h.slot (u.1 + i))))) t)
            | _, _ => s
          let s := s.count (unitLane t.lane) 0x0D t.q
            ((units ++ if tdSlot d then t.slotUnits d else []).foldl (fun n u => n + u.2) 0)
          if t.gathers then (List.range t.nRows).foldl (fun a j1 => a.needRow t (if tdSlot d then t.scaleUnits d j1 else t.rowUnits d j1)) s
          else units.foldl (fun a u => a.needUnit t u.1 u.2 false) s
    s.sweep

end Sys2Proof.Machine
end

