-- ==== Sys2Proof/Machine/Programs.lean ====
section
/-!
DEFINITION. What the itinerary instructions share: the instruction a lane executes next (R149), index streams (R165,
R166), origins (R156), the tile of a transfer instruction (R150, R157-R163), and the takes of CLAIM, TAKE and WAIT.
-/

namespace Sys2Proof.Machine

/-- A lane executes: its clocks run and it is in service (R82, R359, R383). -/
def State.laneOn (s : State) (lane : Nat) : Bool :=
  s.alive && decide (lane < s.cfg.lanes) && !(s.lane lane).gated && !bitAt s.rel.lanesOut lane

/-- The queue's itineraries may execute: it executes, and a SNAPSHOT task's record has landed (R397). -/
def State.queueRuns (s : State) (q : Nat) : Bool :=
  (s.queue q).executing && (match (s.queue q).task with
    | some t => t.phase == .running
    | none => false)

/-- An itinerary is ready: resident, not blocked, its queue running (R174). -/
def State.itinReady (s : State) (i : Itin) : Bool := i.place == .resident && i.status == .ready && s.queueRuns i.q

/-- The next instruction of an itinerary. -/
def Itin.next (i : Itin) : BitVec 64 := i.prog.getD i.pc 0#64

/-- Run a lane's next instruction if it has the opcode of the command; the marking of earlier tiles is decided when a
deciding instruction is reached (R225). -/
def State.onIns (s : State) (lane op : Nat) (f : State → Itin → BitVec 64 → Res) : Res :=
  match s.running lane with
  | none => .next s
  | some i =>
    if s.laneOn lane && s.itinReady i && insOp i.next == op then
      let s : State := if decides op then s.mark i.stream (decidesFinal op) else s
      f s ((s.itin i.stream).getD i) i.next
    else .next s

/-- An instruction has executed: the next one follows. -/
def State.retired (s : State) (i : Itin) (f : Itin → Itin) : State :=
  (s.updItin i.stream (fun v => f { v with pc := i.pc + 1, status := .ready })).count (unitLane i.lane) 0x01 i.slot 1

/-- An instruction blocks its itinerary; nothing of it has taken effect (R149). -/
def State.blocked (s : State) (i : Itin) : State :=
  s.updItin i.stream (fun v => { v with status := .blocked, chosen := false })

/-- A take has not been granted: its itinerary waits for the grant, and runs again once it is selected (R175, R204). -/
def State.taking (s : State) (i : Itin) : State :=
  s.updItin i.stream (fun v => { v with status := .taking, chosen := false })

/-- A run-time condition of R173 aborts the task. -/
def State.illegal (s : State) (i : Itin) (st : Byte) : State := s.laneAbort i.q st i.num i.pc 0

-- Index streams.

/-- Address of an element of a bound stream. -/
def Cursor.addr (c : Cursor) (p : Nat) : Int := tdBase c.desc + c.delta + p * tdStride c.desc 0

/-- An element lies inside the extent (R120). -/
def Cursor.has (c : Cursor) (p : Nat) : Bool := decide (p < tdExtent c.desc 0)

/-- Element `p`, once its window has arrived; outside the extent, FILL. -/
def Cursor.elem (c : Cursor) (p : Nat) : Option Word :=
  if !c.has p then some (tdFill c.desc)
  else
    let a := (c.addr p).toNat
    (c.wins.find? (fun w => w.1 == a / 512 * 512)).map (fun w =>
      BitVec.ofNat 32 (leNat ((w.2.drop (a % 512)).take 4)))

/-- The next `n` elements, once all have arrived. Positions are 32 bits wide. -/
def Cursor.takeElems (c : Cursor) (n : Nat) : Option (List Word) :=
  ((List.range n).map (fun k => c.elem ((c.pos.toNat + k) % 2 ^ 32))).foldr
    (fun x a => match x, a with
      | some v, some l => some (v :: l)
      | _, _ => none) (some [])

/-- The 512-byte windows a cursor may hold: that of its position and the next two, and those of the `n` elements that the next
instruction takes, without which it would never execute (R166; log 27). -/
def Cursor.windows (c : Cursor) (n : Nat) : List Int :=
  let addrs (from' k : Nat) : List Int := ((List.range k).map (fun j => (c.pos.toNat + from' + j) % 2 ^ 32)).filterMap (fun p =>
    if c.has p then some (c.addr p / 512 * 512) else none)
  firsts ((firsts (addrs 0 400)).take 3 ++ addrs 0 n)

/-- Move a cursor; windows it may no longer hold are forgotten. -/
def Cursor.seek (c : Cursor) (p : Word) : Cursor :=
  let d := { c with pos := p }
  let keep := d.windows 0
  { d with wins := c.wins.filter (fun w => keep.contains (w.1 : Int)) }

/-- Windows of a cursor that are on their way belong to no binding any more (R165). -/
def State.dropWindows (s : State) (stream ix : Nat) : State :=
  { s with tiles := s.tiles.map (fun t => if t.stream == stream && t.kind == .indexWin && t.ref == ix then { t with ref := noCursor } else t) }

/-- Rows of a GATHER: its count field or a counter. -/
def Itin.rowsOf (i : Itin) (w : BitVec 64) : Nat := if insCsrc w then (i.lc.get (insClc w)).toNat else insRows w

/-- Elements the next instruction takes from a cursor. -/
def Itin.needs (i : Itin) (ix : Nat) : Nat :=
  let w := i.next
  match insOp w with
  | 0x19 => if insIx w = ix then 1 else 0
  | 0x31 => if insGix w = ix ∨ (insWgt w ∧ insWix w = ix) then min (i.rowsOf w) 4096 else 0
  | 0x33 => if insWgt w ∧ insWix w = ix then insT1 w else 0
  | _ => 0

-- Origins.

/-- The origin of one side, evaluated now (R156). -/
def Itin.origin (i : Itin) (wr : Bool) : List Int :=
  (List.range 6).map (fun k =>
    let b := i.org.get ((if wr then 8 else 0) + k)
    b.offset.toInt + if b.useLc then b.scale.toInt * (i.lc.get b.lc).toNat else 0)

-- Transfer instructions.

/-- Transfers of a queue in lanes' datapaths: the outstanding transfers of R178. -/
def State.outstanding (s : State) (q : Nat) : Nat := (s.tiles.filter (fun t => t.q == q && t.kind != .indexWin)).length

/-- A transfer instruction blocks: the tile queue is full, the queue is at its limit, or an earlier tile of the
itinerary waits on translation (R174, R177, R178). -/
def State.transferBlocks (s : State) (i : Itin) : Bool :=
  decide (4 ≤ s.queued i.lane) || (s.outside i.lane).any (fun t => t.stream == i.stream) || decide (s.qMaxOut i.q ≤ s.outstanding i.q) ||
    s.tiles.any (fun t => t.stream == i.stream && t.stage == .held && t.kind.ordered)

/-- A descriptor the itinerary has read. -/
def Itin.desc (i : Itin) (d : Nat) : Option (BitVec 1024) := i.descs.get d

/-- The descriptors the next instruction names have been read (R113). -/
def Itin.descsRead (i : Itin) : Bool := (insDescs i.next).all (fun d => (i.desc d.1).isSome)

/-- What a transfer instruction hands to the datapath: a tile with the origins and displacements of now. -/
def State.newTile (s : State) (i : Itin) (kind : TileKind) (rd wd : Option Nat) (rar war t0 t1 : Nat) : Tile :=
  let r := rd.bind i.desc
  let w := wd.bind i.desc
  let slotOf (d : Option (BitVec 1024)) (h : Option HeldSlot) : Option HeldSlot := match d with
    | some d => if tdSlot d then h else none
    | none => none
  { id := s.nextId, stream := i.stream, lane := i.lane, q := i.q, num := i.num, instr := i.pc, kind := kind
    stage := .queued, rd := r, wd := w, rdVa := i.dtb.toNat + 128 * rd.getD 0, wdVa := i.dtb.toNat + 128 * wd.getD 0
    dr := (i.ar.get rar).toInt, dw := (i.ar.get war).toInt, orgR := i.origin false, orgW := i.origin true
    t0 := t0, t1 := t1, sel := i.sel, rows := [], wgts := [], mean := false, keep := false
    slotR := slotOf r i.heldR, slotW := slotOf w i.heldW, ref := 0, members := [], cover := [], want := []
    data := .empty, written := false, final := none, opt := default }

/-- A tile enters the lane's tile queue. -/
def State.enqueue (s : State) (t : Tile) : State :=
  let s : State := { s.bump with tiles := s.tiles ++ [t] }
  (s.stored 0 (laneEast t.lane) t.lane).updLane t.lane (fun v => { v with tileq := v.tileq ++ [t.id] })

/-- The write-side checks of a descriptor an instruction names as WD: made when the tile is handed over, whichever
side first named the descriptor (R126, R128, R134). -/
def writeRole (wd : Option (BitVec 1024)) : Option Byte :=
  match wd with
  | some d => tdReadCheck d true
  | none => none

/-- A transfer instruction hands its tile over (R150). `bad` are the run-time conditions of R173 that the instruction meets
when it executes; those of its tile's origins and slots are met when the tile issues (R130, R156). -/
def State.transfer (s : State) (i : Itin) (t : Tile) (bad : Option Byte) (after : Itin → Itin) : Res :=
  match bad with
  | some st => .next (s.illegal i st)
  | none => match writeRole t.wd with
    | some st => .next (s.laneAbort i.q st i.num i.pc t.wdVa)
    | none =>
      if s.transferBlocks i then .next (s.blocked i)
      else .next ((s.enqueue t).retired i after)

-- Takes.

/-- The link entry of the queue's task that governs a ring: FULL_SEM and FREE_SEM (R168). -/
def State.linkOf (s : State) (q r : Nat) : Option (Nat × Nat) :=
  match (s.queue q).task with
  | none => none
  | some t => (t.links.find? (fun l => leRing l == r)).map (fun l => (leFull l, leFree l))

/-- A slot is claimed: CLAIMP advances; the itinerary holds the slot (R183). -/
def State.claimSlot (s : State) (i : Itin) (r : Nat) : State :=
  let slot := (s.ring r).claimp
  let s := (s.slotRings r).foldl (fun a m => a.updRing m (fun v => { v with
    claimp := advance v.claimp 1 (s.nslot m), claimed := v.claimed + 1 })) s
  let s := if s.flag (offRing r 0) 15 then { s with lag := s.lag.set (s.fld (offRing r 0) 8 6) none } else s
  (s.acquire i.lane i.q).retired i (fun v => { v with heldW := some { ring := r, slot := slot } })

/-- A published slot is taken. -/
def State.takeSlot (s : State) (i : Itin) (r : Nat) : State :=
  let slot := (s.ring r).takep
  let s := s.updRing r (fun v => { v with takep := advance v.takep 1 (s.nslot r), avail := v.avail - 1 })
  (s.acquire i.lane i.q).retired i (fun v => { v with heldR := some { ring := r, slot := slot } })

/-- What follows the grant of a take: the rest of the CLAIM, TAKE or WAIT. -/
def State.granted (s : State) (i : Itin) : State :=
  match insOp i.next with
  | 0x20 => s.claimSlot i (insRing i.next)
  | 0x22 => s.takeSlot i (insRing i.next)
  | _ => (s.acquire i.lane i.q).retired i id

/-- An instruction takes k of a semaphore: granted at once, or the itinerary waits for the grant. A take on the other
wing's semaphore crosses the Corridor (R204). -/
def State.insTake (s : State) (i : Itin) (sem : Nat) (k : BitVec 20) : State :=
  let w : SemWaiter := { who := .itin i.lane i.slot, q := i.q, k := k }
  if semEast sem != laneEast i.lane then
    if s.corridor.failed then s.abort i.q s.corridorFault
    else (s.taking i).corPush (semEast sem) corSemaphore (.semTake sem w)
  else if (s.sem sem).poisoned then s.takePoisoned sem i.q (some i.num)
  else if s.semGrantsNow sem k then (s.semRemove sem k i.q).granted i
  else (s.taking i).semQueue sem w

/-- The number that stands for a SIGNAL command where an itinerary's number is expected. -/
def noItin : Nat := 16

/-- The source of an increment: an itinerary of the queue's task, or a SIGNAL command (R206). -/
def State.incSource (s : State) (q num : Nat) : IncSource :=
  if num < noItin then .itin q num (((s.queue q).task.map (fun t => t.order)).getD 0) else .command q

/-- An increment by an itinerary or by a SIGNAL command: an overflow aborts the task or command (R206). -/
def State.itinIncrement (s : State) (q num sem : Nat) (k : BitVec 20) : State := s.semIncrement sem k (s.incSource q num)

/-- The increment leaves from a wing; over the Corridor when the semaphore is the other wing's (R17). -/
def State.sendIncrement (s : State) (east : Bool) (q num sem : Nat) (k : BitVec 20) : State :=
  if semEast sem == east then s.itinIncrement q num sem k
  else if s.corridor.failed then s.abort q s.corridorFault
  else s.corPush (semEast sem) corSemaphore (.semInc (s.incSource q num) sem k)

/-- Tiles of an itinerary that have not landed, as a release covers them (R220). -/
def State.covered (s : State) (stream : Nat) : List Nat :=
  (s.tiles.filter (fun t => t.stream == stream && t.wd.isSome)).map (fun t => t.id)

/-- A release of an itinerary is formed. -/
def State.release (s : State) (i : Itin) (kind : RelKind) (tiles : List Nat) : State :=
  let r : Release := { id := s.nextId, q := i.q, itin := i.num, east := laneEast i.lane, kind := kind, tiles := tiles }
  { s.bump with releases := s.releases ++ [r] }

/-- Free slots of an unlinked Hall ring remain to be claimed (R183). -/
def State.claimable (s : State) (r : Nat) : Bool := decide ((s.ring r).claimed + (s.ring r).occ < s.nslot r)

/-- The FREE_SEMs of a ring's group, in the order of its members. -/
def State.groupSems (s : State) (q r : Nat) : List Nat :=
  (s.slotRings r).filterMap (fun m => (s.linkOf q m).map (fun l => l.2))

/-- Every member of a multicast group holds a free slot, and nothing waits in front (R197). -/
def State.groupFree (s : State) (q r : Nat) : Bool :=
  (s.slotRings r).all (fun m => match s.linkOf q m with
    | some l => s.semGrantsNow l.2 1#20
    | none => false)

/-- A CLAIM of a multicast leader waits: it is a take on the FREE_SEM of every member (R197, R203), and registers with those
of the other wing over the Corridor (R204). -/
def State.groupTake (s : State) (i : Itin) (r : Nat) : State :=
  let w : SemWaiter := { who := .group i.lane i.slot r, q := i.q, k := 1#20 }
  let sems := s.groupSems i.q r
  if s.corridor.failed && sems.any (fun k => semEast k != laneEast i.lane) then s.abort i.q s.corridorFault
  else sems.foldl (fun a k => if semEast k == laneEast i.lane then a.semQueue k w
    else a.corPush (semEast k) corSemaphore (.semTake k w)) (s.taking i)

-- Laggards (R198).

/-- The itinerary whose CLAIM of a group's leader is blocked. A stretch of the laggard condition that has begun goes on while
the itinerary is set aside, until its CLAIM completes (R199). -/
def State.claimBlocked (s : State) (g : Nat) : Option Itin :=
  let lead := s.fld (offMg g 0) 0 10
  s.itins.find? (fun i => i.place != .ended && insOp i.next == 0x20 && insRing i.next == lead &&
    (i.status == .taking || (s.lag.get g).isSome))

/-- Members without a free slot while another has one: the laggards of a blocked CLAIM, lowest-numbered first. -/
def State.laggards (s : State) (g : Nat) : List Nat :=
  match s.claimBlocked g with
  | none => []
  | some i =>
    let ms := s.slotRings (s.fld (offMg g 0) 0 10)
    let free (m : Nat) : Bool := match s.linkOf i.q m with
      | some l => decide (1 ≤ (s.sem l.2).count.toNat)
      | none => false
    if ms.any free then ms.filter (fun m => !free m) else []

/-- Entering the laggard condition latches the lowest-numbered laggard; leaving it ends the stretch. -/
def State.watchGroup (s : State) (g : Nat) : State :=
  match s.laggards g, s.lag.get g with
  | m :: _, none => { (s.setReg (offMg g 4) (packWord [(1, 31), (m, 0)])) with lag := s.lag.set g (some 0) }
  | [], some _ => { s with lag := s.lag.set g none }
  | _, _ => s

def State.watchLaggards (s : State) : State :=
  ((List.range 64).filter (fun g => s.flag (offMg g 0) 31)).foldl (fun a g => a.watchGroup g) s

/-- The instruction an itinerary is blocked at could execute now (R174). -/
def State.unblocked (s : State) (i : Itin) : Bool :=
  let w := i.next
  match insOp w with
  | 0x20 => s.claimable (insRing w)
  | 0x22 => decide (0 < (s.ring (insRing w)).avail)
  | 0x19 => ((i.ix.get (insIx w)).takeElems 1).isSome
  | 0x2C => (s.covered i.stream).isEmpty
  | 0x31 => !s.transferBlocks i && ((i.ix.get (insGix w)).takeElems (i.rowsOf w)).isSome &&
      (!insWgt w || ((i.ix.get (insWix w)).takeElems (i.rowsOf w)).isSome)
  | 0x33 => !s.transferBlocks i && (!insWgt w || ((i.ix.get (insWix w)).takeElems (insT1 w)).isSome)
  | _ => !s.transferBlocks i

-- Placing itineraries (R100).

/-- Resident slots taken, as lane and slot, less those of the queues a predicate names. -/
def State.takenSlots (s : State) (gone : Nat → Bool) : List (Nat × Nat) :=
  (s.itins.filter (fun i => i.place == .resident && !gone i.q)).map (fun i => (i.lane, i.slot))

/-- A lane of the instance that is in service (R353, R383). -/
def State.laneInService (s : State) (lane : Nat) : Bool := decide (lane < s.cfg.lanes) && !bitAt s.rel.lanesOut lane

/-- A lane that takes itineraries: in service, and not about to be replaced (R383). -/
def State.lanePlaces (s : State) (lane : Nat) : Bool := s.laneInService lane && !s.rel.lanesWait.contains lane

/-- An itinerary's pin names a lane that is about to be replaced: it waits for the swap, not for a slot (R383). -/
def State.swapWaits (s : State) (east : Bool) (pin : Option Nat) : Bool :=
  pin.any (fun p => s.laneInService (wingLane0 east + p) && s.rel.lanesWait.contains (wingLane0 east + p))

/-- The lowest free slot of a lane. -/
def freeSlotOf (taken : List (Nat × Nat)) (lane : Nat) : Option Nat :=
  (List.range 8).find? (fun k => !taken.contains (lane, k))

def freeCount (taken : List (Nat × Nat)) (lane : Nat) : Nat :=
  ((List.range 8).filter (fun k => !taken.contains (lane, k))).length

/-- The lane of a wing with the most free slots, the lowest number winning. -/
def State.roomiest (s : State) (taken : List (Nat × Nat)) (east : Bool) : Option Nat :=
  (((List.range s.cfg.wingLanes).map (fun i => wingLane0 east + i)).filter s.lanePlaces).foldl (fun a l => match a with
    | none => some l
    | some m => if freeCount taken m < freeCount taken l then some l else a) none

/-- Place one itinerary: its number, its lane and its slot join the places. -/
def State.placeOne (s : State) (east : Bool) (acc : Option (List (Nat × Nat × Nat) × List (Nat × Nat)))
    (e : Nat × Option Nat) : Option (List (Nat × Nat × Nat) × List (Nat × Nat)) :=
  match acc with
  | none => none
  | some (places, taken) =>
    let lane : Option Nat := match e.2 with
      | some p => if s.lanePlaces (wingLane0 east + p) then some (wingLane0 east + p) else none
      | none => s.roomiest taken east
    match lane with
    | none => none
    | some l => match freeSlotOf taken l with
      | none => none
      | some k => some (places ++ [(e.1, l, k)], taken ++ [(l, k)])

/-- Places for all of a task's itineraries, given by number and pin: pinned ones first, then the others; none when one
of them finds no slot. -/
def State.placesFor (s : State) (east : Bool) (gone : Nat → Bool) (es : List (Nat × Option Nat)) :
    Option (List (Nat × Nat × Nat)) :=
  ((es.filter (fun e => e.2.isSome) ++ es.filter (fun e => e.2.isNone)).foldl (fun a e => s.placeOne east a e)
    (some ([], s.takenSlots gone))).map (fun r => r.1)

-- Itineraries set aside (R103).

/-- Itineraries of a queue that a suspension has set aside, by number. -/
def State.asides (s : State) (q : Nat) : List Itin :=
  (List.range 16).filterMap (fun n => s.itins.find? (fun i => i.q == q && i.place == .aside && i.num == n))

def State.asidePlaces (s : State) (q : Nat) : Option (List (Nat × Nat × Nat)) :=
  s.placesFor (s.qEast q) (fun _ => false) ((s.asides q).map (fun i => (i.num, i.pin)))

/-- An itinerary set aside takes a slot again; the tiles it had not issued enter its lane's tile queue while there is room
(R177). -/
def State.putBack (s : State) (q : Nat) (p : Nat × Nat × Nat) : State :=
  match (s.asides q).find? (fun i => i.num == p.1) with
  | none => s
  | some i =>
    let s := s.updItin i.stream (fun v => { v with place := .resident, lane := p.2.1, slot := p.2.2 })
    let mine (t : Tile) : Bool := t.stream == i.stream && t.stage != .issued
    ({ s with tiles := s.tiles.map (fun t => if mine t then { t with lane := p.2.1, stage := .queued } else t) } :
      State).fillQueue p.2.1

/-- The itineraries of a Running queue that were set aside are placed when all of them find slots (R100, R103). -/
def State.placeAside (s : State) (q : Nat) : State :=
  if !(s.queue q).executing || (s.asides q).isEmpty then s
  else match s.asidePlaces q with
  | none => s
  | some ps =>
    let gs := ps.map (fun p => laneGroup p.2.1)
    (ps.foldl (fun a p => a.putBack q p) s).updQueue q (fun v => { v with groups := firsts (v.groups ++ gs) })

/-- Slots may have become free. -/
def State.placeAsides (s : State) : State := (List.range s.cfg.queues).foldl (fun a q => a.placeAside q) s

end Sys2Proof.Machine
end

