-- ==== Sys2Proof/Machine/Tiles.lean ====
section
/-!
DEFINITION. A lane's events around its instructions: switching (R175, R176), retrying a blocked instruction (R149),
reading descriptors (R113), index windows (R166), issuing tiles (R177, R312), closing windows (R180, R181) and the
final marking (R225).
-/

namespace Sys2Proof.Machine

-- Switching.

/-- Resident slots of a lane whose itineraries are ready and are not the running one. -/
def State.readySlots (s : State) (lane : Nat) : List Itin :=
  s.itins.filter (fun i => i.lane == lane && s.itinReady i)

/-- The next itinerary by R101: the lowest class, then round robin in increasing slot number after the one selected
last. -/
def State.choose (s : State) (lane : Nat) (among : List Itin) : Option Itin :=
  let last := if (s.lane lane).run.isSome then (s.lane lane).slot else 7
  let key (i : Itin) : Nat := (s.qPrio i.q).toNat * 16 + (i.slot + 8 - (last + 1)) % 8
  among.foldl (fun a i => match a with
    | none => some i
    | some b => if key i < key b then some i else a) none

/-- LANE_SWITCH: the running itinerary blocked, ended or was set aside, a more urgent one is ready, or its turn is
over and another of its class is ready (R175). Selecting another costs 2 ccyc. -/
def execLaneSwitch (lane : Nat) (s : State) : Res :=
  let v := s.lane lane
  let ready := s.readySlots lane
  let cur := (s.running lane).filter s.itinReady
  let pick : Option Itin := match cur with
    | none => s.choose lane ready
    | some i =>
      let others := ready.filter (fun x => x.stream != i.stream)
      let urgent := others.filter (fun x => decide ((s.qPrio x.q).toNat < (s.qPrio i.q).toNat))
      let same := others.filter (fun x => (s.qPrio x.q) == (s.qPrio i.q))
      if !urgent.isEmpty then s.choose lane urgent
      else if decide (256 ≤ v.ran) && !same.isEmpty then s.choose lane same
      else none
  match pick with
  | none => .next s
  | some i => whenever (s.laneOn lane) s (fun s =>
      let s := s.updItin i.stream (fun v => { v with chosen := true })
      -- A switch takes 2 ccyc; the itinerary that ran last is selected at no cost (R175, R176).
      let cost := if v.run == some i.stream then 0 else 2
      s.updLane lane (fun v => { v with run := some i.stream, slot := i.slot, ran := 0, switching := v.switching + cost }))

/-- INSTRUCTION_RETRY: the blocking condition of a resident has cleared (R149, R174). -/
def execInstructionRetry (lane slot : Nat) (s : State) : Res :=
  match s.resident lane slot with
  | none => .next s
  | some i => whenever (s.laneOn lane && i.status == .blocked && s.queueRuns i.q && s.unblocked i) s
      (fun s => s.updItin i.stream (fun v => { v with status := .ready }))

/-- FINAL_MARKING: an itinerary has reached the instruction that decides its tiles' marking (R225). -/
def execFinalMarking (lane slot : Nat) (s : State) : Res :=
  match s.resident lane slot with
  | none => .next s
  | some i => whenever (s.alive && decides (insOp i.next)) s (fun s => s.mark i.stream (decidesFinal (insOp i.next)))

-- Descriptors.

/-- The range of a lane group's L1 that covers a page it has looked up, as a cover (R312, R314). -/
def State.laneCover (s : State) (lane : Nat) (asid : BitVec 16) (page : Nat) : List Cover :=
  match (s.l1.get (laneGroup lane)).find? (fun r => r.covers asid page) with
  | some r => [{ wr := false, page := page, ppage := r.ppage page, vstart := r.vstart.toNat, pages := r.pages }]
  | none => []

/-- A lane's own read fails a check: unit 0x1, FAULT_VA the descriptor's or the window's address (R142, R320). -/
def State.laneReadFault (s : State) (i : Itin) (st : Byte) (va : Nat) : State := s.laneAbort i.q st i.num i.pc va

/-- A descriptor that has been read is taken out of its itinerary's reading. -/
def State.takeDesc (s : State) (stream va : Nat) : State :=
  { s with readings := s.readings.map (fun r => if r.who == .desc stream then
      { r with got := r.got.filter (fun p => !stretchesMeet (va, 128) (p.1, p.2.length)) } else r) }

/-- DESCRIPTOR_READ: the descriptor that the next instruction names is asked for when it is first named, and checked when it
has come (R113, R142, R145). -/
def execDescriptorRead (lane slot d : Nat) (s : State) : Res :=
  match s.resident lane slot with
  | none => .next s
  | some i =>
    let named := (insDescs i.next).filter (fun x => x.1 == d)
    if !s.laneOn lane || !s.queueRuns i.q || named.isEmpty || (i.desc d).isSome then .next s
    else
      let va := i.dtb.toNat + 128 * d
      match s.need (.desc i.stream) va 128 with
      | (t, .bytes l) =>
        let t := t.count (unitLane lane) 0x0D i.q 128
        let data : BitVec 1024 := BitVec.ofNat 1024 (leNat l)
        .next (match tdReadCheck data (named.any (fun x => x.2)) with
        | some c => t.laneReadFault i c va
        | none => (t.takeDesc i.stream va).updItin i.stream (fun v => { v with descs := v.descs.set d (some data) }))
      | (t, _) => .next t

-- Index windows.

/-- The next window a cursor may fetch and does not hold. -/
def Cursor.nextWindow (c : Cursor) (n : Nat) : Option Int :=
  (c.windows n).find? (fun w => !c.wins.any (fun x => (x.1 : Int) == w) && !c.fetching.any (fun x => (x : Int) == w))

/-- INDEX_WINDOW_FETCH: a bound cursor fetches a window of its stream; the window is a tile for translation and faults
(R118, R166, R317). -/
def execIndexWindowFetch (lane slot ix : Nat) (s : State) : Res :=
  match s.resident lane slot with
  | none => .next s
  | some i =>
    let c := i.ix.get ix
    if !s.laneOn lane || !s.queueRuns i.q || !c.bound then .next s
    else match c.nextWindow (i.needs ix) with
    | none => .next s
    | some w =>
      let va := (w % 2 ^ 56).toNat
      if alignBad c.desc c.delta then .next (s.laneReadFault i stAlign va)
      else if w < 0 ∨ 2 ^ 56 ≤ w then .next (s.laneReadFault i stDescInvalid va)
      else match s.openReading (.desc i.stream) with
      | (t, r) => match t.lookPage (t.issuer r) accRead (va / 4096) (.reader r.id va va 512) va with
      | (t, .wait) => .next t
      | (t, .denied f) => .next (t.readFails r.id [] f)
      | (t, .found page) =>
        let pa := page * 4096 + va % 4096
        let x : Tile := {
          t.newTile i .indexWin none none 0 0 va 1 with
          stage := .issued, ref := ix, final := some false, cover := t.laneCover lane (t.qAsid i.q) (va / 4096), want := [0, 1, 2, 3].map (fun k => (va + 128 * k, 128)) }
        let t : State := { t.bump with tiles := t.tiles ++ [x] }
        let t := t.updItin i.stream (fun v => { v with ix := v.ix.set ix { c with fetching := c.fetching ++ [va] } })
        let t := t.count (unitLane lane) 0x0D i.q 512
        .next (t.readReq x (.lane lane) (t.feeds x) pa 512
          ([0, 1, 2, 3].map (fun k => Dest.tile x.id (va + 128 * k) (pa + 128 * k) 128)) [x.id])

-- Tiles.

/-- A tile of a queue that is stopping does not issue, nor an itinerary's tile of a queue being suspended; a sub-window
goes on to its end (R103, R107). -/
def State.tileMayIssue (s : State) (t : Tile) : Bool :=
  (s.queue t.q).st == .running && !((s.queue t.q).suspending && t.kind.ordered) && !(s.queue t.q).stopping

/-- The tile a lane issues next: a tile of the Porter that has stepped aside for its misses and whose walk can go on, else the
first in its queue whose itinerary has none in its miss hold; or the one in the miss hold of a resident slot (R177, R312, R317). -/
def State.nextTile (s : State) (lane : Nat) : Option Nat → Option Tile
  | none => match s.tiles.find? (fun t => t.lane == lane && t.stage == .held && !t.kind.ordered && s.tileMayIssue t && s.walkGoes t) with
    | some t => some t
    | none => ((s.lane lane).tileq.filterMap s.tile).find? (fun t => !t.kind.ordered ||
        !s.tiles.any (fun u => u.stream == t.stream && u.stage == .held && u.kind.ordered))
  | some slot => s.tiles.find? (fun t => t.lane == lane && t.stage == .held &&
      (match s.itin t.stream with
      | some i => i.slot == slot
      | none => false))

/-- TILE_ISSUE: the checks of R142, the walk of R312, then the tile issues or steps into its miss hold. -/
def execTileIssue (lane : Nat) (hold : Option Nat) (s : State) : Res :=
  let s := s.fillQueue lane
  match s.nextTile lane hold with
  | none => .next s
  | some t =>
    let full := t.kind == .xpand && (match t.rd with
      | some d => t.hasBlock d
      | none => false) && !s.blockRoom (laneEast lane)
    if !s.laneOn lane || !s.tileMayIssue t || full then .next s
    else match s.tileCheck t with
    | some (st, va) =>
      if t.kind.ordered then .next (s.laneAbort t.q st t.num t.instr va)
      else .next ((s.porterSnap t).streamFault t.q t.stream { s.fault st (if st == stAlign then 0x1#8 else 0x3#8) with va := BitVec.ofNat 56 va })
    | none =>
      match s.walk t with
      | (s, .denied) => .next s
      | (s, .covered) => .next (match s.tile t.id with
          | some t => s.issueTile t
          | none => s)
      | (s, .waiting) =>
        if 0 < s.tileMisses t.id then
          .next ((s.updTile t.id (fun t => { t with stage := .held })).updLane lane (fun v => { v with
            tileq := v.tileq.filter (fun i => i != t.id) }))
        else .next s

/-- READ_WINDOW_CLOSE: the window's fourth ccyc (R180). -/
def execReadWindowClose (lane q : Nat) (s : State) : Res :=
  whenever s.alive s (fun s => s.closeReadWindow lane q)

/-- WRITE_WINDOW_CLOSE: an itinerary's open write window closes on time (R181). -/
def execWriteWindowClose (lane stream : Nat) (s : State) : Res :=
  match s.itin stream with
  | none => .next s
  | some i => whenever (s.alive && i.lane == lane) s (fun s => (s.closeWriteWindow stream).retireTiles)

end Sys2Proof.Machine
end

