-- ==== Sys2Proof/Machine/Idle.lean ====
section
/-!
DEFINITION. The passing of clock cycles: TLY_CCYC (R393), the counters that judge every cycle (R391, R392), the
progress timers (R106) and the trace port (R86).
-/

namespace Sys2Proof.Machine

/-- An Expander's clocks run: Expanders are the last units of the ramp (R359). -/
def State.expanderOn (s : State) (east : Bool) : Bool :=
  s.alive && decide (s.cfg.laneGroups + wingNo east < s.power.running)

/-- A tile has been expanded and its lane has not yet taken it. -/
def State.inOutputStage (s : State) (east : Bool) (t : Tile) : Bool :=
  t.kind == .xpand && t.stage == .issued && !t.written && laneEast t.lane == east &&
    (match t.rd with
      | some d => t.hasBlock d
      | none => false) && !s.blocks.any (fun b => b.tile == t.id)

/-- What an itinerary waits on, as the lane's event code of its blocked ccyc (R174, R392). -/
def Itin.blockCode (i : Itin) (transfer : Bool) : Nat :=
  match insOp i.next with
  | 0x20 => 0x04
  | 0x22 => 0x05
  | 0x28 => 0x06
  | 0x19 => 0x07
  | 0x31 => if transfer then 0x09 else 0x07
  | 0x2C => 0x08
  | _ => 0x09

/-- Resident itineraries of a lane that are blocked. -/
def State.blockedOn (s : State) (lane : Nat) : List Itin :=
  s.itins.filter (fun i => i.place == .resident && i.lane == lane && i.status != .ready)

/-- A qualifier selects an item, or none is asked for. -/
def quals (q : Option Nat) (n : Nat) : Bool := match q with
  | none => true
  | some m => m == n

def oneIf (b : Bool) : Nat := if b then 1 else 0

/-- Events of a lane that have a value in every cycle. -/
def State.laneValue (s : State) (l ev : Nat) (q : Option Nat) : Option Nat :=
  match ev with
  | 0x03 => some (oneIf (s.laneOn l && (s.readySlots l).isEmpty))
  | 0x04 | 0x05 | 0x06 | 0x07 | 0x08 | 0x09 =>
    some ((s.blockedOn l).filter (fun i => i.blockCode (s.transferBlocks i) == ev && quals q i.slot)).length
  | 0x0A => some (s.waiting.filter (fun r => r.holder == .lane l && (s.tagShare r).isNone)).length
  | 0x0B => some (oneIf ((s.blockedOn l).any (fun i => quals q i.q && insTransfer i.next &&
      decide (s.qMaxOut i.q ≤ s.outstanding i.q))))
  | 0x14 => some (s.lane l).tileq.length
  | _ => none

/-- Events of a memory port that have a value in every cycle. -/
def State.mportValue (s : State) (p ev : Nat) (q : Option Nat) : Option Nat :=
  let mine := s.waiting.filter (fun r => r.port == p && r.heldFor.isNone)
  match ev with
  | 0x05 => some (s.outs.filter (fun o => o.req.port == p && !isWriteOp o.req.op && !o.dead)).length
  | 0x06 => some (oneIf (!mine.isEmpty && (s.mport p).reqCred == 0))
  | 0x08 => some (oneIf (mine.any (fun r => r.slot.isNone && quals q r.prio.toNat)))
  | _ => none

/-- Events of the other units that have a value in every cycle. -/
def State.unitValue (s : State) (u ev : Nat) (q : Option Nat) : Option Nat :=
  let c := u - 80
  let x := u - 112
  let east : Bool := u % 2 == 1
  let ringOcc := some (match q with
    | some r => (s.ring r).occ
    -- The ring is required; without it the value is not stated.
    | none => Config.freeNat s.free)
  if isCportUnit u then
    match ev with
    | 0x02 => some (oneIf (!(s.cport c).fills.isEmpty && (s.cport c).credits == 0))
    | 0x05 => ringOcc
    | _ => none
  else if decide (112 ≤ u) && decide (u < 116) then
    match ev with
    | 0x06 => some (oneIf ((s.xport x).tx.any (fun t => quals q (oneIf t.cls) &&
        (if t.cls then (s.xport x).cred1 else (s.xport x).cred0) == 0)))
    | 0x07 => some (s.remote.outs.filter (fun o => o.port == x)).length
    | _ => none
  else
    match u, ev with
    | 116, 0x06 | 117, 0x06 => some (oneIf (s.replyFull east))
    | 118, 0x08 => some s.larder.promoW.length
    | 119, 0x08 => some s.larder.promoE.length
    | 120, 0x01 | 121, 0x01 => some (oneIf (s.blocks.any (fun b => b.east == east)))
    | 120, 0x02 | 121, 0x02 => some (oneIf (decide (4 ≤ (s.tiles.filter (s.inOutputStage east)).length)))
    | 120, 0x04 | 121, 0x04 => some (s.blocks.filter (fun b => b.east == east)).length
    | 122, 0x06 | 123, 0x06 => some (s.misses.filter (fun m => m.east == east)).length
    | 124, 0x04 | 125, 0x04 => some ((s.sems.cells.filter (fun w => semEast w.1 == east)).foldl
        (fun a w => a + w.2.waiters.length) 0)
    | 126, 0x01 | 127, 0x01 => ringOcc
    | 129, 0x02 => some ((List.range s.cfg.queues).filter (fun k => quals q k && (match (s.queue k).task with
        | some t => t.phase == .placing
        | none => false))).length
    | _, _ => none

/-- The value of an event in a cycle in which nothing but the state determines it; none for an event that counts
occurrences. -/
def State.cycleValue (s : State) (u ev : Nat) (q : Option Nat) : Option Nat :=
  if ev = 0 then some 1
  else if u < 64 then s.laneValue u ev q
  else if u < 80 then s.mportValue (u - 64) ev q
  else s.unitValue u ev q

/-- Cycles of a unit's clock in the `n` ccyc after ccyc `c` (R12); none while its clocks are gated (R392). -/
def State.unitCycles (s : State) (u c n : Nat) : Nat :=
  let k := if decide (64 ≤ u) && decide (u < 80) then 32 else if u = 118 ∨ u = 119 then 40 else if u = 128 then 80 else 20
  let gated : Bool := (decide (u < 64) && (s.lane u).gated) || (u == 120 && !s.expanderOn false) ||
    (u == 121 && !s.expanderOn true)
  if gated then 0 else (c + n) * k / 20 - c * k / 20

/-- One counter lives through `m` cycles (R391). -/
def State.judge (s : State) (u k m : Nat) : State :=
  let lo := s.tlySelLo u k
  let hi := s.tlySelHi u k
  let i := 16 * u + k
  let t := s.tally
  let occ := t.occ.get i
  let thr := bits lo 0 16
  let level := s.cycleValue u (bits lo 20 8) (if bitAt hi 10 then some (bits hi 0 10) else none)
  let put (n : Nat) : State := { s with tally := { t with cnt := t.cnt.set i (min cntMax n), occ := t.occ.set i 0 } }
  let cur := t.cnt.get i
  if m = 0 then s
  else match bits lo 29 2, level with
  | 0, some v => put (cur + m * v)
  | 0, none => put cur
  | 1, some v => put (cur + if thr < v then m else 0)
  | 1, none => put (cur + if thr < occ then 1 else 0)
  | 2, some v => put (cur + if v < thr then m else 0)
  | 2, none => put (cur + (if occ < thr then 1 else 0) + if 0 < thr then m - 1 else 0)
  | _, some v => put (max cur v)
  | _, none => put (max cur occ)

/-- The selected counters: unit and counter number of each TLY_SEL_LO that holds EN. -/
def State.selected (s : State) : List (Nat × Nat) :=
  (s.regs.cells.filter (fun c => decide (0x0F1000 ≤ c.1) && decide (c.1 < 0x0F9200) && decide (c.1 % 0x100 < 0x80) &&
    c.1 % 8 == 0 && (match c.2 with
      | some w => bitAt w 31
      | none => false))).map (fun c => ((c.1 - 0x0F1000) / 0x100, c.1 % 0x100 / 8))

/-- Every selected counter lives through `n` ccyc, unless the counters are frozen (R395). -/
def State.judgeAll (s : State) (n : Nat) : State :=
  if s.tally.frozen then s
  else s.selected.foldl (fun a x => a.judge x.1 x.2 (a.unitCycles x.1 s.ccyc.toNat n)) s

/-- The progress timers of queues (R106). -/
def State.runTimers (s : State) (n : Nat) : State :=
  { s with queues := s.queues.each (fun q v => if s.timerStands q then v else { v with timer := v.timer + n }) }

/-- The laggard condition lasts through `n` ccyc; its timer stands while the producing queue is Suspended, RING_MG_LAGCYC goes on
(R198, R199; DESIGN CHOICE, log 80: R198 does not say whether a CLAIM of a Suspended queue is blocked). -/
def State.runLaggards (s : State) (n : Nat) : State :=
  s.lag.cells.foldl (fun a c => match c.2, a.claimBlocked c.1 with
    | some t, some i =>
      let a := a.countReg (offMg c.1 8) 0 32 n
      if (a.queue i.q).st == .suspended then a else { a with lag := a.lag.set c.1 (some (t + n)) }
    | _, _ => a) s

/-- The trace port drives one packet each ccyc while TRC_STALL is 0 (R86). -/
def State.driveTrace (s : State) (n : Nat) : State :=
  if s.pins.trcStall then s
  else
    let ps := s.tally.trace.take n
    ps.foldl (fun a p => a.drive (.trace p)) { s with tally := { s.tally with trace := s.tally.trace.drop n } }

/-- `n` ccyc pass, none of them a Tally edge but perhaps the last. TLY_CCYC advances in N0 and N1 (R393); INC messages leave
in the ccyc after their increments (R209). -/
def State.liveCycles (s : State) (n : Nat) : State :=
  if !s.alive || n == 0 then s
  else
    let s := (((s.judgeAll n).runTimers n).watchLaggards.runLaggards n).driveTrace n
    let s := s.flushIncs (fun _ => true)
    { s with
      turns := .empty
      ccyc := s.ccyc + BitVec.ofNat 48 n
      lanes := s.lanes.each (fun _ v => if v.run.isSome then { v with ran := v.ran + n } else v) }

/-- The next ccyc is one of each switch that a lane makes (R175, R392). -/
def State.switchCycle (s : State) : State :=
  let s := ((List.range 64).filter (fun l => decide (0 < (s.lane l).switching))).foldl
    (fun a l => a.count (unitLane l) 0x02 0 1) s
  { s with lanes := s.lanes.each (fun _ v => { v with switching := v.switching - 1 }) }

/-- `n` ccyc pass, the first `k` of them one at a time, since lanes switch in them. -/
def State.runSwitches : Nat → Nat → State → State
  | k + 1, n + 1, s => (s.switchCycle.liveCycles 1).runSwitches k n
  | _, n, s => s.liveCycles n

/-- `n` ccyc pass, none of them a Tally edge but perhaps the last. -/
def State.runCycles (s : State) (n : Nat) : State :=
  if s.alive then s.runSwitches (s.lanes.cells.foldl (fun a c => max a c.2.switching) 0) n else s

/-- `n` ccyc pass, with the Tally edges that fall on them, of which there are at most `k` (R394). -/
def State.runEdges : Nat → Nat → State → State
  | 0, n, s => s.runCycles n
  | k + 1, n, s => match s.nextEdge with
    | some m => if s.alive && decide (0 < m) && decide (m ≤ n) then (s.runCycles m).tallyEdge.runEdges k (n - m)
      else s.runCycles n
    | none => s.runCycles n

/-- `n` ccyc pass. -/
def State.passCycles (s : State) (n : Nat) : State := s.runEdges s.tally.reqs.length n

/-- An operation on a semaphore that comes too late for the present ccyc is one of the next (R205; log 69). -/
def State.inTurn (s : State) (i rank : Nat) (k : BitVec 20) : State :=
  if s.outOfTurn i rank k then s.passCycles 1 else s

/-- An increment that leaves from a wing takes its turn at a semaphore of that wing. -/
def State.incTurn (s : State) (east : Bool) (i : Nat) (k : BitVec 20) : State :=
  if semEast i == east then s.inTurn i rankInc k else s

/-- The step on an empty queue: one ccyc passes (log 7). -/
def idleCycle (s : State) : Res := .next (s.passCycles 1)

end Sys2Proof.Machine
end

