-- ==== Sys2Proof/Machine/Registers.lean ====
section
/-!
DEFINITION. What every control-port register reads (R400-R402 and the register tables of the chapters), and how the
control port answers an access (R57, R356).
-/

namespace Sys2Proof.Machine

-- Promotion (R277, R280, R346).

/-- Promotion is live. -/
def State.promoLive (s : State) : Bool :=
  s.flag offLrdCtrl 31 && decide (0 < s.larder.windows) && !s.larderBypass && s.stwRunning

-- Identification (R401, R402).

def idRegister (c : ConfigPoint) (devid : BitVec 6) (off : Nat) : Word :=
  let pick (a b d : Word) : Word := match c with
    | .s => a
    | .m => b
    | .x => d
  match off with
  | 0x00 => pick 0x01030002#32 0x02030002#32 0x03030002#32
  | 0x04 => 0x4E330000#32 ||| Config.build.zeroExtend 32
  | 0x08 => pick 0x08101045#32 0x20204109#32 0x40408212#32
  | 0x0C => pick 0x0C1000C0#32 0x30404300#32 0x60808600#32
  | 0x10 => devid.zeroExtend 32
  | 0x14 => pick 0x04440000#32 0x10500050#32 0x10A00098#32
  | 0x18 => pick 0x68208500#32 0x68208540#32 0x68208542#32
  | 0x1C => 0x10004000#32
  | 0x20 => 0x00000017#32
  | _ => 0#32

-- Queues (R89, R90).

/-- Queues of a half that are in a state, as a summary register shows them. -/
def State.queueBits (s : State) (hi : Nat) (p : Nat → Bool) : Word :=
  BitVec.ofNat 32 (((List.range 32).filter (fun i => decide (32 * hi + i < s.cfg.queues) && p (32 * hi + i))).foldl
    (fun a i => a + 2 ^ i) 0)

def State.readSummary (s : State) (off : Nat) : Word :=
  let want : QState := match (off - 0x010040) / 8 with
    | 0 => .running
    | 1 => .faulted
    | 2 => .suspended
    | _ => .retiring
  s.queueBits (off / 4 % 2) (fun q => (s.queue q).st == want)

def State.readQueue (s : State) (q o : Nat) : Word :=
  let v := s.queue q
  match o with
  | 0x08 => s.reg (offQ q 0x08) ||| (if s.qEast q then oneBit 29 else 0#32)
  | 0x10 | 0x1C => 0#32
  | 0x14 => packWord [(v.tail.toNat, 16), (v.head.toNat, 0)]
  | 0x18 => packWord [(v.lastSt.toNat, 24), (oneIf v.suspTherm, 14), (oneIf v.suspPre, 13), (oneIf v.suspSw, 12),
      (qStateCode v.st, 0)]
  | 0x30 => v.seq
  | _ => if o ≤ 0x34 then s.reg (offQ q o) else 0#32

-- Semaphores (R217).

def Sem.flagged (v : Sem) : Bool := v.ovf || v.unf || v.poisoned

def State.readSem (s : State) (i : Nat) : Word :=
  let v := s.sem i
  packWord [(oneIf v.poisoned, 31), (oneIf v.unf, 30), (oneIf v.ovf, 29), (oneIf v.owned, 28), (v.owner.toNat, 20),
    (v.count.toNat, 0)]

def State.readFlagsum (s : State) (w : Nat) : Word :=
  BitVec.ofNat 32 (((List.range 32).filter (fun b => (s.sem (32 * w + b)).flagged)).foldl (fun a b => a + 2 ^ b) 0)

-- Rings (R188).

/-- Slots freed in the most recent 1,024 ccyc. -/
def State.freed (s : State) (r : Nat) : Nat :=
  ((s.ring r).frees.filter (fun c => decide ((s.ccyc - c).toNat < 1024))).length

def State.readRing (s : State) (r o : Nat) : Word :=
  let v := s.ring r
  match o with
  | 0x00 | 0x04 => s.reg (offRing r o)
  | 0x08 => if s.ringValid r then packWord [(v.head, 24), (if s.ringClient r then v.head else v.takep, 16), (v.tail, 8),
      (v.claimp, 0)] else 0#32
  | 0x0C => if s.ringValid r then packWord [(if v.hist then min 0xFFFF (v.tte / 16) else 0xFFFF, 16), (oneIf v.hist, 15),
      (v.occ, 0)] else 0#32
  | 0x10 => if s.ringValid r then packWord [(s.freed r, 0)] else 0#32
  | _ => 0#32

-- Translation, tables, Larder, Expander.

def State.readXltStatus (s : State) (east : Bool) : Word :=
  if s.cfg.hasWing east then packWord [((s.l2.get (wingNo east)).length, 16),
    ((s.misses.filter (fun m => m.east == east)).length, 0)] else 0#32

/-- Batches bound to a version (R298). -/
def State.boundTo (s : State) (t : Nat) (e : Word) : Nat :=
  (s.porter.batches.filter (fun b => b.table == t && b.epoch == e)).length

def Table.current (v : Table) : Option Version := v.slots.find? (fun x => x.st == .current)

/-- The registers of a table (R307). NOLD is the count modulo 4: with all four slots Superseded or Retiring it reads 0 (DESIGN CHOICE,
log 120: R307 gives the field the values 0 to 3). -/
def State.readTable (s : State) (t o : Nat) : Word :=
  let v := s.table t
  match o with
  | 0x0 => (v.current.map (fun x => x.epoch)).getD 0#32
  | 0x4 => v.last
  | 0x8 => v.retcnt
  | _ =>
    let old := v.slots.filter (fun x => x.st != .current)
    packWord [(old.length, 30), (min 16383 (old.foldl (fun a x => a + s.boundTo t x.epoch) 0), 14),
      (min 16383 ((v.current.map (fun x => s.boundTo t x.epoch)).getD 0), 0)]

/-- Valid ways of a wing. -/
def State.validWays (s : State) (east : Bool) : Nat :=
  (s.larder.dir.cells.filter (fun c => decide (2 ^ 19 ≤ c.1) == east)).foldl (fun a c =>
    a + (c.2.cells.filter (fun w => w.2.valid)).length) 0

def State.readLarder (s : State) (off : Nat) : Word :=
  match off with
  | 0x0D0004 => packWord [(oneIf s.larderBypass, 31), (oneIf s.promoLive, 30), (s.fld offLdgTiers 0 8, 8),
      ((s.reg offLdgTiers &&& s.larder.tiersUp.zeroExtend 32).toNat % 256, 0)]
  | 0x0D0008 => BitVec.ofNat 32 s.larder.windows
  | 0x0D0010 => packWord [(s.validWays false, 0)]
  | 0x0D0014 => packWord [(s.validWays true, 0)]
  | _ => s.reg off

def State.expBlocks (s : State) (east : Bool) : List Block := s.blocks.filter (fun b => b.east == east)

def State.readExpander (s : State) (east : Bool) (o : Nat) : Word :=
  let bs := s.expBlocks east
  match o with
  | 0x00 => packWord [(bs.length, 16), (bs.foldl (fun a b => a + b.units) 0, 4), (oneIf (!bs.isEmpty), 0)]
  | _ => if o ≤ 0x1C then s.reg (offExp east o) else 0#32

-- Pigeonholes (R344).

def State.readPgh (s : State) (p o : Nat) : Word :=
  let v := s.pgh p
  match o with
  | 0x00 => v.bind
  | 0x04 => packWord [(oneIf v.unreadA, 1), (oneIf v.unreadB, 0)]
  | 0x08 => v.abLo
  | 0x0C => v.abHi
  | 0x10 => v.baLo
  | 0x14 => v.baHi
  | 0x20 => v.pend
  | 0x24 => v.mask
  | _ => 0#32

-- Tally (R390, R398).

/-- The unit exists in the configuration point (R389). -/
def State.unitPresent (s : State) (u : Nat) : Bool :=
  if u < 64 then decide (u < s.cfg.lanes)
  else if u < 80 then decide (u - 64 < s.cfg.mports)
  else if u < 112 then decide (u - 80 < s.cfg.cports)
  else if u < 116 then decide (u - 112 < s.cfg.xports)
  else if u = 118 then decide (0 < s.cfg.tiers)
  else if u < 128 then decide (u % 2 = 0) || s.cfg.twoWings
  else if u = 128 then s.cfg.twoWings
  else decide (u = 129)

def State.readCounter (s : State) (u k : Nat) (hi : Bool) : Word :=
  let v := (if s.flag offTlyCtrl 28 then s.tally.shadow else s.tally.cnt).get (16 * u + k)
  BitVec.ofNat 32 (if hi then v / 2 ^ 32 else v)

/-- An edge is pending or a record is being written. -/
def Tally.busy (t : Tally) : Bool := !t.reqs.isEmpty || t.record.isSome

def State.readTally (s : State) (off : Nat) : Word :=
  let t := s.tally
  if 0x0F1000 ≤ off then
    let u := (off - 0x0F1000) / 0x100
    let o := off % 0x100
    if !s.unitPresent u then 0#32
    else if o < 0x80 then (if o % 8 = 0 then s.tlySelLo u (o / 8) else s.tlySelHi u (o / 8))
    else s.readCounter u ((o - 0x80) / 8) (o % 8 == 4)
  else match off with
  | 0x0F0004 => s.reg offTlyStatus ||| packWord [(oneIf t.busy, 31), (oneIf t.frozen, 30)]
  | 0x0F0008 => t.snapSeq
  | 0x0F000C => t.snapCcyc.truncate 32
  | 0x0F0010 => BitVec.ofNat 32 (t.snapCcyc.toNat / 2 ^ 32)
  | 0x0F0014 => s.ccyc.truncate 32
  | 0x0F0018 => s.ccycLatch.zeroExtend 32
  | _ => s.reg off

-- Ledger, Steward, power, reliability, interrupts.

def ledgerCode : LedgerState → Nat
  | .closed => 0 | .opened => 1 | .committing => 2

def State.readLedger (s : State) (off : Nat) : Word :=
  match off with
  | 0x100000 => packWord [(ledgerCode s.ledger.st, 30), (s.ledger.owner.toNat, 16), (s.ledger.staged.length, 0)]
  | 0x100004 => s.ledger.txn
  | _ => s.reg off

/-- Policy of a boot step: 0 required, 1 optional, 2 alternate, 3 not applicable (R352). -/
def stepPolicy (c : ConfigPoint) (n : Nat) : Nat :=
  match n with
  | 3 | 5 => 2
  | 8 => if c == .s then 0 else 2
  | 9 | 10 => 1
  | 11 | 12 => if c == .s then 3 else 2
  | 13 => if c == .s then 3 else 0
  | _ => 0

def State.readJournal (s : State) (n : Nat) : Word :=
  if 16 < n then 0#32
  else
    let e := s.boot.jrnl.get n
    packWord [(stepPolicy s.cfg n, 30), (e.path.toNat, 28), (e.outcome.toNat, 24), (min 15 e.fails, 20),
      (oneIf e.pfailed, 19), (min 255 e.attempts, 8), (e.code.toNat, 0)]

def State.readSteward (s : State) (off : Nat) : Word :=
  let b := s.boot
  if decide (0x110180 ≤ off) && decide (off < 0x110200) then s.readJournal ((off - 0x110180) / 4)
  else if decide (0x110020 ≤ off) && decide (off ≤ 0x110040) then b.ret.get off
  else match off with
  | 0x110000 => packWord [(b.stwState.toNat, 28), (b.step, 16), (oneIf b.bypass, 3), (oneIf b.imgB, 2), (oneIf b.ready, 0)]
  | 0x110004 => s.reg offStwEvents
  | 0x110010 => packWord [(0x0017, 16), (b.stwEpoch.toNat, 0)]
  | 0x110014 => packWord [(if b.bypass then 0 else b.lmEpoch.toNat, 0)]
  | 0x110018 => b.fwver
  | 0x11001C => if b.bypass then 0#32 else b.lmver
  | 0x110100 => packWord [(min 255 b.starts, 24), (b.cause.toNat, 20)]
  | 0x110104 => b.lanesFailed.truncate 32
  | 0x110108 => BitVec.ofNat 32 (b.lanesFailed.toNat / 2 ^ 32)
  | 0x118000 => b.heartbeat
  | 0x118004 => b.served
  | 0x118008 => b.discarded
  | _ => 0#32

/-- PWR_STATUS.STATE. N3 cannot be read. -/
def pwrCode : PwrState → Nat
  | .n0 => 0 | .n1 => 1 | .n2 => 2 | .n3 => 3

def State.readPower (s : State) (off : Nat) : Word :=
  match off with
  | 0x120004 => packWord [(oneIf s.pins.hold, 12), (oneIf s.pins.thermCrit, 11), (oneIf s.pins.thermWarn, 10),
      (s.pins.pmVlvl.toNat, 8), (s.power.running, 4), (oneIf (s.power.phase != .rest), 3), (pwrCode s.power.st, 0)]
  | _ => s.reg off

def State.readReliability (s : State) (off : Nat) : Word :=
  match off with
  | 0x130000 => s.relEvents
  | 0x130060 => s.rel.lanesOut.truncate 32
  | 0x130064 => BitVec.ofNat 32 (s.rel.lanesOut.toNat / 2 ^ 32)
  | 0x130068 => packWord [(min 0xFFFF (s.rel.rowSpares.cells.foldl (fun a c => a + c.2) 0), 16),
      (min 255 (s.larder.offSets.length + s.larder.offWays.length), 8), (oneIf (s.rel.tagSpare.get 1), 5),
      (oneIf (s.rel.tagSpare.get 0), 4), ((s.rel.laneSpares.get 1).toNat, 2), ((s.rel.laneSpares.get 0).toNat, 0)]
  | _ => s.reg off

def State.readIrq (s : State) (off : Nat) : Word :=
  match off with
  | 0x140000 => packWord [(s.irqLines.toNat, 8),
      (((List.range 8).filter s.irqSrc).foldl (fun a n => a + 2 ^ n) 0, 0)]
  | 0x140004 => s.queueBits 0 s.irqQueue
  | 0x140008 => s.queueBits 1 s.irqQueue
  | _ => s.reg off

-- The whole window.

/-- The unit an offset of a repeated set names exists in the instance (R3). -/
def State.offPresent (s : State) (off : Nat) : Bool :=
  let c := s.cfg
  if inQueues off then decide ((off - 0x011000) / 0x80 < c.queues)
  else if decide (0x041000 ≤ off) && decide (off < 0x044000) then decide ((off - 0x041000) / 8 < c.sems)
  else if off = 0x060004 ∨ off = 0x080014 ∨ off = 0x0D0014 ∨ off = 0x0D001C then c.twoWings
  else if decide (0x0C1000 ≤ off) && decide (off < 0x0D0000) then c.twoWings
  else if decide (0x100210 ≤ off) && decide (off < 0x100220) then c.twoWings
  else if decide (0x140200 ≤ off) && decide (off < 0x140300) then decide ((off - 0x140200) / 4 < c.queues)
  else true

/-- What a register reads. An offset that holds no register reads 0. -/
def State.readRegister (s : State) (off : Nat) : Word :=
  if !s.offPresent off then 0#32
  else match off / 0x10000 with
  | 0x00 => idRegister s.cfg s.pins.devid off
  | 0x01 | 0x02 | 0x03 =>
    if inQueues off then s.readQueue ((off - 0x011000) / 0x80) ((off - 0x011000) % 0x80)
    else if decide (0x010040 ≤ off) && decide (off < 0x010060) then s.readSummary off
    else 0#32
  | 0x04 | 0x05 =>
    if off = offSemEvents then s.reg off
    else if decide (0x040100 ≤ off) && decide (off < 0x0401C0) then s.readFlagsum ((off - 0x040100) / 4)
    else if decide (0x041000 ≤ off) && decide (off < 0x044000) && off % 8 == 0 then s.readSem ((off - 0x041000) / 8)
    else 0#32
  | 0x06 | 0x07 =>
    if decide (0x061000 ≤ off) && decide (off < 0x069000) then s.readRing ((off - 0x061000) / 0x20) (off % 0x20)
    else s.reg off
  | 0x08 | 0x09 =>
    match off with
    | 0x080010 => s.readXltStatus false
    | 0x080014 => s.readXltStatus true
    | _ => s.reg off
  | 0x0A | 0x0B =>
    if 0x0B0000 ≤ off then s.readTable ((off - 0x0B0000) / 0x10) (off % 0x10)
    else if off = 0x0A0000 then packWord [(if s.cfg == .s then 12 else 14, 24), (if s.cfg == .s then 8 else 32, 16),
      (if s.cfg == .s then 4 else 16, 8)]
    else s.reg off
  | 0x0C => if off < 0x0C2000 then s.readExpander (decide (0x0C1000 ≤ off)) (off % 0x1000) else 0#32
  | 0x0D => s.readLarder off
  | 0x0E =>
    if decide (0x0E1000 ≤ off) && decide (off < 0x0E1400) then s.readPgh ((off - 0x0E1000) / 0x40) (off % 0x40)
    else s.reg off
  | 0x0F => s.readTally off
  | 0x10 => s.readLedger off
  | 0x11 => s.readSteward off
  | 0x12 => s.readPower off
  | 0x13 => s.readReliability off
  | 0x14 => s.readIrq off
  | _ => 0#32

-- Answers (R57, R356).

/-- How an access is answered; one of an East register crosses the Corridor and is answered from there (R9). -/
inductive CpAnswer where
  | ok | decodeErr | notReady | timeout | crosses
  deriving DecidableEq, Repr, Inhabited

def cpCode : CpAnswer → BitVec 2
  | .ok | .crosses => 0#2 | .decodeErr => 1#2 | .notReady => 2#2 | .timeout => 3#2

/-- Tally units of the East wing (R400). -/
def eastUnit (u : Nat) : Bool :=
  (decide (32 ≤ u) && decide (u < 64)) || (decide (72 ≤ u) && decide (u < 80)) || (decide (96 ≤ u) && decide (u < 112)) ||
    [114, 115, 117, 119, 121, 123, 125, 127].contains u

/-- Registers served in the East wing of NRK3-X (R400). -/
def eastRegister (off : Nat) : Bool :=
  off == 0x080014 || off == 0x0D0014 || off == 0x0D001C ||
    (decide (0x0C1000 ≤ off) && decide (off ≤ 0x0C101C)) ||
    (decide (0x041000 + 8 * 768 ≤ off) && decide (off < 0x044000)) ||
    (decide (0x040100 + 4 * 24 ≤ off) && decide (off < 0x0401C0)) ||
    (decide (0x0F1000 ≤ off) && decide (off < 0x0F9200) && eastUnit ((off - 0x0F1000) / 0x100))

/-- Blocks that answer in the present condition (R356). -/
def State.blockAnswers (s : State) (blk : Nat) : Bool :=
  if s.clocksStopped then blk == 0x00 || blk == 0x12
  else if s.boot.ready then true
  else if s.recovery && decide (1 ≤ blk) && decide (blk ≤ 3) then true
  else [0x00, 0x0E, 0x11, 0x12, 0x13, 0x14].contains blk

/-- The control port runs: its clock runs from the locked PLL, also in N2 (R360). -/
def State.portRuns (s : State) : Bool := !s.inReset && s.pins.pllLocked && s.power.st != .n3

/-- How an access to an address is answered. -/
def State.cpAnswer (s : State) (addr : BitVec 24) : CpAnswer :=
  let off := addr.toNat
  if 0x150000 ≤ off ∨ off % 4 ≠ 0 then .decodeErr
  else if !s.blockAnswers (off / 0x10000) then .notReady
  else if s.cfg.twoWings && eastRegister off then (if s.corridor.failed then .timeout else .crosses)
  else if decide (0x118000 ≤ off) && decide (off < 0x118020) && !s.stwRunning then .timeout
  else .ok

/-- The control port takes a request: it runs and holds fewer than eight without a response (R55). -/
def State.cpTakes (s : State) : Bool := s.portRuns && decide (s.cpWaits.length < 8)

/-- A response is given once those of the earlier requests have been (R55). -/
def State.cpReply (s : State) (err : BitVec 2) (rdata : Word) : State :=
  if s.cpWaits.isEmpty then s.drive (.cpResponse err rdata) else { s with cpWaits := s.cpWaits ++ [some (err, rdata)] }

/-- The responses that no earlier request holds back any more are given, in order (R55). -/
def State.cpFlush (s : State) : State :=
  let go := s.cpWaits.takeWhile Option.isSome
  go.foldl (fun a r => match r with
    | some (e, v) => a.drive (.cpResponse e v)
    | none => a) { s with cpWaits := s.cpWaits.drop go.length }

/-- The oldest access that was away has its answer. -/
def answerFirst (a : BitVec 2 × Word) : List (Option (BitVec 2 × Word)) → List (Option (BitVec 2 × Word))
  | [] => []
  | none :: l => some a :: l
  | some x :: l => some x :: answerFirst a l

/-- The answer to an access of an East register reaches the control port or the TAP (R55, R85). -/
def State.accessAnswered (s : State) (tap : Bool) (err : BitVec 2) (v : Word) : State :=
  if tap then { s with tap := { s.tap with done := true, rdata := v, err := err } }
  else ({ s with cpWaits := answerFirst (err, v) s.cpWaits } : State).cpFlush

/-- An access leaves for the East wing (R9, R17). -/
def State.cpSend (s : State) (a : CpAccess) : State :=
  let s := s.corPush true corControl (.access a)
  if a.tap then s else { s with cpWaits := s.cpWaits ++ [none] }

/-- A write through the control port: its effect `f` and its answer, or its way to the East wing (R55-R57, R356). One answered
DECODE, NOTREADY or TIMEOUT has no effect: after a Corridor failure none can reach the East wing (R20; DEDUCED, log 112). -/
def State.cpWriteAt (s : State) (mid : BitVec 8) (off : Nat) (data : Word) (f : State → State) : Res :=
  whenever s.cpTakes s (fun s =>
    match s.cpAnswer (BitVec.ofNat 24 off) with
    | .ok => if s.cpWaits.isEmpty then (f s).drive (.cpResponse 0#2 0#32) else (f s).cpReply 0#2 0#32
    | .crosses => s.cpSend { write := some (mid, data), off := off, tap := false }
    | a => s.cpReply (cpCode a) 0#32)

/-- A write of a West register through the control port: its answer, and its effect (R56, R57, R356). -/
def State.cpEffect (s : State) (off : Nat) (f : State → State) : Res := s.cpWriteAt 0#8 off 0#32 f

end Sys2Proof.Machine
end

