-- ==== Sys2Proof/Machine/Pigeonholes.lean ====
section
/-!
DEFINITION. The pigeonholes: bindings (R332, R333), pointers (R335-R337), doorbells (R339), captured errors (R344), and
the Steward's replies (R348).
-/

namespace Sys2Proof.Machine

/-- Pigeonholes of every configuration point (R331). -/
def pghCount : Nat := 16

inductive PghError where
  | bind | mid | busy
  deriving DecidableEq, Repr, Inhabited

/-- A refused write: its bit of PGH_EVENTS, and PGH_LASTERR while that is not VALID (R344). -/
def State.pghError (s : State) (e : PghError) (p : Nat) (mid : BitVec 8) : State :=
  let (bit, kind) : Nat × Nat := match e with
    | .bind => (2, 0)
    | .mid => (1, 1)
    | .busy => (0, 2)
  let s := s.raiseEvent offPghEvents bit
  if s.flag offPghLasterr 31 then s
  else s.setReg offPghLasterr (packWord [(1, 31), (kind, 16), (mid.toNat, 8), (p, 0)])

/-- A write of PGH_BIND (R332): nothing once locked; a LOCK with one identity on both sides, or with the TAP's, is
refused. -/
def State.writePghBind (s : State) (p : Nat) (mid : BitVec 8) (data : Word) : State :=
  let v := s.pgh p
  let a := bits data 0 8
  let b := bits data 8 8
  if pghCount ≤ p || v.locked then s
  else if bitAt data 31 && (a == b || a == 0xFE || b == 0xFE) then s.pghError .bind p mid
  else s.setPgh p { v with bind := data &&& 0x8000FFFF#32 }

/-- The side an identity writes for: true for A. -/
def Pgh.side (v : Pgh) (mid : BitVec 8) : Option Bool :=
  if v.midA == mid then some true else if v.midB == mid then some false else none

-- Places of the writes of one ccyc in the order of R341.
def pghAck : Nat := 0
def pghClear : Nat := 1
def pghMask : Nat := 2
def pghRing : Nat := 3

/-- A write takes its place in the present ccyc, or comes in the next (R341). Pigeonholes have their turns from 2,000. -/
def State.pghTurn (s : State) (p rank : Nat) : State := (s.inTurn (2000 + p) rank 0#20).takeTurn (2000 + p) rank

/-- A write to the fields of a locked pigeonhole's register (R333): by one of its sides, `isA` saying which, or by an identity
that no field accepts. `foreign` says that it also writes to a field of the other side: that part is ignored and an error. -/
def State.pghField (s : State) (p rank : Nat) (mid : BitVec 8) (foreign : Bool → Bool) (f : State → Bool → State) : State :=
  if pghCount ≤ p || !(s.pgh p).locked then s
  else match (s.pgh p).side mid with
  | none => s.pghError .mid p mid
  | some isA =>
    let s := f (s.pghTurn p rank) isA
    if foreign isA then s.pghError .mid p mid else s

def Pgh.unread (v : Pgh) (towardsA : Bool) : Bool := if towardsA then v.unreadA else v.unreadB

/-- A committed pointer: UNREAD and the commit doorbell bit of its direction are set (R335). -/
def Pgh.commit (v : Pgh) (towardsA : Bool) (lo : Word) : Pgh :=
  if towardsA then { v with baLo := lo, unreadA := true, pend := v.pend ||| oneBit 16 }
  else { v with abLo := lo, unreadB := true, pend := v.pend ||| oneBit 0 }

def Pgh.putHi (v : Pgh) (towardsA : Bool) (hi : Word) : Pgh :=
  if towardsA then { v with baHi := hi } else { v with abHi := hi }

/-- A write of a pointer register, by the side it does not point towards (R335, R336). A HI half written after the acknowledgement
reads back at once, before the LO write commits it (DESIGN CHOICE, log 122: the register is RW, while R335 has it hold the
committed value until the next commit). -/
def State.writePghPtr (s : State) (p : Nat) (towardsA hi : Bool) (mid : BitVec 8) (data : Word) : State :=
  s.pghField p pghRing mid (fun isA => isA == towardsA) (fun s isA =>
    let v := s.pgh p
    if isA == towardsA then s
    else if v.unread towardsA then s.pghError .busy p mid
    else s.setPgh p (if hi then v.putHi towardsA data else v.commit towardsA data))

-- The Steward's replies.

/-- The side of a pigeonhole that is the Steward: true for A. -/
def Pgh.stwSide (v : Pgh) : Option Bool := if v.locked then v.side 0xFF#8 else none

/-- The Steward commits a reply's address, or keeps it until the requester has acknowledged the message before it (R336,
R348). -/
def State.commitReply (s : State) (p : Nat) (pa : BitVec 52) : State :=
  let v := s.pgh p
  match v.stwSide with
  | none => s
  | some isA =>
    if v.unread (!isA) then { s with boot := { s.boot with replies := s.boot.replies ++ [(p, pa)] } }
    else (s.pghTurn p pghRing).setPgh p ((v.putHi (!isA) (BitVec.ofNat 32 (pa.toNat / 2 ^ 32))).commit (!isA) (pa.truncate 32))

/-- A reply that waited is committed. -/
def State.flushReply (s : State) (p : Nat) : State :=
  match s.boot.replies.find? (fun r => r.1 == p) with
  | none => s
  | some r => ({ s with boot := { s.boot with replies := s.boot.replies.erase r } } : State).commitReply p r.2

/-- Status of a reply (R348). -/
inductive StwStatus where
  | done | badOp | badArgs | refused | abandoned
  deriving DecidableEq, Repr, Inhabited

def StwStatus.code : StwStatus → Nat
  | .done => 0 | .badOp => 1 | .badArgs => 2 | .refused => 3 | .abandoned => 4

/-- REPLY_PA of a request. -/
def reqReplyPa (req : BitVec 512) : BitVec 52 := BitVec.ofNat 52 (fieldAt req 8 8 / 64 % 2 ^ 46 * 64)

/-- The 64 bytes of a reply; `extra` holds bytes 8 on. -/
def replyBytes (req : BitVec 512) (st : StwStatus) (extra : Nat) : List Byte :=
  record [(fieldAt req 0 1, 1), (st.code, 1), (0, 2), (fieldAt req 4 4, 4), (extra, 56)]

/-- The Steward writes a reply, waits until it has landed and commits its address (R338, R348). -/
def State.stwReply (s : State) (p : Nat) (req : BitVec 512) (st : StwStatus) (extra : Nat) : State :=
  let pa := reqReplyPa req
  ({ s with boot := { s.boot with served := s.boot.served + 1 } } : State).writeRecord (.reply p pa) s.stwWriter
    [(pa.toNat, replyBytes req st extra)]

/-- Replies that have landed are committed where the requester's side has acknowledged (R338). -/
def State.commitLanded (s : State) : State := (s.boot.replies.map (fun r => r.1)).foldl (fun a p => a.flushReply p) s

/-- The Steward is held in reset (R347): the requests it has taken get no reply, though one whose reply is being written may still
find it in memory, and the promotions it has begun are not installed (R346; DEDUCED, log 123). -/
def State.haltSteward (s : State) : State := { s with
  boot := { s.boot with stwState := 4#4, replies := [] }
  power := { s.power with reqs := [] }
  larder := { s.larder with newAddrs := [], installs := s.larder.installs.filter (fun i => i.preload.isSome) }
  readings := s.readings.filter (fun r => match r.who with
    | .hole _ | .promotion _ => false
    | _ => true)
  records := s.records.filter (fun r => match r.note with
    | .reply _ _ => false
    | _ => true) }

-- Acknowledgements and doorbells.

/-- A write of PGH_ACK: each side clears its own UNREAD bit (R337). -/
def State.writePghAck (s : State) (p : Nat) (mid : BitVec 8) (data : Word) : State :=
  s.pghField p pghAck mid (fun isA => bitAt data (if isA then 0 else 1)) (fun s isA =>
    let v := s.pgh p
    if isA && bitAt data 1 then (s.setPgh p { v with unreadA := false }).flushReply p
    else if !isA && bitAt data 0 then (s.setPgh p { v with unreadB := false }).flushReply p
    else s)

/-- The half of a doorbell register that concerns a side: bits towards A are [31:16]. -/
def pghHalf (towardsA : Bool) : Word := if towardsA then 0xFFFF0000#32 else 0x0000FFFF#32

/-- A write of PGH_RING: a side rings the half towards the other, and the rest of its write is ignored (R339). -/
def State.writePghRing (s : State) (p : Nat) (mid : BitVec 8) (data : Word) : State :=
  s.pghField p pghRing mid (fun _ => false) (fun s isA =>
    let v := s.pgh p
    s.setPgh p { v with pend := v.pend ||| (data &&& pghHalf (!isA)) })

/-- A write of PGH_PEND: a side clears bits towards itself (R339). -/
def State.writePghPend (s : State) (p : Nat) (mid : BitVec 8) (data : Word) : State :=
  s.pghField p pghClear mid (fun isA => (data &&& pghHalf (!isA)) != 0#32) (fun s isA =>
    let v := s.pgh p
    s.setPgh p { v with pend := v.pend &&& ~~~(data &&& pghHalf isA) })

/-- A write of PGH_MASK: a side writes the half towards itself (R339). What it writes to the other half is a write of that
field only where it would change it (log 42). -/
def State.writePghMask (s : State) (p : Nat) (mid : BitVec 8) (data : Word) : State :=
  s.pghField p pghMask mid (fun isA => (data &&& pghHalf (!isA)) != ((s.pgh p).mask &&& pghHalf (!isA))) (fun s isA =>
    let v := s.pgh p
    s.setPgh p { v with mask := (v.mask &&& ~~~(pghHalf isA)) ||| (data &&& pghHalf isA) })

/-- A write of a pigeonhole register: by a control-port master, or by the Steward under its own identity (R332). -/
def State.pghWrite (s : State) (p o : Nat) (mid : BitVec 8) (f : State → State) : Res :=
  if mid == 0xFF#8 then whenever (s.alive && s.stwRunning) s f else s.cpEffect (offPgh p o) f

/-- PGH_BIND. -/
def execPghBind (p : Nat) (mid : BitVec 8) (data : Word) (s : State) : Res :=
  s.pghWrite p 0x00 mid (fun s => s.writePghBind p mid data)

/-- PGH_PTR_LO_COMMIT: a write of PGH_PTR_BA_LO (towards A) or PGH_PTR_AB_LO. -/
def execPghPtrLoCommit (p : Nat) (towardsA : Bool) (mid : BitVec 8) (data : Word) (s : State) : Res :=
  s.pghWrite p (if towardsA then 0x10 else 0x08) mid (fun s => s.writePghPtr p towardsA false mid data)

/-- PGH_ACK. -/
def execPghAck (p : Nat) (mid : BitVec 8) (data : Word) (s : State) : Res :=
  s.pghWrite p 0x18 mid (fun s => s.writePghAck p mid data)

/-- PGH_RING. -/
def execPghRing (p : Nat) (mid : BitVec 8) (data : Word) (s : State) : Res :=
  s.pghWrite p 0x1C mid (fun s => s.writePghRing p mid data)

/-- PGH_PEND_CLEAR: a write of PGH_PEND. -/
def execPghPendClear (p : Nat) (mid : BitVec 8) (data : Word) (s : State) : Res :=
  s.pghWrite p 0x20 mid (fun s => s.writePghPend p mid data)

/-- PGH_MASK_WRITE. -/
def execPghMaskWrite (p : Nat) (mid : BitVec 8) (data : Word) (s : State) : Res :=
  s.pghWrite p 0x24 mid (fun s => s.writePghMask p mid data)

end Sys2Proof.Machine
end

