-- ==== Sys2Proof/Machine/PowerOps.lean ====
section
/-!
DEFINITION. What the power transitions share (R357-R361): TARGET, the start of a transition, its end, and the link drop
of the entry into N2.
-/

namespace Sys2Proof.Machine

/-- PWR_CTRL.TARGET. -/
def State.target (s : State) : Nat := s.fld offPwrCtrl 0 2
def State.putTarget (s : State) (t : Nat) : State := s.putMasked offPwrCtrl 3#32 (BitVec.ofNat 32 t)
def State.autoWake (s : State) : Bool := s.flag offPwrCtrl 31

def State.setPhase (s : State) (p : PwrPhase) : State := { s with power := { s.power with phase := p } }

/-- The lane ramp begins: PM_LOADUP rises, and the first unit follows 64 ccyc later (R82, R359). -/
def State.beginRamp (s : State) : State :=
  { s with
    pins := { s.pins with loadup := true }
    power := { s.power with phase := .ramp 0, due := s.ccyc + 64, running := 0 } }

/-- The transition that TARGET asks for begins, when none is in progress (R357, R358, R360). TARGET also ends or resumes
a wait for N2's conditions. In N2 the wake sequencer acts on it by steps of its own. -/
def State.powerKick (s : State) : State :=
  if !s.boot.ready then s
  else match s.power.st, s.power.phase, s.target with
  | .n0, .rest, 0 => s
  | .n0, .rest, _ => s.setPhase .drainToN1
  | .n1, .rest, 0 | .n1, .n2Wait, 0 =>
    ({ s with power := { s.power with wakeAt := s.ccyc, before := 0 } } : State).beginRamp
  | .n1, .n2Wait, 1 => s.setPhase .rest
  | .n1, .rest, 2 | .n1, .rest, 3 => s.setPhase .n2Wait
  | _, _, _ => s

/-- A write that changes TARGET: ignored, with REFUSED set, while the Steward does not run (R361). -/
def State.askTarget (s : State) (t : Nat) : State :=
  if s.target = t then s else if !s.stwRunning then s.raisePower 3 else (s.putTarget t).powerKick

/-- The POWER requests that `which` selects are answered (R348). -/
def State.answerPower (s : State) (which : PowerReq → Bool) (st : StwStatus) : State :=
  let s0 : State := { s with power := { s.power with reqs := s.power.reqs.filter (fun r => !which r) } }
  (s.power.reqs.filter which).foldl (fun a r => a.stwReply r.hole r.req st 0) s0

/-- A transition has reached its state: STATE_DONE is set; requests for it are answered, those for N2 and N3 once the
block is back in N0 or N1 (R348, R363). A TARGET written meanwhile takes effect (R357). -/
def State.transitionDone (s : State) : State :=
  let s := s.raisePower 0
  let n := pwrCode s.power.st
  let s : State := { s with power := { s.power with
    reqs := s.power.reqs.map (fun r => if r.target.toNat = n then { r with reached := true } else r) } }
  (if n ≤ 1 then s.answerPower (fun r => r.reached) .done else s).powerKick

/-- A link of the block is up. -/
def State.anyLink (s : State) : Bool :=
  s.mports.cells.any (fun c => c.2.linkAck) || s.cports.cells.any (fun c => c.2.linkAck) ||
    s.remote.ports.cells.any (fun c => c.2.linkAck)

/-- Every link is down: the wake sequencer stops the clocks 512 ccyc later, holds the interrupt lines and asks for the
retention supply (R360, R388). -/
def State.handOver (s : State) : State :=
  if s.power.phase == .linkDrop && !s.anyLink then
    let s := s.passCycles 512
    { s with
      pins := { s.pins with irqHeld := s.irqLines, pmVreq := 1#2 }
      power := { s.power with phase := .retentionVolt } }
  else s

/-- PWR_WAKECYC: the ccyc of the exit that ends now (R363). -/
def State.putWakeCyc (s : State) : State :=
  s.setReg offPwrWakecyc (BitVec.ofNat 32 (min (2 ^ 32 - 1) (s.power.before + (s.ccyc - s.power.wakeAt).toNat)))

/-- A port's link-up sequence has run: its link is up, or it is recorded as absent (R40, R73). -/
def State.linkSettled (s : State) : LinkPort → Bool
  | .mem p => (s.mport p).linkAck || (s.mport p).absent
  | .client c => (s.cport c).linkAck
  | .remote x => (s.xport x).linkAck || (s.xport x).absent

/-- The link-up sequences of an exit from N2 have all run: N1 is reached, or the ramp to N0 begins (R360). The rule gives the
ports no limit; the wait ends with the last of those the entry lowered (DESIGN CHOICE, log 102). -/
def State.wakeGoes (s : State) : State :=
  match s.power.phase with
  | .linkUp ps =>
    if !ps.all s.linkSettled then s
    else if s.target = 0 then s.beginRamp
    else ((s.setPhase .rest).putWakeCyc).transitionDone
  | _ => s

end Sys2Proof.Machine
end

