-- ==== Sys2Proof/Machine/Larder.lean ====
section
/-!
DEFINITION. The Larder: its directory (R273-R276), windows and coherence (R302-R304), probes and tier reads (R274,
R75), tiers coming up and going (R76), promotion (R277) and load windows (R281).
-/

namespace Sys2Proof.Machine

-- Windows (R303, R304).

/-- A physical address lies in an enabled Larder window. -/
def State.windowed (s : State) (pa : Nat) : Bool :=
  (List.range 8).any (fun n => s.flag (offLrdBase n) 31 && decide (s.fld (offLrdBase n) 0 22 ≤ pa / 2 ^ 30) &&
    decide (pa / 2 ^ 30 ≤ s.fld (offLrdLim n) 0 22))

/-- The Larder of a wing is in service: it is not bypassed and has a tier in service (R280, R302). -/
def State.larderOn (s : State) (east : Bool) : Bool :=
  !s.larderBypass && (List.range 4).any (fun i => s.tierUp (i + if east then 4 else 0))

/-- Granules of the quarters a write-class request probes. -/
def State.probed (s : State) (r : Req) : List Nat :=
  if s.larderOn (mportEast r.port) then
    ((r.quarters.map (fun k => r.pa / 512 * 4 + k.toNat)).filter (fun g => s.windowed (g * 128)))
  else []

-- The directory.

def State.way (s : State) (key w : Nat) : Way := (s.larder.dir.get key).get w

/-- Number of a way's row, or of a directory row, in its tier: the directory row stands at place s mod 8 of its set's
32 rows (R273). -/
def dirRow (set : Nat) : Nat := 32 * (set % 2 ^ 17) + set % 8
def wayRow (set w : Nat) : Nat := 32 * (set % 2 ^ 17) + if w < set % 8 then w else w + 1

/-- The directory row of a set, as its tier holds it (R274). -/
def dirData (ways : Bank Way) : BitVec 1024 :=
  BitVec.ofNat 1024 (ways.cells.foldl (fun a c =>
    a + ((if c.2.valid then 2 ^ 31 else 0) + c.2.heat.toNat * 2 ^ 29 + c.2.tag.toNat) * 2 ^ (32 * c.1)) 0)

/-- Change one entry of a set: its directory row is written. -/
def State.setWay (s : State) (key w : Nat) (v : Way) : State :=
  let ways := (s.larder.dir.get key).set w v
  let set := key % 2 ^ 19
  let s : State := { s with larder := { s.larder with dir := s.larder.dir.set key ways } }
  s.tierWrite (setTier (decide (2 ^ 19 ≤ key)) set) (dirRow set) (dirData ways)

/-- The way of a set that holds a tag. -/
def State.findWay (s : State) (key : Nat) (tag : BitVec 26) : Option Nat :=
  (List.range 31).find? (fun w => (s.way key w).valid && (s.way key w).tag == tag)

/-- Ways that installs may use (R385). -/
def State.usableWays (s : State) (key : Nat) : List Nat :=
  (List.range 31).filter (fun w => !s.larder.offWays.contains (key, w))

/-- The way an install takes: the lowest-numbered invalid one, else the one of lowest HEAT, the lowest number winning
(R275). -/
def State.victim (s : State) (key : Nat) : Option Nat :=
  let ws := s.usableWays key
  match ws.find? (fun w => !(s.way key w).valid) with
  | some w => some w
  | none => ws.foldl (fun a w => match a with
    | none => some w
    | some b => if (s.way key w).heat.toNat < (s.way key b).heat.toNat then some w else a) none

/-- Any way that holds a granule becomes invalid, in either wing, with no item of the Corridor (R302, R306; DESIGN CHOICE, log 124). -/
def State.dropGranule (s : State) (g : Nat) : State :=
  let key := setKey (s.homeEast (g * 128)) (larderSet g)
  match s.findWay key (larderTag g) with
  | some w => s.setWay key w default
  | none => s

/-- A write invalidates the way that holds a granule of it, and counts it (R302, R392). -/
def State.writeDrops (s : State) (g : Nat) : State :=
  let east := s.homeEast (g * 128)
  (s.dropGranule g).count (unitLarder east) 0x06 0 (if (s.findWay (setKey east (larderSet g)) (larderTag g)).isSome then 1 else 0)

/-- Installs of a granule in progress will be dropped (R276). -/
def State.spoilInstalls (s : State) (lo hi : Nat) : State :=
  { s with larder := { s.larder with installs := s.larder.installs.map (fun i =>
    if decide (lo ≤ i.granule * 128 + 127) && decide (i.granule * 128 < hi) then { i with dropped := true } else i) } }

/-- A granule is written into a way, and its entry into the directory row (R276). -/
def State.writeWay (s : State) (east : Bool) (g w : Nat) (heat : BitVec 2) (data : BitVec 1024) : State :=
  let set := larderSet g
  let s := s.setWay (setKey east set) w { valid := true, heat := heat, tag := larderTag g }
  let row := setTier east set * 2 ^ 22 + wayRow set w
  let s : State := { s with larder := { s.larder with rows := s.larder.rows.set row data } }
  s.tierWrite (setTier east set) (wayRow set w) data

/-- Every valid way of a set loses 1 of HEAT, down to 0. -/
def State.coolSet (s : State) (key : Nat) : State :=
  (List.range 31).foldl (fun a w =>
    let v := a.way key w
    if v.valid && v.heat != 0#2 then a.setWay key w { v with heat := v.heat - 1#2 } else a) s

/-- A granule may be installed: in a window, its set in service (R273, R303), the directory not being cleared (R375). -/
def State.installable (s : State) (g : Nat) : Bool :=
  !s.larder.clearing && s.windowed (g * 128) && s.setUp (s.homeEast (g * 128)) (larderSet g)

/-- An install by promotion (R275): HEAT of the set falls by 1 when no way has HEAT 0, and the
granule enters with HEAT 1. The flags say that it was installed and that it displaced another. -/
def State.promote (s : State) (g : Nat) (data : BitVec 1024) : State × Bool × Bool :=
  let east := s.homeEast (g * 128)
  let key := setKey east (larderSet g)
  if !s.installable g then (s, false, false)
  else if (s.findWay key (larderTag g)).isSome then (s, false, false)
  else
    let s := if (s.usableWays key).any (fun w => (s.way key w).heat == 0#2) then s else s.coolSet key
    match s.victim key with
    | none => (s, false, false)
    | some w => (s.writeWay east g w 1#2 data, true, (s.way key w).valid)

/-- One granule of a preloaded row (R275, R279): HEAT 3 on a granule already present, otherwise an install with HEAT 3
unless every way is valid with HEAT 3. The flags say that it was skipped and that it displaced another. -/
def State.preload (s : State) (g : Nat) (data : BitVec 1024) : State × Bool × Bool :=
  let east := s.homeEast (g * 128)
  let key := setKey east (larderSet g)
  if !s.installable g then (s, true, false)
  else match s.findWay key (larderTag g) with
  | some w => (s.setWay key w { s.way key w with heat := 3#2 }, false, false)
  | none =>
    match s.victim key with
    | none => (s, true, false)
    | some w =>
      if (s.way key w).valid && (s.way key w).heat == 3#2 then (s, true, false)
      else ((s.writeWay east g w 3#2 data).count (unitLarder east) 0x04 0 1, false, (s.way key w).valid)

-- Probes (R274).

/-- A miss adds to its granule's estimate, which may exceed the true sum by an amount the manual leaves open; at
PROMO_MIN the granule is posted, once per window (R277, R303). -/
def State.estimate (s : State) (east : Bool) (g table mult : Nat) : State :=
  let e := s.larder.est.get g + mult + Config.freeNat s.free
  let s : State := { s.tick with larder := { s.larder with est := s.larder.est.set g e } }
  let min := max 1 (s.fld offLrdCtrl 0 16)
  if !s.promoLive || e < min || s.larder.posted.any (fun p => p.1 == g) || !s.installable g then s
  else
    let l : Larder := { s.larder with posted := s.larder.posted ++ [(g, table)] }
    let q := if east then l.promoE else l.promoW
    if 4096 ≤ q.length then
      ({ s with larder := l } : State).countReg offLrdPqdrop (if east then 16 else 0) 16 1
    else { s with larder := if east then { l with promoE := l.promoE ++ [(g, table)] }
                                    else { l with promoW := l.promoW ++ [(g, table)] } }

/-- A probe misses: its row is read from memory once every probe of the row is known. -/
def State.probeMisses (s : State) (p : Probe) : State :=
  let far := s.destsEast p.dests != p.east
  ({ s with larder := { s.larder with
    probes := s.larder.probes.map (fun x => if x == p then { x with missed := true } else x) } } : State).rowMissed p far

/-- A probe changes what it has of its directory row. -/
def State.probeSees (s : State) (p : Probe) (d : Option (Option (BitVec 1024))) : State :=
  { s with larder := { s.larder with probes := s.larder.probes.map (fun x => if x == p then { x with seen := d } else x) } }

/-- A way's place in the directory row says that it is valid and holds the tag (R274). -/
def entryHolds (row : BitVec 1024) (w : Nat) (tag : BitVec 26) : Bool :=
  bitAt row (32 * w + 31) && bits row (32 * w) 26 == tag.toNat

/-- The way in which a directory row holds a tag. An entry that has changed since the row was read is no match (DESIGN CHOICE,
log 111). -/
def State.seenWay (s : State) (key : Nat) (row : BitVec 1024) (tag : BitVec 26) : Option Nat :=
  (List.range 31).find? (fun w => entryHolds row w tag && (s.way key w).valid && (s.way key w).tag == tag)

/-- A probe's directory row is read at its tier (R274). -/
def State.readDirectory (s : State) (p : Probe) : State :=
  let set := larderSet p.granule
  let r : TierRead := {
    tier := setTier p.east set, row := dirRow set, set := set, way := 0, granule := p.granule, dests := p.dests
    data := dirData (s.larder.dir.get (setKey p.east set)), dir := true }
  let s := s.probeSees p (some none)
  ({ s with larder := { s.larder with reads := s.larder.reads ++ [r] } } : State).drive (.tierRead r.tier r.row)

/-- A probe hits a way: HEAT rises to at most 3, and the way's row is read (R274, R275). -/
def State.probeHits (s : State) (p : Probe) (way : Nat) : State :=
  let set := larderSet p.granule
  let key := setKey p.east set
  let far := s.destsEast p.dests != p.east
  let v := s.way key way
  let s := s.setWay key way { v with heat := if v.heat == 3#2 then 3#2 else v.heat + 1#2 }
  let s := (s.count (unitLarder p.east) 0x02 0 1).countLoad p.table p.east (fun c => { c with hits := c.hits + 1 })
  let r : TierRead := {
    tier := setTier p.east set, row := wayRow set way, set := set, way := way, granule := p.granule
    dests := p.dests, data := s.larder.rows.get (setTier p.east set * 2 ^ 22 + wayRow set way) }
  let s : State := { s with larder := { s.larder with
    probes := s.larder.probes.filter (fun x => x != p), reads := s.larder.reads ++ [r] } }
  (s.drive (.tierRead r.tier r.row)).rowMissed p far

/-- LARDER_PROBE: the oldest probe of a wing that can go on reads its directory row, or compares the row that has come with its
tag and hits a way or misses (R274, R275). -/
def execLarderProbe (w : Wing) (s : State) : Res :=
  let east := wingEast w
  match s.larder.probes.find? (fun p => p.east == east && !p.missed && p.seen != some none) with
  | none => .next s
  | some p => whenever s.alive s (fun s =>
      let set := larderSet p.granule
      match p.seen, s.setUp east set with
      | some (some row), true => match s.seenWay (setKey east set) row (larderTag p.granule) with
        | some way => s.probeHits p way
        | none => (s.estimate east p.granule p.table p.mult).probeMisses p
      | none, true => (s.count (unitLarder east) 0x01 0 1).readDirectory p
      | none, false => (s.count (unitLarder east) 0x01 0 1).probeMisses p
      | some _, _ => s.probeMisses p)

/-- Ones of a number of up to 72 bits. -/
def onesOf (n : Nat) : Nat := ((List.range 72).filter (fun i => n / 2 ^ i % 2 == 1)).length

/-- Flipped bits of the worst of the sixteen words of 64 bits, its check bits among them, that a tier returns for a row. -/
def rowFlips (want got : BitVec 1024) (chk : BitVec 128) : Nat :=
  (List.range 16).foldl (fun a i =>
    max a (onesOf (bits (want ^^^ got) (64 * i) 64 + bits (Config.checkBits want ^^^ chk) (8 * i) 8 * 2 ^ 64))) 0

/-- The row that the SECDED check of R379 passes on: a single flipped bit of a word is corrected, two are detected; with more
it stays open whether they are detected. -/
def State.tierChecked (s : State) (want got : BitVec 1024) (chk : BitVec 128) : Option (BitVec 1024) :=
  match rowFlips want got chk with
  | 0 | 1 => some want
  | 2 => none
  | _ => if s.freeBelow 2 == 1 then some got else none

/-- Every way of a set becomes invalid. -/
def State.dropSet (s : State) (key : Nat) : State :=
  { s with larder := { s.larder with dir := s.larder.dir.set key default } }

/-- A directory row comes back: its probe compares with it; one with an uncorrectable word invalidates every way of the set, and
the probe misses (R379). -/
def State.directoryRead (s : State) (r : TierRead) (row : Option (BitVec 1024)) : State :=
  let s := if row.isSome then s else s.dropSet (setKey (tierEast r.tier) r.set)
  match s.larder.probes.find? (fun p =>
    p.east == tierEast r.tier && p.granule == r.granule && p.dests == r.dests && p.seen == some none), row with
  | some p, some row => s.probeSees p (some (some row))
  | some p, none => s.probeMisses p
  | none, _ => s

/-- A way's row comes back: it is delivered, over the Corridor to the other wing (R16); one with an uncorrectable word
invalidates the way, and the granule is read from memory (R379). -/
def State.wayRead (s : State) (r : TierRead) (row : Option (BitVec 1024)) : State :=
  let east := tierEast r.tier
  let s := if row.isSome then s else s.setWay (setKey east r.set) r.way default
  match s.destReq r.dests (r.granule * 128) (r.granule * 128 + 128), row with
  | none, _ => s
  | some q, some row =>
    if q.east == east then (r.dests.foldl (fun a d => a.deliverTo row d) s).sweep
    else if s.corridor.failed then (s.requestFault q s.corridorFault).sweep
    else s.corPush q.east corData (.quarter q (r.granule * 128) row false)
  | some q, none => s.readDests r.dests (q.east != east)

/-- TIER_READ_DATA: 48 lcyc after its command a read of sub-bank `k` returns the row as it stood when the command came, with
its check bits, which are checked (R75, R379). -/
def execTierReadData (t : Nat) (k : BitVec 3) (data : BitVec 1024) (chk : BitVec 128) (s : State) : Res :=
  match s.larder.reads.find? (fun r => r.tier == t && r.row % 8 == k.toNat) with
  | none => .next s
  | some r => whenever s.alive s (fun s =>
      let row := s.tierChecked r.data data chk
      let s : State := { s.tick with larder := { s.larder with reads := s.larder.reads.erase r } }
      if r.dir then s.directoryRead r row else s.wayRead r row)

-- Installs (R275-R277).

/-- PROMOTION_INSTALL: the Steward takes the granule at the front of a wing's promotion queue and reads it (R277). -/
def execPromotionInstall (w : Wing) (s : State) : Res :=
  let east := wingEast w
  let l := s.larder
  match if east then l.promoE else l.promoW with
  | [] => .next s
  | (g, table) :: rest => whenever (s.alive && s.stwRunning) s (fun s =>
      let i : Install := { id := s.nextId, east := east, granule := g, table := table, dropped := false }
      let l := if east then { l with promoE := rest } else { l with promoW := rest }
      (({ s.bump with larder := { l with installs := l.installs ++ [i] } } : State).need (.promotion i.id) (128 * g) 128).1)

/-- What the read of an install has given: its granule, or nothing when it failed; none while it is on its way. -/
def State.installRead (s : State) (i : Install) : Option (Option (BitVec 1024)) :=
  match s.reading (.promotion i.id) with
  | none => some none
  | some r => match r.bytes (128 * i.granule) 128 with
    | some l => some (some (BitVec.ofNat 1024 (leNat l)))
    | none => if r.failed.isEmpty then none else some none

/-- LARDER_INSTALL: the oldest install of a wing whose granule has been read writes its way and directory entry, or is
dropped (R276). A read that failed installs nothing. -/
def execLarderInstall (w : Wing) (s : State) : Res :=
  let east := wingEast w
  match s.larder.installs.find? (fun i => i.east == east && i.preload.isNone && (s.installRead i).isSome) with
  | none => .next s
  | some i => whenever (s.alive && s.stwRunning) s (fun s =>
      let got := s.installRead i
      let s : State := { (s.closeReading (.promotion i.id)) with larder := { s.larder with
        installs := s.larder.installs.filter (fun x => x != i) } }
      match got with
      | some (some data) =>
        if i.dropped then s.count (unitLarder east) 0x07 0 1
        else
          let (s, done, demoted) := s.promote i.granule data
          if done then
            let s := (s.count (unitLarder east) 0x03 0 1).countReg (offLrdPromo east) 0 32 1
            s.countLoad i.table east (fun c => { c with
              promoted := c.promoted + 1, demoted := c.demoted + if demoted then 1 else 0 })
          else s
      | _ => s)

-- Tiers (R76).

/-- LTN_READY_RISE: the tier accepts commands. -/
def execLtnReadyRise (t : Nat) (s : State) : Res :=
  whenever (s.alive && decide (t < s.cfg.tiers) && !bitAt s.larder.tiersOut t) s (fun s =>
    { s with larder := { s.larder with tiersUp := s.larder.tiersUp ||| BitVec.ofNat 8 (2 ^ t) } })

/-- LTN_READY_TIMEOUT: the tier has failed; its boot step maps it out (R352). -/
def execLtnReadyTimeout (t : Nat) (s : State) : Res :=
  whenever (!s.inReset && decide (t < s.cfg.tiers) && !bitAt s.larder.tiersUp t) s (fun s =>
    { s with larder := { s.larder with tiersOut := s.larder.tiersOut ||| BitVec.ofNat 8 (2 ^ t) } })

/-- Every way of a tier is gone from the directory, and its reads under way are forgotten; a probe of it asks anew and misses. -/
def State.mapTierOut (s : State) (t : Nat) : State :=
  let mine (key : Nat) : Bool := setTier (decide (2 ^ 19 ≤ key)) (key % 2 ^ 19) == t
  { s with larder := { s.larder with
    tiersUp := s.larder.tiersUp &&& ~~~BitVec.ofNat 8 (2 ^ t)
    tiersOut := s.larder.tiersOut ||| BitVec.ofNat 8 (2 ^ t)
    dir := ⟨s.larder.dir.cells.filter (fun c => !mine c.1)⟩
    probes := s.larder.probes.map (fun p => if setTier p.east (larderSet p.granule) == t then { p with seen := none } else p)
    reads := s.larder.reads.filter (fun r => r.tier != t) } }

/-- ST_INTERNAL of a tier (R111, R112). -/
def State.tierFault (s : State) (t : Nat) : FaultInfo :=
  { s.fault stInternal 0x3#8 with detail := BitVec.ofNat 32 (0x50 + t) }

/-- The work with an access outstanding at a tier, as the requests that would read it from memory. -/
def State.tierWork (s : State) (t : Nat) : List Req :=
  (s.larder.reads.filter (fun r => r.tier == t)).filterMap (fun r => s.destReq r.dests 0 0)

/-- LTN_READY_FALL: tasks with an access outstanding at the tier abort, and the tier is mapped out. -/
def execLtnReadyFall (t : Nat) (s : State) : Res :=
  whenever (s.alive && bitAt s.larder.tiersUp t) s (fun s =>
    let ws := s.tierWork t
    let s := (s.mapTierOut t).raiseEvent offRelEvents 10
    (s.requestsFault ws (fun a => a.tierFault t)).serveAll)

-- Load windows and reports.

/-- Exponent LRD_CTRL.WIN_EXP asks for. -/
def State.winExp (s : State) : Nat := clampTo 20 28 (s.fld offLrdCtrl 24 5)

/-- End of the present load window. -/
def State.windowEnd (s : State) : Nat := match s.larder.window with
  | some (e, _) => e
  | none => 2 ^ 24

def State.windowExp (s : State) : Nat := match s.larder.window with
  | some (_, x) => x
  | none => 24

/-- Lower HEAT by 1 in every valid way (R278). -/
def State.coolAll (s : State) : State := 
  (firsts (s.larder.dir.cells.map (fun c => c.1))).foldl (fun a k => a.coolSet k) s

/-- LOAD_WINDOW_CLOSE: the present window ends (R281); its counts are captured, the estimates start again, HEAT falls
(R278) and the report is due (R282). While the Steward is not running HEAT stays and LOST is set (R346). Time passes up
to the window's end. -/
def execLoadWindowClose (s : State) : Res :=
  whenever s.alive s (fun s =>
    let e := s.windowEnd
    let s := s.passCycles (e - s.ccyc.toNat)
    let x := s.winExp
    let report : DueReport := {
      window := s.larder.windows + 1, ccyc := BitVec.ofNat 48 e, winExp := s.windowExp, counts := s.larder.counts
      epochs := s.larder.counts.cells.map (fun c =>
        ((s.table (c.1 / 2)).current.map (fun v => v.epoch)).getD 0#32) }
    let live := s.stwRunning
    let s := if s.flag offLoadEvents 0 || s.larder.due.isSome || !live then s.raiseEvent offLoadEvents 1 else s
    let s : State := { s with larder := { s.larder with
      windows := (s.larder.windows + 1) % 2 ^ 32, window := some (e + 2 ^ x, x), counts := .empty
      est := .empty, posted := [], due := if live then some report else none } }
    if live then s.coolAll else s)

end Sys2Proof.Machine
end

