-- ==== Sys2Proof/Machine/Blocks.lean ====
section
/-!
DEFINITION. The blocks of the Expanders: their header (R237, R238), their checks and what a failed one does (R245).
-/

namespace Sys2Proof.Machine

/-- Physical address of a block (R245). -/
def State.blockPa (s : State) (b : Block) : Nat := ((s.tile b.tile).map (fun t => t.phys false b.va.toNat)).getD 0

/-- Index of the XPAND that a block belongs to. -/
def State.blockInstr (s : State) (b : Block) : Nat := ((s.tile b.tile).map (fun t => t.instr)).getD 0

/-- A little-endian field of a block's bytes. -/
def Block.field (b : Block) (off n : Nat) : Nat := leNat ((List.range n).map (fun i => b.data.get (off + i)))

-- The header (R237, R238).

def Block.raw (b : Block) : Bool := bitAt (b.data.get 1) 0
def Block.rows (b : Block) : Nat := b.field 2 2
def Block.cols (b : Block) : Nat := b.field 4 2
def Block.rank (b : Block) : Nat := b.field 6 1
def Block.utype (b : Block) : Nat := b.field 7 1 % 16
def Block.vtype (b : Block) : Nat := b.field 7 1 / 16
def Block.pbytes (b : Block) : Nat := b.field 8 4
def Block.bscale (b : Block) : Word := BitVec.ofNat 32 (b.field 12 4)

/-- PBYTES as R238 gives it. -/
def Block.size238 (b : Block) : Nat :=
  if b.raw then b.rows * b.cols * dtypeSize b.utype
  else b.rank * (b.rows * dtypeSize b.utype + b.cols * dtypeSize b.vtype)

/-- Check 1 of R245: header form. -/
def Block.formOk (b : Block) : Bool :=
  decide (b.field 0 1 = 0x31) && decide (b.field 1 1 < 2) && decide (b.field 16 12 = 0) && decide (1 ≤ b.rows) &&
    decide (b.rows ≤ 256) && decide (1 ≤ b.cols) && decide (b.cols ≤ 256) &&
    (if b.raw then b.rank == 0 && b.vtype == 0 && [0x5, 0x6, 0x7, 0x8, 0x9].contains b.utype
     else decide (1 ≤ b.rank) && decide (b.rank ≤ 128) && [0x5, 0x6, 0x8].contains b.utype && [0x5, 0x6, 0x8].contains b.vtype)

/-- Check 2: the sizes are those of the XPAND, and the block fits its reservation. -/
def Block.sizeOk (b : Block) (t : Tile) : Bool :=
  b.rows == t.t1 && b.cols == t.t0 && b.pbytes == b.size238 && decide (32 + b.pbytes ≤ b.resv)

/-- Check 3: the check value over header bytes 0 to 27 and the payload. -/
def Block.crcOk (b : Block) : Bool :=
  crc32c ((List.range 28 ++ (List.range b.pbytes).map (fun i => 32 + i)).map (fun o => b.data.get o)) ==
    BitVec.ofNat 32 (b.field 28 4)

-- Checking.

/-- The check that a block fails on what has been read of it as far as asked (R245). -/
def Block.verdict (b : Block) (t : Tile) : Option Byte :=
  let whole : Option Byte := if !b.crcOk then some stCheckMismatch else if b.poison then some stEcc else none
  if b.stage == .payload then whole
  else if !b.formOk then some stCheckMismatch
  else if !b.sizeOk t then some stExpandSize
  else if 32 + b.pbytes ≤ 512 then whole
  else none

/-- A block has been read as far as asked and awaits its checks. -/
def Block.awaits (b : Block) : Bool := (b.stage == .header || b.stage == .payload) && b.want.isEmpty && !b.dropped

/-- The Expander counts a block that failed a check, and captures the first failure (R252). Header words read 0 before the
header has arrived. -/
def State.captureBlock (s : State) (b : Block) (st : Byte) : State :=
  let o (k : Nat) : Nat := offExp b.east k
  let s : State := if st == stCheckMismatch then s.countReg (o 0x04) 16 16 1
    else if st == stExpandSize then s.countReg (o 0x04) 0 16 1 else s
  if s.flag (o 0x08) 31 then s
  else
    let hdr (k : Nat) : Word := if b.stage == .accepted || b.want.contains 0 then 0#32 else BitVec.ofNat 32 (b.field (4 * k) 4)
    let s := s.setReg (o 0x08) (packWord [(1, 31), (st.toNat, 16), (b.q, 8), (b.itin, 0)])
    let s := (s.setReg (o 0x0C) (BitVec.ofNat 32 (b.va.toNat % 2 ^ 32))).setReg (o 0x10) (BitVec.ofNat 32 (b.va.toNat / 2 ^ 32))
    ((s.setReg (o 0x14) (hdr 0)).setReg (o 0x18) (hdr 1)).setReg (o 0x1C) (hdr 2)

/-- The failure of a block, as its task's fault (R245). -/
def State.blockFault (s : State) (b : Block) (st : Byte) : FaultInfo :=
  { s.fault st 0x4#8 with va := b.va, pa := BitVec.ofNat 52 (s.blockPa b), itin := some b.itin, instr := s.blockInstr b }

/-- The first block of a queue, in start order, that has not passed every check raises the fault if it has failed; the stop
counts the others that have (R245). -/
def State.settleBlocks (s : State) (q : Nat) : State :=
  match s.blocks.find? (fun b => b.q == q && b.stage != .checked && !b.dropped) with
  | some b => match b.stage with
    | .failed st => ({ s with blocks := s.blocks.filter (fun x => x.id != b.id) } : State).abort q (s.blockFault b st)
    | _ => s
  | none => s

/-- A block fails a check: it is captured, and its task aborts once every block of it that started before has passed its
checks (R245). -/
def State.blockFails (s : State) (b : Block) (st : Byte) : State :=
  ((s.captureBlock b st).updBlock b.id (fun x => { x with stage := .failed st })).settleBlocks b.q

end Sys2Proof.Machine
end

