-- ==== Sys2Proof/Machine/MemPorts.lean ====
section
/-!
DEFINITION. The memory ports: links (R31, R40), credits (R32), arbitration (R190), requests and write data (R22-R24,
R32-R35), responses and landed acknowledgements (R25, R26, R30, R33), the watchdog (R38) and the Larder's part in a
write (R302).
-/

namespace Sys2Proof.Machine

-- Links and credits.

/-- MEM_LINK_ACK_RISE: the partner answers Mn_LINK_REQ (R31). -/
def execMemLinkAckRise (p : Nat) (s : State) : Res :=
  let v := s.mport p
  whenever (s.mportAlive p && v.linkReq && !v.linkAck && !v.absent) s (fun s =>
    ((s.updMport p (fun v => { v with linkAck := true })).putBit offMportLink p true).wakeGoes)

/-- MEM_LINK_ABSENT: the link has not come up in time; the port is absent (R40). -/
def execMemLinkAbsent (p : Nat) (s : State) : Res :=
  let v := s.mport p
  whenever (s.mportAlive p && v.linkReq && !v.linkAck) s (fun s =>
    (s.updMport p (fun v => { v with absent := true })).wakeGoes)

/-- MEM_CREDIT_RETURN: the counters hold at most 255 and 511 (R31, R32). -/
def execMemCreditReturn (p : Nat) (rc : BitVec 3) (wc : BitVec 2) (s : State) : Res :=
  whenever (s.mportAlive p && (s.mport p).linkAck) s (fun s => s.updMport p (fun v => { v with
    reqCred := min 255 (v.reqCred + rc.toNat), wdCred := min 511 (v.wdCred + wc.toNat) }))

/-- PORT_ARBITRATION: an mcyc's picks, up to four and no more than the credits held, into request slots 0 to 3 (R189,
R190). The requests picked before have been issued. -/
def execPortArbitration (p : Nat) (s : State) : Res :=
  whenever (s.mportAlive p && s.mportUp p && !s.waiting.any (fun r => r.port == p && r.slot.isSome)) s (fun s =>
    (List.range (min 4 (s.mport p).reqCred)).foldl (fun a k => a.pickSlot p k) s)

-- Requests.

/-- Issue a picked request. A write spoils installs of its granules (R276). -/
def State.issueOn (s : State) (p : Nat) (k : BitVec 2) (op : BitVec 3) (tag : BitVec 17) : Res :=
  match s.pickedReq p k op with
  | none => .next s
  | some r => whenever (s.mayIssue p r tag) s (fun s =>
      let s := s.issueReq p k r tag
      if isWriteOp op then s.spoilInstalls r.pa (r.pa + r.len) else s)

/-- READ: the request picked for slot `k` goes out with a read tag (R22). -/
def execRead (p : Nat) (k : BitVec 2) (tag : BitVec 17) (s : State) : Res := s.issueOn p k 0#3 tag

/-- WRITE (R22). -/
def execWrite (p : Nat) (k : BitVec 2) (tag : BitVec 17) (s : State) : Res := s.issueOn p k 1#3 tag

/-- WRITE_FINAL: picked only when every earlier write of its stream has landed (R35). -/
def execWriteFinal (p : Nat) (k : BitVec 2) (tag : BitVec 17) (s : State) : Res := s.issueOn p k 2#3 tag

/-- ATOMIC_ADD_FP32 (R34). -/
def execAtomicAddFp32 (p : Nat) (k : BitVec 2) (tag : BitVec 17) (s : State) : Res := s.issueOn p k 3#3 tag

/-- ATOMIC_ADD_BF16 (R34). -/
def execAtomicAddBf16 (p : Nat) (k : BitVec 2) (tag : BitVec 17) (s : State) : Res := s.issueOn p k 4#3 tag

/-- The outstanding request a tag names on a port. -/
def State.outOn (s : State) (p : Nat) (wr : Bool) (tag : BitVec 17) : Option OutReq :=
  s.outs.find? (fun o => o.req.port == p && o.tag == tag && isWriteOp o.req.op == wr && !o.dead)

def State.updOut (s : State) (o : OutReq) (f : OutReq → OutReq) : State :=
  { s with outs := s.outs.map (fun x => if x.req.id == o.req.id then f x else x) }

def State.dropOut (s : State) (o : OutReq) : State :=
  { s with outs := s.outs.filter (fun x => x.req.id != o.req.id) }

/-- Bytes of a request that lie in a quarter of its window. -/
def Req.inQuarter (r : Req) (ofs : BitVec 2) (pa : Nat) : Bool :=
  decide (r.pa / 512 * 512 + 128 * ofs.toNat ≤ pa) && decide (pa < r.pa / 512 * 512 + 128 * ofs.toNat + 128)

/-- WRITE_DATA_BEAT: one beat for each quarter a write-class request covers, in any order (R24, R32). -/
def execWriteDataBeat (p : Nat) (j : BitVec 1) (tag : BitVec 17) (ofs : BitVec 2) (s : State) : Res :=
  match s.outOn p true tag with
  | none => .next s
  | some o => whenever (s.mportAlive p && s.mportUp p && o.req.quarters.contains ofs && !o.beats.contains ofs &&
      decide (0 < (s.mport p).wdCred)) s (fun s =>
      let bytes := o.req.bytes.filter (fun b => o.req.inQuarter ofs b.1)
      let s := (s.updOut o (fun x => { x with beats := x.beats ++ [ofs] })).updMport p (fun v => { v with
        wdCred := v.wdCred - 1 })
      (s.drive (.memData p j tag ofs bytes)).count (unitMport p) 0x04 0 bytes.length)

-- Responses.

/-- The tile a destination fills through the read cache (R222): a lane's own tile read with SLOT 0. -/
def State.cachedTile (s : State) : Dest → Option Tile
  | .tile id _ _ _ => (s.tile id).filter (fun t => t.kind.ordered && t.kind != .xpand && memSide t.rd)
  | .block _ _ _ _ | .fetch _ _ _ _ _ => none

/-- A quarter reaches its destinations, and the read cache when the request asked for all of it (R222). -/
def State.deliverQuarter (s : State) (dests : List Dest) (base : Nat) (data : BitVec 1024) (whole : Bool) : State :=
  let hits := dests.filter (fun d => decide (base ≤ d.span.1) && decide (d.span.1 < base + 128))
  let ts := hits.filterMap s.cachedTile
  let s := hits.foldl (fun a d => a.deliverTo data d) s
  let s : State := match whole, ts with
    | true, t :: _ => s.cacheFill t.lane t.q base (ts.any (fun t => match t.rd with
        | some d => tdShared d
        | none => false)) ((List.range 128).map (fun i => (base + i, beatByte data i)))
    | _, _ => s
  s.sweep

/-- Virtual page through which a tile reached a physical page. -/
def Tile.pageOf (t : Tile) (wr : Bool) (pa : Nat) : Nat :=
  ((t.cover.find? (fun c => c.wr == wr && c.ppage == pa / 4096)).map (fun c => c.page)).getD 0

/-- Access kind of a request's opcode (R59). -/
def opAcc (op : BitVec 3) : BitVec 2 := if op == 0#3 then accRead else if op == 3#3 ∨ op == 4#3 then accAtomic else accWrite

/-- The virtual pages that a request was translated through; none for a Steward's or another device's. -/
def State.reqPages (s : State) (r : Req) (pa : Nat) : List Nat :=
  if r.service.isSome then []
  else match r.dests with
  | [] => match r.tiles.head?.bind s.tile, r.record.bind (fun id => s.records.find? (fun x => x.id == id)) with
    | some t, _ => [t.pageOf true pa]
    | none, some x => match x.note with
      | .snap _ pages => ((pages.find? (fun p => p.1 == r.pa / 4096)).map (fun p => [p.2])).getD []
      | _ => []
    | none, none => []
  | ds => firsts (ds.filterMap (fun d => match d with
    | .tile _ va _ _ => some (va / 4096)
    | .block id off _ _ => (s.blocks.find? (fun b => b.id == id)).map (fun b => (b.va.toNat + off) / 4096)
    -- The Steward's reads are not translated.
    | .fetch _ va _ _ _ => if r.stream == stwStream then none else some (va / 4096)))

/-- The unit that issued a request reports its failure: UNIT, FAULT_VA and the rest as its row of R320 gives (R26,
R142, R272, R294, R322). FAULT_PA is set for POISON (R380). -/
def State.reqFault (s : State) (r : Req) (c : Byte) (pa : Nat) : State × FaultInfo :=
  let wr := isWriteOp r.op
  let f : FaultInfo := { s.fault c (holderUnit r.holder) with
    pa := BitVec.ofNat 52 (if c == stEcc then pa else 0)
    log := s.rejectLog r.asid ((s.reqPages r pa).headD 0) (opAcc r.op) c }
  let tile := match r.dests.head? with
    | some (.tile id _ _ _) => s.tile id
    | some _ => none
    | none => r.tiles.head?.bind s.tile
  match tile, r.dests.head? with
  | some t, _ =>
    if t.kind.ordered ∨ t.kind == .indexWin then
      (s, { f with unit := 0x1#8, itin := some t.num, instr := t.instr
                   va := BitVec.ofNat 56 (if t.kind == .indexWin then t.t0 else t.firstVa wr) })
    else
      let item := match r.row with
        | some p => p.item
        | none => t.itemVa wr ((s.reqPages r pa).headD 0)
      (s.porterSnap t, { f with unit := 0x3#8, va := BitVec.ofNat 56 item })
  | none, some (.block id _ _ _) =>
    match s.blocks.find? (fun b => b.id == id) with
    | some b => (s, { f with
        unit := 0x4#8, va := b.va, itin := some b.itin, instr := s.blockInstr b, pa := BitVec.ofNat 52 (if c == stEcc then s.blockPa b else 0) })
    | none => (s, { f with unit := 0x4#8 })
  | none, some (.fetch id _ _ _ item) =>
    match s.readings.find? (fun x => x.id == id) with
    | some x => (s, s.readFault (s.issuer x) c item pa f.log)
    | none => (s, f)
  | none, _ => (s, f)

/-- The block of an Expander that a read feeds and that is still to be expanded. -/
def State.blockOf (s : State) (r : Req) : Option Block := match r.dests with
  | .block id _ _ _ :: _ => s.blocks.find? (fun b => b.id == id && !b.dropped)
  | _ => none

/-- A read of a block returned POISON: the block fails, in its place among those of its queue (R245). -/
def State.blockPoison (s : State) (b : Block) : State := match b.stage with
  | .failed _ => s
  | _ => s.blockFails b stEcc

/-- A response or acknowledgement that is not OK has reached the requester's wing (R26): the ranges it was translated through
are removed for KEY and DECODE (R322), and its task aborts. -/
def State.rejects (s : State) (r : Req) (st : BitVec 2) (pa : Nat) : State :=
  let c := rspStatus st
  match if c == stEcc then s.blockOf r else none with
  | some b => (s.blockPoison b).sweep
  | none =>
  let (s, f) := s.reqFault r c pa
  let s := if c == stEcc then s else (s.reqPages r pa).foldl (fun a p => a.dropPage r.asid p) s
  (s.requestFault r f).sweep

/-- An answer cannot reach its requester in the other wing: the Corridor has failed (R20). -/
def State.cutOff (s : State) (r : Req) : State := (s.requestFault r s.corridorFault).sweep

/-- A response or acknowledgement is not OK: its port counts it, and it goes back to its requester, over the Corridor when
that is in the other wing (R15, R26). -/
def State.failReq (s : State) (p : Nat) (r : Req) (st : BitVec 2) (pa : Nat) : State :=
  let s := s.count (unitMport p) 0x07 0 1
  if mportEast p == r.east then s.rejects r st pa
  else if s.corridor.failed then s.cutOff r
  else s.corPush r.east corData (.rejected r st pa)

/-- Payload of a response or landed trace packet (R399). -/
def rspPayload (p : Nat) (tag : BitVec 17) (seq : BitVec 16) (st : BitVec 2) (landed : Bool) : Nat :=
  p * 2 ^ 96 + tag.toNat * 2 ^ 79 + seq.toNat * 2 ^ 63 + st.toNat * 2 ^ 61 + (if landed then 2 ^ 60 else 0)

/-- A quarter returned OK goes to its destinations, over the Corridor when the requester is in the other wing (R15). -/
def State.returnQuarter (s : State) (p : Nat) (r : Req) (ofs : BitVec 2) (data : BitVec 1024) : State :=
  let base := r.pa / 512 * 512 + 128 * ofs.toNat
  let whole := decide (r.pa ≤ base) && decide (base + 128 ≤ r.pa + r.len)
  if mportEast p == r.east then s.deliverQuarter r.dests base data whole
  else if s.corridor.failed then s.cutOff r
  else s.corPush r.east corData (.quarter r base data whole)

/-- READ_RESPONSE_BEAT: one quarter of a read (R25, R26, R28, R30). A failed port's beats are discarded (R39). A beat for a
quarter that its request does not cover is ignored: R30 does not name it (DESIGN CHOICE, log 31). -/
def execReadResponseBeat (p : Nat) (tag : BitVec 17) (ofs st : BitVec 2) (seq : BitVec 16) (data : BitVec 1024)
    (s : State) : Res :=
  whenever (s.mportAlive p && s.mportUp p) s (fun s =>
    match s.outOn p false tag with
    | none => s.failPort p
    | some o =>
      let r := o.req
      if o.seq != seq || o.quarters.contains ofs then s.failPort p
      else if !r.quarters.contains ofs then s
      else
        let n := ((List.range 128).filter (fun i =>
          let a := r.pa / 512 * 512 + 128 * ofs.toNat + i
          decide (r.pa ≤ a) && decide (a < r.pa + r.len))).length
        let s := (s.count (unitMport p) 0x03 0 n).trace 2 (unitMport p) r.q (rspPayload p tag seq st false)
        let done := decide (r.quarters.length ≤ o.quarters.length + 1)
        let s := if done then s.dropOut o else s.updOut o (fun x => { x with
          quarters := x.quarters ++ [ofs] })
        if st == 0#2 then s.returnQuarter p r ofs data
        else s.failReq p r st (max r.pa (r.pa / 512 * 512 + 128 * ofs.toNat)))

-- Landing.

/-- A write of a remote write parcel has landed; with the last of them RW_LANDED goes back (R71). -/
def State.serviceLanded (s : State) (service id : Nat) : State :=
  match s.remote.service.find? (fun w => w.id == service) with
  | none => s
  | some w =>
    let left := w.reqs.filter (fun x => x != id)
    let others := s.remote.service.filter (fun v => v.id != service)
    if left.isEmpty then
      let s : State := { s with remote := { s.remote with service := others } }
      if w.mute then s else s.respond w.port w.parcel 0x05#8 0#8
    else { s with remote := { s.remote with service := others ++ [{ w with reqs := left }] } }

/-- An acknowledgement has reached the requester's wing. -/
def State.landed (s : State) (r : Req) : State :=
  match r.record, r.service with
  | some rid, _ => ((s.recordPart rid r.id false).commitLanded).sweep
  | none, some w => s.serviceLanded w r.id
  | none, none => s.sweep

/-- A write has landed at its port, every invalidation made (R219, R302); the acknowledgement crosses the Corridor when
the requester is in the other wing. -/
def State.writeLanded (s : State) (p : Nat) (o : OutReq) : State :=
  let r := o.req
  let s := s.dropOut o
  if mportEast p == r.east then s.landed r
  else if s.corridor.failed then s.cutOff r
  else s.corPush r.east corData (.landed r)

/-- LANDED_ACK: the acknowledgement of a write-class request (R25, R26, R30, R33). -/
def execLandedAck (p : Nat) (tag : BitVec 17) (st : BitVec 2) (seq : BitVec 16) (s : State) : Res :=
  whenever (s.mportAlive p && s.mportUp p) s (fun s =>
    match s.outOn p true tag with
    | none => s.failPort p
    | some o =>
      if o.seq != seq || o.acked then s.failPort p
      else
        let s := s.trace 2 (unitMport p) o.req.q (rspPayload p tag seq st true)
        -- What a rejected write may have changed leaves the Larder as well (R302).
        if st != 0#2 then
          let s := if o.probed then s else (s.probed o.req).foldl (fun a g => a.writeDrops g) s
          (s.dropOut o).failReq p o.req st o.req.pa
        else if !o.probed && !(s.probed o.req).isEmpty then s.updOut o (fun x => { x with acked := true })
        else s.writeLanded p o)

/-- The write a tag names on a port, one that has died with its port among them. -/
def State.writeOn (s : State) (p : Nat) (tag : BitVec 17) : Option OutReq :=
  s.outs.find? (fun o => o.req.port == p && o.tag == tag && isWriteOp o.req.op)

/-- LARDER_WRITE_INVALIDATE: the Larder of the port's wing invalidates every way that holds a granule of the request, also of one
whose port has failed since: it may have written (R39, R302). -/
def execLarderWriteInvalidate (p : Nat) (tag : BitVec 17) (s : State) : Res :=
  match s.writeOn p tag with
  | none => .next s
  | some o => whenever (s.mportAlive p && !o.probed && !(s.probed o.req).isEmpty) s (fun s =>
      let s := (s.probed o.req).foldl (fun a g => a.writeDrops g) s
      if o.acked && !o.dead then s.writeLanded p o else s.updOut o (fun x => { x with probed := true }))

/-- MEM_PORT_WATCHDOG: a request has been outstanding, or requests have waited without a credit, for longer than
2^WDOG_EXP mcyc (R38). -/
def execMemPortWatchdog (p : Nat) (s : State) : Res :=
  let busy := s.outs.any (fun o => o.req.port == p && !o.dead)
  let starved := s.waiting.any (fun r => r.port == p) && (s.mport p).reqCred == 0
  whenever (s.mportAlive p && (busy || starved)) s (fun s => s.failPort p)

end Sys2Proof.Machine
end

