-- ==== Sys2Proof/Machine/Expander.lean ====
section
/-!
DEFINITION. The Expanders: starting a block (R244), its checks (R237-R239, R245) and its expansion (R246-R248).
-/

namespace Sys2Proof.Machine

-- The block buffer.

/-- Units that a block still holds: a failed one only while reads of it are on their way. -/
def State.unitsHeld (s : State) (b : Block) : Nat := match b.stage with
  | .failed _ => if s.blockReads b.id then b.units else 0
  | _ => b.units

/-- 512-byte units of an Expander's block buffer. -/
def State.bufferUnits (s : State) : Nat := if s.cfg == .s then 512 else 2048
def State.unitsUsed (s : State) (east : Bool) : Nat := (s.expBlocks east).foldl (fun a b => a + s.unitsHeld b) 0

/-- The block an Expander starts next: the lowest class, then the order of acceptance. -/
def State.nextBlock (s : State) (east : Bool) : Option Block :=
  ((s.expBlocks east).filter (fun b => b.stage == .accepted && !b.dropped)).foldl (fun a b => match a with
    | none => some b
    | some c => if (s.qPrio b.q).toNat < (s.qPrio c.q).toNat then some b else a) none

/-- Read a stretch of a block, in one request for each 512-byte window of it (R180, R244). -/
def State.readBlock (s : State) (b : Block) (lo hi : Nat) : State :=
  match s.tile b.tile with
  | none => s
  | some t =>
    let wins := (List.range ((hi + 511) / 512 - lo / 512)).map (fun i => lo / 512 * 512 + 512 * i)
    wins.foldl (fun a w =>
      let n := min 512 (hi - w)
      let pa := t.phys false (b.va.toNat + w)
      let ds := (List.range ((n + 127) / 128)).map (fun k => Dest.block b.id (w + 128 * k) (pa + 128 * k) (min 128 (n - 128 * k)))
      let a := a.updBlock b.id (fun b => { b with want := b.want ++ (List.range ((n + 127) / 128)).map (fun k => w + 128 * k) })
      a.readReq t .expander (a.feeds t) pa n ds [t.id]) s

/-- EXPANDER_BLOCK_START: a free unit, then the header window is read (R244). Blocks stand in the order they started, in
front of those only accepted. -/
def execExpanderBlockStart (w : Wing) (s : State) : Res :=
  let east := wingEast w
  match s.nextBlock east with
  | none => .next s
  | some b => whenever (s.expanderOn east && decide (s.unitsUsed east < s.bufferUnits)) s (fun s =>
      let begun := s.blocks.filter (fun x => x.stage != .accepted)
      let rest := s.blocks.filter (fun x => x.stage == .accepted && x.id != b.id)
      let b' : Block := { b with stage := .header, units := 1 }
      ({ s with blocks := begun ++ b' :: rest } : State).readBlock b' 0 512)

-- Checking.

/-- Units a block holds. -/
def Block.unitsFor (b : Block) : Nat := max 1 ((32 + b.pbytes + 511) / 512)

/-- The whole block has been read. -/
def Block.whole (b : Block) : Bool := b.stage == .payload || decide (32 + b.pbytes ≤ 512)

/-- The rest of a block may be read: its units are free, and every block that started before has its own (log 116). -/
def State.unitsFree (s : State) (b : Block) : Bool :=
  decide (s.unitsUsed b.east + b.unitsFor - 1 ≤ s.bufferUnits) &&
    ((s.expBlocks b.east).takeWhile (fun x => x.id != b.id)).all (fun x => x.dropped || x.stage != .header)

/-- The block that an Expander checks next: the first, in start order, that has been read as far as asked and that a check fails
or whose rest may be read, if there is one. -/
def State.nextCheck (s : State) (east : Bool) : Option (Block × Tile) :=
  (s.expBlocks east).findSome? (fun b => (s.tile b.tile).bind (fun t =>
    if b.awaits && ((b.verdict t).isSome || b.whole || s.unitsFree b) then some (b, t) else none))

/-- BLOCK_CHECK: a block that has been read as far as asked: its header is checked and the rest of it read, or its check value
(R244, R245). -/
def execBlockCheck (w : Wing) (s : State) : Res :=
  let east := wingEast w
  match s.nextCheck east with
  | none => .next s
  | some (b, t) => whenever (s.expanderOn east) s (fun s =>
      match b.verdict t with
      | some st => s.blockFails b st
      | none =>
      if b.whole then (s.updBlock b.id (fun b => { b with stage := .checked })).settleBlocks b.q
      else
        let s := s.updBlock b.id (fun b => { b with stage := .payload, units := b.unitsFor })
        s.readBlock b 512 ((32 + b.pbytes + 15) / 16 * 16))

-- Expanding.

/-- An element of a block's payload, at an offset in the block. -/
def Block.elem (b : Block) (t off : Nat) : Word := toWord (decodeElem t (b.field off (dtypeSize t)))

def Block.u (b : Block) (i k : Nat) : Word := b.elem b.utype (32 + (i * b.rank + k) * dtypeSize b.utype)
def Block.v (b : Block) (k j : Nat) : Word :=
  b.elem b.vtype (32 + b.rows * b.rank * dtypeSize b.utype + (k * b.cols + j) * dtypeSize b.vtype)

/-- Element y(i, j) of the expanded tile (R246, R247). -/
def Block.y (b : Block) (i j : Nat) : Word :=
  if b.raw then mulWord b.bscale (b.elem b.utype (32 + (i * b.cols + j) * dtypeSize b.utype))
  else
    let acc := (List.range (b.rank - 1)).foldl (fun a k => addWord a (mulWord (b.u i (k + 1)) (b.v (k + 1) j)))
      (mulWord (b.u i 0) (b.v 0 j))
    mulWord b.bscale acc

/-- BLOCK_EXPAND: the oldest block started, once checked; the tile goes to its lane as binary32 elements (R246-R248). Four
expanded tiles may wait on lanes. An error that has arisen in the buffer since fails it (R245). -/
def execBlockExpand (w : Wing) (s : State) : Res :=
  let east := wingEast w
  match (s.expBlocks east).find? (fun b => !b.dropped) with
  | none => .next s
  | some b => whenever (s.expanderOn east && b.stage == .checked &&
      decide ((s.tiles.filter (s.inOutputStage east)).length < 4)) s (fun s =>
      if b.poison then s.blockFails b stEcc
      else
      let s : State := { s with blocks := s.blocks.filter (fun x => x.id != b.id) }
      let fill (t : Tile) : Tile := { t with
        data := ((List.range t.t1).flatMap (fun j1 => (List.range t.t0).map (fun j0 => (j0, j1)))).foldl (fun a p =>
          (natBytes 4 (b.y p.2 p.1).toNat).zipIdx.foldl (fun a x => a.set (4 * (p.1 + t.t0 * p.2) + x.2) x.1) a) .empty }
      let s := (s.updTile b.tile fill).count (unitExpander east) 0x03 0 1
      s.sweep)

end Sys2Proof.Machine
end

