-- ==== Sys2Proof/Machine/Loading.lean ====
section
/-!
DEFINITION. The load-time conditions of itinerary programs (R145, R148, R173, R196), in the order in which the front end
reports them.
-/

namespace Sys2Proof.Machine

/-- What the conditions of one program depend on: the task's ring entries, which rings are client rings and have a link
entry, which rings only the leader of a group may stand for, the last semaphore index, whether DTB is usable, and the
rings that lower-numbered itineraries claim and take. -/
structure LoadCtx where
  rings : List Nat
  client : Nat → Bool
  linked : Nat → Bool
  follower : Nat → Bool
  sems : Nat
  dtbOk : Bool
  claims : List Nat
  takes : List Nat

/-- The program's LOOPs: index, exit and counter. -/
def progLoops (p : List (BitVec 64)) : List (Nat × Nat × Nat) :=
  p.zipIdx.filterMap (fun x => if insOp x.1 = 0x04 then some (x.2, insTarget x.1, insLc x.1) else none)

/-- A LOOP at index i is not closed by the ENDL in front of its EXIT (R173). -/
def loopOpen (p : List (BitVec 64)) (i : Nat) (w : BitVec 64) : Bool :=
  let e := insTarget w
  let c := p.getD (e - 1) 0#64
  decide (e < i + 2) || decide (p.length ≤ e) || insOp c != 0x05 || insLc c != insLc w || insTarget c != i + 1

/-- An ENDL at index i closes no LOOP. -/
def endlStray (p : List (BitVec 64)) (i : Nat) (w : BitVec 64) : Bool :=
  !(progLoops p).any (fun l => decide (l.1 < i) && l.2.1 == i + 1 && l.2.2 == insLc w && l.1 + 1 == insTarget w)

/-- Loops whose body holds index i. -/
def enclosing (p : List (BitVec 64)) (i : Nat) : List (Nat × Nat × Nat) :=
  (progLoops p).filter (fun l => decide (l.1 < i) && decide (i < l.2.1))

/-- A LOOP that starts inside another's body and ends outside it, or has its counter. -/
def loopCrosses (p : List (BitVec 64)) (i : Nat) (w : BitVec 64) : Bool :=
  (enclosing p i).any (fun l => decide (l.2.1 < insTarget w) || l.2.2 == insLc w)

/-- The counter an instruction writes. -/
def writesCounter (w : BitVec 64) : Option Nat :=
  match insOp w with
  | 0x04 | 0x10 | 0x11 => some (insLc w)
  | 0x19 => some (bits w 51 3)
  | _ => none

/-- An instruction writes a counter of an enclosing loop. -/
def writesLoopCounter (p : List (BitVec 64)) (i : Nat) (w : BitVec 64) : Bool :=
  match writesCounter w with
  | some c => (enclosing p i).any (fun l => l.2.2 == c)
  | none => false

/-- The instruction is one of the ring instructions. -/
def insRingOp (w : BitVec 64) : Bool := [0x20, 0x21, 0x22, 0x23].contains (insOp w)

/-- First instruction of a program with an opcode and a ring. -/
def firstOn (p : List (BitVec 64)) (op r i : Nat) : Bool :=
  !(p.take i).any (fun v => insOp v == op && insRing v == r)

/-- The load-time conditions of an instruction after those on its form: the rows of R173's table from the fourth on. -/
def insBad (c : LoadCtx) (p : List (BitVec 64)) (i : Nat) (w : BitVec 64) : Bool :=
  let op := insOp w
  let r := insRing w
  (op == 0x04 && loopOpen p i w) || (op == 0x05 && endlStray p i w) || (op == 0x04 && loopCrosses p i w) ||
    writesLoopCounter p i w ||
    (op == 0x3C && decide (6 ≤ bits w 52 3)) || (op == 0x34 && decide (2 ≤ insMode w)) ||
    (op == 0x38 && decide (4 ≤ bits w 0 8)) ||
    (op == 0x31 && ((!insCsrc w && (insRows w == 0 || decide (4096 < insRows w))) || (insWgt w && !insPool w) ||
      (insWgt w && insWix w == insGix w))) ||
    ((op == 0x28 || op == 0x29) && (decide (c.sems ≤ insSem w) || insCount20 w == 0#20)) ||
    (insRingOp w && (!c.rings.contains r || (op == 0x20 && c.client r && !c.linked r) ||
      ((op == 0x22 || op == 0x23) && c.client r) || c.follower r)) ||
    (op == 0x20 && c.claims.contains r && firstOn p 0x20 r i) || (op == 0x22 && c.takes.contains r && firstOn p 0x22 r i)

/-- The status of the first load-time condition that an instruction meets (R173). -/
def insCheck (c : LoadCtx) (p : List (BitVec 64)) (i : Nat) (w : BitVec 64) : Option Byte :=
  let op := insOp w
  if !insKnown op || !onlyFields w (insFields op) || !insZeros w || (i + 1 == p.length && op != 0x02) || insBad c p i w then
    some 0x23#8
  else if insNames w && !c.dtbOk then some 0x20#8
  else none

/-- The first instruction of a program that breaks a load-time condition. -/
def progCheck (c : LoadCtx) (p : List (BitVec 64)) : Option (Nat × Byte) :=
  p.zipIdx.findSome? (fun x => (insCheck c p x.2 x.1).map (fun st => (x.2, st)))

/-- DTB is usable (R145): not negative and a multiple of 64. -/
def dtbUsable (a : BitVec 56) : Bool := !bitAt a 55 && decide (a.toNat % 64 = 0)

/-- Rings a program names in instructions of one opcode. -/
def ringsOf (op : Nat) (p : List (BitVec 64)) : List Nat := (p.filter (fun w => insOp w == op)).map insRing

/-- The programs of a task in order: the first failing itinerary, instruction and status. `mk` gives the context of one
itinerary from the rings that earlier ones claim and take. -/
def progsCheck (mk : Nat → List Nat → List Nat → LoadCtx) :
    List (Nat × List (BitVec 64)) → List Nat → List Nat → Option (Nat × Nat × Byte)
  | [], _, _ => none
  | (n, p) :: t, cl, tk =>
    match progCheck (mk n cl tk) p with
    | some (i, st) => some (n, i, st)
    | none => progsCheck mk t (cl ++ ringsOf 0x20 p) (tk ++ ringsOf 0x22 p)

end Sys2Proof.Machine
end

