-- ==== Sys2Proof/Machine/Remote.lean ====
section
/-!
DEFINITION. The remote ports: links and credits (R65, R73), sending parcels (R66, R225), serving other devices (R71,
R270, R358) and the answers to this device's own parcels (R68, R69, R71, R72, R269).
-/

namespace Sys2Proof.Machine

/-- A remote port of the instance. -/
def State.xportAlive (s : State) (x : Nat) : Bool := s.alive && decide (x < s.cfg.xports)

/-- Flit credits the engine grants per class (R65). -/
def flitGrant : Nat := 128

/-- REMOTE_LINK_UP: the fabric answers Xn_LINK_REQ and grants `c0` and `c1` flit credits; the engine grants its own
(R65). A port recorded as absent still comes up (R353); so does one whose link has fallen (DESIGN CHOICE, log 99: R73 does
not say whether it may). -/
def execRemoteLinkUp (x : Nat) (c0 c1 : BitVec 8) (s : State) : Res :=
  let v := s.xport x
  whenever (s.xportAlive x && v.linkReq && !v.linkAck) s (fun s =>
    let s := s.updXport x (fun v => { v with linkAck := true, absent := false, cred0 := c0.toNat, cred1 := c1.toNat })
    (((s.putBit offXportLink x true).drive (.flitCredits x false flitGrant)).drive
      (.flitCredits x true flitGrant)).wakeGoes)

/-- REMOTE_LINK_ABSENT: the link has not come up in time (R73). -/
def execRemoteLinkAbsent (x : Nat) (s : State) : Res :=
  let v := s.xport x
  whenever (s.xportAlive x && v.linkReq && !v.linkAck) s (fun s =>
    (s.updXport x (fun v => { v with absent := true })).wakeGoes)

/-- The request parcels outstanding or waiting on a port, the first of each queue. -/
def State.xportWork (s : State) (x : Nat) : List OutParcel :=
  (s.remote.outs.filter (fun o => o.port == x)).foldl (fun a o => if a.any (fun w => w.q == o.q) then a else a ++ [o]) []

/-- A remote link that the entry into N2 lowered is down: it aborts nothing (R360). -/
def State.dropRemote (s : State) (x : Nat) : State :=
  ((s.updXport x (fun v => { v with linkAck := false, cred0 := 0, cred1 := 0 })).putBit offXportLink x false).handOver

/-- Write parcels. -/
def isWriteParcel (p : Parcel) : Bool := p.ptype == 0x03#8 || p.ptype == 0x04#8

/-- REMOTE_LINK_DOWN: Xn_LINK_ACK falls (R73), or answers the fall of Xn_LINK_REQ (R360). Parcels of the port are gone; requests accepted from it are served and
their responses discarded. -/
def execRemoteLinkDown (x : Nat) (s : State) : Res :=
  whenever (s.xportAlive x && (s.xport x).linkAck) s (fun s =>
    if !(s.xport x).linkReq then s.dropRemote x
    else
      let work := s.xportWork x
      let outs := s.remote.outs.filter (fun o => o.port == x)
      let s := s.updXport x (fun v => { v with linkAck := false, cred0 := 0, cred1 := 0, tx := [] })
      let mine (t : TxParcel) : Bool := t.port == x || t.answers == some x
      let s : State := { s with
        corridor := s.corridor.retain (fun i => match i with
          | .parcel t => !mine t
          | _ => true)
        remote := { s.remote with
          ports := s.remote.ports.each (fun _ v => { v with tx := v.tx.filter (fun t => t.begun || !mine t) })
          outs := s.remote.outs.filter (fun o => o.port != x)
          service := s.remote.service.map (fun w => if w.port == x then { w with mute := true } else w)
          serves := s.remote.serves.map (fun v => if v.port == x then { v with mute := true } else v)
          owed := s.remote.owed.set x 0
          held := s.remote.held.map (fun h => if h.port == x then { h with mute := true } else h) } }
      let s := s.loseWrites ((outs.filter (fun o => isWriteParcel o.parcel)).map lostParcel)
      let s := (s.putBit offXportLink x false).raiseEvent offRelEvents 9
      (work.foldl (fun a o => a.outFails o (a.unreachable 0x5#8 o.dst.toNat)) s).sweep)

/-- REMOTE_CREDIT_RETURN (R65). -/
def execRemoteCreditReturn (x : Nat) (cls : Bool) (s : State) : Res :=
  whenever (s.xportAlive x && (s.xport x).linkAck) s (fun s => s.updXport x (fun v =>
    if cls then { v with cred1 := min 255 (v.cred1 + 1) } else { v with cred0 := min 255 (v.cred0 + 1) }))

-- Sending.

/-- Payload of a parcel trace packet (R399). -/
def parcelPayload (x : Nat) (p : Parcel) (peer : Nat) (received : Bool) : Nat :=
  x * 2 ^ 96 + p.ptype.toNat * 2 ^ 88 + peer % 64 * 2 ^ 82 + (if received then 2 ^ 81 else 0) + p.pseq.toNat * 2 ^ 49

/-- A parcel may be sent: its marking is decided, and an RWRITE_FINAL waits for every write parcel its itinerary sent
earlier to the same device (R225). -/
def State.mayTransmit (s : State) (t : TxParcel) : Bool :=
  t.heldFor.isNone && (t.parcel.ptype != 0x04#8 ||
    (s.remote.outs.takeWhile (fun o => !(o.dst.toNat == t.parcel.dst.toNat && o.pseq == t.parcel.pseq))).all (fun o =>
      !(o.stream == t.stream && o.dst.toNat == t.parcel.dst.toNat && isWriteParcel o.parcel)))

/-- The parcel a port sends next in a class: the one begun, or the oldest that may be sent. -/
def State.nextParcel (s : State) (x : Nat) (cls : Bool) : Option TxParcel :=
  let mine := (s.xport x).tx.filter (fun t => t.cls == cls)
  match mine.find? (fun t => t.begun) with
  | some t => some t
  | none => mine.find? s.mayTransmit

/-- Bytes the spec gives no value, as many as the last flit of a parcel has behind the parcel (R65; log 24). -/
def State.padBytes (s : State) (n : Nat) : State × List Byte :=
  (List.range n).foldl (fun a _ =>
    let (t, x) := a.1.openByte
    (t, a.2 ++ [x])) (s, [])

/-- The remote unit begins to send a request parcel: snapshot 5 counts it and notes its PSEQ (R110). -/
def State.parcelIssued (s : State) (t : TxParcel) : State := match t.q with
  | some q => if t.cls then s else (s.snapDetail q t.stream 5 t.parcel.pseq).snapIssued q t.stream 5 1
  | none => s

/-- PARCEL_SEND: the next parcel of a class sends as many of its flits as credits allow (R65, R66). -/
def execParcelSend (x : Nat) (cls : Bool) (s : State) : Res :=
  match s.nextParcel x cls with
  | none => .next s
  | some t =>
    let cred := if cls then (s.xport x).cred1 else (s.xport x).cred0
    let n := min t.flits cred
    whenever (s.xportAlive x && s.flag offXportLink x && decide (0 < n)) s (fun s =>
      let rest (l : List TxParcel) : List TxParcel :=
        if n = t.flits then l.erase t else l.map (fun y => if y == t then { y with begun := true, flits := t.flits - n } else y)
      let s := s.updXport x (fun v => if cls then { v with tx := rest v.tx, cred1 := v.cred1 - n }
        else { v with tx := rest v.tx, cred0 := v.cred0 - n })
      let first := parcelFlits t.parcel - t.flits
      let (s, pad) := if n = t.flits then s.padBytes (parcelPad t.parcel) else (s, [])
      let fs := (List.range n).map (fun i => flitBytes t.parcel pad (first + i))
      let s := (s.drive (.flits x cls fs)).count (unitXport x) 0x01 (oneIf cls) n
      let s := if t.answers.isSome then s.serveAll else s
      let s := if t.begun then s else s.parcelIssued t
      if t.begun then s else s.trace 6 (unitXport x) t.q (parcelPayload x t.parcel t.parcel.dst.toNat false))

-- Receiving.

/-- Parcel types of R66. -/
def knownType (t : Byte) : Bool := decide (1 ≤ t.toNat) && decide (t.toNat ≤ 6)

/-- A parcel carries a reserved type, names another device or breaks the header or size rules (R66, R67). -/
def State.parcelMalformed (s : State) (p : Parcel) : Bool :=
  let write := isWriteParcel p
  let lkup := p.ptype == 0x01#8 || p.ptype == 0x02#8
  let size := p.count.toNat * p.ebytes.toNat
  !knownType p.ptype || p.dst.toNat != s.devid || decide (64 ≤ p.src.toNat) || p.rsv != 0#8 ||
    decide (1 < p.flags.toNat) || (p.ptype != 0x06#8 && p.status != 0#8) || (!lkup && p.epoch != 0#32) ||
    decide (8192 < p.payload.length) || p.payload.length != size ||
    ((p.ptype == 0x05#8 || p.ptype == 0x06#8) && !p.payload.isEmpty) ||
    (p.ptype == 0x01#8 && (p.ebytes != 8#16 || bits p.table 12 4 != 0)) ||
    (if write then p.ebytes != 16#16 || decide (p.addr.toNat % 16 ≠ 0) || decide (2 ^ 52 ≤ p.addr.toNat) ||
        decide (512 < p.addr.toNat % 512 + p.payload.length) else p.addr != 0#64)

/-- A parcel that has arrived is discarded: it is malformed, or one of its flits failed its CRC (R65, R67). -/
def State.parcelBad (s : State) (p : Parcel) : Bool := !parcelCrcOk p || s.parcelMalformed p

/-- The request a response answers: the one outstanding with its PSEQ towards its sender, of the kind it answers
(R68). A response of another kind finds none: it is discarded and counted (DESIGN CHOICE, log 100: R68 names no kind). -/
def State.outFor (s : State) (p : Parcel) : Option OutParcel :=
  s.remote.outs.find? (fun o => o.dst.toNat == p.src.toNat && o.pseq == p.pseq &&
    (p.ptype == 0x06#8 || (p.ptype == 0x02#8) == (o.parcel.ptype == 0x01#8)))

/-- Credits of a class go back, unless a full reply buffer holds request-class ones back (R65, R270). -/
def State.giveCredits (s : State) (x : Nat) (cls : Bool) (n : Nat) : State :=
  if !cls && s.replyFull (xportEast x) then
    { s with remote := { s.remote with owed := s.remote.owed.set x (s.remote.owed.get x + n) } }
  else s.drive (.flitCredits x cls n)

/-- A parcel of one type has arrived on a port: its flits are counted and the credits of their class returned (R65); a bad
one is discarded and counted (R67). -/
def State.arrive (s : State) (x : Nat) (p : Parcel) (ty : Byte) (f : State → State) : Res :=
  let cls := p.cls
  whenever (s.xportAlive x && s.flag offXportLink x && (p.ptype == ty || !knownType p.ptype)) s (fun s =>
    let n := parcelFlits p
    let s := (s.count (unitXport x) 0x02 (oneIf cls) n).giveCredits x cls n
    if s.parcelBad p then s.count (unitXport x) 0x03 0 1
    else f (s.trace 6 (unitXport x) (if isRequestType p.ptype then none else (s.outFor p).map (fun o => o.q)) (parcelPayload x p p.src.toNat true)))

-- Serving other devices.

/-- Perform an RWRITE: one write request for the parcel's bytes, which lie in one 512-byte range (R67, R71). -/
def State.serveWrite (s : State) (x : Nat) (p : Parcel) (mute : Bool) : State :=
  let answer (ty st : Byte) : State := if mute then s else s.respond x p ty st
  let a := p.addr.toNat
  if paDevice a != s.devid then answer 0x06#8 stUnreachable
  else if p.payload.isEmpty then answer 0x05#8 0#8
  else
    let id := s.nextId
    let w : RemoteWrite := { id := id, port := x, parcel := p, reqs := [id + 1], mute := mute }
    let r : Req := {
      id := id + 1, port := s.portFor a, op := 1, pa := a, len := p.payload.length, east := xportEast x, asid := p.table
      prio := 1, cat := .remote, q := none, holder := .porter, stream := id, ring := none, dests := []
      bytes := p.payload.zipIdx.map (fun b => (a + b.2, b.1)), tiles := [], service := some id, heldFor := none
      slot := none }
    ({ s.bump.bump with remote := { s.remote with service := s.remote.service ++ [w] } } : State).submit r

/-- Serve a request-class parcel: an LKUP_REQ waits for its turn at the Porter of its port's wing (R270). -/
def State.serveParcel (s : State) (h : HeldParcel) : State :=
  if h.parcel.ptype == 0x01#8 then
    let v : Serve := { id := s.nextId, port := h.port, parcel := h.parcel, version := none, sent := 0, asked := false
                       mute := h.mute }
    ({ s.bump with remote := { s.remote with serves := s.remote.serves ++ [v] } } : State).serveAll
  else s.serveWrite h.port h.parcel h.mute

/-- A request-class parcel is accepted: served now, or in N1 once N0 is reached, which it asks for (R358). -/
def State.accept (s : State) (h : HeldParcel) : State :=
  if s.power.st == .n0 then s.serveParcel h
  else
    let s : State := { s with remote := { s.remote with held := s.remote.held ++ [h] } }
    s.askTarget 0

/-- The parcels that waited for N0 are served. -/
def State.serveHeld (s : State) : State :=
  s.remote.held.foldl (fun a h => a.serveParcel h) { s with remote := { s.remote with held := [] } }

/-- LKUP_REQ arrives (R270). -/
def execLkupReq (x : Nat) (p : Parcel) (s : State) : Res :=
  s.arrive x p 0x01#8 (fun s =>
    let s := if bitAt p.flags 0 then s.count (unitXport x) 0x05 0 1 else s
    s.accept { port := x, parcel := p })

/-- RWRITE arrives (R71). -/
def execRwrite (x : Nat) (p : Parcel) (s : State) : Res :=
  s.arrive x p 0x03#8 (fun s => s.accept { port := x, parcel := p })

/-- RWRITE_FINAL arrives: handled as RWRITE (R71). -/
def execRwriteFinal (x : Nat) (p : Parcel) (s : State) : Res :=
  s.arrive x p 0x04#8 (fun s => s.accept { port := x, parcel := p })

-- Answers to this device's parcels.

def State.dropParcel (s : State) (o : OutParcel) : State :=
  { s with remote := { s.remote with outs := s.remote.outs.filter (fun x => !(x.dst == o.dst && x.pseq == o.pseq)) } }

/-- A LOOKUP or UPDATE of the queue receives a parcel: a progress event (R106). -/
def State.batchProgress (s : State) (o : OutParcel) : State :=
  if s.porter.batches.any (fun b => b.q == o.q && b.stream == o.stream) then s.progress o.q else s

/-- Virtual page of a write parcel, for the fault log: that of its tile's write, or of its part of a SNAPSHOT task's record. An
LKUP_REQ has none: its entry names page 0 (DESIGN CHOICE, log 115: R321 states none). -/
def State.parcelPage (s : State) (o : OutParcel) : Nat :=
  match o.tiles.head?.bind s.tile, o.record.bind (fun r => s.records.find? (fun x => x.id == r.1)) with
  | some t, _ => t.pageOf true o.parcel.addr.toNat
  | none, some { note := .snap _ pages, .. } =>
    ((pages.find? (fun p => p.1 == o.parcel.addr.toNat / 4096)).map (fun p => p.2)).getD 0
  | none, _ => 0

/-- A request was refused by its owner with a status (R72). For ST_ACCESS_KEY the fault takes that status and a log
entry (R322). -/
def State.refused (s : State) (o : OutParcel) (st : Byte) : State :=
  let d := o.dst.toNat
  let key := st == stAccessKey
  let wr := isWriteParcel o.parcel
  let f : FaultInfo := { s.fault (if key then stAccessKey else stRemoteNack) 0x5#8 with
    pa := BitVec.ofNat 52 d
    detail := if key then 0#32 else packWord [(d, 8), (st.toNat, 0)]
    log := if key then s.rejectLog (s.qAsid o.q) (s.parcelPage o) (if wr then accWrite else accRead) st else none }
  let s := (s.outSnap o).dropParcel o
  ((if wr then s.loseWrites [lostParcel o] else s).streamFault o.q o.stream f).sweep

/-- A NACK's effect where its request's issuer is. -/
def State.nackArrives (s : State) (o : OutParcel) (p : Parcel) : State := (s.batchProgress o).refused o p.status

/-- An RW_LANDED stands for the landed acknowledgement of every write of the parcel (R71). -/
def State.landedArrives (s : State) (o : OutParcel) : State :=
  let s := ((s.batchProgress o).snapDone o.q o.stream 5 1).dropParcel o
  (match o.record with
    | some r => s.recordPart r.1 r.2 false
    | none => s).sweep

/-- Rows of a sub-window of one owner take their data. -/
def SubWin.take (w : SubWin) (owner : Nat) (got : List (Nat × List Byte)) : SubWin :=
  { w with rows := w.rows.map (fun r =>
      if r.owner == owner then match got.find? (fun g => g.1 == r.row) with
        | some g => { r with data := some g.2 }
        | none => r
      else r) }

/-- A reply part (R269). -/
def State.replyArrives (s : State) (o : OutParcel) (p : Parcel) : State :=
  match o.sw.bind s.subWin with
  | none => s.dropParcel o
  | some w => match s.batch w.batch with
    | none => s.dropParcel o
    | some b =>
      let rb := tbRowBytes b.desc
      let k := bits p.table 12 4
      let n := o.parcel.count.toNat
      let r := rowsPerReply rb
      let parts := (n + r - 1) / r
      if o.parts.contains k then s.count (unitXport o.port) 0x04 0 1
      else if parts ≤ k || p.ebytes.toNat != rb || p.count.toNat != min r (n - k * r) then s.refused o stDescInvalid
      else
        let got := (List.range p.count.toNat).map (fun i =>
          (reqEntry o.parcel (k * r + i) % 2 ^ 40, (p.payload.drop (i * rb)).take rb))
        let s := (s.progress o.q).updSub w.id (fun w => w.take o.dst.toNat got)
        if parts ≤ o.parts.length + 1 then (s.snapDone o.q o.stream 5 1).dropParcel o
        else { s with remote := { s.remote with outs := s.remote.outs.map (fun x =>
            if x == o then { x with parts := x.parts ++ [k] } else x) } }

/-- A response reaches its request's wing. One whose request is no longer outstanding is discarded and counted (R68). -/
def State.answered (s : State) (p : Parcel) : State :=
  match s.outFor p with
  | none => s.count (unitXport (s.xroute p.src.toNat)) 0x04 0 1
  | some o =>
    if p.ptype == 0x02#8 then s.replyArrives o p
    else if p.ptype == 0x05#8 then s.landedArrives o
    else s.nackArrives o p

/-- A response arrives on a port; it crosses the Corridor to a queue of the other wing (R17, R68). -/
def State.response (s : State) (x : Nat) (p : Parcel) : State :=
  match s.outFor p with
  | none => s.count (unitXport x) 0x04 0 1
  | some o =>
    if s.outEast o == xportEast x then s.answered p
    else if s.corridor.failed then s.outFails o s.corridorFault
    else s.corPush (s.outEast o) corParcel (.inbound x o.q p)

/-- LKUP_RSP arrives (R269). -/
def execLkupRsp (x : Nat) (p : Parcel) (s : State) : Res := s.arrive x p 0x02#8 (fun s => s.response x p)

/-- RW_LANDED arrives (R71). -/
def execRwLanded (x : Nat) (p : Parcel) (s : State) : Res := s.arrive x p 0x05#8 (fun s => s.response x p)

/-- NACK arrives (R72). -/
def execNack (x : Nat) (p : Parcel) (s : State) : Res := s.arrive x p 0x06#8 (fun s => s.response x p)

/-- PARCEL_TIMEOUT: a request-class parcel has had no response within 2^TMO_EXP ccyc (R72). A write parcel that times out
during a stop sets no further status (R107). -/
def execParcelTimeout (dst : BitVec 6) (pseq : Word) (s : State) : Res :=
  match s.remote.outs.find? (fun o => o.dst == dst && o.pseq == pseq) with
  | none => .next s
  | some o => whenever s.alive s (fun s =>
      let s := s.outSnap o
      let s := (s.dropParcel o).updXport o.port (fun v => { v with tx := v.tx.filter (fun t =>
        t.begun || !(t.parcel.dst == o.parcel.dst && t.parcel.pseq == o.pseq && isRequestType t.parcel.ptype)) })
      let s := if isWriteParcel o.parcel then s.loseWrites [lostParcel o] else s
      let d := o.dst.toNat
      let s := if (s.queue o.q).stopping && isWriteParcel o.parcel then s
        else s.streamFault o.q o.stream { s.fault stRemoteTimeout 0x5#8 with
          detail := BitVec.ofNat 32 d, pa := BitVec.ofNat 52 d }
      s.sweep)

end Sys2Proof.Machine
end

