-- ==== Sys2Proof/Machine/Semaphores.lean ====
section
/-!
DEFINITION. Granting takes (R204, R223) and the SEM_SET registers (R217, R218).
-/

namespace Sys2Proof.Machine

/-- The waiter at the front of a semaphore can be granted. -/
def Sem.grantable (v : Sem) : Option SemWaiter := v.waiters.head?.filter (fun w => decide (w.k.toNat ≤ v.count.toNat))

/-- The semaphores a waiter takes from: its own, or every member's FREE_SEM of a group (R197). -/
def State.takenBy (s : State) (i : Nat) (w : SemWaiter) : List Nat := match w.who with
  | .group _ _ r => s.groupSems w.q r
  | _ => [i]

/-- The oldest waiter of a semaphore, once it can be granted at every semaphore it takes from. -/
def State.grantable (s : State) (i : Nat) : Option SemWaiter :=
  (s.sem i).grantable.filter (fun w => (s.takenBy i w).all (fun k => (s.sem k).grantable == some w))

/-- What a granted waiter goes on with: an itinerary with its next instruction, a WAIT command completes. -/
def State.grantTo (s : State) (w : SemWaiter) : State :=
  match w.who with
  | .itin lane slot | .group lane slot _ => match s.resident lane slot with
    | some i => if i.q == w.q && i.status == .taking then s.granted i else s
    | none => s
  | .command q => match (s.queue q).cmds.find? (fun c => c.started && !c.done && cmdOp c.bytes == 0x03) with
    | some c => s.finishCmd q c 0
    | none => s

/-- The oldest waiter of a semaphore is granted: k is removed, and the grant goes back to its wing (R204). -/
def State.grantFront (s : State) (idx : Nat) (w : SemWaiter) : State :=
  let ks := s.takenBy idx w
  let s := ks.foldl (fun a k => (a.updSem k (fun v => { v with waiters := v.waiters.drop 1 })).semRemove k w.k w.q) s
  let far := (ks.find? (fun k => semEast k != s.waiterEast w)).getD idx
  s.toWaiter far w (.semGrant far w) (fun s => s.grantTo w)

/-- SEMAPHORE_GRANT: the oldest waiter, once COUNT is at least its k (R204). -/
def execSemaphoreGrant (idx : Nat) (s : State) : Res :=
  match s.grantable idx with
  | none => .next s
  | some w => whenever s.alive s (fun s => s.grantFront idx w)

-- SEM_SET.

/-- A SEM_SET write is refused (R218). -/
def State.semSetRefused (s : State) (i : Nat) (data : Word) : Bool :=
  let v := s.sem i
  let st := (s.queue v.owner.toNat).st
  (v.owned && (st == .running || st == .suspended || st == .retiring)) || !v.waiters.isEmpty ||
    (bitAt data 29 && bitAt data 28) || decide (s.cfg.queues ≤ bits data 20 6)

/-- A write of SEM_SET: RELEASE or SETOWN, then CLRFLAGS, then SETCNT; FAULT and INC go to the client when a flag was
cleared or the count was set (R218). -/
def State.writeSemSet (s : State) (i : Nat) (data : Word) : State :=
  if s.cfg.sems ≤ i then s
  else if s.semSetRefused i data then s.raiseEvent offSemEvents 3
  else
    let v := s.sem i
    let cleared := bitAt data 31 && v.flagged
    let v := if bitAt data 28 then { v with owned := false } else v
    let v := if bitAt data 29 then { v with owned := true, owner := BitVec.ofNat 6 (bits data 20 6) } else v
    let v := if bitAt data 31 then { v with ovf := false, unf := false, poisoned := false } else v
    let v := if bitAt data 30 then { v with count := BitVec.ofNat 20 (bits data 0 20) } else v
    let s := s.setSem i v
    if cleared || bitAt data 30 then s.sendFault i else s

def offSemSet (i : Nat) : Nat := 0x041004 + 8 * i

/-- A control-port write of SEM_SET; that of an East semaphore crosses the Corridor (R400). SEM_SET does not use the master's
identity (R58). -/
def State.semSetAt (s : State) (idx : Nat) (data : Word) : Res :=
  s.cpWriteAt 0#8 (offSemSet idx) data (fun s => s.writeSemSet idx data)

/-- SEM_SET_CLRFLAGS: a SEM_SET write with CLRFLAGS. -/
def execSemSetClrflags (idx : Nat) (data : Word) (s : State) : Res := s.semSetAt idx (data ||| 0x80000000#32)

/-- SEM_SET_SETCNT: a SEM_SET write with SETCNT. -/
def execSemSetSetcnt (idx : Nat) (data : Word) (s : State) : Res := s.semSetAt idx (data ||| 0x40000000#32)

/-- SEM_SET_SETOWN: a SEM_SET write with SETOWN. -/
def execSemSetSetown (idx : Nat) (data : Word) (s : State) : Res := s.semSetAt idx (data ||| 0x20000000#32)

/-- SEM_SET_RELEASE: a SEM_SET write with RELEASE. -/
def execSemSetRelease (idx : Nat) (data : Word) (s : State) : Res := s.semSetAt idx (data ||| 0x10000000#32)

end Sys2Proof.Machine
end

