-- ==== Sys2Proof/Machine/Translate.lean ====
section
/-!
DEFINITION. The translation port: requests and answers (R59-R62, R64, R316-R320), invalidations (R63, R314, R323), and
the commands that walk a range of pages (R201, R306).
-/

namespace Sys2Proof.Machine

-- Walks.

/-- A miss holds a waiter of a command. -/
def State.commandWaits (s : State) (who : MissWho) : Bool := s.misses.any (fun m => m.waiters.any (fun w => w.who == who))

/-- A PREWARM goes on: it skips covered pages and opens or joins a miss for the others, until no entry is left for it
(R201). It completes when every page is resolved or skipped (R96). The check whether a page is covered is no lookup: it leaves
the order of use as it is (DESIGN CHOICE, log 121: R310 does not name it). -/
def State.prewarmGo (s : State) (q : Nat) (idx : BitVec 16) : State :=
  match (s.queue q).cmd idx with
  | none => s
  | some c =>
    let n := cmdPreLen c.bytes / 4096
    let page (i : Nat) : Nat := (cmdPreVa c.bytes / 4096 + i) % 2 ^ 44
    let asid := s.qAsid q
    let (s, at', _) := (List.range (n - c.pages)).foldl (fun (a : State × Nat × Bool) _ =>
      let (s, i, stop) := a
      if stop then a
      else if (s.findL2 (s.qEast q) asid (page i)).isSome then (s, i + 1, false)
      else
        let w : MissWaiter := { who := .prewarm q idx, q := q, acc := BitVec.ofNat 2 (cmdPreAcc c.bytes) }
        match s.openMiss (s.qEast q) .prewarm asid (page i) w with
        | (s, true) => (s.count (unitXlate (s.qEast q)) 0x03 0 1, i + 1, false)
        | (s, false) => (s, i, true)) (s, c.pages, false)
    let s := s.updQueue q (fun v => v.updCmd idx (fun c => { c with pages := at' }))
    if n ≤ at' && !s.commandWaits (.prewarm q idx) then s.finishCmd q c 0 else s

/-- An INVALIDATE of one translated page: its windowed granules of this device lose their ways and installs (R306). -/
def State.invalidatePage (s : State) (pa : Nat) : State :=
  if paDevice pa != s.devid || !s.windowed pa then s
  else ((List.range 32).foldl (fun a i => a.dropGranule (pa / 128 + i)) s).spoilInstalls pa (pa + 4096)

/-- LARDER_CTL INVALIDATE goes on, page by page (R306). A page that is being asked for stops it until the answer. -/
def State.invalidateGo (s : State) (q : Nat) (idx : BitVec 16) : State :=
  match (s.queue q).cmd idx with
  | none => s
  | some c =>
    let n := cmdCtlLen c.bytes / 4096
    let page (i : Nat) : Nat := (cmdCtlAddr c.bytes / 4096 + i) % 2 ^ 44
    let asid := s.qAsid q
    let east := s.qEast q
    let (s, at', stop) := (List.range (n - c.pages)).foldl (fun (a : State × Nat × Bool) _ =>
      let (s, i, stop) := a
      if stop then a
      else match s.lookupL2 east asid (page i) with
      | (s, some r) =>
        if r.allows accRead then (s.invalidatePage (r.ppage (page i) * 4096), i + 1, false)
        else (s.failCmd q idx (s.xlateFault stPermission 0x3#8 (page i * 4096) none 0 (s.permLog asid (page i) accRead)),
          i, true)
      | (s, none) =>
        ((s.openMiss east .porter asid (page i) { who := .invalidate q idx, q := q, acc := accRead }).1, i, true))
      (s, c.pages, false)
    let s := s.updQueue q (fun v => v.updCmd idx (fun c => { c with pages := at' }))
    if n ≤ at' && !stop then s.finishCmd q c 0 else s

-- Requests and answers.

/-- The request of a miss reaches port T (R59). -/
def State.missDriven (s : State) (id : BitVec 9) : State :=
  match s.misses.find? (fun m => m.sent && m.east == bitAt id 8 && m.n == BitVec.ofNat 8 (bits id 0 8)) with
  | some m => s.drive (.missReq id m.page m.asid m.acc m.pre)
  | none => s

/-- The request of a miss leaves its wing: an East one crosses the Corridor in the control class (R9, R17). -/
def State.missLeaves (s : State) (id : BitVec 9) : State :=
  if bitAt id 8 then s.corPush false corControl (.missAsk id) else s.missDriven id

/-- MISS_REQUEST: the oldest unsent miss of the wing of `id` bit 8 goes out as entry `id` bits 7:0, if that entry is
free (R59, R315). -/
def execMissRequest (id : BitVec 9) (s : State) : Res :=
  let east := bitAt id 8
  let n := BitVec.ofNat 8 (bits id 0 8)
  match s.misses.find? (fun m => m.east == east && !m.sent) with
  | none => .next s
  | some m => whenever (s.alive && s.cfg.hasWing east && !(east && s.corridor.failed) &&
      !s.misses.any (fun x => x.east == east && x.sent && x.n == n)) s (fun s =>
      let s : State := { s with misses := s.misses.map (fun x => if x == m then { x with sent := true, n := n } else x) }
      s.missLeaves id)

/-- Translation faults of an answer (R61). -/
def missStatus (st : BitVec 2) : Byte :=
  match st.toNat with
  | 1 => stNotPresent | 2 => stPermission | _ => stAgentError

/-- One waiter of a miss fails (R316, R320). `broke` says that the answer broke R60 or never came, which unit 0x2
reports. -/
def State.missFails (s : State) (m : Miss) (id : BitVec 9) (st : Byte) (broke : Bool) (w : MissWaiter) : State :=
  let l : LogInfo := {
    acc := w.acc, east := some m.east, shared := decide (1 < m.waiters.length), page := m.page, asid := m.asid, missId := id
    ccyc := s.ccyc }
  let unit (u : Byte) : Byte := if broke then 0x2#8 else u
  let wr := w.acc != accRead
  match w.who with
  -- The work of a waiter that is gone has been stopped by one before it (R320).
  | .tile t => match s.tile t with
    | none => s.extraFault w.q
    | some t =>
      if t.kind.ordered then
        s.abort t.q (s.xlateFault st (unit 0x1#8) (t.firstVa wr) (some t.num) t.instr l)
      else (s.porterSnap t).streamFault t.q t.stream (s.xlateFault st (unit 0x3#8) (t.itemVa wr m.page.toNat) none 0 l)
  | .reader r item va len => match s.readings.find? (fun x => x.id == r) with
    | none => s.extraFault w.q
    | some x =>
      let f := s.readFault (s.issuer x) st item 0 (some l)
      s.readFails r [(va, len)] { f with unit := unit f.unit }
  | .prewarm q _ => s.count unitFront 0x03 q 1
  | .invalidate q idx => s.failCmd q idx (s.xlateFault st (unit 0x3#8) (m.page.toNat * 4096) none 0 l)

/-- A PREWARM waits: it skips a page that it may not access (R201), where any other waiter fails. -/
def MissWaiter.isPrewarm (w : MissWaiter) : Bool := match w.who with
  | .prewarm _ _ => true
  | _ => false

/-- A background or INVALIDATE walk that waited for the answer goes on. -/
def State.missResumes (s : State) (w : MissWaiter) : State :=
  match w.who with
  | .prewarm q idx => s.prewarmGo q idx
  | .invalidate q idx => s.invalidateGo q idx
  | _ => s

/-- The miss ends with a fault for every waiter. -/
def State.missEnds (s : State) (m : Miss) (id : BitVec 9) (st : Byte) (broke : Bool) : State :=
  let s : State := { s with misses := s.misses.filter (fun x => x != m) }
  let s := m.waiters.foldl (fun a w => a.missFails m id st broke w) s
  m.waiters.foldl (fun a w => match w.who with
    | .prewarm q idx => a.prewarmGo q idx
    | _ => a) s

/-- Lane groups that install an answer in their L1: those that hold a waiter, and for a PREWARM those of its queue's
current or most recent task (R201, R310). -/
def State.missGroups (s : State) (m : Miss) : List Nat :=
  firsts (m.waiters.flatMap (fun w => match w.who with
    | .tile id => match s.tile id with
      | some t => if t.kind.ordered then [laneGroup t.lane] else []
      | none => []
    | .reader id _ _ _ => match (s.readings.find? (fun x => x.id == id)).map (fun x => (s.issuer x).share) with
      | some (.lane g) => [g]
      | _ => []
    | .prewarm q _ => (s.queue q).groups
    | _ => []))

/-- A waiter takes an OK answer: its access is checked against PERM, and a tile's units are covered (R61, R312). -/
def State.missTakes (s : State) (m : Miss) (id : BitVec 9) (r : Range) (w : MissWaiter) : State :=
  if !r.allows w.acc then s.missFails m id stPermission false w
  else match w.who with
  | .tile t => s.updTile t (fun t => t.coverBy (w.acc != accRead) r t.touched)
  | _ => s

/-- The miss an answer belongs to. -/
def State.missOf (s : State) (id : BitVec 9) : Option Miss :=
  s.misses.find? (fun m => m.sent && m.east == bitAt id 8 && m.n == BitVec.ofNat 8 (bits id 0 8))

/-- The request or the answer of an East miss is on the Corridor. -/
def State.missCrossing (s : State) (id : BitVec 9) : Bool := s.corItems.any (fun i => match i with
  | .missAsk n | .missAnswer n _ _ _ _ _ => n == id
  | _ => false)

/-- An OK answer keeps R60 as far as the engine can see: it holds the page, does not wrap and ends below 2^52. -/
def answerFits (page vstart : BitVec 44) (len : BitVec 28) (pbase : BitVec 40) : Bool :=
  decide (vstart.toNat ≤ page.toNat) && decide (page.toNat < vstart.toNat + len.toNat + 1) &&
    decide (vstart.toNat + len.toNat + 1 ≤ 2 ^ 44) && decide (pbase.toNat + len.toNat + 1 ≤ 2 ^ 40)

/-- Two stretches of pages have a page in common. -/
def pagesMeet (a n b m : Nat) : Bool := decide (a < b + m) && decide (b < a + n)

/-- An invalidation accepted since the request was sent overlaps the requested page, or the range of an OK answer (R64). -/
def Miss.stale (m : Miss) (st : BitVec 2) (vstart : BitVec 44) (len : BitVec 28) : Bool :=
  m.crossed.any (fun c => pagesMeet m.page.toNat 1 c.1 c.2 ||
    (st == 0#2 && pagesMeet vstart.toNat (len.toNat + 1) c.1 c.2))

/-- An answer reaches the wing of its miss (R60, R61, R64, R310, R316, R318). -/
def State.missAnswered (s : State) (id : BitVec 9) (st : BitVec 2) (vstart : BitVec 44) (len : BitVec 28) (pbase : BitVec 40)
    (perm : BitVec 3) : State :=
  let u := unitXlate (bitAt id 8)
  match s.missOf id with
    | none => (s.count u 0x05 0 1).raiseEvent offXltEvents 0
    | some m =>
      if m.stale st vstart len then
        let s : State := { s with misses := s.misses.map (fun x => if x == m then { x with crossed := [] } else x) }
        (s.count u 0x05 0 1).missLeaves id
      else if st != 0#2 then s.missEnds m id (missStatus st) false
      else if !answerFits m.page vstart len pbase then
        (s.raiseEvent offXltEvents 0).missEnds m id stAgentError true
      else
        let r : Range := { asid := m.asid, vstart := vstart, pages := len.toNat + 1, pbase := pbase, perm := perm }
        let gs := s.missGroups m
        let s : State := { s with misses := s.misses.filter (fun x => x != m) }
        let s := gs.foldl (fun a g => a.installL1 g r) (s.installL2 m.east r)
        let s := m.waiters.foldl (fun a w => a.missTakes m id r w) s
        (m.waiters.filter (fun w => w.isPrewarm || r.allows w.acc)).foldl (fun a w => a.missResumes w) s

/-- MISS_RESPONSE: an answer of the agent. One for an East miss crosses the Corridor in the control class; one that no
outstanding request asked for is discarded and counted (R9, R17, R62). -/
def execMissResponse (id : BitVec 9) (st : BitVec 2) (vstart : BitVec 44) (len : BitVec 28) (pbase : BitVec 40)
    (perm : BitVec 3) (s : State) : Res :=
  whenever s.alive s (fun s =>
    if (s.missOf id).isNone || s.missCrossing id then
      (s.count (unitXlate (bitAt id 8)) 0x05 0 1).raiseEvent offXltEvents 0
    else if bitAt id 8 then s.corPush true corControl (.missAnswer id st vstart len pbase perm)
    else s.missAnswered id st vstart len pbase perm)

/-- MISS_TIMEOUT: no answer within 2^TMO_EXP ccyc; every waiter fails and the entry is free (R62). -/
def execMissTimeout (id : BitVec 9) (s : State) : Res :=
  match s.missOf id with
  | none => .next s
  | some m => whenever s.alive s (fun s => (s.raiseEvent offXltEvents 1).missEnds m id stAgentError true)

-- Invalidations.

/-- The invalidation names an ASID. -/
def asidMeets (all : Bool) (asid a : BitVec 16) : Bool := all || asid == a

/-- A cached range that a tile was checked through overlaps the invalidated pages (R314). -/
def Tile.meets (t : Tile) (va n : Nat) : Bool := t.cover.any (fun c => pagesMeet c.vstart c.pages va n)

/-- Requests on their way or outstanding. -/
def State.liveReqs (s : State) : List Req :=
  let cor := (s.corridor.toEast.cells ++ s.corridor.toWest.cells).flatMap (fun c => c.2.filterMap (fun i =>
    match i with
    | .request r => some r
    | _ => none))
  s.waiting ++ (s.outs.filter (fun o => !o.dead)).map (fun o => o.req) ++ cor

/-- INVALIDATION_ACCEPT: the overlapping entries leave every cache at once; the requests and tiles that were translated
through them are noted, unfinished pre-checks lose the pages, and misses already sent will be asked again (R63, R64,
R314). A request whose tile is gone may have used any entry of its ASID. It acts in both wings with no item of the Corridor (DESIGN
CHOICE, log 124: R403 has none for it). -/
def execInvalidationAccept (id : BitVec 4) (all : Bool) (asid : BitVec 16) (va : BitVec 44) (len : BitVec 28)
    (s : State) : Res :=
  let n := len.toNat + 1
  let hit (q : Nat) : Bool := asidMeets all asid (s.qAsid q)
  whenever (s.alive && decide (s.invals.length < 16) && !s.invals.any (fun v => v.id == id)) s (fun s =>
    let tiles := (s.tiles.filter (fun t => t.stage == .issued && hit t.q && t.meets va.toNat n)).map (fun t => t.id)
    let reqs := (s.liveReqs.filter (fun r => asidMeets all asid r.asid && (r.tiles.any (fun t => tiles.contains t) ||
      r.tiles.all (fun t => (s.tile t).isNone)))).map (fun r => r.id)
    let s := s.invalidate all asid va.toNat n
    { s with
      invals := s.invals ++ [{ id := id, all := all, asid := asid, va := va, len := len, reqs := reqs, tiles := tiles }]
      tiles := s.tiles.map (fun t => if t.stage != .issued && hit t.q then
        { t with cover := t.cover.filter (fun c => !pagesMeet c.vstart c.pages va.toNat n) } else t)
      misses := s.misses.map (fun m => if m.sent && asidMeets all asid m.asid then
        { m with crossed := m.crossed ++ [(va.toNat, n)] } else m) })

/-- Every lane of both wings drops the read-cache lines of the queues an invalidation names (R323). -/
def State.dropAsidLines (s : State) (all : Bool) (asid : BitVec 16) : State :=
  let drop (c : CacheLine) : Bool := asidMeets all asid (s.qAsid c.q)
  (s.dropWingLines false drop).dropWingLines true drop

/-- INVALIDATION_COMPLETE: every affected request has returned or landed, those that an affected tile has issued since among
them, and every affected tile is done (R63, R314, R323). -/
def execInvalidationComplete (id : BitVec 4) (s : State) : Res :=
  match s.invals.find? (fun v => v.id == id) with
  | none => .next s
  | some v => whenever (s.alive && v.tiles.all (fun t => (s.tile t).isNone) &&
      s.liveReqs.all (fun x => !v.reqs.contains x.id && !x.tiles.any v.tiles.contains)) s (fun s =>
      let s := s.dropAsidLines v.all v.asid
      ({ s with invals := s.invals.filter (fun x => x.id != id) } : State).drive (.invDone id))

end Sys2Proof.Machine
end

