-- ==== Sys2Proof/Machine/Corridor.lean ====
section
/-!
DEFINITION. The Corridor: the items it carries, and whose flit crosses next (R17-R19, R403).
-/

namespace Sys2Proof.Machine

/-- Flits of an item (R403). -/
def CorItem.flits : CorItem → Nat
  | .request r => if isWriteOp r.op then 1 + 2 * r.quarters.length else 1
  | .quarter _ _ _ _ => 2
  | .rejected r _ _ => if isWriteOp r.op then 1 else 2
  | .landed _ | .pushed _ _ _ | .pushFailed _ _ _ _ => 1
  | .fill f => 8 * f.beats.length
  | .parcel x => (154 * x.flits + 63) / 64
  | .inbound _ _ p => (154 * parcelFlits p + 63) / 64
  | .semInc _ _ _ | .semTake _ _ | .semGrant _ _ | .semNotice _ _ => 1
  | .command _ _ | .missAsk _ | .missAnswer _ _ _ _ _ _ => 1
  | .larderAsk _ _ => 1
  | .access _ | .accessDone _ _ | .tallyRead _ _ | .tallyAnswer _ _ => 1

/-- Queue whose traffic an item is. -/
def CorItem.queue : CorItem → Option Nat
  -- A record's requests belong to no work in progress.
  | .request r | .quarter r _ _ _ | .landed r | .rejected r _ _ => if r.record.isSome then none else r.q
  | .pushed q _ _ | .pushFailed q _ _ _ => some q
  | .fill f => some f.q
  | .parcel x => x.q
  | .inbound _ q _ => some q
  | .semInc src _ _ => src.queue?
  | .semTake _ w | .semGrant _ w | .semNotice _ w => some w.q
  | .command q _ => some q
  | .missAsk _ | .missAnswer _ _ _ _ _ _ => none
  | .larderAsk q _ => q
  | .access _ | .accessDone _ _ => none
  -- What becomes of a record's reads is the record's matter.
  | .tallyRead _ _ | .tallyAnswer _ _ => none

/-- A take arrives at its semaphore (R204, R215). One that finds it poisoned fails, and its waiter is told. -/
def State.takeArrives (s : State) (idx : Nat) (w : SemWaiter) : State :=
  if (s.sem idx).poisoned then
    s.toWaiter idx w (.semNotice idx w) (fun s => s.takePoisoned idx w.q (s.waiterNum w.who))
  else s.semQueue idx w

/-- A parcel arrives at the wing of the port it was routed to, and leaves by the present route (R70, R375). -/
def State.parcelArrives (s : State) (x : TxParcel) : State := s.moveParcel x

def Corridor.setLane (c : Corridor) (toEast : Bool) (b : Bank (List CorItem)) : Corridor :=
  if toEast then { c with toEast := b } else { c with toWest := b }

/-- The class whose flit crosses next in a direction (R17): control before semaphore before the others; a parcel flit and
then three data flits while both have something to send. -/
def Corridor.turn (c : Corridor) (toEast : Bool) : Option Nat :=
  let has (k : Nat) : Bool := !((c.lane toEast).get k).isEmpty
  if has corControl then some corControl
  else if has corSemaphore then some corSemaphore
  else if has corParcel && has corData then some (if c.robin.get (wingNo toEast) == 0 then corParcel else corData)
  else if has corParcel then some corParcel
  else if has corData then some corData
  else none

/-- One flit of a class has crossed: the round robin moves on when it was a parcel or data flit and both had one to send
(log 21). -/
def Corridor.passed (c : Corridor) (toEast : Bool) (cls : Nat) : Corridor :=
  let both := !((c.lane toEast).get corParcel).isEmpty && !((c.lane toEast).get corData).isEmpty
  let k := corKey toEast cls
  let d := wingNo toEast
  { c with
    got := c.got.set k (c.got.get k + 1), replays := c.replays.set k 0
    robin := if both && decide (corParcel ≤ cls) then c.robin.set d ((c.robin.get d + 1) % 4) else c.robin }

end Sys2Proof.Machine
end

