-- ==== Sys2Proof/Machine/QueueCtl.lean ====
section
/-!
DEFINITION. Queue control: enabling and doorbells (R90-R92), reading commands (R93), placing itineraries (R100),
suspension and pre-emption (R102, R103), actions (R104, R105, R108), the progress timeout (R106, R111) and the end of a
stop with its records (R107, R110, R321).
-/

namespace Sys2Proof.Machine

-- QCTL_CFG and QCTL_DOORBELL.

/-- An EN write of 1 is refused: the queue is not Idle, a ring size is out of range (R90), ROM recovery mode allows Q0
alone (R355), or a COMMIT that waits will change the queue's wing (R374). -/
def State.enRefused (s : State) (q : Nat) : Bool :=
  let n := s.fld (offQ q qCringHi) 24 5
  let c := s.fld (offQ q qCrecHi) 28 4
  (s.queue q).st != .idle || decide (n < 4) || decide (16 < n) || decide (c < 4) || decide (12 < c) ||
    (s.recovery && q != 0) || (s.ledger.st == .committing && s.wingStaged q)

/-- A write of QCTL_CFG: ignored while EN is 1; EN goes to 1 with HEAD, TAIL and SEQ at 0 (R90). -/
def State.writeQcfg (s : State) (q : Nat) (data : Word) : State :=
  if s.cfg.queues ≤ q || s.qEn q then s
  else
    let s := s.putMasked (offQ q qCfg) 0x47FFFFFF#32 data
    if !bitAt data 31 then s
    else if s.enRefused q then s.raiseQueue q 3
    else
      -- The queue's front-end stream begins (R29).
      let s : State := { s with seqs := s.seqs.set (feStream q) 0 }
      (s.putBit (offQ q qCfg) 31 true).updQueue q (fun v => { v with
        head := 0, tail := 0, seq := 0, cmds := [], snaps := .empty, timer := 0 })

/-- QCTL_CFG_EN: a write of QCTL_CFG. -/
def execQctlCfgEn (q : Nat) (data : Word) (s : State) : Res := s.cpEffect (offQ q qCfg) (fun s => s.writeQcfg q data)

/-- Commands between HEAD and the tail published last (R10, R91). -/
def State.published (s : State) (q : Nat) : Nat :=
  let v := s.queue q
  (v.tail.toNat + s.qRingN q - v.head.toNat % s.qRingN q) % s.qRingN q

/-- Commands beyond a tail that a doorbell has lowered are not executed: those that have not started are forgotten, with their
reads (R10, R91). -/
def State.forgetBeyond (s : State) (q : Nat) : State :=
  let v := s.queue q
  let kept := v.cmds.zipIdx.filter (fun c => decide (c.2 < s.published q) || (v.cmds.drop c.2).any (fun x => x.started))
  let cmds := kept.map (fun c => c.1)
  if cmds.length == v.cmds.length then s
  else
    let idx (r : Reading) : Bool := match r.who with
      | .command k i => k != q || cmds.any (fun c => c.idx == i)
      | _ => true
    { (s.setQueue q { v with cmds := cmds }) with readings := s.readings.filter idx }

/-- A doorbell (R91): a tail beyond the ring is refused; with EN 0 it is ignored; an Idle queue with work starts to run
(R104), to be suspended at once while THERM_CRIT stops the lanes (R83), and a Running one whose tail comes back to HEAD is Idle. The progress timer restarts then, and takes the QCTL_TMO
of that time; R106 names no such event (DESIGN CHOICE, log 106). -/
def State.writeDoorbell (s : State) (q : Nat) (data : Word) : State :=
  if s.cfg.queues ≤ q then s
  else
    let t := bits data 0 16
    if s.qRingN q ≤ t then s.raiseQueue q 2
    else if !s.qEn q then s
    else
      let s := (s.updQueue q (fun v => { v with tail := BitVec.ofNat 16 t })).forgetBeyond q
      let v := s.queue q
      if v.st == .idle && v.head != v.tail then
        (s.updQueue q (fun v => { v with
          st := .running, suspTherm := s.thermalStop, suspending := s.thermalStop })).progress q
      else if v.cmds.isEmpty then s.settle q
      else s

/-- QCTL_DOORBELL. -/
def execQctlDoorbell (q : Nat) (data : Word) (s : State) : Res :=
  s.cpEffect (offQ q qDoorbell) (fun s => s.writeDoorbell q data)

-- Reading commands.

/-- Commands read ahead of the one the queue is executing: those that have not started (R10). -/
def Queue.ahead (v : Queue) : Nat := (v.cmds.filter (fun c => !c.started && !c.done)).length

/-- A command has been read. One of an East queue crosses the Corridor to its wing (R9, R17, R403). -/
def State.takeCommand (s : State) (q : Nat) (idx : BitVec 16) (data : BitVec 512) : State :=
  let s := s.closeReading (.command q idx)
  if s.qEast q && s.corridor.failed then s.failCmd q idx s.corridorFault
  else
    let s := s.updQueue q (fun v => v.updCmd idx (fun c => { c with bytes := data, unread := false, crossing := s.qEast q }))
    if s.qEast q then s.corPush true corControl (.command q idx) else s

/-- A command whose read has not given its bytes: it is taken if they have come, and asked for otherwise. -/
def State.readCommand (s : State) (q : Nat) (idx : BitVec 16) : State :=
  match s.need (.command q idx) (s.cmdVa q idx).toNat 64 with
  | (t, .bytes l) => t.takeCommand q idx (words512 l)
  | (t, _) => t

/-- The read of a command is not on its way: nothing of it has been asked for that has not come. -/
def State.readStands (s : State) (q : Nat) (c : Cmd) : Bool := c.unread && (match s.reading (.command q c.idx) with
  | some r => r.away.isEmpty
  | none => true)

/-- COMMAND_PREFETCH: the front end takes a command whose read has come, asks again for one whose translation has been
answered, or begins to read the next command of the queue, while fewer than eight are read ahead of the one it executes
(R10, R93). -/
def execCommandPrefetch (q : Nat) (s : State) : Res :=
  let v := s.queue q
  whenever (s.alive && decide (q < s.cfg.queues) && v.executing) s (fun s =>
    match v.cmds.find? (s.readStands q) with
    | some c => s.readCommand q c.idx
    | none =>
      if v.ahead < 8 ∧ v.cmds.length < s.published q then
        let idx := BitVec.ofNat 16 ((v.head.toNat + v.cmds.length) % s.qRingN q)
        let c : Cmd := { idx := idx, bytes := 0#512, started := false, done := false, failed := false, pages := 0, unread := true }
        (s.updQueue q (fun v => { v with cmds := v.cmds ++ [c] })).readCommand q idx
      else s)

-- Suspension (R103).

/-- A WAIT command that has started joins its semaphore's waiters again. -/
def State.rejoin (s : State) (q : Nat) : State :=
  match (s.queue q).cmds.find? (fun c => c.started && !c.done && cmdOp c.bytes == 0x03) with
  | none => s
  | some c =>
    let w : SemWaiter := { who := .command q, q := q, k := BitVec.ofNat 20 (cmdSemCount c.bytes) }
    let i := cmdSem c.bytes
    if semEast i != s.qEast q then
      if s.corridor.failed then s.abort q s.corridorFault else s.corPush (semEast i) corSemaphore (.semTake i w)
    else if (s.sem i).poisoned then s.takePoisoned i q none
    else s.semQueue i w

/-- A Suspended queue with no reason left runs again, or is Idle (R103, R104). -/
def State.leaveSuspended (s : State) (q : Nat) : State :=
  let v := s.queue q
  if v.st != .suspended || v.suspSw || v.suspPre || v.suspTherm || v.stopping then s
  else if v.head == v.tail then s.setQueue q { v with st := .idle }
  else ((s.setQueue q { v with st := .running }).rejoin q).placeAside q

/-- A Running queue begins to suspend; writes held for their marking go out as ordinary writes (R225). -/
def State.beginSuspend (s : State) (q : Nat) : State :=
  let s := s.updQueue q (fun v => { v with suspending := true })
  s.markTiles (fun t => t.q == q && t.stage == .issued) false

/-- A sub-window of a batch is being built: the reads of its arrays have begun. -/
def State.building (s : State) (b : Batch) : Bool := b.hdr != 0#512 && (s.reading (.batch b.id)).isSome

/-- The queue's work has reached its boundaries: no tile of it is issued, no window of it is open, no sub-window of it
is in progress (R103), no grant of it is crossing the Corridor; a COMMIT of Q0 has ended (R377). -/
def State.atBoundary (s : State) (q : Nat) : Bool :=
  !s.tiles.any (fun t => t.q == q && t.stage == .issued) &&
    !s.tiles.any (fun t => t.q == q && !t.kind.ordered) &&
    !s.itins.any (fun i => i.q == q && i.wwin.isSome) &&
    !s.lanes.cells.any (fun c => c.2.rwins.any (fun w => w.q == q)) &&
    !s.porter.batches.any (fun b => b.q == q && (s.building b || s.porter.subs.any (fun w => w.batch == b.id))) &&
    !s.corItems.any (fun i => match i with
      | .semGrant _ w | .semNotice _ w => w.q == q
      | _ => false) &&
    !(q == 0 && s.ledger.st == .committing)

/-- While THERM_CRIT is 1, the lanes are gated once no queue is on its way to suspension (R83). -/
def State.gateIfQuiet (s : State) : State :=
  if s.thermalStop && (List.range s.cfg.queues).all (fun q => (s.queue q).st != .running) then
    (List.range s.cfg.lanes).foldl (fun a l => a.updLane l (fun v => { v with gated := true })) s
  else s

/-- A reading of tensor descriptors or index windows. -/
def State.isDesc (_s : State) (r : Reading) : Bool := match r.who with
  | .desc _ => true
  | _ => false

/-- Waits of a queue that its suspension takes back: takes on semaphores, reads of descriptors and pre-checks. -/
def State.dropWaits (s : State) (q : Nat) : State :=
  let keepWho (w : MissWaiter) : Bool := w.q != q || (match w.who with
    | .tile _ => false
    | .reader id _ _ _ => !s.readings.any (fun r => r.id == id && s.isDesc r)
    | _ => true)
  let keepItem (i : CorItem) : Bool := match i with
    | .semTake _ w => w.q != q
    | _ => true
  { s with
    sems := s.sems.each (fun _ v => { v with waiters := v.waiters.filter (fun w => w.q != q) })
    misses := s.misses.map (fun m => { m with waiters := m.waiters.filter keepWho })
    corridor := s.corridor.retain keepItem }

/-- Set a queue's itineraries aside: slots are free, tiles that have not issued wait for the itinerary's return, index
windows are fetched again. -/
def State.setAside (s : State) (q : Nat) : State :=
  let mine (t : Tile) : Bool := t.q == q && t.stage != .issued
  let ids := (s.tiles.filter mine).map (fun t => t.id)
  { s with
    readings := s.readings.filter (fun r => !(s.isDesc r && s.readingQueue r == some q))
    itins := s.itins.map (fun i => if i.q == q && i.place == .resident then
      { i with place := .aside, status := .ready, chosen := false
               ix := i.ix.each (fun _ c => { c with wins := [], fetching := [] }) } else i)
    tiles := s.tiles.map (fun t => if mine t then { t with stage := .queued, cover := [] } else t)
    lanes := s.lanes.each (fun _ v => { v with tileq := v.tileq.filter (fun i => !ids.contains i) }) }

/-- SUSPENSION_COMPLETE: every unit has stopped; the queue is Suspended (R103), and runs again at once when no reason is
left. -/
def execSuspensionComplete (q : Nat) (s : State) : Res :=
  let v := s.queue q
  whenever (s.alive && v.st == .running && v.suspending && !v.stopping && s.atBoundary q) s (fun s =>
    let s := (s.dropWaits q).setAside q
    let s := s.updQueue q (fun v => { v with st := .suspended, suspending := false })
    ((s.leaveSuspended q).gateIfQuiet).placeAsides)

-- Pre-emption (R102).

/-- Running class-3 queues of a wing with a task, that task's start latest first. -/
def State.victims (s : State) (east : Bool) : List Nat :=
  let vs := (List.range s.cfg.queues).filterMap (fun q =>
    let v := s.queue q
    match v.task with
    | some t => if s.qEast q == east && v.executing && s.qPrio q == 3#2 && t.phase == .running then some (t.order, q) else none
    | none => none)
  (vs.mergeSort (fun a b => decide (b.1 ≤ a.1))).map (fun x => x.2)

/-- Suspend queues until the itineraries of a class-0 queue's task will find slots: none when they only wait for a lane's
replacement (R383). -/
def State.preempt (s : State) (q : Nat) (es : List (Nat × Option Nat)) : State :=
  let east := s.qEast q
  (s.victims east).foldl (fun a w =>
    if (a.placesFor east (fun x => (a.queue x).suspending) es).isSome then a
    else
      let a := (a.updQueue w (fun v => { v with suspPre := true })).beginSuspend w
      { a with preempted := a.preempted ++ [(q, w)] }) s

/-- The queue's task has started, or it has none that waits. -/
def Queue.taskStarted (v : Queue) : Bool := match v.task with
  | some t => !t.unstarted
  | none => true

/-- PREEMPT_RELEASE: a class-0 queue's task has started and slots are free again for the queue it suspended first (R102). -/
def execPreemptRelease (q : Nat) (s : State) : Res :=
  match s.preempted.find? (fun p => p.1 == q) with
  | none => .next s
  | some (_, w) => whenever (s.alive && (s.queue q).taskStarted && ((s.queue w).suspending || (s.asidePlaces w).isSome)) s
      (fun s =>
        let s : State := { s with preempted := s.preempted.erase (q, w) }
        -- Another class-0 queue may hold it too.
        if s.preempted.any (fun p => p.2 == w) then s
        else (s.updQueue w (fun v => { v with suspPre := false })).leaveSuspended w)

-- Actions (R104).

/-- An action the state allows, or ACT_ERR. -/
def State.actWhen (s : State) (q : Nat) (ok : Bool) (f : State → State) : State :=
  if s.cfg.queues ≤ q then s else if ok then f s else s.raiseQueue q 3

def State.actSuspend (s : State) (q : Nat) : State :=
  let v := s.queue q
  s.actWhen q (v.st == .running) (fun s =>
    (s.updQueue q (fun v => { v with suspSw := true })).beginSuspend q)

def State.actResume (s : State) (q : Nat) : State :=
  s.actWhen q ((s.queue q).st == .suspended) (fun s =>
    (s.updQueue q (fun v => { v with suspSw := false })).leaveSuspended q)

/-- The queue leaves Faulted for Running, for Suspended while THERM_CRIT holds it, or for Idle (R103, R104). -/
def State.afterFault (s : State) (q : Nat) : State :=
  let v := s.queue q
  if v.head == v.tail then s.setQueue q { v with st := .idle }
  else (s.setQueue q { v with st := if v.suspTherm then .suspended else .running }).progress q

/-- REPLAY: the failed command and the later ones that were stopped run again (R105). A command whose read failed is read
again. -/
def State.actReplay (s : State) (q : Nat) : State :=
  s.actWhen q ((s.queue q).st == .faulted) (fun s =>
    let fresh (v : Queue) : Queue := { v with cmds := v.cmds.map (fun c => { c with failed := false }) }
    (s.updQueue q fresh).afterFault q)

/-- SKIP: the oldest failed command completes with no record; HEAD advances past it (R105). -/
def State.actSkip (s : State) (q : Nat) : State :=
  s.actWhen q ((s.queue q).st == .faulted) (fun s =>
    let skip (c : Cmd) : Cmd := if c.failed then { c with failed := false, started := true, done := true } else c
    ((s.updQueue q (fun v => { v with cmds := v.cmds.map skip })).advanceHead q).afterFault q)

/-- A transaction of a queue that ends is rolled back (R377). -/
def Ledger.close (l : Ledger) : Ledger := { l with st := .closed, staged := [], overflow := false, clearing := false, owner := 0 }

/-- The queue's commands are discarded, HEAD goes to TAIL and EN to 0: it is Retiring (R108). -/
def State.beginRetire (s : State) (q : Nat) : State :=
  let s := s.stopUnits q
  let s : State := if q = 0 then { s with ledger := s.ledger.close } else s
  let s : State := { s with preempted := s.preempted.filter (fun p => p.2 != q) }
  (s.updQueue q (fun v => { v with
    st := .retiring, suspSw := false, suspPre := false, suspTherm := false, suspending := false, cmds := [], head := v.tail
    stop := some { fault := none, failed := none, retire := true, extra := 0 } })).putBit (offQ q qCfg) 31 false

/-- RETIRE; while a stop for a fault is in progress it follows that stop (R108). -/
def State.actRetire (s : State) (q : Nat) : State :=
  let v := s.queue q
  s.actWhen q (v.st != .retiring) (fun s => match v.stop with
    | some p => s.setQueue q { v with stop := some { p with retire := true } }
    | none => s.beginRetire q)

/-- ABORT stops the work with ST_ABORTED_BY_SOFTWARE (R108); a COMMIT that waits ends with it (R377). -/
def State.actAbort (s : State) (q : Nat) : State :=
  let v := s.queue q
  s.actWhen q (v.st == .running || v.st == .suspended) (fun s =>
    if v.stopping then s
    else s.abort q (s.fault stAborted (if q = 0 ∧ s.ledger.st = .committing then 0x9#8 else 0x0#8)))

/-- A write of QCTL_ACTION. -/
def State.writeAction (s : State) (q : Nat) (data : Word) : State :=
  match bits data 0 3 with
  | 1 => s.actSuspend q
  | 2 => s.actResume q
  | 3 => s.actReplay q
  | 4 => s.actSkip q
  | 5 => s.actRetire q
  | 6 => s.actAbort q
  | _ => s

/-- SUSPEND. -/
def execSuspend (q : Nat) (s : State) : Res := s.cpEffect (offQ q qAction) (fun s => s.actSuspend q)
/-- RESUME. -/
def execResume (q : Nat) (s : State) : Res := s.cpEffect (offQ q qAction) (fun s => s.actResume q)
/-- REPLAY. -/
def execReplay (q : Nat) (s : State) : Res := s.cpEffect (offQ q qAction) (fun s => s.actReplay q)
/-- SKIP. -/
def execSkip (q : Nat) (s : State) : Res := s.cpEffect (offQ q qAction) (fun s => s.actSkip q)
/-- RETIRE. -/
def execRetire (q : Nat) (s : State) : Res := s.cpEffect (offQ q qAction) (fun s => s.actRetire q)
/-- ABORT. -/
def execAbort (q : Nat) (s : State) : Res := s.cpEffect (offQ q qAction) (fun s => s.actAbort q)

-- The progress timeout.

/-- The lowest-numbered itinerary of a queue that satisfies a predicate. -/
def State.lowestItin (s : State) (q : Nat) (p : Itin → Bool) : Option Itin :=
  (List.range 16).findSome? (fun n => s.itins.find? (fun i => i.q == q && i.place == .resident && i.num == n && p i))

/-- The semaphore an itinerary is blocked on (R111). -/
def State.waitsOnSem (s : State) (i : Itin) : Option Nat :=
  let w := i.next
  if i.status == .taking then
    if insOp w == 0x28 then some (insSem w)
    else if insOp w == 0x20 && decide (1 < (s.slotRings (insRing w)).length) then
      (s.groupSems i.q (insRing w)).find? (fun k => (s.sem k).count == 0#20)
    else (s.linkOf i.q (insRing w)).map (fun l => if insOp w == 0x20 then l.2 else l.1)
  else none

/-- The unlinked ring an itinerary is blocked on. -/
def State.waitsOnRing (s : State) (i : Itin) : Option Nat :=
  let w := i.next
  if i.status == .blocked && (insOp w == 0x20 || insOp w == 0x22) && (s.linkOf i.q (insRing w)).isNone then
    some (insRing w)
  else none

/-- The unit that holds the oldest unfinished work of the command that times out and waits on nothing named (R112): the Porter's row
groups, the Expander's blocks and the remote unit's parcels by the order in which they were formed; then a Porter's batch,
then the front end. -/
def State.oldestUnit (s : State) (q : Nat) : Byte :=
  let cmd := (s.queue q).workCmd (s.qRingN q)
  let ours (stream : Nat) : Bool := s.streamCmd q stream == some cmd
  let work : List (Nat × Byte) :=
    (s.tiles.filter (fun t => t.q == q && !t.kind.ordered && t.kind != .indexWin && ours t.stream)).map (fun t => (t.id, 0x3#8)) ++
    (s.blocks.filter (fun b => b.q == q && (s.tile b.tile).any (fun t => ours t.stream))).map (fun b => (b.id, 0x4#8)) ++
    (s.remote.outs.filter (fun o => o.q == q && ours o.stream)).map (fun o => (o.id, 0x5#8))
  match work.foldl (fun a w => match a with
    | none => some w
    | some b => if w.1 < b.1 then some w else a) none with
  | some w => w.2
  | none => if s.porter.batches.any (fun b => b.q == q && b.cmd == cmd) then 0x3#8 else 0x0#8

/-- What a progress timeout reports: DETAIL, UNIT and ITIN (R111, R112). -/
def State.timeoutFault (s : State) (q : Nat) : FaultInfo :=
  let f := s.fault stQueueTimeout 0x6#8
  let waitCmd := (s.queue q).cmds.find? (fun c => c.started && !c.done && cmdOp c.bytes == 0x03)
  match waitCmd with
  | some c => { f with detail := s.semDetail (cmdSem c.bytes) }
  | none => match s.lowestItin q (fun i => (s.waitsOnSem i).isSome) with
    | some i => { f with detail := s.semDetail ((s.waitsOnSem i).getD 0), itin := some i.num, instr := i.pc }
    | none => match s.lowestItin q (fun i => (s.waitsOnRing i).isSome) with
      | some i => { f with unit := 0x1#8, detail := packWord [(1, 30), ((s.waitsOnRing i).getD 0, 0)], itin := some i.num, instr := i.pc }
      | none =>
        let i := s.lowestItin q (fun i => i.status != .ready)
        { f with unit := s.oldestUnit q, detail := packWord [(2, 30)]
                 itin := i.map (fun i => i.num), instr := (i.map (fun i => i.pc)).getD 0 }

/-- Limit of a queue's progress timer (R90). -/
def Queue.limit (v : Queue) : Nat := 2 ^ max 12 v.tmo

/-- PROGRESS_TIMEOUT: the timer has reached its limit; the oldest foreground command in flight fails (R106). Time passes up
to then. -/
def execProgressTimeout (q : Nat) (s : State) : Res :=
  let v := s.queue q
  whenever (s.alive && decide (q < s.cfg.queues) && !s.timerStands q && decide (v.tmo < 31)) s (fun s =>
    let s := s.passCycles (v.limit - v.timer)
    s.failCmd q ((s.queue q).workCmd (s.qRingN q)) (s.timeoutFault q))

-- The end of a stop.

/-- Every unit has reported: nothing of the queue is in flight (R107). -/
def State.stopped (s : State) (q : Nat) : Bool :=
  let cor := (s.corridor.toEast.cells ++ s.corridor.toWest.cells).flatMap (fun c => c.2)
  let mine (r : Req) : Bool := r.q == some q && r.record.isNone
  !s.tiles.any (fun t => t.q == q) && !s.waiting.any mine && !s.outs.any (fun o => mine o.req && !o.dead) && !s.lanes.cells.any (fun c => c.2.rwins.any (fun w => w.q == q)) &&
    !s.itins.any (fun i => i.q == q && i.wwin.isSome) &&
    !s.cports.cells.any (fun c => (c.2.fills ++ c.2.await).any (fun f => f.q == q)) &&
    !s.remote.ports.cells.any (fun c => c.2.tx.any (fun x => x.q == some q && x.begun)) &&
    !s.remote.outs.any (fun o => o.q == q && o.parcel.ptype != 0x01#8) &&
    !cor.any (fun i => i.queue == some q)

/-- The fault record's log entry: written by the Steward, or dropped with FLOG_LOST (R321, R346). -/
def State.writeLog (s : State) (q : Nat) (f : FaultInfo) (l : LogInfo) : State :=
  let wp := (s.reg offFlogWp).toNat
  let base := s.fld offFlogHi 0 20 * 2 ^ 32 + (s.reg offFlogLo).toNat
  let n := 2 ^ max 4 (s.fld offFlogHi 28 4)
  let east := l.east.getD (s.freeBelow 2 == 1)
  let bytes := record [((s.queue q).seq.toNat, 4), (q, 1), (f.status.toNat, 1), (f.unit.toNat, 1),
    (l.acc.toNat + (if east then 4 else 0) + (if l.shared then 8 else 0), 1), (l.page.toNat * 4096, 8), (l.asid.toNat, 2),
    (l.missId.toNat, 2), (0, 4), (l.ccyc.toNat, 8)]
  let s := (if l.east.isSome then s else s.tick).setReg offFlogWp (BitVec.ofNat 32 (wp + 1))
  if !s.stwRunning || paDevice base != s.devid then s.raiseEvent offXltEvents 2
  else s.writeRecord (.log q) s.stwWriter [(base + 32 * (wp % n), bytes)]

/-- One unit's snapshot in a fault record. -/
def snapRecord (u : Nat) (origin : Byte) (p : UnitSnap) : List (Nat × Nat) :=
  [(u, 1), ((if p.active then 1 else 0) + (if origin.toNat = u then 2 else 0), 1), (p.mask.toNat, 2), (p.issued, 4),
    (p.done, 4), (p.detail.toNat, 4)]

/-- The fault record of a stop (R110). -/
def State.faultBytes (s : State) (q : Nat) (f : FaultInfo) (p : Stop) : List Byte :=
  let v := s.queue q
  let idx := p.failed.getD v.head
  let c := v.cmd idx
  let b : BitVec 512 := (c.map (fun c => c.bytes)).getD 0#512
  let tag := match v.task with
    | some t => if t.cmd == idx && cmdOp b == 0x01 then taskTag t.hdr else 0
    | none => 0
  record ([(v.seq.toNat, 4), (cmdUsertag b, 4), ((s.cmdVa q idx).toNat, 8), (cmdOp b, 1), (f.status.toNat, 1), (q, 1),
    (f.unit.toNat, 1), (p.extra, 2), ((f.itin.map (fun n => 128 + n)).getD 0, 1), (0, 1), (f.ccyc.toNat, 8), (f.va.toNat, 8),
    (f.pa.toNat, 8), (f.detail.toNat, 4), (0, 4), (tag, 8)] ++ [(b.toNat, 64)] ++
    (List.range 8).flatMap (fun u => snapRecord u f.unit (v.snaps.get (snapKey idx u))))

/-- Write the fault record, or drop it with FREC_LOST. SEQ advances either way (R109, R110). -/
def State.writeFaultRecord (s : State) (q : Nat) (f : FaultInfo) (p : Stop) : State :=
  let bytes := s.faultBytes q f p
  let t := s.updQueue q (fun v => { v with seq := v.seq + 1 })
  if paDevice (s.frecBase q) != s.devid then t.raiseQueue q 4
  else t.writeRecord (.fault q) (s.feWriter q) [(s.frecBase q, bytes)]

/-- Commands after a stop (R105): the failed one is marked; foreground ones that had not completed will run again;
background ones that had started are not run again, the one that the fault was laid to among them. -/
def Queue.afterStop (v : Queue) (failed : BitVec 16) : Queue :=
  let put (c : Cmd) : Cmd :=
    if c.done then c
    else if c.started && cmdBackground c.bytes then { c with done := true }
    else if c.idx == failed then { c with started := false, failed := true, pages := 0 }
    else { c with started := false, pages := 0 }
  -- A command that failed before it was read stands in the ring, for SKIP to pass (log 92).
  let unread : List Cmd := if v.cmds.any (fun c => c.idx == failed) || v.head == v.tail || failed == v.tail then []
    else [{ idx := failed, bytes := 0#512, started := false, done := false, failed := true, pages := 0, unread := true }]
  { v with cmds := v.cmds.map put ++ unread }

/-- An entry of the fault log is on its way. -/
def State.logAway (s : State) (q : Nat) : Bool := s.records.any (fun r => r.note == .log q)

/-- The log entry of a fault comes before its record (R321). -/
def State.stopLogs (s : State) (q : Nat) (p : Stop) : State :=
  match p.fault, p.fault.bind (fun f => f.log) with
  | some f, some l =>
    if p.logged then s
    else (s.writeLog q f l).updQueue q (fun v => { v with stop := some { p with logged := true } })
  | _, _ => s

/-- The record of a SNAPSHOT task ends with its task (R397). -/
def State.dropSnap (s : State) (q : Nat) : State :=
  let s : State := { s with
    records := s.records.filter (fun r => match r.note with
      | .snap k _ => k != q
      | _ => true)
    tally := { s.tally with reqs := s.tally.reqs.filter (fun r => r.ask != .user q) } }
  if s.tally.record.any (fun r => r.q == some q) then s.recordDone else s

/-- The stop of a queue ends: the fault record is written and the queue is Faulted, or goes on as RETIRE (R107, R108). -/
def State.stopEnds (s : State) (q : Nat) (p : Stop) : State :=
  let s : State := { s with
    porter := { s.porter with batches := s.porter.batches.filter (fun b => b.q != q) }
    lost := s.lost.filter (fun l => l.q != q)
    blocks := s.blocks.filter (fun b => b.q != q) }
  let s := s.dropSnap q
  match p.fault with
  | none => (s.updQueue q (fun v => { v with stop := none, snaps := .empty })).placeAsides
  | some f =>
    let v := s.queue q
    let s := (s.writeFaultRecord q f p).raiseQueue q 1
    let s := s.trace 3 unitFront (some q) (cmdPayload q (((s.queue q).cmd (p.failed.getD v.head)).map
      (fun c => cmdOp c.bytes) |>.getD 0) true f.status v.seq)
    let s := s.updQueue q (fun v => { v.afterStop (p.failed.getD v.head) with
      lastSt := f.status, task := none, stop := none, snaps := .empty, suspSw := false, suspPre := false, suspending := false
      st := .faulted })
    let s := s.advanceHead q
    let s : State := { s with preempted := s.preempted.filter (fun x => x.2 != q) }
    (if p.retire then s.beginRetire q else s).placeAsides

/-- STOP_COMPLETE: every unit has reported (R107). For a fault, the log entry is written first and the rest waits until it has
landed or been dropped (R321); for a RETIRE, its semaphores are poisoned next. -/
def execStopComplete (q : Nat) (s : State) : Res :=
  match (s.queue q).stop with
  | none => .next s
  | some p => whenever (s.alive && s.stopped q && !s.logAway q) s (fun s =>
      let s := s.stopLogs q p
      if s.logAway q then s else s.stopEnds q p)

/-- RETIRE_COMPLETE: every semaphore the queue owns is poisoned; the queue is Idle (R108, R214). -/
def execRetireComplete (q : Nat) (s : State) : Res :=
  let v := s.queue q
  whenever (s.alive && v.st == .retiring && !v.stopping) s (fun s =>
    let mine := (s.sems.cells.filter (fun c => c.2.owned && c.2.owner.toNat == q)).map (fun c => c.1)
    let s := mine.foldl (fun a i => (a.inTurn i rankPoison 0#20).semPoison i true) s
    s.updQueue q (fun v => { v with st := .idle, task := none }))

end Sys2Proof.Machine
end

