-- ==== Sys2Proof/Machine/Rings.lean ====
section
/-!
DEFINITION. Rings after their instructions: publishing and releasing slots (R169, R183, R197), the laggard timeout
(R199), time-to-empty (R192), history (R193), and the other releases of an itinerary (R220).
-/

namespace Sys2Proof.Machine

/-- Positions of a ring are reset (R185, R193): published slots are discarded and the drain history is cleared. Without
`keep`, the pairing of R184 ends too. -/
def State.resetRing (s : State) (r : Nat) (keep : Bool) : State :=
  s.setRing r { (default : Ring) with since := s.ccyc, pair := if keep then (s.ring r).pair else none }

/-- A fill of a member ring, or its acknowledgement on the Corridor, still concerns a tile. -/
def State.fillPending (s : State) (ring tile : Nat) : Bool :=
  s.cports.cells.any (fun c => (c.2.fills ++ c.2.await).any (fun f => f.tile == tile && f.ring == ring)) ||
    (s.corridor.toEast.cells ++ s.corridor.toWest.cells).any (fun c => c.2.any (fun i => match i with
      | .fill f => f.tile == tile && f.ring == ring
      | .pushed _ t r | .pushFailed _ t r _ => t == tile && r == ring
      | _ => false))

/-- A tile's writes have landed as far as a ring's publish needs: for a member of a multicast group, its own slot fill
(R197); otherwise everything (R220). -/
def State.landedFor (s : State) (ring id : Nat) : Bool :=
  match s.tile id with
  | none => true
  | some t => match t.slotW with
    | some h => t.written && h.ring != ring && (s.slotRings h.ring).contains ring && !s.fillPending ring id ||
        t.written && h.ring == ring && decide (1 < (s.slotRings ring).length) && !s.fillPending ring id
    | none => false

def State.dropRelease (s : State) (id : Nat) : State := { s with releases := s.releases.filter (fun r => r.id != id) }

/-- No earlier publish of the ring is pending. -/
def State.firstPublish (s : State) (id ring : Nat) : Bool :=
  (s.releases.takeWhile (fun r => r.id != id)).all (fun r => match r.kind with
    | .slotPublish m _ _ => m != ring
    | _ => true)

/-- SLOT_PUBLISHED: every earlier write has landed; the slot is published and FULL_SEM incremented (R169, R183). -/
def execSlotPublished (rel : Nat) (s : State) : Res :=
  match s.releases.find? (fun r => r.id == rel) with
  | none => .next s
  | some r => match r.kind with
    | .slotPublish ring _ full =>
      whenever (s.alive && r.tiles.all (s.landedFor ring) && s.firstPublish rel ring) s (fun s =>
        let s := match full with
          | some k => s.incTurn r.east k 1#20
          | none => s
        let s := (s.dropRelease rel).updRing ring (fun v => { v with
          tail := advance v.tail 1 (s.nslot ring), occ := v.occ + 1, avail := v.avail + 1, claimed := v.claimed - 1 })
        match full with
        | some k => s.sendIncrement r.east r.q r.itin k 1#20
        | none => s)
    | _ => .next s

/-- No earlier release of a slot of the ring is pending: slots are freed in ring order (R169). -/
def State.firstFree (s : State) (id ring : Nat) : Bool :=
  (s.releases.takeWhile (fun r => r.id != id)).all (fun r => match r.kind with
    | .slotFree m _ => m != ring
    | _ => true)

/-- A read of a held slot has returned: the tile has issued and waits for nothing, or is gone. -/
def State.slotRead (s : State) (id : Nat) : Bool :=
  match s.tile id with
  | none => true
  | some t => t.stage == .issued && t.want.isEmpty

/-- SLOT_RELEASED: every read from the slot has returned; the slot is freed and FREE_SEM incremented (R169, R183). -/
def execSlotReleased (rel : Nat) (s : State) : Res :=
  match s.releases.find? (fun r => r.id == rel) with
  | none => .next s
  | some r => match r.kind with
    | .slotFree ring free =>
      whenever (s.alive && r.tiles.all s.slotRead && s.firstFree rel ring) s (fun s =>
        let s := match free with
          | some k => s.incTurn r.east k 1#20
          | none => s
        let s := (s.dropRelease rel).freeSlots ring 1
        match free with
        | some k => s.sendIncrement r.east r.q r.itin k 1#20
        | none => s)
    | _ => .next s

/-- SIGNAL_RELEASE: every write a SIGNAL covers has landed, and its increment is raised (R170, R220). -/
def execSignalRelease (rel : Nat) (s : State) : Res :=
  match s.releases.find? (fun r => r.id == rel) with
  | none => .next s
  | some r => match r.kind with
    | .signal sem k =>
      whenever (s.alive && r.tiles.all (fun id => (s.tile id).isNone)) s (fun s =>
        ((s.incTurn r.east sem k).dropRelease rel).sendIncrement r.east r.q r.itin sem k)
    | _ => .next s

/-- LAGGARD_TIMEOUT: the condition of group `g` lasts on until it has lasted 2^LAG_TMO_EXP ccyc, and the producing task
aborts (R199). While the producing queue is Suspended the timer stands. -/
def execLaggardTimeout (g : Nat) (s : State) : Res :=
  let x := s.fld (offMg g 0) 24 5
  let s0 := s.watchLaggards
  match s0.lag.get g, s0.claimBlocked g with
  | some t, some i => whenever (s.alive && decide (0 < x) && (s.queue i.q).st != .suspended) s (fun _ =>
      let s := s0.passCycles (2 ^ max 8 x - t)
      s.abort i.q { s.fault stLaggard 0x1#8 with itin := some i.num, instr := i.pc })
  | _, _ => .next s

/-- Time-to-empty of a ring (R192). -/
def State.emptyTime (s : State) (r : Nat) : Nat :=
  let occ := (s.ring r).occ
  let f := s.freed r
  if occ = 0 then 0 else if f = 0 then 1048560 else occ * 1024 / f

/-- TTE_RECOMPUTE: every ring's time-to-empty (R192). -/
def execTteRecompute (s : State) : Res :=
  whenever s.alive s (fun s => ((List.range 1024).filter s.ringValid).foldl (fun a r =>
    a.updRing r (fun v => { v with tte := a.emptyTime r })) s)

/-- RING_HISTORY: 4,096 ccyc after its positions were reset a ring has history (R193). Time passes up to then. -/
def execRingHistory (r : Nat) (s : State) : Res :=
  whenever (s.alive && s.ringValid r && !(s.ring r).hist) s (fun s =>
    let s := s.passCycles (4096 - (s.ccyc - (s.ring r).since).toNat)
    s.updRing r (fun v => { v with hist := true }))

end Sys2Proof.Machine
end

