-- ==== Sys2Proof/Machine/Commands.lean ====
section
/-!
DEFINITION. The commands of a queue that are not table or ledger commands (R94-R97): RUN and the start and end of its task
(R98-R100, R146, R187, R196, R213, R397, R405), SIGNAL, WAIT, FENCE, MARKER and NOP, and the background commands (R14, R96,
R201, R279, R306).
-/

namespace Sys2Proof.Machine

/-- A command's own step: wait, refuse it at its start, or go on with it. -/
def State.onGate (s : State) (q : Nat) (isOp : Nat → Bool) (f : State → Cmd → State) : Res :=
  match s.gate q isOp with
  | .wait => .next s
  | .refuse c st unit => .next (s.refuseCmd q c st unit)
  | .go c => .next (f s c)

-- RUN.

/-- RUN starts: its task waits for its descriptor and for resident slots. None starts outside N0 (R358). -/
def execRun (q : Nat) (s : State) : Res :=
  s.onGate q (fun op => op == 0x01) (fun s c =>
    let t : Task := { cmd := c.idx, va := BitVec.ofNat 56 (cmdTaskPtr c.bytes), phase := .waiting, hdr := 0, rings := [],
                      links := [], snapVa := 0, order := s.nextId }
    if s.mayWork then (s.bump.startCmd q c).updQueue q (fun v => { v with task := some t }) else s)

-- The checks of a task (R98, R99, R405).

/-- Offsets of a task descriptor's parts. -/
def itinOff (n : Nat) : Nat := 64 + 32 * n
def ringOff (h : BitVec 512) (k : Nat) : Nat := 64 + 32 * taskNItin h + 8 * k
def linkOff (h : BitVec 512) (k : Nat) : Nat := 64 + 32 * taskNItin h + 8 * taskNRings h + 8 * k
def taskLen (h : BitVec 512) : Nat := linkOff h (taskNLinks h)

/-- The entries follow R98. -/
def taskEntriesOk (sems : Nat) (itins : List (BitVec 256)) (rings links : List (BitVec 64)) : Bool :=
  itins.all ieOk && rings.all reOk && links.all (fun l => leOk l && decide (leFull l < sems) && decide (leFree l < sems) &&
    rings.any (fun r => reRing r == leRing l))

/-- The group a ring leads, when that group is enabled. -/
def State.leads (s : State) (r : Nat) : Option Nat :=
  let g := s.fld (offRing r 0) 8 6
  if s.flag (offRing r 0) 15 && s.flag (offMg g 0) 31 && s.fld (offMg g 0) 0 10 == r then some g else none

/-- A ring is a member of an enabled group and not its leader (R196). A member of a group that is not enabled is an ordinary ring
(DESIGN CHOICE, log 118: R196's last sentence does not name the group's EN). -/
def State.follows (s : State) (r : Nat) : Bool :=
  let g := s.fld (offRing r 0) 8 6
  s.flag (offRing r 0) 15 && s.flag (offMg g 0) 31 && s.fld (offMg g 0) 0 10 != r

/-- R99 for a ring entry: defined, a Hall ring in the queue's wing, a client ring's port in the client map with its link
up. -/
def State.ringEntryBad (s : State) (q : Nat) (e : BitVec 64) : Bool :=
  let r := reRing e
  !s.ringValid r || (if s.ringClient r then !s.flag offLdgClientmap (s.ringPort r) || !s.cportUp (s.ringPort r)
    else s.ringEast r != s.qEast q)

/-- R196 for a ring entry: every member of the group it leads has a ring entry and a link entry. -/
def State.groupEntryBad (s : State) (rings links : List (BitVec 64)) (e : BitVec 64) : Bool :=
  match s.leads (reRing e) with
  | none => false
  | some g => ((List.range 1024).filter (fun m => s.ringValid m && s.flag (offRing m 0) 15 &&
      s.fld (offRing m 0) 8 6 == g)).any (fun m =>
        !rings.any (fun r => reRing r == m) || !links.any (fun l => leRing l == m))

/-- R187 for a link entry: its semaphores differ, no other entry has one of them, and a client ring's belong to its
port. -/
def State.linkEntryBad (s : State) (links : List (BitVec 64)) (k : Nat) (l : BitVec 64) : Bool :=
  let f := leFull l
  let e := leFree l
  let r := leRing l
  f == e || (links.take k).any (fun m => [leFull m, leFree m].contains f || [leFull m, leFree m].contains e) ||
    (s.ringClient r && (semPort f != s.ringPort r || semPort e != s.ringPort r))

/-- R213 for a link entry with INIT: a semaphore belongs to another queue that is not Idle. -/
def State.initBad (s : State) (q : Nat) (l : BitVec 64) : Bool :=
  leInit l && [leFull l, leFree l].any (fun i =>
    let v := s.sem i
    v.owned && v.owner.toNat != q && (s.queue v.owner.toNat).st != .idle)

/-- A failed check: status, unit, itinerary and FAULT_VA. -/
structure TaskBad where
  st : Byte
  unit : Byte
  itin : Option Nat
  va : Nat
  instr : Nat
  deriving DecidableEq, Repr, Inhabited

/-- What the load-time conditions of one itinerary depend on. -/
def State.loadCtx (s : State) (itins : List (BitVec 256)) (rings links : List (BitVec 64)) (n : Nat) (claims takes : List Nat) :
    LoadCtx where
  rings := rings.map reRing
  client := s.ringClient
  linked := fun r => links.any (fun l => leRing l == r)
  follower := s.follows
  sems := s.cfg.sems
  dtbOk := dtbUsable (ieArg1 (itins.getD n 0#256))
  claims := claims
  takes := takes

/-- The load-time program conditions of a task (R146, R173). -/
def State.programsBad (s : State) (va : Nat) (itins : List (BitVec 256)) (rings links : List (BitVec 64))
    (progs : List (List (BitVec 64))) : Option TaskBad :=
  match progsCheck (s.loadCtx itins rings links) (progs.zipIdx.map (fun x => (x.2, x.1))) [] [] with
  | some (n, i, st) => some { st := st, unit := 0x1#8, itin := some n, instr := i
                              va := if st == stDescInvalid then va + itinOff n else ieProg (itins.getD n 0#256) + 8 * i }
  | none => none

/-- The checks of R99, R383, R380, R196, R187, R213 and R397, in that order (R405). R99's first two bullets are judged together,
ring entry by ring entry, which decides the FAULT_VA when several fail (DESIGN CHOICE, log 105). -/
def State.taskBad (s : State) (q va : Nat) (h : BitVec 512) (itins : List (BitVec 256)) (rings links : List (BitVec 64)) :
    Option TaskBad :=
  let bad (st : Byte) (n : Option Nat) (off : Nat) : Option TaskBad :=
    some { st := st, unit := 0x0#8, itin := n, va := va + off, instr := 0 }
  match rings.zipIdx.find? (fun e => s.ringEntryBad q e.1) with
  | some e => bad stDescInvalid none (ringOff h e.2)
  | none =>
  match itins.zipIdx.find? (fun e => match iePin e.1 with
      | some p => !s.laneInService (wingLane0 (s.qEast q) + p) || decide (s.cfg.wingLanes ≤ p)
      | none => false) with
  | some e => bad stDescInvalid (some e.2) (itinOff e.2)
  | none =>
  if !((List.range s.cfg.wingLanes).any (fun l => s.laneInService (wingLane0 (s.qEast q) + l))) then
    bad stDescInvalid none 0
  else if taskKind h == 1 && (!s.qTallyUser q || (ieArg0 (itins.getD 0 0#256)).toNat % 64 != 0) then bad stDescInvalid none 0
  else
  match rings.zipIdx.find? (fun e => (s.ring (reRing e.1)).broken && !reReset e.1) with
  | some e => bad stEcc none (ringOff h e.2)
  | none =>
  match rings.zipIdx.find? (fun e => s.groupEntryBad rings links e.1) with
  | some e => bad stDescInvalid none (ringOff h e.2)
  | none =>
  match links.zipIdx.find? (fun e => s.linkEntryBad links e.2 e.1) with
  | some e => bad stDescInvalid none (linkOff h e.2)
  | none =>
  match links.zipIdx.find? (fun e => s.initBad q e.1) with
  | some e => bad stDescInvalid none (linkOff h e.2)
  | none => none

/-- A RUN fails a check of its task (R405). -/
def State.taskFails (s : State) (q : Nat) (t : Task) (b : TaskBad) : State :=
  s.failCmd q t.cmd { s.fault b.st b.unit with va := BitVec.ofNat 56 b.va, itin := b.itin, instr := b.instr }

-- Starting a task.

/-- A link entry takes effect: the pairing of a client ring (R184) and INIT (R213). -/
def State.startLink (s : State) (q : Nat) (l : BitVec 64) : State :=
  let r := leRing l
  let s := if s.ringClient r then s.updRing r (fun v => { v with pair := some (leFree l) }) else s
  if !leInit l then s
  else
    let put (s : State) (i n : Nat) : State :=
      (s.updSem i (fun v => { v with
        count := BitVec.ofNat 20 n, ovf := false, unf := false, poisoned := false, owned := true
        owner := BitVec.ofNat 6 q })).sendFault i
    put (put s (leFull l) 0) (leFree l) (s.nslot r)

/-- An itinerary is loaded into its resident slot (R98, R144). -/
def State.loadItin (s : State) (q : Nat) (itins : List (BitVec 256)) (progs : List (List (BitVec 64))) (p : Nat × Nat × Nat) :
    State :=
  let e := itins.getD p.1 0#256
  let i : Itin := {
    (default : Itin) with
    stream := s.nextId, q := q, num := p.1, lane := p.2.1, slot := p.2.2, place := .resident, pin := iePin e
    status := .ready, prog := progs.getD p.1 [], pc := 0
    ar := ((Bank.empty : Bank (BitVec 56)).set 0 (ieArg0 e)).set 1 (ieArg1 e), dtb := ieArg1 e }
  let s : State := { s.bump with itins := s.itins ++ [i] }
  s.stored 0 (laneEast i.lane) i.lane

/-- The task starts: rings are reset, links initialised, the queue's read-cache lines dropped (R223), the itineraries
loaded. A SNAPSHOT task first asks for its snapshot (R397). -/
def State.startTask (s : State) (q : Nat) (t : Task) (itins : List (BitVec 256)) (progs : List (List (BitVec 64)))
    (places : List (Nat × Nat × Nat)) : State :=
  let snap := taskKind t.hdr == 1
  let s := (t.rings.filter reReset).foldl (fun a e => a.resetRing (reRing e) true) s
  let s := t.links.foldl (fun a l => a.startLink q l) s
  let s := s.dropWingLines (s.qEast q) (fun c => c.q == q)
  let s := places.foldl (fun a p => a.loadItin q itins progs p) s
  let t' : Task := { t with
    phase := if snap then .snapshot else .running, order := s.nextId
    snapVa := if snap then ieArg0 (itins.getD 0 0#256) else 0 }
  let s := s.bump.updQueue q (fun v => { v with task := some t', groups := firsts (places.map (fun p => laneGroup p.2.1)) })
  if snap then s.askTally (.user q) else s

/-- The programs of a task, read in itinerary order (R146); none while one of them is on its way. -/
def State.readPrograms (s : State) (q : Nat) (idx : BitVec 16) : List (BitVec 256) → State × Option (List (List (BitVec 64)))
  | [] => (s, some [])
  | e :: es => match s.need (.command q idx) (ieProg e) (8 * ieNInstr e) with
    | (t, .bytes l) => match t.readPrograms q idx es with
      | (u, some ps) => (u, some (words64 l :: ps))
      | (u, none) => (u, none)
    | (t, _) => (t, none)

/-- A task whose descriptor and programs have been read is checked (R405) and starts when every itinerary finds a slot (R100);
one of class 0 may pre-empt for it (R102). -/
def State.taskReady (s : State) (q : Nat) (t : Task) (itins : List (BitVec 256)) (rings links : List (BitVec 64))
    (progs : List (List (BitVec 64))) : State :=
  let va := t.va.toNat
  let held : Task := { t with rings := rings, links := links }
  let stays (p : TaskPhase) : State := s.updQueue q (fun v => { v with task := some { held with phase := p } })
  if s.heldBack rings then stays .waiting
  else match s.programsBad va itins rings links progs with
  | some b => s.taskFails q t b
  | none => match s.taskBad q va t.hdr itins rings links with
  | some b => s.taskFails q t b
  | none =>
    let es := itins.zipIdx.map (fun e => (e.2, iePin e.1))
    match s.placesFor (s.qEast q) (fun _ => false) es with
    | some ps => (s.closeReading (.command q t.cmd)).startTask q held itins progs ps
    | none => if s.qPrio q == 0#2 then (stays .placing).preempt q (es.filter (fun e => !s.swapWaits (s.qEast q) e.2)) else stays .placing

/-- The front end reads the task's descriptor, its header first, then its programs; each is checked once it has come (R98,
R146, R405). -/
def State.readTask (s : State) (q : Nat) (t : Task) : State :=
  let va := t.va.toNat
  let who : Reader := .command q t.cmd
  let bad98 : TaskBad := { st := stDescInvalid, unit := 0x0#8, itin := none, va := va, instr := 0 }
  match s.need who va 64 with
  | (s, .bytes h) =>
    -- The task's tag is known for the fault record of a RUN that fails a check (R98).
    let t : Task := { t with hdr := words512 h }
    let s := s.updQueue q (fun v => { v with task := some t })
    if !taskHdrOk t.hdr then s.taskFails q t bad98
    else match s.need who va (taskLen t.hdr) with
    | (s, .bytes l) =>
      let itins := words256 ((l.drop 64).take (32 * taskNItin t.hdr))
      let rings := words64 ((l.drop (ringOff t.hdr 0)).take (8 * taskNRings t.hdr))
      let links := words64 ((l.drop (linkOff t.hdr 0)).take (8 * taskNLinks t.hdr))
      if !taskEntriesOk s.cfg.sems itins rings links then s.taskFails q t bad98
      else match s.readPrograms q t.cmd itins with
      | (s, some progs) => s.taskReady q t itins rings links progs
      | (s, none) => s
    | (s, _) => s
  | (s, _) => s

/-- TASK_START: the front end goes on with the task of a RUN that has not started. -/
def execTaskStart (q : Nat) (s : State) : Res :=
  let v := s.queue q
  match v.task with
  | none => .next s
  | some t => whenever (s.alive && v.executing && t.unstarted && s.mayWork) s (fun s => s.readTask q t)

/-- Everything of a task has ended: its itineraries have halted, its writes have landed, its signals have been issued
(R13). -/
def State.taskOver (s : State) (q : Nat) : Bool :=
  let cor := (s.corridor.toEast.cells ++ s.corridor.toWest.cells).flatMap (fun c => c.2)
  !s.itins.any (fun i => i.q == q) && !s.tiles.any (fun t => t.q == q) && !s.releases.any (fun r => r.q == q) &&
    !cor.any (fun i => match i with
      | .semInc src _ _ => src.queue? == some q
      | _ => false)

/-- TASK_COMPLETE: the RUN completes (R13). -/
def execTaskComplete (q : Nat) (s : State) : Res :=
  let v := s.queue q
  match v.task with
  | none => .next s
  | some t => match v.cmd t.cmd with
    | none => .next s
    | some c => whenever (s.alive && v.st == .running && !v.stopping && t.phase == .running && s.taskOver q) s (fun s =>
        (((s.updQueue q (fun v => { v with task := none })).finishCmd q c 0).placeAsides))

-- SIGNAL, WAIT, FENCE, MARKER, NOP.

/-- The command of an opcode that has started and not completed. -/
def Queue.begun (v : Queue) (op : Nat) : Option Cmd := v.cmds.find? (fun c => c.started && !c.done && cmdOp c.bytes == op)

/-- A SIGNAL command's increment is still on the Corridor. -/
def State.signalAway (s : State) (q : Nat) : Bool :=
  (s.corridor.toEast.cells ++ s.corridor.toWest.cells).any (fun c => c.2.any (fun i => match i with
    | .semInc src _ _ => src == .command q
    | _ => false))

/-- A SIGNAL completes when its increment has reached the semaphore (R96). -/
def State.signalEnds (s : State) (q : Nat) (c : Cmd) : State :=
  if (s.queue q).stopping || s.signalAway q then s else s.finishCmd q c 0

/-- SIGNAL_COMMAND: COUNT is added to a semaphore (R203). An increment for the other wing crosses the Corridor. -/
def execSignalCommand (q : Nat) (s : State) : Res :=
  match (s.queue q).begun 0x02 with
  | some c => whenever (s.alive && (s.queue q).st == .running) s (fun s => s.signalEnds q c)
  | none => s.onGate q (fun op => op == 0x02) (fun s c =>
      let s := s.startCmd q c
      let k := BitVec.ofNat 20 (cmdSemCount c.bytes)
      ((s.incTurn (s.qEast q) (cmdSem c.bytes) k).sendIncrement (s.qEast q) q noItin (cmdSem c.bytes) k).signalEnds q c)

/-- WAIT_COMMAND: COUNT is taken from a semaphore, at once or when it is granted (R204). -/
def execWaitCommand (q : Nat) (s : State) : Res :=
  s.onGate q (fun op => op == 0x03) (fun s c =>
    let s := s.startCmd q c
    let i := cmdSem c.bytes
    let k := BitVec.ofNat 20 (cmdSemCount c.bytes)
    if semEast i == s.qEast q && !(s.sem i).poisoned && s.semGrantsNow i k then (s.semRemove i k q).finishCmd q c 0
    else s.rejoin q)

/-- A FENCE in flight completes once every earlier command has, background ones included (R96). -/
def State.fenceEnds (s : State) (q : Nat) (c : Cmd) : State :=
  if (s.queue q).allDone c.idx then s.finishCmd q c 0 else s

/-- FENCE starts on reaching it, and completes when every earlier command has (R96). -/
def execFence (q : Nat) (s : State) : Res :=
  match (s.queue q).begun 0x04 with
  | some c => whenever (s.alive && (s.queue q).executing) s (fun s => s.fenceEnds q c)
  | none => s.onGate q (fun op => op == 0x04) (fun s c => (s.startCmd q c).fenceEnds q c)

/-- MARKER writes a completion record with its VALUE (R96, R110). -/
def execMarker (q : Nat) (s : State) : Res :=
  s.onGate q (fun op => op == 0x05) (fun s c => (s.startCmd q c).finishCmd q c (cmdValue c.bytes))

/-- NOP completes at once. A reserved opcode is refused when its turn comes (R94). -/
def execNopCommand (q : Nat) (s : State) : Res :=
  s.onGate q (fun op => op == 0x3F || !opKnown op) (fun s c => (s.startCmd q c).finishCmd q c 0)

-- Background commands.

/-- PREWARM opens misses for the pages of its range (R201). -/
def execPrewarm (q : Nat) (s : State) : Res :=
  match (s.queue q).cmds.find? (fun c => c.started && !c.done && cmdOp c.bytes == 0x20 &&
      decide (c.pages < cmdPreLen c.bytes / 4096)) with
  | some c => whenever (s.alive && !(s.queue q).stopping) s (fun s => s.prewarmGo q c.idx)
  | none => s.onGate q (fun op => op == 0x20) (fun s c => (s.startCmd q c).prewarmGo q c.idx)

/-- A LARDER_CTL with the OP asked for is next. -/
def Queue.nextCtl (v : Queue) (op : Nat) : Bool := match v.next (fun op => op == 0x14) with
  | some c => cmdCtlOp c.bytes == op
  | none => false

/-- The LARDER_CTL of an OP that has started and not completed. -/
def Queue.begunCtl (v : Queue) (op : Nat) : Option Cmd :=
  v.cmds.find? (fun c => c.started && !c.done && cmdOp c.bytes == 0x14 && cmdCtlOp c.bytes == op)

/-- LARDER_CTL_INVALIDATE (R306). One that could not open a miss for a page, or whose answer has come, goes on. -/
def execLarderCtlInvalidate (q : Nat) (s : State) : Res :=
  let v := s.queue q
  match v.begunCtl 1 with
  | some c => whenever (s.alive && !v.stopping && !s.commandWaits (.invalidate q c.idx)) s (fun s => s.invalidateGo q c.idx)
  | none =>
    if !v.nextCtl 1 then .next s
    else s.onGate q (fun op => op == 0x14) (fun s c => (s.startCmd q c).invalidateGo q c.idx)

/-- Skips of a preload: of rows, or of granules whose Larder set is full. The Larder and the front end count them (R96, R279,
R392). -/
def State.skipped (s : State) (u q n : Nat) : State := (s.count u 0x05 0 n).count unitFront 0x03 q n

/-- Skips of whole rows, in the queue's wing. -/
def State.skipLoads (s : State) (q n : Nat) : State := s.skipped (unitLarder (s.qEast q)) q n

/-- The granules of a row with the pages they are translated to: none while a page is being asked for, and a list that is too
short when a page is denied. -/
def State.rowGranules (s : State) (q : Nat) (idx : BitVec 16) (va len : Nat) : State × Option (List Nat) :=
  match s.openReading (.preload q idx) with
  | (s, r) => (unitsOf 128 va len).foldl (fun (a : State × Option (List Nat)) u => match a with
    | (s, none) => (s, none)
    | (s, some gs) => match s.lookPage (s.issuer r) accRead (u.1 / 4096) (.reader r.id va u.1 128) va with
      | (t, .found pp) => (t, some (gs ++ [(pp * 4096 + u.1 % 4096) / 128]))
      | (t, .wait) => (t, none)
      | (t, .denied _) => (t, some gs)) (s, some [])

/-- The installs of a preload's present row, in granule order. -/
def State.preloads (s : State) (q : Nat) (idx : BitVec 16) : List Install :=
  s.larder.installs.filter (fun i => i.preload == some (q, idx))

/-- A preload is done with its present row. -/
def State.rowDone (s : State) (q : Nat) (idx : BitVec 16) (va len : Nat) : State :=
  let s := s.forgetRead (.preload q idx) va len
  { s with larder := { s.larder with installs := s.larder.installs.filter (fun i => i.preload != some (q, idx)) } }

/-- The granules of a row have been read: each is installed, or skipped and counted (R275, R279); one that has been written
since is dropped (R276). -/
def State.preloadAll (s : State) (q : Nat) (is : List Install) (l : List Byte) : State :=
  is.zipIdx.foldl (fun a i =>
    let u := unitLarder (a.homeEast (i.1.granule * 128))
    if i.1.dropped then a.count u 0x07 0 1
    else
      let (b, skipped, demoted) := a.preload i.1.granule (BitVec.ofNat 1024 (leNat ((l.drop (128 * i.2)).take 128)))
      let b := if skipped then b.skipped u q 1 else b
      if demoted then
        b.countLoad i.1.table (b.homeEast (i.1.granule * 128)) (fun c => { c with demoted := c.demoted + 1 })
      else b) s

/-- One row of a preload: its granules are read and installed, or it is skipped and counted (R279). The flag says that the
row is done. -/
def State.preloadRow (s : State) (q : Nat) (idx : BitVec 16) (t : Nat) (d : BitVec 512) (row : Nat) : State × Bool :=
  let va := tbRowVa d row / 128 * 128
  let len := (tbRowVa d row + tbRowBytes d + 127) / 128 * 128 - va
  if tbNLocal d ≤ row then (s.skipLoads q 1, true)
  else
    let skip (s : State) : State × Bool := ((s.skipLoads q 1).rowDone q idx va len, true)
    let read (s : State) : State × Bool := match s.needItem (.preload q idx) va len (fun _ => va) with
      | (s, .bytes l) => ((s.preloadAll q (s.preloads q idx) l).rowDone q idx va len, true)
      | (s, .failed _) => skip s
      | (s, .wait) => (s, false)
    if !(s.preloads q idx).isEmpty then read s
    else match s.rowGranules q idx va len with
    | (s, none) => (s, false)
    | (s, some gs) =>
      if gs.length * 128 < len then skip s
      else read { s with larder := { s.larder with installs := s.larder.installs ++ gs.map (fun g =>
        { id := s.nextId, east := s.homeEast (g * 128), granule := g, table := t, dropped := false
          preload := some (q, idx) }) } }

/-- The next row of a preload (R279): its number is read from the list, then the row. -/
def State.preloadNext (s : State) (q : Nat) (c : Cmd) (v : Version) (i : Nat) : State × Bool :=
  match s.needElem (.preload q c.idx) (cmdCtlAddr c.bytes) (8 * cmdPreN c.bytes) (cmdCtlAddr c.bytes + 8 * i) 8 with
  | (s, .bytes l) => s.preloadRow q c.idx (cmdTable c.bytes) v.desc (leNat l)
  | (s, .failed _) => (s.skipLoads q 1, true)
  | (s, .wait) => (s, false)

/-- The version whose rows a preload reads: the current one of its table, with LARDER set and the Larder in use (R279). -/
def State.preloadVersion (s : State) (c : Cmd) : Option Version :=
  (s.table (cmdTable c.bytes)).current.filter (fun v => tbLarder v.desc && !s.larderBypass)

/-- LARDER_CTL PRELOAD goes on, row by row, until one is being read. Without a version to read, every row left is skipped. -/
def State.preloadGo (s : State) (q : Nat) (idx : BitVec 16) : State :=
  match (s.queue q).cmd idx with
  | none => s
  | some c =>
    let n := cmdPreN c.bytes
    let (s, at', _) := (List.range (n - c.pages)).foldl (fun (a : State × Nat × Bool) _ =>
      let (s, i, stop) := a
      if stop then a
      else match s.preloadVersion c with
      | none => ((s.skipLoads q (n - i)).rowDone q idx 0 0, n, true)
      | some v => match s.preloadNext q c v i with
        | (s, true) => (s, i + 1, false)
        | (s, false) => (s, i, true)) (s, c.pages, false)
    let s := s.updQueue q (fun v => v.updCmd idx (fun c => { c with pages := at' }))
    if at' < n then s else (s.closeReading (.preload q idx)).finishCmd q c 0

/-- LARDER_CTL_PRELOAD. -/
def execLarderCtlPreload (q : Nat) (s : State) : Res :=
  let v := s.queue q
  match v.begunCtl 0 with
  | some c => whenever (s.alive && !v.stopping) s (fun s => s.preloadGo q c.idx)
  | none =>
    if !v.nextCtl 0 then .next s
    else s.onGate q (fun op => op == 0x14) (fun s c => (s.startCmd q c).preloadGo q c.idx)

/-- BACKGROUND_START_AFTER_RUN: a PREWARM or preload directly after a RUN, or after such commands that directly follow it,
starts when the task's last itinerary has halted (R14, R96). A preload goes on with its own command. -/
def execBackgroundStartAfterRun (q : Nat) (s : State) : Res :=
  let v := s.queue q
  match v.task, v.cmds.find? (fun c => !c.started && !c.done) with
  | some t, some c =>
    let between := (v.cmds.dropWhile (fun x => x.idx != t.cmd)).takeWhile (fun x => x.idx != c.idx)
    whenever (s.alive && v.executing && t.phase == .running && cmdBackground c.bytes && !c.crossing &&
        (between.drop 1).all (fun x => cmdBackground x.bytes) &&
        !s.itins.any (fun i => i.q == q && i.place != .ended)) s (fun s =>
      if !cmdOk c.bytes s.cfg.sems then s.refuseCmd q c stDescInvalid 0x0#8
      else if cmdOp c.bytes == 0x20 then (s.startCmd q c).prewarmGo q c.idx
      else s.startCmd q c)
  | _, _ => .next s

end Sys2Proof.Machine
end

