-- ==== Sys2Proof/Machine/LedgerFam.lean ====
section
/-!
DEFINITION. The Ledger: transactions (R371), staged writes (R372), the checks of a COMMIT (R373), its quiescence (R374,
R376) and its effect (R375).
-/

namespace Sys2Proof.Machine

/-- A write to an RWT register (R372): staged while the Ledger is Open, otherwise ignored and counted. -/
def State.writeRwt (s : State) (mid : BitVec 8) (off : Nat) (data : Word) : State :=
  let l := s.ledger
  if l.st != .opened then (s.countReg offLdgCounts 0 16 1).raiseEvent offLdgEvents 3
  else if s.isStaged off then
    { s with ledger := { l with staged := l.staged.map (fun e => if e.1 == off then (off, data) else e) } }
  else if 4096 ≤ l.staged.length then
    ({ s with ledger := { l with overflow := true } } : State).raiseEvent offLdgEvents 2
  else { s with ledger := { l with staged := l.staged ++ [(off, data)], owner := if l.staged.isEmpty then mid else l.owner } }

/-- RWT_STAGED_WRITE: a control-port write to an RWT register (R372); one of a unit that the instance lacks is ignored
(R3). -/
def execRwtStagedWrite (mid : BitVec 8) (addr : BitVec 24) (data : Word) (s : State) : Res :=
  if !isRwt addr.toNat then .next s
  else s.cpEffect addr.toNat (fun s => if s.offPresent addr.toNat then s.writeRwt mid addr.toNat data else s)

/-- The queue's next command is a LEDGER with one of the OPs. -/
def Queue.nextLedger (v : Queue) (ops : List Nat) : Bool := match v.next (fun op => op == 0x30) with
  | some c => ops.contains (cmdLdgOp c.bytes)
  | none => false

/-- A LEDGER command's start: only Q0 executes one (R88). -/
def State.onLedger (s : State) (q : Nat) (ops : List Nat) (f : State → Cmd → State) : Res :=
  if !(s.queue q).nextLedger ops then .next s
  else s.onGate q (fun op => op == 0x30) (fun s c =>
    if q != 0 then s.refuseCmd q c stDescInvalid 0x0#8
    else f (s.startCmd q c) c)

/-- A LEDGER command fails: unit 0x9, DETAIL 0 (R371). -/
def State.ledgerFails (s : State) (idx : BitVec 16) (st : Byte) : State := s.failCmd 0 idx (s.fault st 0x9#8)

/-- LEDGER_BEGIN: Closed becomes Open with empty staging. The reserved OP 3 is refused here. -/
def execLedgerBegin (q : Nat) (s : State) : Res :=
  s.onLedger q [0, 3] (fun s c =>
    if s.ledger.st != .closed then s.ledgerFails c.idx stLdgConflict
    else
      let l : Ledger := { (default : Ledger) with st := .opened, txn := cmdTxn c.bytes }
      ({ s with ledger := l } : State).finishCmd q c 0)

/-- LEDGER_ROLLBACK: Open becomes Closed, the staged writes are discarded. -/
def execLedgerRollback (q : Nat) (s : State) : Res :=
  s.onLedger q [2] (fun s c =>
    if s.ledger.st != .opened then s.ledgerFails c.idx stLdgConflict
    else ({ s with ledger := s.ledger.close } : State).finishCmd q c 0)

/-- The first check of R373 that the staged structure fails: its number and the register concerned. -/
def State.commitCheck (s : State) : Option (Nat × Nat) :=
  if s.ledger.overflow then some (2, 0)
  else match structCheck s.cfg (s.structNow true) with
    | some r => some r
    | none => (s.ledger.staged.find? (fun e => structBad s.cfg e.1 e.2)).map (fun e => (7, e.1))

/-- A COMMIT fails: nothing is applied and the Ledger stays Open (R371). -/
def State.commitFails (s : State) (idx : BitVec 16) (st : Byte) (check off : Nat) : State :=
  let s := (s.ledgerResult st check off).raiseEvent offLdgEvents 1
  let s : State := { s with ledger := { s.ledger with st := .opened, clearing := false } }
  s.ledgerFails idx st

/-- A staged write changes a Larder window. -/
def State.windowsChange (s : State) : Bool :=
  s.ledger.staged.any (fun e => decide (0x0D0100 ≤ e.1) && decide (e.1 < 0x0D0140) && e.2 != s.reg e.1)

/-- Rings whose RING_CFG or RING_BASE a commit changes. -/
def State.ringsChanged (s : State) : List Nat :=
  firsts ((s.ledger.staged.filter (fun e => decide (0x061000 ≤ e.1) && decide (e.1 < 0x069000) && e.2 != s.reg e.1)).map
    (fun e => (e.1 - 0x061000) / 0x20))

/-- The fixed-split counters of a wing's ports are reset (R190). -/
def State.resetShares (s : State) (east : Bool) : State :=
  (List.range s.cfg.mports).foldl (fun a p =>
    if mportEast p == east then a.updMport p (fun v => { v with cntR := 0, cntW := 0, cntX := 0 }) else a) s

/-- The shares of a wing are staged to change. -/
def State.sharesChange (s : State) (east : Bool) : Bool :=
  (s.reg (offRingArb east) &&& 0xFFFFFF#32) != (s.structAfter (offRingArb east) &&& 0xFFFFFF#32)

/-- The staged writes apply (R375), and the COMMIT completes. -/
def State.applyCommit (s : State) : State :=
  let rings := s.ringsChanged
  let wings := [false, true].filter s.sharesChange
  let s := s.ledger.staged.foldl (fun a e => a.setReg e.1 e.2) s
  let s := rings.foldl (fun a r => a.resetRing r false) s
  let s := (wings.foldl (fun a w => a.resetShares w) s).reroute
  let s := (s.countReg offLdgCounts 16 16 1).raiseEvent offLdgEvents 0
  let s := s.ledgerResult stOk 0 0
  let idx := s.ledger.cmd
  let s : State := { s with ledger := s.ledger.close }
  match (s.queue 0).cmd idx with
  | some c => s.finishCmd 0 c 0
  | none => s

/-- LEDGER_COMMIT: the checks of R373; then the COMMIT waits for quiescence. With nothing staged it completes at once. -/
def execLedgerCommit (q : Nat) (s : State) : Res :=
  s.onLedger q [1] (fun s c =>
    if s.ledger.st != .opened then
      ((s.ledgerResult stLdgConflict 1 0).raiseEvent offLdgEvents 1).ledgerFails c.idx stLdgConflict
    else match s.commitCheck with
    | some (k, off) => s.commitFails c.idx stLdgConflict k off
    | none =>
      let s : State := { s with ledger := { s.ledger with st := .committing, cmd := c.idx } }
      if s.ledger.staged.isEmpty then s.applyCommit else s)

/-- Every quiescence condition holds (R374). -/
def State.quiescent (s : State) : Bool :=
  (List.range s.cfg.queues).all (fun q =>
    let v := s.queue q
    (!s.wingStaged q || (v.st == .idle && !s.qEn q)) &&
      (match v.task with
        | some t => (v.st != .running && v.st != .suspended && v.st != .retiring) || t.unstarted ||
            !t.rings.any (fun e => s.ringAffected (reRing e))
        | none => true))

/-- COMMIT_QUIESCED: the conditions hold. When a Larder window changes, every way of both wings is invalidated first. -/
def execCommitQuiesced (s : State) : Res :=
  whenever (s.alive && s.ledger.st == .committing && !s.ledger.clearing && s.quiescent) s (fun s =>
    if s.windowsChange && decide (0 < s.cfg.tiers) then
      { s with
        ledger := { s.ledger with clearing := true }
        larder := { s.larder with
          dir := .empty, clearing := true, installs := s.larder.installs.map (fun i => { i with dropped := true }) } }
    else s.applyCommit)

/-- LARDER_WINDOW_CLEAR_DONE: the directory rows are clear; the commit's writes apply. -/
def execLarderWindowClearDone (s : State) : Res :=
  whenever (s.alive && s.larder.clearing) s (fun s =>
    let s : State := { s with larder := { s.larder with clearing := false } }
    if s.ledger.st == .committing && s.ledger.clearing then s.applyCommit else s)

/-- COMMIT_QUIESCENCE_TIMEOUT (R376). -/
def execCommitQuiescenceTimeout (s : State) : Res :=
  whenever (s.alive && s.ledger.st == .committing && !s.ledger.clearing && !s.quiescent) s (fun s =>
    s.commitFails s.ledger.cmd stLdgNotQuiesced 11 0)

end Sys2Proof.Machine
end

