-- ==== Sys2Proof/Machine/Tables.lean ====
section
/-!
DEFINITION. Table versions: TABLE_BIND (R253, R254, R256, R296) and TABLE_RETIRE (R299).
-/

namespace Sys2Proof.Machine

/-- The row types of a table (R253). -/
def tableType (t : Nat) : Bool := [0x0, 0x1, 0x5, 0x6, 0x7, 0x8, 0x9, 0xC].contains t

/-- The fields of a table descriptor (R253). -/
def tableFieldsOk (d : BitVec 512) : Bool :=
  onlyFields d [(0, 8), (8, 4), (16, 2), (24, 8), (32, 6), (40, 2), (48, 16), (64, 56), (128, 32), (160, 16), (192, 40),
    (256, 64), (320, 64), (384, 64), (448, 32)] &&
    decide (fieldAt d 0 1 = 3) && tableType (tbDtype d) && decide (1 ≤ tbNdev d) && decide (tbNdev d ≤ 64) &&
    (if tbRange d then tbDevbase d == 0 else decide (tbDevbase d + tbNdev d ≤ 64)) && decide (tbOptkind d < 3) &&
    decide (1 ≤ tbDim d) && decide (tbDim d ≤ 1024) && decide (tbBase d % 16 = 0) &&
    decide (16 ≤ tbPitch d) && decide (tbPitch d ≤ 2 ^ 20) && decide (tbPitch d % 16 = 0) &&
    decide (tbOptOfs d % 4 = 0) && (tbOptkind d != 0 || tbOptOfs d == 0) &&
    decide (1 ≤ tbNGlobal d) &&
    (if tbRange d then decide (tbRangePtr d % 64 = 0) && decide (tbRangePtr d < 2 ^ 56) else tbRangePtr d == 0) &&
    decide (tbNRemap d ≤ 65536) &&
    (if tbNRemap d = 0 then tbRemapPtr d == 0 else decide (tbRemapPtr d % 16 = 0) && decide (tbRemapPtr d < 2 ^ 56))

/-- The row layout (R254): the stored row and the optimiser state fit the pitch and do not overlap. -/
def tableLayoutOk (d : BitVec 512) : Bool :=
  let rb := tbRowBytes d
  let o := tbOptOfs d
  let n := tbStateBytes d
  decide (rb ≤ tbPitch d) && (n == 0 || (decide (o + n ≤ tbPitch d) && decide (rb ≤ o)))

/-- Range and remap entries: start or limit, local row, device. -/
def rgLimit (e : BitVec 128) : Nat := fieldAt e 0 8
def rgLocal (e : BitVec 128) : Nat := fieldAt e 8 5
def rgDev (e : BitVec 128) : Nat := bits e 104 6

/-- The range table keeps R256: limits rise strictly, reserved bits are 0. -/
def rangeTableOk (l : List (BitVec 128)) : Bool :=
  l.all (fun e => onlyFields e [(0, 64), (64, 40), (104, 6)]) &&
    (l.zip (l.drop 1)).all (fun p => decide (rgLimit p.1 < rgLimit p.2))

/-- A table check fails: unit 0x3 (R112). -/
def State.tableFails (s : State) (q : Nat) (c : Cmd) (va : Nat) : State :=
  s.failCmd q c.idx { s.fault stDescInvalid 0x3#8 with va := BitVec.ofNat 56 va }

/-- The new version is Current and the old one Superseded (R296). -/
def Table.bind (t : Table) (v : Version) : Table :=
  { t with
    slots := t.slots.map (fun x => if x.st == .current then { x with st := .superseded } else x) ++ [v]
    last := v.epoch }

/-- The checks on the range table and the epoch have been made: the version is installed (R296). -/
def State.bindVersion (s : State) (q : Nat) (c : Cmd) (desc : BitVec 512) (ranges : List (BitVec 128)) : State :=
  let e := cmdEpoch c.bytes
  let t := s.table (cmdTable c.bytes)
  if !rangeTableOk ranges then s.tableFails q c (tbRangePtr desc)
  else if e == 0#32 || decide (e.toNat ≤ t.last.toNat) || decide (4 ≤ t.slots.length) then s.tableFails q c 0
  else
    let v : Version := { epoch := e, st := .current, asid := s.qAsid q, desc := desc }
    ((s.closeReading (.command q c.idx)).setTable (cmdTable c.bytes) (t.bind v)).finishCmd q c 0

/-- A TABLE_BIND goes on: the front end reads the descriptor, then the range table, and checks them. -/
def State.bindGo (s : State) (q : Nat) (c : Cmd) : State :=
  let va := cmdBatchPtr c.bytes
  match s.need (.command q c.idx) va 64 with
  | (s, .bytes l) =>
    let desc := words512 l
    if !tableFieldsOk desc || !tableLayoutOk desc then s.tableFails q c va
    else match s.need (.command q c.idx) (tbRangePtr desc) (if tbRange desc then 16 * tbNdev desc else 0) with
    | (s, .bytes r) => s.bindVersion q c desc (words128 r)
    | (s, _) => s
  | (s, _) => s

/-- TABLE_BIND (R296). -/
def execTableBind (q : Nat) (s : State) : Res :=
  match (s.queue q).begun 0x12 with
  | some c => whenever (s.alive && (s.queue q).executing) s (fun s => s.bindGo q c)
  | none => s.onGate q (fun op => op == 0x12) (fun s c =>
      (s.startCmd q c).bindGo q c)

/-- The version of an epoch is Retired: its slot is free and RETCNT rises (R299). -/
def Table.retired (t : Table) (e : Word) : Table :=
  { t with slots := t.slots.filter (fun v => v.epoch != e), retcnt := t.retcnt + 1 }

/-- A TABLE_RETIRE completes when no batch is bound to its version. -/
def State.retireVersion (s : State) (q : Nat) (c : Cmd) : State :=
  let k := cmdTable c.bytes
  let e := cmdEpoch c.bytes
  if s.boundTo k e != 0 then s
  else
    let t := (s.table k).retired e
    (s.setTable k t).finishCmd q c t.retcnt.toNat

/-- TABLE_RETIRE: the version becomes Retiring; with no batch bound to it the command completes (R299). -/
def execTableRetire (q : Nat) (s : State) : Res :=
  s.onGate q (fun op => op == 0x13) (fun s c =>
    let k := cmdTable c.bytes
    let e := cmdEpoch c.bytes
    let t := s.table k
    match t.slots.find? (fun v => v.epoch == e && v.st != .retiring) with
    | none => s.failCmd q c.idx { s.fault stEpochRetired 0x0#8 with detail := BitVec.ofNat 32 k }
    | some _ =>
      let t : Table := { t with slots := t.slots.map (fun v => if v.epoch == e then { v with st := .retiring } else v) }
      ((s.startCmd q c).setTable k t).retireVersion q c)

/-- VERSION_RETIRED: the last bound batch has ended (R299). -/
def execVersionRetired (q : Nat) (s : State) : Res :=
  match (s.queue q).begun 0x13 with
  | some c => whenever (s.alive && (s.queue q).st == .running && !(s.queue q).stopping) s (fun s => s.retireVersion q c)
  | none => .next s

end Sys2Proof.Machine
end

