-- ==== Sys2Proof/Machine/Porter.lean ====
section
/-!
DEFINITION. The Porter: LOOKUP batches (R255-R272) and UPDATE batches (R284-R294).
-/

namespace Sys2Proof.Machine

-- Batch descriptors (R259, R284).

def lbMode (h : BitVec 512) : Nat := bits h 8 2
def lbIdx (h : BitVec 512) : Nat := fieldAt h 8 8
def lbBag (h : BitVec 512) : Nat := fieldAt h 16 8
def lbWgt (h : BitVec 512) : Nat := fieldAt h 24 8
def lbOut (h : BitVec 512) : Nat := fieldAt h 32 8
def ubRow (h : BitVec 512) : Nat := fieldAt h 8 8
def ubGrad (h : BitVec 512) : Nat := fieldAt h 16 8
def ubPitch (h : BitVec 512) : Nat := fieldAt h 24 4

/-- A pointer field holds a virtual address with an alignment. -/
def ptrOk (a n : Nat) : Bool := decide (a < 2 ^ 56) && decide (a % n = 0)

/-- A LOOKUP batch descriptor keeps R259. -/
def lookupHdrOk (h : BitVec 512) : Bool :=
  onlyFields h [(0, 8), (8, 2), (64, 256)] && decide (fieldAt h 0 1 = 3) && decide (lbMode h < 3) &&
    ptrOk (lbIdx h) 8 && ptrOk (lbBag h) 4 && (if lbMode h = 2 then ptrOk (lbWgt h) 4 else lbWgt h == 0) && ptrOk (lbOut h) 64

/-- An UPDATE batch descriptor keeps R284. -/
def updateHdrOk (h : BitVec 512) (dim : Nat) : Bool :=
  onlyFields h [(0, 8), (8, 4), (16, 1), (64, 160)] && decide (fieldAt h 0 1 = 3) &&
    (ubGtype h == 0x9 || ubGtype h == 0x8) && ptrOk (ubRow h) 8 && ptrOk (ubGrad h) 16 && decide (ubPitch h % 16 = 0) &&
    decide (dim * dtypeSize (ubGtype h) ≤ ubPitch h) && decide (ubPitch h ≤ 2 ^ 20)

/-- A binary32 word is infinite or NaN; a word is negative (log 39). -/
def notFinite (w : Word) : Bool := bits w 23 8 == 255
def isNegative (w : Word) : Bool := bitAt w 31 && w != 0x80000000#32

/-- The version and the operands fit the rule (R286). -/
def updateRuleOk (c : BitVec 512) (d : BitVec 512) : Bool :=
  !notFinite (cmdLr c) && (cmdRule c == 0 && cmdEps c == 0#32 ||
    cmdRule c == 1 && tbOptkind d != 0 && !notFinite (cmdEps c) && !isNegative (cmdEps c))

/-- What LOOKUP asks of its output descriptor: the status of the first check that fails (R114, R142, R261). -/
def outputCheck (d : BitVec 1024) : Option Byte :=
  if tdInvalid d || tdSlot d then some stDescInvalid
  else if tdDtype d == 0x2 || 0xA ≤ tdDtype d then some stDtype
  else tdReadCheck d true

/-- The unit that raises a status of an output descriptor's check (R112). -/
def outputUnit (st : Byte) : Byte := if st == stDescInvalid || st == stDtype then 0x3#8 else 0x1#8

-- Failing and reading.

/-- A fault of a batch, with the sub-window it is building in snapshot 3 (R272, R294). -/
def State.failBatch (s : State) (b : Batch) (f : FaultInfo) : State :=
  let s : State := if (s.queue b.q).stopping then s else s.snapDetail b.q b.stream 3 (BitVec.ofNat 32 b.built)
  s.failCmd b.q b.cmd f

def State.batchFault (s : State) (st unit : Byte) (va : Nat) : FaultInfo :=
  { s.fault st unit with va := BitVec.ofNat 56 va }

-- Starting a batch.

/-- A LOOKUP or UPDATE starts and binds the current version of its table (R262, R286, R298). -/
def State.startBatch (s : State) (q : Nat) (c : Cmd) (upd : Bool) : State :=
  let s := s.startCmd q c
  match (s.table (cmdTable c.bytes)).current with
  | none => s.failCmd q c.idx { s.fault stEpochRetired 0x3#8 with detail := BitVec.ofNat 32 (cmdTable c.bytes) }
  | some v =>
    let b : Batch := {
      id := s.nextId, q := q, cmd := c.idx, isUpdate := upd, east := s.qEast q, table := cmdTable c.bytes
      epoch := v.epoch, desc := v.desc, hdr := 0#512, out := 0#1024
      total := if upd then cmdNRows c.bytes else cmdNIndex c.bytes, bags := if upd then 0 else cmdNBags c.bytes
      atIdx := 0, atBag := 0, built := 0, stream := s.nextId + 1, counted := 0, lines := [] }
    { s.bump.bump with porter := { s.porter with batches := s.porter.batches ++ [b] } }

/-- The batch of a queue whose descriptor has not been read. -/
def State.unreadBatch (s : State) (q : Nat) (upd : Bool) : Option Batch :=
  s.porter.batches.find? (fun b => b.q == q && b.isUpdate == upd && b.hdr == 0#512)

/-- A LOOKUP's output descriptor, which the Porter reads (R261). -/
def State.lookupOut (s : State) (b : Batch) (hdr : BitVec 512) : State :=
  match s.need (.batch b.id) (lbOut hdr) 128 with
  | (s, .bytes l) =>
    let out : BitVec 1024 := BitVec.ofNat 1024 (leNat l)
    match outputCheck out with
    | some c => s.failBatch b (s.batchFault c (outputUnit c) (lbOut hdr))
    | none => ((s.closeReading (.command b.q b.cmd)).closeReading (.batch b.id)).updBatch b.id (fun b => { b with
        hdr := hdr, out := out })
  | (s, _) => s

/-- A LOOKUP reads its batch descriptor, by the front end, and its output descriptor (R69, R259, R261). -/
def State.lookupGo (s : State) (b : Batch) : State :=
  let va := cmdBatchPtr (s.batchCmd b)
  match s.need (.command b.q b.cmd) va 64 with
  | (s, .bytes l) =>
    if lookupHdrOk (words512 l) then s.lookupOut b (words512 l) else s.failBatch b (s.batchFault stDescInvalid 0x3#8 va)
  | (s, _) => s

/-- LOOKUP (R259-R262). -/
def execLookup (q : Nat) (s : State) : Res :=
  match s.unreadBatch q false with
  | some b => whenever (s.alive && (s.queue q).executing) s (fun s => s.lookupGo b)
  | none => s.onGate q (fun op => op == 0x10) (fun s c =>
      if !s.mayWork then s
      else
        let s := s.startBatch q c false
        match s.unreadBatch q false with
        | some b => s.lookupGo b
        | none => s)

/-- An UPDATE reads its batch descriptor (R284, R286). -/
def State.updateGo (s : State) (b : Batch) : State :=
  let c := s.batchCmd b
  match s.need (.command b.q b.cmd) (cmdBatchPtr c) 64 with
  | (s, .bytes l) =>
    let hdr := words512 l
    if !updateHdrOk hdr (tbDim b.desc) || !updateRuleOk c b.desc then
      s.failBatch b (s.batchFault stDescInvalid 0x3#8 (cmdBatchPtr c))
    else (s.closeReading (.command b.q b.cmd)).updBatch b.id (fun b => { b with hdr := hdr })
  | (s, _) => s

/-- UPDATE (R284-R286). -/
def execUpdate (q : Nat) (s : State) : Res :=
  match s.unreadBatch q true with
  | some b => whenever (s.alive && (s.queue q).executing) s (fun s => s.updateGo b)
  | none => s.onGate q (fun op => op == 0x11) (fun s c =>
      if !s.mayWork then s
      else
        let s := s.startBatch q c true
        match s.unreadBatch q true with
        | some b => s.updateGo b
        | none => s)

-- Whose turn it is (R266).

/-- A batch has a sub-window to build, and its queue executes. -/
def State.wantsBuild (s : State) (b : Batch) : Bool :=
  (s.queue b.q).executing && b.hdr != 0#512 && !s.building b &&
    (if b.isUpdate then decide (b.atIdx < b.total) else decide (b.atBag < b.bags))

/-- The batch a wing's Porter begins to build for next: the most urgent class, then the one that started first. -/
def State.nextBatch (s : State) (east : Bool) : Option Batch :=
  (s.porter.batches.filter (fun b => b.east == east && s.wantsBuild b)).foldl (fun a b => match a with
    | none => some b
    | some x => if (s.qPrio b.q).toNat < (s.qPrio x.q).toNat then some b else a) none

/-- A batch's build waits for the answer to a miss. -/
def State.buildMisses (s : State) (b : Batch) : Bool := match s.reading (.batch b.id) with
  | some r => s.misses.any (fun m => m.waiters.any (fun w => match w.who with
      | .reader id _ _ _ => id == r.id
      | _ => false))
  | none => false

/-- The batch whose sub-window a step of a wing may build: one that it has begun, or the next one, when a half of the store is
free and every build it has begun waits for a miss (R266, R317). A build that has begun goes on while its queue is being
suspended (R103). -/
def State.buildable (s : State) (east : Bool) (id : Nat) : Option Batch :=
  let begun := s.porter.batches.filter (fun b => b.east == east && s.building b)
  if !s.alive then none
  else match begun.find? (fun b => b.id == id) with
  | some b => some b
  | none =>
    if begun.all s.buildMisses && decide ((s.porter.subs.filter (fun w => w.east == east)).length + begun.length < 2) then
      (s.nextBatch east).filter (fun b => b.id == id)
    else none

-- Resolving indices (R255-R258).

/-- Remap table entries: first index, local row, owner, length. -/
def rmStart (e : BitVec 128) : Nat := fieldAt e 0 8
def rmLocal (e : BitVec 128) : Nat := fieldAt e 8 5
def rmDev (e : BitVec 128) : Nat := bits e 104 6
def rmLen (e : BitVec 128) : Nat := fieldAt e 14 2 + 1

/-- A read that a build needs: the array, and the element of it. -/
structure Ask where
  base : Nat
  len : Nat
  va : Nat
  n : Nat
  deriving DecidableEq, Repr, Inhabited

/-- What an index resolves to. -/
inductive Resolved where
  | padding
  | row (owner loc : Nat)
  /-- A status, its unit, FAULT_VA and FAULT_PA. -/
  | fails (st unit : Byte) (va pa : Nat)
  /-- A read has not given its data. -/
  | asks (a : Ask)
  deriving DecidableEq, Repr, Inhabited

/-- The range table of a version, where it has one. -/
def rangeAsk (d : BitVec 512) : Ask := { base := tbRangePtr d, len := 16 * tbNdev d, va := tbRangePtr d, n := 16 * tbNdev d }

/-- The owner rule (R255, R256). -/
def ownerRule (r : Reading) (d : BitVec 512) (idxVa g : Nat) : Resolved :=
  if !tbRange d then .row (tbDevbase d + g % max 1 (tbNdev d)) (g / max 1 (tbNdev d))
  else match r.bytes (tbRangePtr d) (16 * tbNdev d) with
  | none => .asks (rangeAsk d)
  | some l =>
    let l := words128 l
    match (List.range l.length).find? (fun e => decide (g < rgLimit (l.getD e 0))) with
    | none => .fails stIndexRange 0x3#8 idxVa 0
    | some e => .row (rgDev (l.getD e 0)) (rgLocal (l.getD e 0) + (g - if e = 0 then 0 else rgLimit (l.getD (e - 1) 0)))

-- The remap table (R257): the Porter searches it by halves, through its cache of 512-byte lines (R263, R266).

/-- The 512-byte line of a remap table that holds an entry, cut to the table: its address and its length. -/
def remapSpan (d : BitVec 512) (e : Nat) : Nat × Nat := arrayWindow (tbRemapPtr d) (16 * tbNRemap d) (tbRemapPtr d + 16 * e) 16

/-- A line of the remap cache is the one wanted. -/
def RemapLine.holds (x : RemapLine) (b : Batch) (line : Nat) : Bool :=
  x.east == b.east && x.table == b.table && x.epoch == b.epoch && x.line == line

/-- The entries of a line, from the remap cache or as just read. -/
def State.remapLine (s : State) (b : Batch) (r : Reading) (span : Nat × Nat) : Option (List (BitVec 128)) :=
  match s.porter.remap.find? (fun x => x.holds b (span.1 / 512)) with
  | some x => some (words128 x.bytes)
  | none => (r.bytes span.1 span.2).map words128

/-- The first of some entries, which follow one another in the table, that is out of order or overlaps the one before it (R257).
A reserved bit (byte 13 [7:6]) that is not zero is no violation: R257 names only order and overlap (log 37, DESIGN CHOICE). -/
def remapBad (l : List (BitVec 128)) : Option Nat :=
  (List.range (l.length - 1)).findSome? (fun i =>
    if rmStart (l.getD (i + 1) 0) < rmStart (l.getD i 0) + rmLen (l.getD i 0) then some (i + 1) else none)

/-- The address of the first entry that breaks R257 among those of a line and the entries beside the line, where their lines have
been read too (log 37). -/
def State.lineBad (s : State) (b : Batch) (r : Reading) (span : Nat × Nat) (l : List (BitVec 128)) : Option Nat :=
  let d := b.desc
  let k := (span.1 - tbRemapPtr d) / 16
  let line (e : Nat) : List (BitVec 128) := (s.remapLine b r (remapSpan d e)).getD []
  let prev := if k = 0 then none else (line (k - 1)).getLast?
  let next := if k + l.length < tbNRemap d then (line (k + l.length)).head? else none
  (remapBad (prev.toList ++ l ++ next.toList)).map (fun i => tbRemapPtr d + 16 * (k + i - prev.toList.length))

/-- What a search of the remap table ends in: an entry that holds the index, none, an entry that breaks R257, or a line to
read. -/
inductive Remapped where
  | entry (e : BitVec 128)
  | absent
  | bad (va : Nat)
  | line (span : Nat × Nat)
  deriving DecidableEq, Repr, Inhabited

/-- Search by halves: entries below `lo` start at or below g, entries from `hi` on start above it; `best` is the last of the
former. -/
def State.remapFind (s : State) (b : Batch) (r : Reading) (g : Nat) : Nat → Nat → Nat → Option (BitVec 128) → Remapped
  | 0, _, _, best => match best with
    | some e => if g < rmStart e + rmLen e then .entry e else .absent
    | none => .absent
  | fuel + 1, lo, hi, best =>
    if hi ≤ lo then s.remapFind b r g 0 lo hi best
    else
      let mid := (lo + hi) / 2
      let span := remapSpan b.desc mid
      match s.remapLine b r span with
      | none => .line span
      | some l => match s.lineBad b r span l with
        | some va => .bad va
        | none =>
          let e := l.getD ((tbRemapPtr b.desc + 16 * mid - span.1) / 16) 0
          if rmStart e ≤ g then s.remapFind b r g fuel (mid + 1) hi (some e) else s.remapFind b r g fuel lo mid best

/-- The owner of a resolved row has its say: this device checks N_LOCAL, another one must be reachable (R258). -/
def State.checkOwner (s : State) (d : BitVec 512) (idxVa : Nat) : Resolved → Resolved
  | .row o l =>
    if o = s.devid then (if tbNLocal d ≤ l then .fails stIndexRange 0x3#8 idxVa 0 else .row o l)
    else if !s.reachable o then .fails stUnreachable 0x5#8 0 o
    else .row o l
  | x => x

/-- Resolve a global index: padding, N_GLOBAL, the remap table, the owner rule (R255), then the owner (R258). -/
def State.resolveIdx (s : State) (b : Batch) (r : Reading) (idxVa g : Nat) : Resolved :=
  let d := b.desc
  if g = 2 ^ 64 - 1 then .padding
  else if tbNGlobal d ≤ g then .fails stIndexRange 0x3#8 idxVa 0
  else match s.remapFind b r g 17 0 (tbNRemap d) none with
  | .line span => .asks { base := span.1, len := span.2, va := span.1, n := span.2 }
  | .bad va => .fails stDescInvalid 0x3#8 va 0
  | .entry e => s.checkOwner d idxVa (.row (rmDev e) (rmLocal e + (g - rmStart e)))
  | .absent => s.checkOwner d idxVa (ownerRule r d idxVa g)

-- Building a sub-window (R260, R264, R265).

/-- A pair under construction: bag, row, count, weights. -/
structure BPair where
  bag : Nat
  row : Nat
  count : Nat
  wgts : List Word
  deriving DecidableEq, Repr, Inhabited

/-- A sub-window under construction: the non-padding count of each bag, its rows and pairs, and the indices taken and
resolved. -/
structure Build where
  bagN : List Nat
  rows : List PRow
  pairs : List BPair
  taken : Nat
  resolved : Nat
  deriving DecidableEq, Repr, Inhabited

/-- Where building stands; `n` are the indices that have been resolved, those of a bag that closes the sub-window among them. -/
inductive BuildEnd where
  /-- The next bag may be tried. -/
  | going (x : Build)
  /-- The sub-window is closed: by a limit or after the last bag. -/
  | closed (x : Build) (n : Nat)
  | fails (st unit : Byte) (va pa : Nat) (n : Nat)
  | asks (a : Ask) (n : Nat)
  deriving DecidableEq, Repr, Inhabited

/-- The indices that a build has resolved so far. -/
def BuildEnd.resolved : BuildEnd → Nat
  | .going x => x.resolved
  | .closed _ n | .fails _ _ _ _ n | .asks _ n => n

/-- Put a non-padding index into the open sub-window. -/
def Build.add (x : Build) (bag owner loc : Nat) (wgt : Option Word) : Build :=
  let same (r : PRow) : Bool := r.owner == owner && r.row == loc
  let k := x.rows.findIdx same
  let rows := if k < x.rows.length then x.rows.map (fun r => if same r then { r with mult := r.mult + 1 } else r)
    else x.rows ++ [{ owner := owner, row := loc, mult := 1, data := none }]
  let mine (p : BPair) : Bool := p.bag == bag && p.row == k
  let w := wgt.toList
  let pairs := if x.pairs.any mine then x.pairs.map (fun p => if mine p then { p with count := p.count + 1, wgts := p.wgts ++ w } else p)
    else x.pairs ++ [{ bag := bag, row := k, count := 1, wgts := w }]
  { x with rows := rows, pairs := pairs, resolved := x.resolved + 1 }

/-- Row stage bytes of a sub-window (R263). -/
def ConfigPoint.stageBytes : ConfigPoint → Nat
  | .s => 7 * 2 ^ 18
  | _ => 7 * 2 ^ 20

/-- A sub-window is over one of its limits (R264). -/
def Build.over' (x : Build) (c : ConfigPoint) (rb : Nat) : Bool :=
  decide (c.winRows < x.rows.length) || decide (8 * c.winRows < x.pairs.length) ||
    decide (c.stageBytes < x.rows.length * ((rb + 15) / 16 * 16))

/-- The arrays of a LOOKUP (R259), as reads of one element. -/
def Batch.idxAsk (b : Batch) (p : Nat) : Ask := { base := lbIdx b.hdr, len := 8 * b.total, va := lbIdx b.hdr + 8 * p, n := 8 }
def Batch.bagAsk (b : Batch) (k : Nat) : Ask := { base := lbBag b.hdr, len := 4 * b.bags, va := lbBag b.hdr + 4 * k, n := 4 }
def Batch.wgtAsk (b : Batch) (p : Nat) : Ask := { base := lbWgt b.hdr, len := 4 * b.total, va := lbWgt b.hdr + 4 * p, n := 4 }

/-- The number an element holds, if it has come. -/
def Reading.num (r : Reading) (a : Ask) : Option Nat := (r.bytes a.va a.n).map leNat

/-- One index of the bag being tried. `old` is the sub-window without the bag: it is closed when the bag takes it over a
limit; a bag that opens a sub-window always fits (log 36). -/
def State.buildIdx (s : State) (b : Batch) (r : Reading) (old : Build) (e : BuildEnd) : BuildEnd :=
  match e with
  | .going x =>
    let p := b.atIdx + x.taken
    let wsum := lbMode b.hdr == 2
    match r.num (b.idxAsk p), if wsum then r.num (b.wgtAsk p) else some 0 with
    | none, _ => .asks (b.idxAsk p) x.resolved
    | some _, none => .asks (b.wgtAsk p) x.resolved
    | some g, some w =>
      match s.resolveIdx b r (b.idxAsk p).va g with
      | .padding => .going { x with taken := x.taken + 1 }
      | .fails st unit va pa => .fails st unit va pa x.resolved
      | .asks a => .asks a x.resolved
      | .row o l =>
        let y := { x.add old.bagN.length o l (if wsum then some (BitVec.ofNat 32 w) else none) with taken := x.taken + 1 }
        if y.over' s.cfg (tbRowBytes b.desc) && !old.bagN.isEmpty then .closed old y.resolved else .going y
  | e => e

/-- The lengths from a bag on are read and checked when the indices have run out: the first above 4,096 fails, else the sum,
after the last bag (R260). -/
def Batch.lengthsFail (b : Batch) (r : Reading) (k n : Nat) : BuildEnd :=
  ((List.range (b.bags - k)).findSome? (fun i => match r.num (b.bagAsk (k + i)) with
    | none => some (BuildEnd.asks (b.bagAsk (k + i)) n)
    | some m => if 4096 < m then some (.fails stDescInvalid 0x3#8 (b.bagAsk (k + i)).va 0 n) else none)).getD
    (.fails stDescInvalid 0x3#8 (b.bagAsk (b.bags - 1)).va 0 n)

/-- One bag: its length is checked when it is reached, and the sum after the last bag (R260). -/
def State.buildBag (s : State) (b : Batch) (r : Reading) (e : BuildEnd) : BuildEnd :=
  match e with
  | .going x =>
    let k := b.atBag + x.bagN.length
    if b.bags ≤ k then
      if b.atIdx + x.taken = b.total then .closed x x.resolved
      else .fails stDescInvalid 0x3#8 (b.bagAsk (b.bags - 1)).va 0 x.resolved
    else match r.num (b.bagAsk k) with
    | none => .asks (b.bagAsk k) x.resolved
    | some n =>
      if 4096 < n ∨ b.total < b.atIdx + x.taken + n then b.lengthsFail r k x.resolved
      else match (List.range n).foldl (fun a _ => s.buildIdx b r x a) (.going x) with
        | .going y => .going { y with bagN := x.bagN ++ [y.resolved - x.resolved] }
        | e => e
  | e => e

/-- The sub-window a batch builds next, from what has been read. A bag that closes it has used data of the batch without being
part of it. -/
def State.buildAll (s : State) (b : Batch) (r : Reading) : BuildEnd :=
  (List.range (b.bags - b.atBag + 1)).foldl (fun a _ => s.buildBag b r a)
    (.going { bagN := [], rows := [], pairs := [], taken := 0, resolved := 0 })

/-- The pairs of a closed sub-window. -/
def State.closePairs (s : State) (ps : List BPair) : State × List PPair :=
  ps.foldl (fun a p =>
    let (t, w) := a.1.sumBare p.wgts
    (t, a.2 ++ [{ bag := p.bag, row := p.row, count := p.count, wsum := w }])) (s, [])

/-- Send one LKUP_REQ of a sub-window (R268). -/
def State.sendLkup (s : State) (b : Batch) (sub owner : Nat) (rows : List Nat) (last : Bool) : State :=
  let pseq := s.remote.pseq.get owner
  let p : Parcel := { (default : Parcel) with
    ptype := 0x01#8, flags := if last then 1#8 else 0#8, src := BitVec.ofNat 8 s.devid, dst := BitVec.ofNat 8 owner
    pseq := pseq, table := BitVec.ofNat 16 b.table, epoch := b.epoch, batch := BitVec.ofNat 32 sub
    count := BitVec.ofNat 16 rows.length, ebytes := 8#16, payload := rows.flatMap (natBytes 8) }
  let x : TxParcel := { port := s.xroute owner, cls := false, q := some b.q, parcel := p, flits := parcelFlits p,
                        begun := false, stream := b.stream, heldFor := none }
  let o : OutParcel := { id := s.nextId, dst := BitVec.ofNat 6 owner, pseq := pseq, port := s.xroute owner, q := b.q, parcel := p,
                         stream := b.stream, tiles := [], sw := some sub, parts := [] }
  let s : State := { s.bump with remote := { s.remote with
    pseq := s.remote.pseq.set owner (pseq + 1), outs := s.remote.outs ++ [o] } }
  s.enqueueParcel b.east x

/-- Ask the remote owners of a sub-window for its rows (R268). -/
def State.askOwners (s : State) (b : Batch) (sub : Nat) (rows : List PRow) : State :=
  let n := min 1024 (16 * rowsPerReply (tbRowBytes b.desc))
  (firsts ((rows.filter (fun r => r.owner != s.devid)).map (fun r => r.owner))).foldl (fun s o =>
    let ps := pieces n (rising ((rows.filter (fun r => r.owner == o)).map (fun r => r.row)))
    ps.zipIdx.foldl (fun s p => s.sendLkup b sub o p.1 (p.2 + 1 == ps.length)) s) s

/-- Lines a wing's remap cache holds (R263): 32 entries each. -/
def ConfigPoint.remapLines : ConfigPoint → Nat
  | .s => 64
  | _ => 256

/-- The lines of the remap table that a build has read since it last went on enter its wing's remap cache, which keeps those read
last; each was a probe that missed it (R266, R392; log 37). -/
def State.keepRemap (s : State) (b : Batch) (r : Reading) : State :=
  let d := b.desc
  let spans := firsts ((List.range (tbNRemap d)).map (remapSpan d))
  let lines := spans.filterMap (fun sp =>
    if b.lines.contains (sp.1 / 512) || s.porter.remap.any (fun x => x.holds b (sp.1 / 512)) then none
    else (r.bytes sp.1 sp.2).map (fun l =>
      ({ east := b.east, table := b.table, epoch := b.epoch, line := sp.1 / 512, bytes := l } : RemapLine)))
  let kept := (lines ++ s.porter.remap.filter (fun x => x.east == b.east)).take s.cfg.remapLines
  let s := s.count (unitPorter b.east) 0x04 0 lines.length
  let s : State := { s with porter := { s.porter with remap := kept ++ s.porter.remap.filter (fun x => x.east != b.east) } }
  s.updBatch b.id (fun b => { b with lines := b.lines ++ lines.map (fun l => l.line) })

/-- What a build has resolved and read is counted as it goes on, whatever becomes of the build (R392). -/
def State.countBuild (s : State) (b : Batch) (r : Reading) (n : Nat) : State :=
  ((s.count (unitPorter b.east) 0x01 0 (n - b.counted)).keepRemap b r).updBatch b.id
    (fun b => { b with counted := max b.counted n })

/-- A sub-window of `done` resolved indices enters the store, and its batch goes on behind it. -/
def State.openSub (s : State) (b : Batch) (w : SubWin) (idx bags done : Nat) : State :=
  let u := unitPorter b.east
  let s := ((s.closeReading (.batch b.id)).count u 0x02 0 w.rows.length).count u 0x03 0 1
  let s : State := { s.bump with porter := { s.porter with subs := s.porter.subs ++ [w] } }
  s.updBatch b.id (fun b => { b with
    atIdx := b.atIdx + idx, atBag := b.atBag + bags, built := b.built + 1, counted := b.counted - done, lines := [] })

/-- The sub-window is closed: it enters the store, its remote rows are asked for and its local rows go to the lanes
(R266-R268). -/
def State.closeBuild (s : State) (b : Batch) (x : Build) : State :=
  let (s, pairs) := s.closePairs x.pairs
  let w : SubWin := {
    id := s.nextId, batch := b.id, east := b.east, num := b.built, firstBag := b.atBag, bagN := x.bagN, rows := x.rows
    pairs := pairs, pooled := false, given := 0, sums := [] }
  ((s.openSub b w x.taken x.bagN.length x.resolved).askOwners b w.id x.rows).feed

/-- A read that a build needs goes out. -/
def State.buildReads (s : State) (b : Batch) (a : Ask) : State := (s.needElem (.batch b.id) a.base a.len a.va a.n).1

/-- SUB_WINDOW_BUILD (R264-R268): the Porter goes on with a sub-window, as far as what it has read lets it. -/
def execSubWindowBuild (w : Wing) (batch : Nat) (s : State) : Res :=
  match (s.buildable (wingEast w) batch).filter (fun b => !b.isUpdate) with
  | none => .next s
  | some b =>
    let (s, r) := s.openReading (.batch b.id)
    let e := s.buildAll b r
    let s := s.countBuild b r e.resolved
    .next (match e with
    | .going _ => s
    | .asks a _ => s.buildReads b a
    | .fails c unit va pa _ => s.failBatch b { s.batchFault c unit va with
        pa := BitVec.ofNat 52 pa
        detail := if c == stIndexRange then BitVec.ofNat 32 b.table else if c == stUnreachable then BitVec.ofNat 32 pa else 0#32 }
    | .closed x _ => s.closeBuild b x)

/-- SUB_WINDOW_POOL: every distinct row is in the stage (R266, R271). -/
def execSubWindowPool (w : Wing) (sw : Nat) (s : State) : Res :=
  match s.subWin sw with
  | none => .next s
  | some x => whenever (s.alive && x.east == wingEast w && !x.pooled && x.rows.all (fun r => r.data.isSome)) s (fun s =>
      (s.updSub sw (fun x => { x with pooled := true })).feed)

/-- Nothing of a sub-window is left to do or on its way: its bags, or the rows of an UPDATE, have been handed out and no tile of
it remains. -/
def State.subDone (s : State) (x : SubWin) : Bool :=
  let all := if (s.batch x.batch).any (fun b => b.isUpdate) then x.rows.length else x.bagN.length
  x.pooled && x.given == all && !s.tiles.any (fun t => !t.kind.ordered && t.kind != .indexWin && t.ref == x.id)

/-- A batch with nothing left ends: its command completes (R96). DETAIL of a LOOKUP counts its sub-windows (R110). -/
def State.endBatch (s : State) (id : Nat) : State :=
  match s.batch id with
  | none => s
  | some b =>
    let left : Bool := if b.isUpdate then decide (b.atIdx < b.total) else decide (b.atBag < b.bags)
    if left || s.porter.subs.any (fun w => w.batch == id) then s
    else
      let s : State := { s with porter := { s.porter with batches := s.porter.batches.filter (fun x => x.id != id) } }
      match (s.queue b.q).cmd b.cmd with
      | none => s
      | some c => s.finishCmd b.q c (if b.isUpdate then 0 else b.built)

/-- SUB_WINDOW_FREE: the half of the store is free again (R266). -/
def execSubWindowFree (w : Wing) (sw : Nat) (s : State) : Res :=
  match s.subWin sw with
  | none => .next s
  | some x => whenever (s.alive && x.east == wingEast w && s.subDone x) s (fun s =>
      (({ s with porter := { s.porter with subs := s.porter.subs.filter (fun y => y.id != sw) } } : State).endBatch
        x.batch).feed)

end Sys2Proof.Machine
end

