-- ==== Sys2Proof/Machine/Steward.lean ====
section
/-!
DEFINITION. What the Steward does on request and by itself: requests through pigeonholes (R348), load reports (R282), its
watchdog and its heartbeat (R347, R362).
-/

namespace Sys2Proof.Machine

-- Requests.

/-- A pigeonhole has a request for the Steward, and the one before it has been answered (R348). -/
def State.holeWaits (s : State) (p : Nat) : Bool :=
  let v := s.pgh p
  (match v.stwSide with
    | some isA => v.unread isA
    | none => false) &&
  (s.reading (.hole p)).isNone && !s.boot.replies.any (fun r => r.1 == p) && !s.power.reqs.any (fun r => r.hole == p) &&
    !s.larder.newAddrs.any (fun r => r.1 == p) && !s.records.any (fun r => match r.note with
      | .reply hole _ => hole == p
      | _ => false)

/-- The pigeonhole the Steward serves next: in increasing number, round robin. -/
def State.nextHole (s : State) : Option Nat :=
  ((List.range pghCount).map (fun i => (s.boot.lastPgh + 1 + i) % pghCount)).find? s.holeWaits

/-- The pointer of a request. -/
def Pgh.pointer (v : Pgh) (towardsA : Bool) : Nat :=
  if towardsA then v.baHi.toNat * 2 ^ 32 + v.baLo.toNat else v.abHi.toNat * 2 ^ 32 + v.abLo.toNat

/-- The Steward acknowledges and clears its pending bit, each in its place among the writes of the ccyc (R341, R348). -/
def State.takeRequest (s : State) (p : Nat) (isA : Bool) : State :=
  let s := s.pghTurn p pghAck
  let v := s.pgh p
  let s := (s.setPgh p (if isA then { v with unreadA := false } else { v with unreadB := false })).pghTurn p pghClear
  let v := s.pgh p
  let s := s.setPgh p { v with pend := v.pend &&& ~~~(oneBit (if isA then 16 else 0)) }
  { s with boot := { s.boot with lastPgh := p } }

/-- An address on this device. -/
def State.onDevice (s : State) (pa : Nat) : Bool := decide (pa < 2 ^ 52) && paDevice pa == s.devid

/-- Reserved bytes of every request are 0, and REPLY_PA has no bits beyond its field. -/
def reqWellFormed (req : BitVec 512) : Bool :=
  fieldAt req 1 3 == 0 && fieldAt req 8 8 == (reqReplyPa req).toNat

/-- A request is discarded without a reply, and counted. -/
def State.dropRequest (s : State) (p : Nat) : State :=
  let s := s.closeReading (.hole p)
  { s with boot := { s.boot with discarded := s.boot.discarded + 1 } }

/-- First address that a reading has asked for. -/
def Reading.start (r : Reading) : Nat :=
  let as := r.away.map (fun p => p.1) ++ r.got.map (fun p => p.1) ++ r.failed.map (fun p => p.1)
  as.foldl min (as.headD 0)

/-- The Steward takes the request of the pigeonhole whose turn it is, and reads it (R348). -/
def State.takeHole (s : State) (p : Nat) : State :=
  match (s.pgh p).stwSide with
  | none => s
  | some isA =>
    let ptr := (s.pgh p).pointer isA
    let s := s.takeRequest p isA
    if s.onDevice ptr then (s.need (.hole p) ptr 64).1 else s.dropRequest p

/-- One request of an operation: taken, read, discarded or carried out (R348). Another operation's request is left to its own
step. -/
def State.serveRequest (s : State) (p : Nat) (mine : Nat → Bool) (f : State → BitVec 512 → State) : Res :=
  whenever (s.alive && s.stwRunning) s (fun s => match s.reading (.hole p) with
    | none => if s.nextHole == some p then s.takeHole p else s
    | some r => match s.need (.hole p) r.start 64 with
      | (s, .wait) => s
      | (s, .failed _) => s.dropRequest p
      | (s, .bytes l) =>
        let req := words512 l
        if paDevice (fieldAt req 8 8) != s.devid then s.dropRequest p
        else if mine (fieldAt req 0 1) then f (s.closeReading (.hole p)) req
        else s)

/-- What INFO answers, from byte 8 on. -/
def State.infoBytes (s : State) : Nat :=
  let b := s.boot
  leNat (record [(b.fwver.toNat, 4), (if b.bypass then 0 else b.lmver.toNat, 4), (0x17, 2), (b.stwEpoch.toNat, 2),
    (if b.bypass then 0 else b.lmEpoch.toNat, 2), (if b.imgB then 1 else 0, 2), (s.ccyc.toNat, 8)])

/-- INFO, and every OP outside the table, which is answered BAD_OP. -/
def execInfo (p : Nat) (s : State) : Res :=
  s.serveRequest p (fun op => op != 2 && op != 3) (fun s req =>
    if fieldAt req 0 1 ≠ 1 then s.stwReply p req .badOp 0
    else if reqWellFormed req && fieldAt req 16 48 == 0 then s.stwReply p req .done s.infoBytes
    else s.stwReply p req .badArgs 0)

/-- The new report area of a LOADRPT request takes effect and is answered. -/
def State.moveReport (s : State) (p : Nat) (req : BitVec 512) : State :=
  let a := fieldAt req 16 8
  ((s.setReg offLoadrptLo (BitVec.ofNat 32 a)).setReg offLoadrptHi (BitVec.ofNat 32 (a / 2 ^ 32))).stwReply p req .done 0

/-- LOADRPT: the address changes between the end of a window and the write of its report. -/
def execLoadrpt (p : Nat) (s : State) : Res :=
  s.serveRequest p (fun op => op == 2) (fun s req =>
    if !reqWellFormed req || fieldAt req 24 40 != 0 || decide (fieldAt req 16 8 % 4096 ≠ 0) ||
        decide (2 ^ 52 ≤ fieldAt req 16 8) then s.stwReply p req .badArgs 0
    else if s.larder.due.isSome then s.moveReport p req
    else { s with larder := { s.larder with newAddrs := s.larder.newAddrs ++ [(p, req, reqReplyPa req)] } })

/-- POWER: a write of TARGET, answered at once when the block is in that state already. -/
def execPower (p : Nat) (s : State) : Res :=
  s.serveRequest p (fun op => op == 3) (fun s req =>
    let t := fieldAt req 16 1
    if !reqWellFormed req || fieldAt req 17 47 != 0 || decide (3 < t) then s.stwReply p req .badArgs 0
    else
      let s := s.askTarget t
      if pwrCode s.power.st = t ∧ s.power.phase = .rest ∧ s.target = t then s.stwReply p req .done 0
      else { s with power := { s.power with
        reqs := s.power.reqs ++ [{ hole := p, req := req, target := BitVec.ofNat 2 t, reached := false }] } })

-- Load reports.

/-- The load report area (R282). -/
def State.loadBase (s : State) : Nat := s.fld offLoadrptHi 0 20 * 2 ^ 32 + s.fld offLoadrptLo 12 20 * 4096

def sat32 (n : Nat) : Nat := min n (2 ^ 32 - 1)

/-- The bytes of a load report (R282): its header, and one entry for each table and wing with a count. -/
def loadBytes (d : DueReport) : List Byte :=
  record [(d.window, 4), (d.counts.cells.length, 4), (d.ccyc.toNat, 8), (d.winExp, 4), (0, 12)] ++
    (d.counts.cells.zip d.epochs).flatMap (fun c =>
      let k := c.1.2
      record [(c.1.1 / 2 + if c.1.1 % 2 = 1 then 2 ^ 16 else 0, 4), (c.2.toNat, 4), (sat32 k.fetch, 4), (sat32 k.mult, 4),
        (sat32 k.served, 4), (sat32 k.hits, 4), (sat32 k.promoted, 4), (sat32 k.demoted, 4)])

/-- LOAD_REPORT: LOADRPT requests take effect, then the Steward writes the report that is due (R282). -/
def execLoadReport (s : State) : Res :=
  match s.larder.due with
  | none => .next s
  | some d => whenever (s.alive && s.stwRunning) s (fun s =>
      let moves := s.larder.newAddrs
      let s : State := { s with larder := { s.larder with due := none, newAddrs := [] } }
      let s := moves.foldl (fun a r => a.moveReport r.1 r.2.1) s
      if paDevice s.loadBase != s.devid then s.raiseEvent offLoadEvents 1
      else s.writeRecord .load s.stwWriter [(s.loadBase, loadBytes d)])

-- Watchdog and heartbeat.

/-- STEWARD_WATCHDOG: the firmware has not serviced its watchdog; the Steward is halted (R347). -/
def execStewardWatchdog (s : State) : Res :=
  whenever (s.alive && (s.boot.stwState == 1#4 || s.stwRunning)) s (fun s =>
    s.haltSteward.raiseEvent offStwEvents 2)

/-- STEWARD_HEARTBEAT: every 65,536 ccyc of a running Steward (R362). -/
def execStewardHeartbeat (s : State) : Res :=
  whenever (s.alive && s.stwRunning) s (fun s =>
    { s with boot := { s.boot with heartbeat := s.boot.heartbeat + 1 } })

end Sys2Proof.Machine
end

