-- ==== Sys2Proof/Machine/Reliability.lean ====
section
/-!
DEFINITION. Errors, spares and integrity: reactions to uncorrectable errors (R379, R380), capture and window counts (R381,
R386), the action on a lasting fault (R382) and the swaps that complete it (R383-R385).
-/

namespace Sys2Proof.Machine

-- Window counts (R381).

def relLane : Nat := 0
def relTag : Nat := 2
def relLarder : Nat := 3
def relTranslation : Nat := 4

/-- THRESH of a class; 0 acts as 1. -/
def State.relThresh (s : State) (c : Nat) : Nat := max 1 (s.fld (offCeCfg c) 8 16)

/-- Exponent of a class's sub-windows. -/
def State.relSubExp (s : State) (c : Nat) : Nat := clampTo 10 30 (s.fld (offCeCfg c) 0 5) - 3

/-- Repair units of one class. -/
def relClassSize : Nat := 2 ^ 33

/-- Number of a repair unit: class, wing, unit, and the row or entry where that makes a unit of its own. -/
def relKey (c : Nat) (w : Wing) (unit index : Nat) : Nat :=
  c * relClassSize + (if wingEast w then 2 ^ 32 else 0) + unit % 1024 * 2 ^ 22 +
    (if c = relLarder ∨ c = relTranslation then index % 2 ^ 22 else 0)

/-- Larder rows a wing tracks. -/
def relTrackMax : Nat := 256

/-- An event on a tier row makes it the latest tracked one; in a wing that tracks 256 rows it takes the slot of the row
whose last event is the oldest, and that row's counts are lost. -/
def State.trackRow (s : State) (key : Nat) : State :=
  let r := s.rel
  let others := r.tracked.filter (fun k => k != key)
  let wing := others.filter (fun k => k / 2 ^ 32 == key / 2 ^ 32)
  if r.tracked.contains key || decide (wing.length < relTrackMax) then
    { s with rel := { r with tracked := others ++ [key] } }
  else
    let old := wing.headD key
    { s with rel := { r with tracked := others.erase old ++ [key], counts := r.counts.set old [] } }

/-- Sum of the current sub-window and the seven before it. -/
def windowCount (l : List Nat) : Nat := (l.take 8).foldl (fun a n => a + n) 0

def addEvents (n : Nat) : List Nat → List Nat
  | [] => [n]
  | k :: t => (k + n) :: t

-- Spares.

/-- The lowest spare lane of a wing that exists, is allowed by `mask` and is not in use. -/
def State.freeLaneSpare (s : State) (east : Bool) (mask : Nat) : Option Nat :=
  (List.range s.cfg.laneSpares).find? (fun k => mask / 2 ^ k % 2 == 1 && !bitAt (s.rel.laneSpares.get (wingNo east)) k)

def State.useLaneSpare (s : State) (east : Bool) (k : Nat) : State :=
  let b := s.rel.laneSpares
  { s with rel := { s.rel with
    laneSpares := b.set (wingNo east) (b.get (wingNo east) ||| BitVec.ofNat 2 (2 ^ k)) } }

/-- LDG_SPARE.LANES of a wing (R368). -/
def State.spareLaneMask (s : State) (east : Bool) : Nat := s.fld offLdgSpare (if east then 2 else 0) 2

/-- The spare tag bank of a wing may be taken. -/
def State.freeTagSpare (s : State) (east : Bool) : Bool :=
  decide (0 < s.cfg.tagSpares) && s.flag offLdgSpare (if east then 5 else 4) && !s.rel.tagSpare.get (wingNo east)

/-- Spare rows of a sub-bank in NRK3-X (R385). -/
def rowSpareMax : Nat := 64

def State.freeRowSpare (s : State) (sub : Nat) : Bool :=
  s.cfg == .x && s.flag offLdgSpare 6 && decide (s.rel.rowSpares.get sub < rowSpareMax)

def State.mapped (s : State) : State := s.raiseEvent offRelEvents 3
def State.noSpare (s : State) : State := s.raiseEvent offRelEvents 4

-- Larder rows (R385).

/-- A way becomes invalid: its directory row is written. -/
def State.dropWay (s : State) (key w : Nat) : State :=
  if (s.way key w).valid then s.setWay key w default else s

/-- Set and place of a tier row: the set's number in `Larder.dir`, and its way, none for the directory row (R273). -/
def rowPlace (t row : Nat) : Nat × Option Nat :=
  let set := t % 4 * 2 ^ 17 + row / 32 % 2 ^ 17
  let k := row % 32
  let d := set % 8
  (setKey (tierEast t) set, if k = d then none else some (if k < d then k else k - 1))

/-- The sub-bank of a tier row. -/
def subBank (t row : Nat) : Nat := 8 * t + row % 8

/-- A failing tier row: a spare row of its sub-bank replaces it, or its way or set is disabled (R385). -/
def State.replaceRow (s : State) (t row : Nat) : State :=
  let sub := subBank t row
  let p := rowPlace t row
  let s := match p.2 with
    | none => s.dropSet p.1
    | some w => s.dropWay p.1 w
  if s.freeRowSpare sub then { s with rel := { s.rel with rowSpares := s.rel.rowSpares.set sub (s.rel.rowSpares.get sub + 1) } }
  else
    let l := s.larder
    match p.2 with
    | none => if l.offSets.contains p.1 then s else { s with larder := { l with offSets := l.offSets ++ [p.1] } }
    | some w => if l.offWays.contains (p.1, w) then s else { s with larder := { l with offWays := l.offWays ++ [(p.1, w)] } }

/-- A lasting fault of a tier row (R382). -/
def State.repairRow (s : State) (t row : Nat) : State :=
  let u := s.replaceRow t row
  (if s.freeRowSpare (subBank t row) then u else u.noSpare).mapped

-- Range cache entries.

/-- The range cache a Translation unit names: an L1 of a lane group, or the wing's L2 (R381). -/
def relCache (w : Wing) (unit : Nat) : Nat := if unit / 64 < 8 then unit / 64 else 8 + wingNo (wingEast w)

def dropAt {α : Type} (n : Nat) (l : List α) : List α := l.take n ++ l.drop (n + 1)

/-- The range at a place of a cache leaves it. -/
def State.dropEntry (s : State) (c pos : Nat) : State :=
  if c < 8 then { s with l1 := s.l1.set c (dropAt pos (s.l1.get c)) }
  else { s with l2 := s.l2.set (c - 8) (dropAt pos (s.l2.get (c - 8))) }

/-- A lasting fault of a range cache entry disables it until warm reset (R382); which range it held stays open. -/
def State.disableEntry (s : State) (w : Wing) (unit index : Nat) : State :=
  let c := relCache w unit
  let key := c * 4096 + index % 4096
  if s.rel.cacheOff.contains key then s.mapped
  else
    let size := s.cacheSize c
    let s := ((s.dropEntry c (s.freeBelow size)).tick)
    ({ s with rel := { s.rel with cacheOff := s.rel.cacheOff ++ [key] } } : State).mapped

-- Lasting faults.

/-- The Steward's action on a lasting fault (R382). Swaps of lanes and tag banks begin: the lane takes no itinerary and the
bank gives no tag any more. -/
def State.actLasting (s : State) (c : Nat) (w : Wing) (unit index : Nat) : State :=
  if c = relLane then
    if bitAt s.rel.lanesOut unit || s.rel.lanesWait.contains unit then s
    else { s with rel := { s.rel with lanesWait := s.rel.lanesWait ++ [unit] } }
  else if c = relTag then
    let b := unit % 8 + if wingEast w then 8 else 0
    if s.rel.tagBanks.get b == .inUse then { s with rel := { s.rel with tagBanks := s.rel.tagBanks.set b .draining } } else s
  else if c = relLarder then s.repairRow (unit % 8) (index % 2 ^ 22)
  else if c = relTranslation then s.disableEntry w unit index
  else s

/-- The fault of a repair unit, given by its number, is lasting: LASTING is set, its counts are cleared, the Steward acts. -/
def State.declare (s : State) (key : Nat) : State :=
  let w : Wing := if key / 2 ^ 32 % 2 = 1 then .east else .west
  (({ s with rel := { s.rel with counts := s.rel.counts.set key [] } } : State).raiseEvent offRelEvents 2).actLasting
    (key / relClassSize) w (key / 2 ^ 22 % 1024) (key % 2 ^ 22)

/-- Repair units whose window count has reached THRESH. -/
def State.lastingUnits (s : State) : List Nat :=
  (s.rel.counts.cells.filter (fun c => decide (s.relThresh (c.1 / relClassSize) ≤ windowCount c.2))).map (fun c => c.1)

/-- Events of a repair unit are counted; while the Steward runs, every unit whose count has reached THRESH is declared, those
that reached it before it ran among them (R346, R381). -/
def State.countErrors (s : State) (c : Nat) (w : Wing) (unit index n : Nat) : State :=
  let key := relKey c w unit index
  let s := if c = relLarder then s.trackRow key else s
  let s : State := { s with rel := { s.rel with counts := s.rel.counts.set key (addEvents n (s.rel.counts.get key)) } }
  if s.stwRunning then s.lastingUnits.foldl (fun a k => a.declare k) s else s

/-- Capture of an error while none is captured (R386): REL_LAST_CE or REL_LAST_UE. -/
def State.captureError (s : State) (off0 off1 c : Nat) (w : Wing) (unit : Nat) (index : Word) (syn : Byte)
    (q : Option Nat) : State :=
  if s.flag off0 31 then s
  else
    let queue : List (Nat × Nat) := match q with
      | some q => [(1, 6), (q, 0)]
      | none => []
    (s.setReg off0 (packWord ([(1, 31), (c, 28), (oneIf (wingEast w), 27), (unit, 16), (syn.toNat, 8)] ++ queue))).setReg
      off1 index

/-- A flipped word that an injection has stored is read: its error has appeared (R386). -/
def State.flipRead (s : State) (c : Nat) (w : Wing) (unit : Nat) (double : Bool) : State :=
  { s with rel := { s.rel with flips := s.rel.flips.erase (c, wingEast w, unit, double) } }

/-- A corrected error: total, CE, capture and count. A parity error of a lane's read cache drops the line (R379). -/
def State.corrected (s : State) (c : Nat) (w : Wing) (unit : Nat) (index : Word) (syn : Byte) : State :=
  let s := if c = relLane ∧ syn = 0#8 then
    s.updLane unit (fun v => { v with cache := dropAt index.toNat v.cache }) else s
  let s := ((s.countReg (offCeTotal c) 0 32 1).raiseEvent offRelEvents 0).captureError offLastCe0 offLastCe1 c w unit index
    syn none
  (s.flipRead c w unit false).countErrors c w unit index.toNat 1

/-- CORRECTED_ERROR. -/
def execCorrectedError (cls : BitVec 3) (w : Wing) (unit : BitVec 10) (index : Word) (syn : Byte) (s : State) : Res :=
  whenever (s.alive && decide (cls.toNat < 6) && s.cfg.hasWing (wingEast w)) s (fun s =>
    s.corrected cls.toNat w unit.toNat index syn)

-- Uncorrectable errors.

/-- A task of a queue aborts because one of its units read a bad word. -/
def State.eccAbort (s : State) (q : Nat) (unit : Byte) (itin : Option Nat) : State :=
  s.abort q { s.fault stEcc unit with itin := itin, instr := s.insIndex q itin }

/-- The word of the tag table or write tracker that belongs to an outstanding request was bad: its response is discarded
and its issuer fails. -/
def State.tagError (s : State) (tag : BitVec 17) (wr : Bool) : State :=
  match s.outs.find? (fun o => o.tag == tag && isWriteOp o.req.op == wr) with
  | none => s
  | some o =>
    let (s, f) := s.reqFault o.req stEcc o.req.pa
    let s : State := { s with outs := s.outs.map (fun x =>
      if x.req.id == o.req.id then { x with req := { x.req with dests := [] } } else x) }
    s.requestFault o.req { f with log := none }

/-- Queues whose task names a ring. -/
def State.ringUsers (s : State) (r : Nat) : List Nat :=
  (List.range s.cfg.queues).filter (fun q => (s.taskRings q).contains r)

/-- The LOOKUP or UPDATE of queue `q` with the command index `idx`, while the Porter works at it. -/
def State.batchOf (s : State) (q : Nat) (idx : BitVec 16) : Option Batch :=
  s.porter.batches.find? (fun b => b.q == q && b.cmd == idx)

/-- What an uncorrectable error does, by its structure (R379). -/
def State.ueReact (s : State) (w : Wing) (unit : Nat) : UeSite → State
  | .hall q porter cmd va pa =>
    let f : FaultInfo := { s.fault stEcc (if porter then 0x3#8 else 0x1#8) with va := va, pa := pa }
    match cmd.bind (s.batchOf q) with
    | some b => s.failBatch b f
    | none => s.abort q f
  | .versionStore table epoch => (s.porter.batches.filter (fun b => b.table == table && b.epoch == epoch && b.east == wingEast w)).foldl
      (fun a b => a.failBatch b (a.batchFault stEcc 0x3#8 0)) s
  | .larderWay set way => s.dropWay (setKey (wingEast w) set) way
  | .larderDir set => s.dropSet (setKey (wingEast w) set)
  | .tagEntry tag wr => s.tagError tag wr
  | .rangeCache pos => s.dropEntry (relCache w unit) pos
  | .laneStore q n => s.eccAbort q 0x1#8 (some n)
  | .ringPos r => (s.ringUsers r).foldl (fun a q => a.eccAbort q 0x1#8 none) (s.updRing r (fun v => { v with broken := true }))
  | .semaphore i => (s.inTurn i rankPoison 0#20).semPoison i false
  | .blockBuffer id => s.updBlock id (fun b => { b with poison := true })
  | .stewardSram => s.haltSteward

/-- The queue that an uncorrectable error aborts, as REL_LAST_UE0 names it. -/
def State.ueQueue (s : State) : UeSite → Option Nat
  | .hall q _ _ _ _ | .laneStore q _ => some q
  | .versionStore table epoch => (s.porter.batches.find? (fun b => b.table == table && b.epoch == epoch)).map (fun b => b.q)
  | .tagEntry tag wr => (s.outs.find? (fun o => o.tag == tag && isWriteOp o.req.op == wr)).bind (fun o => o.req.q)
  | .ringPos r => (s.ringUsers r).head?
  | .blockBuffer id => (s.blocks.find? (fun b => b.id == id)).map (fun b => b.q)
  | _ => none

/-- The structure exists and the word is in use. -/
def State.ueSiteOk (s : State) : UeSite → Bool
  | .hall q porter cmd _ _ => decide (q < s.cfg.queues) && cmd.all (fun idx => porter && (s.batchOf q idx).isSome)
  | .laneStore q _ => decide (q < s.cfg.queues)
  | .versionStore table epoch => (s.table table).slots.any (fun v => v.epoch == epoch)
  | .semaphore i => decide (i < s.cfg.sems)
  | .ringPos r => decide (r < 1024)
  | .larderWay set way => decide (set < 2 ^ 19) && decide (way < 31) && decide (0 < s.cfg.tiers)
  | .larderDir set => decide (set < 2 ^ 19) && decide (0 < s.cfg.tiers)
  | _ => true

/-- Class of a structure (R379). -/
def ueClass : UeSite → Nat
  | .laneStore _ _ => 0
  | .hall _ _ _ _ _ | .versionStore _ _ => 1
  | .tagEntry _ _ => 2
  | .larderWay _ _ | .larderDir _ => 3
  | .rangeCache _ => 4
  | .ringPos _ | .semaphore _ | .blockBuffer _ | .stewardSram => 5

/-- UNCORRECTABLE_ERROR. An error in the version store of NRK3-X is mended from the other wing's copy and counts as
corrected (R379); every other counts as THRESH events at once (R381). -/
def execUncorrectableError (cls : BitVec 3) (w : Wing) (unit : BitVec 10) (index : Word) (syn : Byte) (site : UeSite)
    (s : State) : Res :=
  let c := cls.toNat
  let mended : Bool := match site with
    | .versionStore _ _ => s.cfg.twoWings
    | _ => false
  whenever (s.alive && c == ueClass site && s.cfg.hasWing (wingEast w) && s.ueSiteOk site) s (fun s =>
    if mended then s.corrected c w unit.toNat index syn
    else
      let s := ((s.countReg offUeTotal 0 32 1).raiseEvent offRelEvents 1).captureError offLastUe0 offLastUe1 c w unit.toNat
        index syn (s.ueQueue site)
      let s := (s.flipRead c w unit.toNat true).ueReact w unit.toNat site
      s.countErrors c w unit.toNat index.toNat (s.relThresh c))

/-- CE_SUB_WINDOW_ROLL: a class's sub-window ends; time passes up to its end (R381). -/
def execCeSubWindowRoll (cls : BitVec 3) (s : State) : Res :=
  let c := cls.toNat
  whenever (s.alive && decide (c < 6)) s (fun s =>
    let x := 2 ^ s.relSubExp c
    let e := (s.rel.rolled.get c / x + 1) * x
    let s := s.passCycles (e - s.ccyc.toNat)
    { s with rel := { s.rel with
      rolled := s.rel.rolled.set c e
      counts := s.rel.counts.each (fun k l =>
        if k / relClassSize = c then (if windowCount (0 :: l) = 0 then [] else (0 :: l).take 8) else l) } })

-- Swaps.

/-- Values of the other lanes' rounding generators, in increasing order. -/
def State.otherSeeds (s : State) (lane : Nat) : List Nat :=
  rising (((List.range s.cfg.lanes).filter (fun l => l != lane)).map (fun l => (s.lane l).lfsr.toNat))

/-- One of the values that are not 0 and that no other lane's generator holds (R140): which one stays open. -/
def State.freshSeed (s : State) (lane : Nat) : Word :=
  let used := s.otherSeeds lane
  let x := s.freeBelow (2 ^ 32 - 1 - used.length) + 1
  BitVec.ofNat 32 (used.foldl (fun a u => if 0 < u ∧ u ≤ a then a + 1 else a) x)

/-- A spare lane holds nothing of the old one; its rounding generator has a value of its own. -/
def State.freshLane (s : State) (lane : Nat) : State :=
  (s.setLane lane { (default : Lane) with lfsr := s.freshSeed lane }).tick

/-- LANE_SPARE_SWAP: no itinerary is resident on a lane that is to be replaced. A spare is enabled under R82 and runs 296
ccyc later, or the lane leaves service (R382, R383). -/
def execLaneSpareSwap (lane : Nat) (s : State) : Res :=
  let east := laneEast lane
  whenever (s.alive && s.stwRunning && s.rel.lanesWait.contains lane && !s.pins.hold && s.power.phase == .rest &&
      !s.itins.any (fun i => i.place == .resident && i.lane == lane) && !s.tiles.any (fun t => t.lane == lane) &&
      !s.itins.any (fun i => i.lane == lane && i.wwin.isSome) && (s.lane lane).rwins.isEmpty) s (fun s =>
    let s : State := { s with rel := { s.rel with lanesWait := s.rel.lanesWait.filter (fun l => l != lane) } }
    match s.freeLaneSpare east (s.spareLaneMask east) with
    | some k =>
      let gated := (s.lane lane).gated
      let s : State := { s with pins := { s.pins with loadup := true } }
      let s := (s.passCycles 296).useLaneSpare east k
      let s : State := { s with pins := { s.pins with loadup := false } }
      ((s.freshLane lane).updLane lane (fun v => { v with gated := gated })).mapped.placeAsides
    | none =>
      ({ s with rel := { s.rel with
        lanesOut := s.rel.lanesOut ||| BitVec.ofNat 64 (2 ^ lane) } } : State).noSpare.mapped.placeAsides)

/-- A wing has no tag bank left in use: its reads that have not issued fail (R384). -/
def State.abortReads (s : State) (east : Bool) : State :=
  if s.banksOut east != s.cfg.tagBanks then s
  else
    let bad (r : Req) : Bool := r.east == east && !isWriteOp r.op
    let crossing := s.corItems.filterMap (fun i => match i with
      | .request r => if bad r then some r else none
      | _ => none)
    let rs := s.waiting.filter bad ++ crossing
    let s : State := { s with
      waiting := s.waiting.filter (fun r => !bad r)
      corridor := s.corridor.retain (fun i => match i with
        | .request r => !bad r
        | _ => true) }
    s.requestsFault rs (fun a => a.fault stInternal 0x0#8)

/-- TAG_BANK_SWAP: the last tag of a bank that is to be replaced has returned (R384). -/
def execTagBankSwap (w : Wing) (bank : Nat) (s : State) : Res :=
  let east := wingEast w
  let b := bank + if east then 8 else 0
  whenever (s.alive && s.stwRunning && decide (bank < s.cfg.tagBanks) && s.rel.tagBanks.get b == .draining &&
      !s.outs.any (fun o => o.req.east == east && !isWriteOp o.req.op && o.tag.toNat % 65536 / 8192 == bank)) s (fun s =>
    if s.freeTagSpare east then
      ({ s with rel := { s.rel with
        tagSpare := s.rel.tagSpare.set (wingNo east) true, tagBanks := s.rel.tagBanks.set b .inUse } } : State).mapped
    else
      (({ s with rel := { s.rel with tagBanks := s.rel.tagBanks.set b .outOfUse } } : State).noSpare.mapped).abortReads east)

-- Registers.

/-- A UNIT that names a lane, a tag bank, a tier or a lane group beyond the counts of a one-wing instance (R3, R381). -/
def ConfigPoint.unitAbsent (cfg : ConfigPoint) (c unit : Nat) : Bool :=
  !cfg.twoWings && (match c with
    | 0 => decide (cfg.lanes ≤ unit)
    | 2 => decide (cfg.tagBanks ≤ unit)
    | 3 => decide (cfg.tiers ≤ unit)
    | 4 => decide (cfg.laneGroups ≤ unit / 64) && decide (unit / 64 < 8)
    | _ => false)

/-- A write of REL_INJECT. In a one-wing instance WING ignores it, and UNIT reads 0 where the word would make it name a unit
the instance lacks (R3). -/
def State.writeInject (s : State) (data : Word) : State :=
  let data := if s.cfg.unitAbsent (bits data 28 3) (bits data 16 10) then data &&& ~~~0x03FF0000#32 else data
  s.putMasked offRelInject (if s.cfg.twoWings then 0xFFFF0000#32 else 0xF7FF0000#32) data

/-- REL_INJECT_ARM: the next write into the named unit stores a flipped word, which shows itself by the error event that its
reading gives (R386). -/
def execRelInjectArm (data : Word) (s : State) : Res := s.cpEffect offRelInject (fun s => s.writeInject data)

/-- A write of REL_CE_CFG clears the counts of every unit of its class (R386). -/
def State.writeCeCfg (s : State) (c : Nat) (data : Word) : State :=
  let s := s.putMasked (offCeCfg c) 0x00FFFF1F#32 data
  { s with rel := { s.rel with
    counts := ⟨s.rel.counts.cells.filter (fun k => k.1 / relClassSize != c)⟩
    tracked := if c = relLarder then [] else s.rel.tracked
    rolled := s.rel.rolled.set c s.ccyc.toNat } }

/-- REL_CE_CFG_WRITE. -/
def execRelCeCfgWrite (cls : BitVec 3) (data : Word) (s : State) : Res :=
  let c := cls.toNat
  s.cpEffect (offCeCfg c) (fun s => if c < 6 then s.writeCeCfg c data else s)

end Sys2Proof.Machine
end

