-- ==== Sys2Proof/Machine/Boot.lean ====
section
/-!
DEFINITION. Resets (R78, R79, R211), the boot sequence and its journal (R349-R354, R362), the structure image (R369,
R370) and ROM recovery mode (R355).
-/

namespace Sys2Proof.Machine

-- Resets.

/-- Memory ports, client ports and remote ports raise LINK_REQ. -/
def State.raiseMports (s : State) : State :=
  (List.range s.cfg.mports).foldl (fun a p => a.updMport p (fun v => { v with linkReq := true })) s
def State.raiseCports (s : State) : State :=
  (List.range s.cfg.cports).foldl (fun a c => a.updCport c (fun v => { v with linkReq := true })) s
def State.raiseXports (s : State) : State :=
  (List.range s.cfg.xports).foldl (fun a x => a.updXport x (fun v => { v with linkReq := true })) s

/-- What the block's inputs show; no reset changes it. -/
def Pins.levels (p : Pins) : Pins :=
  { (default : Pins) with
    poreset := p.poreset, warmreset := p.warmreset, thermWarn := p.thermWarn, thermCrit := p.thermCrit
    pmVlvl := p.pmVlvl, hold := p.hold, trcStall := p.trcStall, pmVreq := 2#2 }

/-- The state power-on reset leaves (R78): everything at reset but the inputs' levels and the model's own fields. -/
def State.cold (s : State) : State :=
  { State.reset with
    pending := s.pending, cfg := s.cfg, pins := s.pins.levels, out := s.out, free := s.free }

/-- A journal entry after a warm reset: PATH, OUTCOME and CODE are of the last start (R362). -/
def JEntry.carried (e : JEntry) : JEntry := { e with path := 0, outcome := 0, code := 0 }

/-- The state warm reset leaves (R79): the PLL stays locked, DEVID and the retention SRAM keep what they hold, and the
next link-up of each client port carries POISONs (R211). -/
def State.warmed (s : State) : State :=
  { s.cold with
    pins := { s.pins.levels with pllLocked := s.pins.pllLocked, devid := s.pins.devid, mfr := s.pins.mfr }
    boot := { (default : Boot) with
      ret := s.boot.ret, starts := s.boot.starts, lanesFailed := s.boot.lanesFailed
      jrnl := s.boot.jrnl.each (fun _ e => e.carried) }
    cports := (List.range s.cfg.cports).foldl (fun a c => a.set c { (default : CPort) with poisonDue := true }) .empty }

/-- Steps of a start in which the Steward runs: its STATE (R362). -/
def stewardStage (n : Nat) : BitVec 4 := if n ≤ 5 then 0#4 else if n = 6 then 1#4 else 2#4

/-- Policy of a step in this start: a bypassed Larder leaves its steps not applicable (R352). -/
def State.policyNow (s : State) (n : Nat) : Nat :=
  if (n = 12 ∨ n = 13) ∧ s.boot.bypass then 3 else stepPolicy s.cfg n

def State.updStep (s : State) (n : Nat) (f : JEntry → JEntry) : State :=
  { s with boot := { s.boot with jrnl := s.boot.jrnl.set n (f (s.boot.jrnl.get n)) } }

/-- What a step sets going when its turn comes: links, and the lane ramp. -/
def State.stepBegins (s : State) (n : Nat) : State :=
  match n with
  | 4 => s.raiseMports
  | 9 => s.raiseCports
  | 10 => s.raiseXports
  | 15 => s.beginRamp
  | _ => s

/-- Go to step `n` of a start: steps that are not applicable or skipped are recorded, the first other one is in progress on
the path R353 chooses. `k` bounds the steps left. -/
def State.enterStep : Nat → Nat → State → State
  | 0, _, s => s
  | k + 1, n, s =>
    let p := s.policyNow n
    let failed := (s.boot.jrnl.get n).pfailed
    if p = 3 then (s.updStep n (fun e => { e with path := 0#2, outcome := 5#4, code := 0#8 })).enterStep k (n + 1)
    else if p = 1 ∧ failed then
      ((s.stepBegins n).updStep n (fun e => { e with path := 3#2, outcome := 4#4, code := 0#8 })).enterStep k (n + 1)
    else
      let s := s.updStep n (fun e => { e with
        path := if p = 2 ∧ failed then 2#2 else 1#2, outcome := 3#4, attempts := min 255 (e.attempts + 1), code := 0#8 })
      let st := if s.boot.stwState == 4#4 then 4#4 else stewardStage n
      ({ s with boot := { s.boot with step := n, stwState := st } } : State).stepBegins n

def State.enter (s : State) (n : Nat) : State := s.enterStep 18 n

/-- A start begins (R352): lane clocks are gated until the ramp. Causes: 0 PORESET_N, 1 WARMRESET_N, 2 REBOOT, 3 internal
restart. -/
def State.beginStart (s : State) (cause : BitVec 4) : State :=
  let s := (List.range s.cfg.lanes).foldl (fun a l => a.updLane l (fun v => { v with gated := true })) s
  ({ s with boot := { s.boot with starts := min 255 (s.boot.starts + 1), cause := cause, booting := true } } : State).enter 0

/-- PORESET_N_ASSERT. -/
def execPoresetNAssert (s : State) : Res :=
  .next { s.cold with pins := { s.cold.pins with poreset := true } }

/-- PORESET_N_RELEASE: DEVID and TAP_MFR are sampled (R69, R78, R84). -/
def execPoresetNRelease (devid : BitVec 6) (mfr : BitVec 11) (s : State) : Res :=
  whenever s.pins.poreset s (fun s =>
    let s : State := { s.cold with pins := { s.cold.pins with poreset := false, devid := devid, mfr := mfr } }
    s.beginStart 0#4)

/-- PLL_LOCK. -/
def execPllLock (s : State) : Res :=
  whenever (!s.pins.poreset && !s.pins.pllLocked) s (fun s => { s with pins := { s.pins with pllLocked := true } })

/-- WARMRESET_N_ASSERT. N3 is left by PORESET_N alone (R357). -/
def execWarmresetNAssert (s : State) : Res :=
  whenever (s.power.st != .n3) s (fun s =>
    let s := s.warmed
    { s with pins := { s.pins with warmreset := true } })

/-- WARMRESET_N_RELEASE. -/
def execWarmresetNRelease (s : State) : Res :=
  whenever s.pins.warmreset s (fun s =>
    let s : State := { s.warmed with pins := { s.warmed.pins with warmreset := false } }
    if s.pins.poreset then s else s.beginStart 1#4)

-- Images (R349, R350).

/-- The header follows R349: KIND 1 Steward firmware, 2 Larder microcode. -/
def imgHeaderOk (h : BitVec 512) (kind : Nat) : Bool :=
  let size := fieldAt h 20 4
  fieldAt h 0 1 == kind && fieldAt h 1 1 == 1 && fieldAt h 2 2 == 0 && fieldAt h 8 2 != 0 && fieldAt h 18 2 == 0 &&
    fieldAt h 24 40 == 0 && size % 64 == 0 && decide (64 ≤ size) &&
    decide (size ≤ if kind = 1 then 2 ^ 20 else 2 ^ 18) && (kind == 1 || fieldAt h 14 4 == 0)

/-- Physical address of an image. -/
def State.imgAddr (s : State) (which : Nat) : Nat :=
  (s.boot.ret.get (offStwImg which + 4)).toNat * 2 ^ 32 + (s.boot.ret.get (offStwImg which)).toNat

/-- The hardware's compatibility epoch. -/
def hwEpoch : Nat := 0x17

/-- The checks of R350 on an image that has been read whole. -/
def State.imageCode (s : State) (kind : Nat) (h : BitVec 512) (sigOk : Bool) : Byte :=
  let epoch := fieldAt h 8 2
  if !sigOk then 0x03#8
  else if hwEpoch < fieldAt h 10 2 ∨ fieldAt h 12 2 < hwEpoch then 0x04#8
  else if kind = 2 ∧ (epoch < s.boot.peerMin.toNat ∨ s.boot.peerMax.toNat < epoch) then 0x05#8
  else 0x00#8

/-- An image is read and checked: its header, then all of it. The first check of R350 that it fails, or 0, and its header;
none while a read is on its way. An address of 0, or on another device, cannot be read. -/
def State.imageCheck (s : State) (which kind : Nat) (sigOk : Bool) : State × Option (Byte × BitVec 512) :=
  let addr := s.imgAddr which
  if addr = 0 ∨ paDevice addr ≠ s.devid then (s, some (0x01#8, 0#512))
  else match s.need .image addr 64 with
  | (s, .wait) => (s, none)
  | (s, .failed _) => (s, some (0x01#8, 0#512))
  | (s, .bytes l) =>
    let h := words512 l
    if !imgHeaderOk h kind then (s, some (0x02#8, h))
    else match s.need .image addr (64 + fieldAt h 20 4 + 96) with
    | (s, .wait) => (s, none)
    | (s, .failed _) => (s, some (0x01#8, h))
    | (s, .bytes _) => (s, some (s.imageCode kind h sigOk, h))

/-- What an image's check has found. One whose reads have not come by the step's limit has not been read. -/
def State.imageFound (s : State) (which kind : Nat) (sigOk : Bool) : Byte × BitVec 512 :=
  (s.imageCheck which kind sigOk).2.getD (0x01#8, 0#512)

/-- A Steward image is loaded. -/
def State.loadFirmware (s : State) (b : Bool) (h : BitVec 512) : State :=
  { s with boot := { s.boot with
    imgB := b, fwver := BitVec.ofNat 32 (fieldAt h 4 4), stwEpoch := BitVec.ofNat 16 (fieldAt h 8 2)
    peerMin := BitVec.ofNat 16 (fieldAt h 14 2), peerMax := BitVec.ofNat 16 (fieldAt h 16 2) } }

/-- The Larder microcode is loaded. -/
def State.loadMicrocode (s : State) (h : BitVec 512) : State :=
  { s with boot := { s.boot with
    lmver := BitVec.ofNat 32 (fieldAt h 4 4), lmEpoch := BitVec.ofNat 16 (fieldAt h 8 2) } }

-- The structure image (R369, R370).

def seOffset (e : BitVec 64) : Nat := bits e 0 24
def seValue (e : BitVec 64) : Word := BitVec.ofNat 32 (bits e 32 32)

/-- The structure an image leaves: the later of two values, and the default where no entry names the register. -/
def imageStruct (c : ConfigPoint) (es : List (BitVec 64)) (off : Nat) : Word :=
  es.foldl (fun v e => if seOffset e = off then seValue e else v) (structDefault c off)

/-- ID_IP_VERSION.CONFIG_POINT (R401). -/
def configCode : ConfigPoint → Nat
  | .s => 1 | .m => 2 | .x => 3

/-- Header and check value. -/
def structHeaderOk (c : ConfigPoint) (h : BitVec 512) (es : List (BitVec 64)) : Bool :=
  let count := fieldAt h 12 4
  let body := (natBytes 60 (fieldAt h 0 60)) ++ es.flatMap (fun e => natBytes 8 e.toNat)
  fieldAt h 0 4 == 0x53545233 && fieldAt h 4 1 == 3 && fieldAt h 5 1 == configCode c && fieldAt h 6 2 == 0 &&
    decide (1 ≤ count) && decide (count ≤ 4096) && es.length == count && fieldAt h 16 44 == 0 &&
    fieldAt h 60 4 == (crc32c body).toNat

/-- An entry names no structure register, or its value breaks the register's form. -/
def entryBad (c : ConfigPoint) (e : BitVec 64) : Bool := bits e 24 8 != 0 || structBad c (seOffset e) (seValue e)

/-- The structure image is read: its header, then its entries. The status of a read that failed, or the header and the entries;
none while a read is on its way. -/
def State.structRead (s : State) : State × Option (Byte × BitVec 512 × List (BitVec 64)) :=
  let addr := s.imgAddr 3
  if addr = 0 ∨ paDevice addr ≠ s.devid then (s, some (stAgentError, 0#512, []))
  else match s.need .image addr 64 with
  | (s, .wait) => (s, none)
  | (s, .failed st) => (s, some (st, 0#512, []))
  | (s, .bytes l) =>
    let h := words512 l
    let n := fieldAt h 12 4
    if n = 0 ∨ 4096 < n then (s, some (stOk, h, []))
    else match s.need .image (addr + 64) (8 * n) with
    | (s, .wait) => (s, none)
    | (s, .failed st) => (s, some (st, h, []))
    | (s, .bytes es) => (s, some (stOk, h, words64 es))

/-- What the read of the structure image has given. One that has not come by the step's limit is taken as one that failed. -/
def State.structFound (s : State) : Byte × BitVec 512 × List (BitVec 64) := s.structRead.2.getD (stAgentError, 0#512, [])

/-- The first check an image fails: status, check number and register (R370, R378). -/
def State.structImageBad (s : State) (st : Byte) (h : BitVec 512) (es : List (BitVec 64)) : Option (Byte × Nat × Nat) :=
  let c := s.cfg
  if st != stOk then some (st, 9, 0)
  else if !structHeaderOk c h es then some (stLdgConflict, 9, 0)
  else match es.find? (entryBad c) with
  | some e => some (stLdgConflict, 10, seOffset e)
  | none =>
    if !es.any (fun e => seOffset e == offLdgIlv) then some (stLdgConflict, 10, offLdgIlv)
    else match structCheck c (imageStruct c es) with
    | some (k, off) => some (stLdgConflict, k, off)
    | none =>
      if interleaveBad c (imageStruct c es offLdgIlv) (fun p => (s.mport p).absent) then some (stLdgConflict, 8, offLdgIlv)
      else none

/-- Every structure register at the default of R370. -/
def State.structDefaults (s : State) : State :=
  let s : State := { s with regs := ⟨s.regs.cells.filter (fun c => (structBits c.1).isNone)⟩ }
  [0x060000, 0x060004, offLdgTiers, offLdgSpare].foldl (fun a o => a.setReg o (structDefault a.cfg o)) s

/-- A structure image is applied: registers, ring positions and history, and IDENT (R370). -/
def State.loadStructure (s : State) (h : BitVec 512) (es : List (BitVec 64)) : State :=
  let s := es.foldl (fun a e => a.setReg (seOffset e) (seValue e)) s.structDefaults
  let s := ((List.range 1024).filter s.ringValid).foldl (fun a r => a.resetRing r false) s
  (s.setReg offLdgImgid (BitVec.ofNat 32 (fieldAt h 8 4))).ledgerResult stOk 0 0

-- What a step's paths find.

/-- A path of a step: the state it leaves, whether it passed, and its CODE. -/
abbrev StepRun := State × Bool × Byte

/-- Lanes of the instance that a mask names. -/
def State.maskLanes (s : State) (m : BitVec 64) : List Nat := (List.range s.cfg.lanes).filter (fun l => bitAt m l)

/-- LANE_SPARE (R352): spares of the same wing replace failed lanes, the rest leave service; it fails when too few remain. -/
def State.spareLanes (s : State) (failed : List Nat) : State × Bool :=
  let s := failed.foldl (fun a l => match a.freeLaneSpare (laneEast l) 3 with
    | some k => a.useLaneSpare (laneEast l) k
    | none => { a with rel := { a.rel with lanesOut := a.rel.lanesOut ||| BitVec.ofNat 64 (2 ^ l) } }) s
  let left (east : Bool) : Nat :=
    ((List.range s.cfg.wingLanes).filter (fun i => !bitAt s.rel.lanesOut (wingLane0 east + i))).length
  let least := if s.cfg == .s then 4 else 16
  (s, [false, true].all (fun e => !s.cfg.hasWing e || decide (least ≤ left e)))

/-- Tag banks of a wing that a mask names; East banks from bit 8. -/
def State.maskBanks (s : State) (m : BitVec 16) (east : Bool) : List Nat :=
  (List.range s.cfg.tagBanks).filter (fun b => bitAt m (b + if east then 8 else 0))

/-- TAG_SPARE: the wing's spare bank, unless more than one bank of a wing has failed. -/
def State.spareBanks (s : State) (m : BitVec 16) : State × Bool :=
  let wings := [false, true].filter s.cfg.hasWing
  let use (a : State) (e : Bool) : State :=
    if (s.maskBanks m e).isEmpty then a
    else { a with rel := { a.rel with tagSpare := a.rel.tagSpare.set (wingNo e) true } }
  if wings.all (fun e => decide ((s.maskBanks m e).length ≤ 1)) then (wings.foldl use s, true) else (s, false)

/-- Tiers in use that are not ready or fail their test. -/
def State.badTiers (s : State) (ok : Byte) : Byte := (s.reg offLdgTiers).truncate 8 &&& ~~~(s.larder.tiersUp &&& ok)

/-- TIER_MAPOUT. -/
def State.mapOut (s : State) (m : Byte) : State :=
  { s with larder := { s.larder with tiersUp := s.larder.tiersUp &&& ~~~m, tiersOut := s.larder.tiersOut ||| m } }

/-- Ports of a link step that have not linked. -/
def State.unlinked (s : State) (n : Nat) : Nat :=
  let routed (x : Nat) : Bool := (List.range 64).any (fun d => s.xroute d == x)
  match n with
  | 4 => ((List.range s.cfg.mports).filter (fun p => !(s.mport p).linkAck)).length
  | 9 => ((List.range s.cfg.cports).filter (fun c => s.flag offLdgClientmap c && !(s.cport c).linkAck)).length
  | _ => ((List.range 4).filter (fun x => routed x && !(s.xport x).linkAck)).length

/-- The number of lanes that failed, as CODE (R352). -/
def lanesCode (l : List Nat) : Byte := BitVec.ofNat 8 (min 255 l.length)

/-- Seeds that boot step 14 may place: one for each lane, none 0, no two equal (R140). -/
def seedsOk (n : Nat) (seeds : List Word) : Bool :=
  seeds.length == n && seeds.all (fun w => w != 0#32) && seeds.dedup.length == n

def State.seedLanes (s : State) (seeds : List Word) : State :=
  seeds.zipIdx.foldl (fun a w => a.updLane w.2 (fun v => { v with lfsr := w.1 })) s

/-- Ramp units of the configuration point (R359). -/
def ConfigPoint.rampUnits (c : ConfigPoint) : Nat := c.laneGroups + c.expanders

/-- A step reads what the path it is on needs; the flag says that it has all of it. -/
def State.stepReads (s : State) (r : BootReport) : State × Bool :=
  match s.boot.step with
  | 5 =>
    let (t, c) := if (s.boot.jrnl.get 5).path = 2#2 then s.imageCheck 1 1 r.sigB else s.imageCheck 0 1 r.sigOk
    (t, c.isSome)
  | 7 =>
    let (t, c) := s.structRead
    (t, c.isSome)
  | 11 =>
    let (t, c) := if (s.boot.jrnl.get 11).path = 2#2 then (s, some (0#8, 0#512)) else s.imageCheck 2 2 r.sigOk
    (t, c.isSome)
  | _ => (s, true)

/-- The primary path of a step. -/
def State.runPrimary (s : State) (n : Nat) (r : BootReport) : StepRun :=
  match n with
  | 0 =>
    -- A journal that fails its check is cleared.
    let s : State := if r.altOk then s else { s with boot := { s.boot with
      jrnl := (Bank.empty : Bank JEntry).set 0 { (default : JEntry) with path := 1#2, outcome := 3#4, attempts := 1 }
      starts := 1, lanesFailed := 0 } }
    (s, r.ok, 0)
  | 3 =>
    let bad := s.maskLanes r.lanes
    ({ s with boot := { s.boot with lanesFailed := bad.foldl (fun a l => a ||| BitVec.ofNat 64 (2 ^ l)) 0#64 } },
      r.ok && bad.isEmpty, lanesCode bad)
  | 4 => (s, decide (s.unlinked 4 < s.cfg.mports), BitVec.ofNat 8 (s.unlinked 4))
  | 5 =>
    let (c, h) := s.imageFound 0 1 r.sigOk
    if c = 0 then (s.loadFirmware false h, true, c) else (s, false, c)
  | 7 =>
    let (st, h, es) := s.structFound
    match s.structImageBad st h es with
    | none => (s.loadStructure h es, true, 0)
    | some (st, k, off) => (s.ledgerResult st k off, false, 0)
  | 8 => (s, r.ok && [false, true].all (fun e => !s.cfg.hasWing e || (s.maskBanks r.banks e).isEmpty), 0)
  | 9 | 10 => (s, s.unlinked n == 0, BitVec.ofNat 8 (s.unlinked n))
  | 11 =>
    let (c, h) := s.imageFound 2 2 r.sigOk
    if c = 0 then (s.loadMicrocode h, true, c) else (s, false, c)
  | 12 => (s, r.ok && s.badTiers r.tiers == 0#8, 0)
  | 13 => ({ s with larder := { s.larder with dir := .empty } }, r.ok, 0)
  | 14 => (s.seedLanes r.seeds, true, 0)
  | 15 => (s, s.power.phase == .rest && s.power.running == s.cfg.rampUnits, 0)
  | 16 => (s, true, 0)
  | _ => (s, r.ok, 0)

/-- The alternate path of a step; `code` is what its primary found in this start. -/
def State.runAlternate (s : State) (n : Nat) (r : BootReport) (code : Byte) : StepRun :=
  match n with
  | 3 =>
    let bad := s.maskLanes r.lanes
    let s : State := { s with boot := { s.boot with
      lanesFailed := bad.foldl (fun a l => a ||| BitVec.ofNat 64 (2 ^ l)) 0#64 } }
    let (s, ok) := s.spareLanes bad
    (s, ok, lanesCode bad)
  | 5 =>
    let (c, h) := s.imageFound 1 1 r.sigB
    (if c = 0 then s.loadFirmware true h else s, c == 0#8, if code = 0 then c else code)
  | 8 =>
    let (s, ok) := s.spareBanks r.banks
    (s, ok, 0)
  | 11 => ({ s with boot := { s.boot with bypass := true } }, true, code)
  | 12 =>
    let m := s.badTiers r.tiers
    (s.mapOut m, true, m)
  | _ => (s, r.altOk, code)

-- The end of a step (R353).

/-- ROM recovery mode (R355): the structure is discarded, the firmware does not run. -/
def State.recover (s : State) : State :=
  let s := s.structDefaults
  -- A ramp that was held ends with its step.
  let s : State := { s with
    boot := { s.boot with stwState := 3#4, booting := false, fwver := 0, stwEpoch := 0, imgB := false }
    power := { s.power with phase := .rest }
    pins := { s.pins with loadup := false } }
  s.raiseEvent offStwEvents 1

/-- An internal restart: every effect of a warm reset, and a start of cause 3. -/
def State.restart (s : State) : State := (s.warmed.raiseEvent offStwEvents 3).beginStart 3#4

/-- Step 16 has passed (R352). -/
def State.becomeReady (s : State) : State :=
  (({ s with boot := { s.boot with ready := true, booting := false } } : State).raiseEvent offStwEvents 0).powerKick

/-- A step's path has passed or failed. -/
def State.stepDone (s : State) (n : Nat) (ok : Bool) (code : Byte) : State :=
  let s := (s.closeReading .image).updStep n (fun e => { e with
    outcome := if ok then 1#4 else 2#4, fails := if ok then 0 else min 15 (e.fails + 1), code := code })
  if ok then (if n = 16 then s.becomeReady else s.enter (n + 1))
  else if 2 ≤ (s.boot.jrnl.get n).fails then s.recover
  else s.restart

/-- Step 12 tests the rows of the tiers in use, and spare rows replace the failing ones (R385; that the test of a tier finds
them is DEDUCED, log 103). -/
def State.testRows (s : State) (r : BootReport) : State :=
  (r.rows.filter (fun x => s.flag offLdgTiers x.1)).foldl (fun a x => a.replaceRow (x.1 % 8) (x.2 % 2 ^ 22)) s

/-- The step in progress ends (R353). `late` says that it ran into its limit, which fails the path it was on. -/
def State.endStep (s : State) (r : BootReport) (late : Bool) : State :=
  let n := s.boot.step
  let p := s.policyNow n
  let s := if n = 12 then s.testRows r else s
  if (s.boot.jrnl.get n).path = 2#2 then
    let (s, ok, code) := s.runAlternate n r (s.boot.jrnl.get n).code
    -- LARDER_BYPASS and TIER_MAPOUT always pass (R352).
    s.stepDone n (ok && (!late || n == 11 || n == 12)) code
  else
    let (s, ok, code) := s.runPrimary n r
    -- At the limit of step 4 the ports that have not linked are absent; the step fails only if none has.
    if ok && (!late || n == 4) then s.stepDone n true code
    else
      let s := s.updStep n (fun e => { e with pfailed := true })
      if p = 1 then s.stepDone n true code
      else if p = 2 then
        -- The alternate begins; image B is still to be read.
        match (s.updStep n (fun e => { e with path := 2#2, code := code })).stepReads r with
        | (s, false) => s
        | (s, true) =>
          let (s, ok, code) := s.runAlternate n r code
          s.stepDone n ok code
      else s.stepDone n false code

/-- The ports of step 4 are all linked or recorded as absent (R40). -/
def State.portsKnown (s : State) : Bool :=
  (List.range s.cfg.mports).all (fun p => (s.mport p).linkAck || (s.mport p).absent)

/-- The step in progress can end: whoever runs it is running, and what it waits for has come or is known not to come. -/
def State.mayEndStep (s : State) (r : BootReport) : Bool :=
  let n := s.boot.step
  s.alive && s.boot.booting && (decide (n ≤ 5) || s.boot.stwState == 1#4 || s.stwRunning) &&
    (match n with
      | 4 => s.portsKnown
      | 9 | 10 => s.unlinked n == 0
      | 14 => seedsOk s.cfg.lanes r.seeds
      | 15 => s.power.phase == .rest && s.power.running == s.cfg.rampUnits
      | _ => true)

/-- BOOT_STEP_END: the step ends, once what it reads has come. -/
def execBootStepEnd (rep : BootReport) (s : State) : Res :=
  whenever (s.mayEndStep rep) s (fun s => match s.stepReads rep with
    | (t, true) => t.endStep rep false
    | (t, false) => t)

/-- Memory ports that have not linked at the limit of step 4 are absent (R40). -/
def State.markAbsent (s : State) : State :=
  (List.range s.cfg.mports).foldl (fun a p =>
    if (a.mport p).linkAck then a else a.updMport p (fun v => { v with absent := true })) s

/-- BOOT_STEP_TIMEOUT: the step has exceeded its limit (R352). -/
def execBootStepTimeout (rep : BootReport) (s : State) : Res :=
  whenever (s.alive && s.boot.booting) s (fun s =>
    (if s.boot.step = 4 then s.markAbsent else s).endStep rep true)

-- Steward registers (R353, R354, R362).

/-- PFAILED of a step is cleared. -/
def State.clearFailed (s : State) (n : Nat) : State := s.updStep n (fun e => { e with pfailed := false })

/-- A write of STW_CTRL: JRNL_RETRY, then REBOOT, which has every effect of a warm reset (R352, R353). -/
def State.writeStwCtrl (s : State) (data : Word) : State :=
  let s := if bitAt data 30 then (List.range 17).foldl (fun a n => a.clearFailed n) s else s
  if bitAt data 31 then s.warmed.beginStart 2#4 else s

/-- REBOOT. -/
def execReboot (s : State) : Res := s.cpEffect offStwCtrl (fun s => s.writeStwCtrl (oneBit 31))

/-- JRNL_RETRY. -/
def execJrnlRetry (s : State) : Res := s.cpEffect offStwCtrl (fun s => s.writeStwCtrl (oneBit 30))

def State.setRet (s : State) (off : Nat) (v : Word) : State :=
  { s with boot := { s.boot with ret := s.boot.ret.set off v } }

/-- The step that reads an image address: A and B 5, the microcode's 11, the structure image's 7. -/
def imgStep (which : Nat) : Nat := match which with
  | 0 | 1 => 5
  | 2 => 11
  | _ => 7

/-- A write of an image address's _LO register. -/
def State.writeImgLo (s : State) (which : Nat) (data : Word) : State :=
  (s.setRet (offStwImg which) (data &&& 0xFFFFFFC0#32)).clearFailed (imgStep which)

/-- STW_IMG_LO_WRITE: `which` 0 A, 1 B, 2 LM, 3 STRUCT. -/
def execStwImgLoWrite (which : BitVec 2) (data : Word) (s : State) : Res :=
  s.cpEffect (offStwImg which.toNat) (fun s => s.writeImgLo which.toNat data)

end Sys2Proof.Machine
end

