-- ==== Sys2Proof/Machine/ClientPorts.lean ====
section
/-!
DEFINITION. The client ports: links (R43, R49, R52, R211), pushes (R43-R46), the semaphore sideband (R47, R48) and
stall causes (R50).
-/

namespace Sys2Proof.Machine

/-- A client port of the instance whose link is up. -/
def State.cportLive (s : State) (c : Nat) : Bool := s.alive && decide (c < s.cfg.cports) && s.cportUp c

/-- ST_INTERNAL of a client port (R46, R52, R111). -/
def State.cportFault (s : State) (c : Nat) : FaultInfo :=
  { s.fault stInternal 0x7#8 with detail := BitVec.ofNat 32 (0x20 + c) }

/-- One semaphore's part of the link-up sequence: POISON if R211 calls for it, FAULT, and INC with the latched COUNT
if that is not 0 (R49). -/
def State.linkUpSem (s : State) (i : Nat) (poison : Bool) : State :=
  let s := if poison then s.sendSemo i 1#2 0#20 else s
  (s.sendSemo i 2#2 0#20).sendFull i

/-- CLIENT_LINK_UP: the client raises Cn_LINK_ACK and grants `crd` push credits; the link-up sequence replaces the
messages held (R43, R49, R52). -/
def execClientLinkUp (c : Nat) (crd : BitVec 7) (s : State) : Res :=
  let v := s.cport c
  whenever (s.alive && decide (c < s.cfg.cports) && v.linkReq && !v.linkAck) s (fun s =>
    let s := s.updCport c (fun v => { v with
      linkAck := true, credits := min 64 crd.toNat, heldSemo := [], poisonDue := false })
    let s := s.putBit offCportLink c true
    -- INCs of the present ccyc are part of the COUNTs that the sequence carries.
    let s : State := { s with incsDue := s.incsDue.filter (fun m => semPort m.1 != c) }
    ((List.range 48).foldl (fun a n => a.linkUpSem (48 * c + n) v.poisonDue) s).wakeGoes)

/-- Slot fills towards a port that are crossing the Corridor. -/
def State.corFills (s : State) (c : Nat) : List Fill :=
  (s.corridor.toEast.cells ++ s.corridor.toWest.cells).flatMap (fun l => l.2.filterMap (fun i => match i with
    | .fill f => if f.port = c then some f else none
    | _ => none))

def CorItem.fillFor (c : Nat) : CorItem → Bool
  | .fill f => f.port == c
  | _ => false

/-- A client link that the entry into N2 lowered is down: it aborts nothing (R360). -/
def State.dropClient (s : State) (c : Nat) : State :=
  ((s.updCport c (fun v => { v with linkAck := false, credits := 0 })).putBit offCportLink c false).handOver

/-- CLIENT_LINK_DOWN: Cn_LINK_ACK falls (R52), or answers the fall of Cn_LINK_REQ (R360). -/
def execClientLinkDown (c : Nat) (s : State) : Res :=
  let v := s.cport c
  whenever (s.alive && decide (c < s.cfg.cports) && v.linkAck) s (fun s =>
    if !v.linkReq then s.dropClient c
    else
      let qs := firsts ((v.fills ++ v.await ++ s.corFills c).map (fun f => f.q))
      let drop (b : Bank (List CorItem)) : Bank (List CorItem) :=
        b.each (fun _ l => l.filter (fun i => !i.fillFor c))
      let s := s.updCport c (fun v => { v with linkAck := false, credits := 0, fills := [], await := [] })
      let s : State := { s with corridor := { s.corridor with
        toEast := drop s.corridor.toEast, toWest := drop s.corridor.toWest } }
      let s := (s.putBit offCportLink c false).raiseEvent offRelEvents 8
      (qs.foldl (fun a q => a.abort q (a.cportFault c)) s).sweep)

/-- PUSH_CREDIT_RETURN (R43). -/
def execPushCreditReturn (c : Nat) (n : BitVec 2) (s : State) : Res :=
  whenever (s.cportLive c) s (fun s => s.updCport c (fun v => { v with credits := min 64 (v.credits + n.toNat) }))

/-- PUSH_BEAT: the next beat, in increasing address order, of the slot fill at the front of the port (R43, R45). -/
def execPushBeat (c : Nat) (s : State) : Res :=
  match (s.cport c).fills with
  | [] => .next s
  | f :: rest => match f.beats with
    | [] => .next s
    | b :: left => whenever (s.cportLive c && decide (0 < (s.cport c).credits)) s (fun s =>
        let bytes := f.bytes.filter (fun x => decide (b ≤ x.1) && decide (x.1 < b + 512))
        let g : Fill := { f with beats := left, begun := true }
        let s := (s.drive (.push c f.ring f.slot b left.isEmpty bytes)).count (unitCport c) 0x01 0 1
        s.updCport c (fun v => if left.isEmpty then { v with credits := v.credits - 1, fills := rest, await := v.await ++ [g] }
          else { v with credits := v.credits - 1, fills := g :: rest }))

/-- A slot fill failed at its client (R46). -/
def State.pushFails (s : State) (q c : Nat) : State := (s.abort q (s.cportFault c)).sweep

/-- PUSH_LANDED: the client acknowledges a slot fill, or reports that it failed (R44, R46). Either answer crosses the Corridor
to a lane of the other wing. -/
def execPushLanded (c : Nat) (ring : BitVec 10) (slot : BitVec 6) (err : Bool) (s : State) : Res :=
  match (s.cport c).await.find? (fun f => f.ring == ring.toNat && f.slot == slot.toNat) with
  | none => .next s
  | some f => whenever (s.cportLive c) s (fun s =>
      let s := s.updCport c (fun v => { v with await := v.await.erase f })
      if s.qEast f.q == cportEast c then (if err then s.pushFails f.q c else s.sweep)
      else if s.corridor.failed then s.abort f.q s.corridorFault
      else s.corPush (s.qEast f.q) corData (if err then .pushFailed f.q f.tile f.ring c else .pushed f.q f.tile f.ring))

-- The semaphore sideband.

/-- An increment by a client; on overflow the owning queue faults (R206). -/
def State.clientInc (s : State) (i : Nat) (k : BitVec 20) : State :=
  (s.inTurn i rankInc k).semIncrement i k .client

/-- A message of the semaphore-in channel; one with a reserved opcode, an index above 47 or a count of 0 is discarded
and counted (R48). -/
def State.semiMessage (s : State) (c : Nat) (op : BitVec 2) (idx : BitVec 6) (cnt : BitVec 20) : State :=
  if decide (1 < op.toNat) || decide (47 < idx.toNat) || cnt == 0#20 then s.count (unitCport c) 0x03 0 1
  else if op == 0#2 then s.clientInc (48 * c + idx.toNat) cnt
  else (s.inTurn (48 * c + idx.toNat) rankDec cnt).semDecrement (48 * c + idx.toNat) cnt

/-- SEMI_INC: a client adds to one of its semaphores (R47, R206). -/
def execSemiInc (c : Nat) (op : BitVec 2) (idx : BitVec 6) (cnt : BitVec 20) (s : State) : Res :=
  whenever (s.cportLive c) s (fun s => s.semiMessage c op idx cnt)

/-- SEMI_DEC: a client subtracts from one of its semaphores (R47, R207). -/
def execSemiDec (c : Nat) (op : BitVec 2) (idx : BitVec 6) (cnt : BitVec 20) (s : State) : Res :=
  whenever (s.cportLive c) s (fun s => s.semiMessage c op idx cnt)

-- Stall causes (R50).

/-- The itinerary that fills a ring: its program claims the ring, or the leader of the ring's group. -/
def State.producer (s : State) (r : Nat) : Option Itin :=
  s.itins.find? (fun i => i.place == .resident && i.prog.any (fun w => insOp w == 0x20 && (s.slotRings (insRing w)).contains r))

/-- A multicast leader's CLAIM waits because another member has no free slot. -/
def State.laggardHeld (s : State) (i : Itin) (r : Nat) : Bool :=
  i.status != .ready && insOp i.next == 0x20 && (s.slotRings (insRing i.next)).any (fun m => m != r &&
    (match s.linkOf i.q m with
    | some l => (s.sem l.2).count == 0#20
    | none => false))

/-- The itinerary, or one of its tiles, waits on a translation. -/
def State.missesOf (s : State) (i : Itin) : Bool :=
  s.misses.any (fun m => m.waiters.any (fun w => match w.who with
    | .tile id => (s.tile id).any (fun t => t.stream == i.stream)
    | .reader id _ _ _ => s.readings.any (fun r => r.id == id && r.who == .desc i.stream)
    | _ => false))

/-- A request of the itinerary lost its port's arbitration: the port could issue it and has not picked it (R189, R190). -/
def State.lostArbitration (s : State) (i : Itin) : Bool :=
  s.waiting.any (fun r => r.stream == i.stream && s.pickable r.port r && decide (0 < (s.mport r.port).reqCred))

/-- A LOOKUP of the itinerary's queue has rows with another owner outstanding. -/
def State.awaitsReply (s : State) (q : Nat) : Bool := s.remote.outs.any (fun o => o.q == q && o.parcel.ptype == 0x01#8)

/-- The cause of an empty ring: the first that holds (R50). Causes 5 and 3 are read of a LOOKUP or UPDATE of the producing
queue (log 79). -/
def State.stallCause (s : State) (r : Nat) : Nat :=
  match s.producer r with
  | none => 0
  | some i =>
    if s.laggardHeld i r then 7
    else if i.status == .taking then 4
    else if s.missesOf i then 1
    else if s.blocks.any (fun b => (s.tile b.tile).any (fun t => t.stream == i.stream)) ||
        s.tiles.any (fun t => t.stream == i.stream && s.inOutputStage (laneEast t.lane) t) then 2
    else if s.porter.batches.any (fun b => b.q == i.q) && !s.awaitsReply i.q then 5
    else if s.awaitsReply i.q then 3
    else if (i.status == .ready && !(s.running i.lane).any (fun x => x.stream == i.stream)) || s.lostArbitration i then 6
    else 0

/-- STALL_REPORT: a stalled ccyc of a client gets one cause, which is counted and returned (R50). -/
def execStallReport (c : Nat) (kind : Bool) (id : BitVec 10) (s : State) : Res :=
  whenever (s.cportLive c) s (fun s =>
    let cause := if kind then 4 else s.stallCause id.toNat
    (s.count (unitCport c) (0x20 + cause) 0 1).drive (.cause c (BitVec.ofNat 3 cause)))

end Sys2Proof.Machine
end

