-- ==== Sys2Proof/Machine/Power.lean ====
section
/-!
DEFINITION. Power states (R357-R361), the lane ramp (R82, R359), the supply handshake (R81) and the thermal inputs (R83).
-/

namespace Sys2Proof.Machine

-- Thermal inputs (R83).

/-- THERM_CRIT suspends every queue and gates the lanes once they are quiet. -/
def State.thermalRespond (s : State) : State :=
  ((List.range s.cfg.queues).foldl (fun a q =>
    let v := a.queue q
    if v.st == .running then (a.updQueue q (fun v => { v with suspTherm := true })).beginSuspend q
    else if v.st == .suspended || v.st == .faulted then a.updQueue q (fun v => { v with suspTherm := true })
    else a) s).gateIfQuiet

/-- The clocks of the lanes of the groups that run, less the lanes out of service, run again. -/
def State.ungateLanes (s : State) : State :=
  (List.range s.cfg.lanes).foldl (fun a l =>
    if l / 8 < a.power.running && !bitAt a.rel.lanesOut l then a.updLane l (fun v => { v with gated := false }) else a) s

/-- SUSP_THERMAL ends and the queues resume. -/
def State.thermalRelease (s : State) : State :=
  let s := s.ungateLanes
  (List.range s.cfg.queues).foldl (fun a q =>
    if (a.queue q).suspTherm then (a.updQueue q (fun v => { v with suspTherm := false })).leaveSuspended q else a) s

/-- The always-on island samples the thermal inputs in every state it runs in (R361). -/
def State.edgeEvent (s : State) (i : Nat) : State := if s.portRuns then s.raisePower i else s

/-- THERM_WARN_EDGE: the level after the edge. Issue at half rate is timing, which the model leaves out. -/
def execThermWarnEdge (level : Bool) (s : State) : Res :=
  whenever (s.pins.thermWarn != level) s (fun s =>
    ({ s with pins := { s.pins with thermWarn := level } } : State).edgeEvent (if level then 4 else 5))

/-- The next ramp unit follows 256 ccyc after PM_LOADUP_HOLD and THERM_CRIT are both 0 again (R82, R359). -/
def State.resumeRamp (s : State) : State :=
  match s.power.phase with
  | .ramp _ => if s.pins.hold || s.pins.thermCrit then s
    else { s with power := { s.power with due := s.ccyc + 256 } }
  | _ => s

/-- THERM_CRIT_RISE. -/
def execThermCritRise (s : State) : Res :=
  whenever (!s.pins.thermCrit) s (fun s =>
    let s := ({ s with pins := { s.pins with thermCrit := true } } : State).edgeEvent 6
    if s.alive && s.power.st == .n0 then s.thermalRespond else s)

/-- THERM_CRIT_FALL. -/
def execThermCritFall (s : State) : Res :=
  whenever s.pins.thermCrit s (fun s =>
    let s := ({ s with pins := { s.pins with thermCrit := false } } : State).edgeEvent 7
    if s.alive then (if s.power.st == .n0 then s.thermalRelease else s).resumeRamp else s)

-- The lane ramp (R359).

/-- PM_LOADUP_HOLD_FALL. -/
def execPmLoadupHoldFall (s : State) : Res :=
  whenever s.pins.hold s (fun s => ({ s with pins := { s.pins with hold := false } } : State).resumeRamp)

/-- ccyc from now to the next unit's enabling. -/
def State.rampWait (s : State) : Nat := if s.ccyc < s.power.due then (s.power.due - s.ccyc).toNat else 0

/-- N0 is reached after a wake: PWR_WAKECYC, the parcels that waited (R358), the thermal responses put off (R83, R361). -/
def State.reachN0 (s : State) : State :=
  let s := s.putWakeCyc
  let s : State := { s with power := { s.power with st := .n0 } }
  let s := s.serveHeld
  (if s.pins.thermCrit then s.thermalRespond else s.thermalRelease).transitionDone

/-- Unit k has been running for its first ccyc; a group's lanes run unless they are out of service. -/
def State.unitRuns (s : State) (k : Nat) : State :=
  let s : State := { s with power := { s.power with running := k + 1, due := s.ccyc + 24, phase := .ramp (k + 1) } }
  let s := if k < s.cfg.laneGroups then (List.range 8).foldl (fun a i =>
      if 8 * k + i < a.cfg.lanes && !bitAt a.rel.lanesOut (8 * k + i) then
        a.updLane (8 * k + i) (fun v => { v with gated := false }) else a) s else s
  if k + 1 < s.cfg.rampUnits then s
  else
    let s : State := { s with pins := { s.pins with loadup := false }, power := { s.power with phase := .rest } }
    if s.boot.booting then s else s.reachN0

/-- RAMP_UNIT_ENABLE: the next unit's time has come, with PM_LOADUP_HOLD at `hold`. Unless it or THERM_CRIT holds the ramp,
time passes up to the unit's enabling and for the 232 ccyc until it runs. -/
def execRampUnitEnable (hold : Bool) (s : State) : Res :=
  match s.power.phase with
  | .ramp k => whenever s.alive s (fun s =>
      let fell := s.pins.hold && !hold
      let s : State := { s with pins := { s.pins with hold := hold } }
      let s := if fell then s.resumeRamp else s
      if hold || s.pins.thermCrit then s
      else (s.passCycles (s.rampWait + 232)).unitRuns k)
  | _ => .next s

-- N0 and N1 (R358).

/-- A write of PWR_CTRL. -/
def State.writePwrCtrl (s : State) (data : Word) : State :=
  (s.putMasked offPwrCtrl 0x80000000#32 data).askTarget (bits data 0 2)

/-- PWR_CTRL_TARGET. -/
def execPwrCtrlTarget (data : Word) (s : State) : Res := s.cpEffect offPwrCtrl (fun s => s.writePwrCtrl data)

/-- Lanes, Porters and Expanders have drained. What a queue that does not execute has set aside stands still. -/
def State.drained (s : State) : Bool :=
  !s.itins.any (fun i => i.place == .resident) && s.blocks.isEmpty &&
    !s.tiles.any (fun t => t.stage == .issued || (s.queue t.q).executing) &&
    !s.porter.batches.any (fun b => (s.queue b.q).executing)

/-- A RUN, LOOKUP or UPDATE waits for N0. -/
def State.workWaits (s : State) : Bool := (List.range s.cfg.queues).any (fun q => (s.queue q).executing && s.powerHeld q)

/-- Requests for N1, N2 and N3 that have not been met are answered ABANDONED. -/
def State.abandonPower (s : State) (least : Nat) : State :=
  s.answerPower (fun r => !r.reached && decide (least ≤ r.target.toNat)) .abandoned

def State.gateAll (s : State) : State :=
  (List.range s.cfg.lanes).foldl (fun a l => a.updLane l (fun v => { v with gated := true })) s

/-- N1_ENTRY: the drain has ended. Waiting work abandons the entry under AUTOWAKE; otherwise lanes and Expanders are gated
64 ccyc later. -/
def execN1Entry (s : State) : Res :=
  whenever (s.alive && s.stwRunning && s.power.phase == .drainToN1 && s.drained) s (fun s =>
    if s.autoWake && s.workWaits then
      -- The block is in N0: requests for it are met (R348).
      ((((s.raisePower 1).putTarget 0).setPhase .rest).abandonPower 1).answerPower (fun r => r.target == 0#2) .done
    else
      let s := (s.passCycles 64).gateAll
      ({ s with power := { s.power with st := .n1, phase := .rest, running := 0 } } : State).transitionDone)

/-- AUTOWAKE: a RUN, LOOKUP or UPDATE has reached its start condition in N1. -/
def execAutowake (s : State) : Res :=
  whenever (s.alive && s.power.st == .n1 && s.autoWake && s.workWaits) s (fun s => s.askTarget 0)

-- N2 and N3 (R357, R360).

/-- The engine changes PM_VREQ only while PM_VLVL equals it (R81). -/
def State.supplySettled (s : State) : Bool := s.pins.pmVlvl == s.pins.pmVreq

/-- The conditions for entering N2. -/
def State.n2Conditions (s : State) : Bool :=
  (List.range s.cfg.queues).all (fun q => (s.queue q).st == .idle && (s.queue q).cmds.all (fun c => c.done)) &&
    s.remote.service.isEmpty && s.remote.serves.isEmpty && s.remote.held.isEmpty && s.misses.isEmpty && s.invals.isEmpty &&
    s.larder.installs.isEmpty && (!s.promoLive || (s.larder.promoW.isEmpty && s.larder.promoE.isEmpty))

/-- Ports whose links are up. -/
def State.upPorts (s : State) : List LinkPort :=
  (((List.range s.cfg.mports).filter (fun p => (s.mport p).linkAck)).map LinkPort.mem) ++
    (((List.range s.cfg.cports).filter (fun c => (s.cport c).linkAck)).map LinkPort.client) ++
    (((List.range s.cfg.xports).filter (fun x => (s.xport x).linkAck)).map LinkPort.remote)

/-- The Steward lowers LINK_REQ on every port whose link is up. -/
def State.lowerLinks (s : State) : State :=
  { s with
    power := { s.power with lowered := s.upPorts }
    mports := s.mports.each (fun _ v => if v.linkAck then { v with linkReq := false } else v)
    cports := s.cports.each (fun _ v => if v.linkAck then { v with linkReq := false } else v)
    remote := { s.remote with
      ports := s.remote.ports.each (fun _ v => if v.linkAck then { v with linkReq := false } else v) } }

/-- N2_ENTRY: the conditions hold and the links are dropped. -/
def execN2Entry (s : State) : Res :=
  whenever (s.alive && s.stwRunning && s.power.st == .n1 && s.power.phase == .n2Wait && s.n2Conditions &&
      s.supplySettled) s (fun s => ((s.lowerLinks).setPhase .linkDrop).handOver)

/-- N2_ENTRY_TIMEOUT: the entry is abandoned. -/
def execN2EntryTimeout (s : State) : Res :=
  whenever (s.alive && s.power.st == .n1 && s.power.phase == .n2Wait && !s.n2Conditions) s (fun s =>
    (((s.raisePower 1).putTarget 1).setPhase .rest).abandonPower 2)

/-- A memory link that the entry into N2 lowered is down. -/
def State.dropMport (s : State) (p : Nat) : State :=
  ((s.updMport p (fun v => { v with linkAck := false, reqCred := 0, wdCred := 0 })).putBit offMportLink p false).handOver

/-- MEM_LINK_ACK_FALL. -/
def execMemLinkAckFall (p : Nat) (s : State) : Res :=
  whenever (s.alive && decide (p < s.cfg.mports) && (s.mport p).linkAck && !(s.mport p).linkReq) s (fun s => s.dropMport p)

/-- LINK_DROP_TIMEOUT: the entry goes on without the partner's answer. -/
def execLinkDropTimeout (port : LinkPort) (s : State) : Res :=
  let waits : Bool := match port with
    | .mem p => (s.mport p).linkAck && !(s.mport p).linkReq
    | .client c => (s.cport c).linkAck && !(s.cport c).linkReq
    | .remote x => (s.xport x).linkAck && !(s.xport x).linkReq
  whenever (s.alive && s.power.phase == .linkDrop && waits) s (fun s => match port with
    | .mem p => s.dropMport p
    | .client c => s.dropClient c
    | .remote x => s.dropRemote x)

/-- N2_EXIT: TARGET N0 or N1, or with TARGET N2 T_INV_VALID at 1, makes the wake sequencer raise the supply. -/
def execN2Exit (s : State) : Res :=
  whenever (!s.inReset && s.power.st == .n2 && s.power.phase == .rest && s.target != 3 && s.supplySettled) s (fun s =>
    ({ s with pins := { s.pins with pmVreq := 2#2 } } : State).setPhase .wakeVolt)

/-- N3_ENTRY. -/
def execN3Entry (s : State) : Res :=
  whenever (!s.inReset && s.power.st == .n2 && s.power.phase == .rest && s.target == 3 && s.supplySettled) s (fun s =>
    ({ s with pins := { s.pins with pmVreq := 0#2 } } : State).setPhase .offVolt)

/-- The clocks run again, 512 ccyc after the supply's level has come: every LINK_REQ rises, and each port runs its link-up
sequence (R360). How long the supply took is free; TLY_CCYC stood meanwhile (R363, R393; log 47). -/
def State.wake (s : State) : State :=
  let s : State := { s with power := { s.power with
    st := .n1, phase := .linkUp s.power.lowered, before := Config.freeNat s.free + 512, wakeAt := s.ccyc } }
  (((s.tick.raiseMports).raiseCports).raiseXports).wakeGoes

/-- PM_VLVL_MATCH. -/
def execPmVlvlMatch (s : State) : Res :=
  .next (
    let s : State := { s with pins := { s.pins with pmVlvl := s.pins.pmVreq } }
    match s.power.phase with
    | .retentionVolt => ({ s with power := { s.power with st := .n2, phase := .rest } } : State).transitionDone
    | .wakeVolt => s.wake
    | .offVolt => { s with power := { s.power with st := .n3, phase := .rest } }
    | _ => s)

/-- A request for the supply has failed: VLVL_FAIL, and TARGET names the state the block stays in (R361). -/
def State.supplyFailed (s : State) (stay : Nat) : State := ((s.setPhase .rest).raisePower 2).putTarget stay

/-- PM_VLVL_TIMEOUT: the level does not come within 1 ms; PM_VLVL stands at `lvl` (R81). -/
def execPmVlvlTimeout (lvl : BitVec 2) (s : State) : Res :=
  whenever (lvl != s.pins.pmVreq) s (fun s =>
    let t : State := { s with pins := { s.pins with pmVlvl := lvl } }
    match s.power.phase with
    | .retentionVolt => (((t.supplyFailed 1).raiseMports.raiseCports).raiseXports).abandonPower 2
    | .wakeVolt | .offVolt => t.supplyFailed 2
    | _ => s)

end Sys2Proof.Machine
end

