-- ==== Sys2Proof/Machine/TallyFam.lean ====
section
/-!
DEFINITION. The Tally's commands: requests and the Tally edge (R394, R395), records (R396), SNAPSHOT tasks (R397), counter
selections (R390-R392), TLY_CCYC (R393) and time marks (R399).
-/

namespace Sys2Proof.Machine

-- TLY_CTRL.

/-- A write of TLY_CTRL: VIEW and DUMP, then SNAP, CLEAR and a change of FREEZE ask for a Tally edge (R394, R398). -/
def State.writeTlyCtrl (s : State) (data : Word) : State :=
  let was := s.flag offTlyCtrl 31
  let s := s.putMasked offTlyCtrl 0x98000000#32 data
  let s := if bitAt data 30 then s.askTally (.snap (bitAt data 27)) else s
  let s := if bitAt data 29 then s.askTally .clear else s
  if bitAt data 31 != was then s.askTally (.freeze (bitAt data 31)) else s

/-- FREEZE, VIEW and DUMP as they stand. -/
def State.tlyCtrlNow (s : State) : Word := s.reg offTlyCtrl &&& 0x98000000#32

/-- SNAP: a write of TLY_CTRL that sets SNAP. -/
def execSnap (s : State) : Res := s.cpEffect offTlyCtrl (fun s => s.writeTlyCtrl (s.tlyCtrlNow ||| oneBit 30))

/-- CLEAR: a write of TLY_CTRL that sets CLEAR. -/
def execClear (s : State) : Res := s.cpEffect offTlyCtrl (fun s => s.writeTlyCtrl (s.tlyCtrlNow ||| oneBit 29))

/-- FREEZE: a write of TLY_CTRL that puts FREEZE. -/
def execFreeze (on : Bool) (s : State) : Res :=
  s.cpEffect offTlyCtrl (fun s => s.writeTlyCtrl ((s.tlyCtrlNow &&& 0x7FFFFFFF#32) ||| (if on then oneBit 31 else 0#32)))

-- The Tally edge.

/-- TALLY_EDGE: time passes up to the next edge that a request waits for, which then applies (R394). -/
def execTallyEdge (s : State) : Res :=
  match s.nextEdge with
  | none => .next s
  | some m => whenever s.alive s (fun s => s.passCycles m)

-- Records (R396).

/-- Counter entry k of a unit. -/
def State.counterEntry (s : State) (u k : Nat) : Nat :=
  let lo := s.tlySelLo u k
  s.tally.shadow.get (16 * u + k) + bits lo 20 8 * 2 ^ 48 + bits lo 29 2 * 2 ^ 57 + oneIf (bitAt lo 31) * 2 ^ 63

/-- Units in a record: every present one, or those of TLY_UMASK among them. -/
def State.recordUnits (s : State) (user : Bool) : List Nat :=
  (List.range 130).filter (fun u => s.unitPresent u && (!user || s.flag (offTlyUmask (u / 32)) (u % 32)))

/-- The counters of a record that East units hold; the reader reads them over the Corridor (R9, R403). -/
def State.eastCounters (s : State) (r : TallyRec) : List Nat :=
  if s.cfg.twoWings then
    ((s.recordUnits r.q.isSome).filter eastUnit).flatMap (fun u => (List.range 16).map (fun k => 16 * u + k))
  else []

/-- The counter entry that the reader has of a counter: one that the Corridor's failure has cut off is open (log 113). -/
def State.readEntry (s : State) (r : TallyRec) (u k : Nat) : Nat :=
  if r.lost.contains (16 * u + k) then Config.freeNat (s.free + r.lost.idxOf (16 * u + k)) % 2 ^ 64 else s.counterEntry u k

/-- The present record changes. -/
def State.setRecord (s : State) (r : TallyRec) : State := { s with tally := { s.tally with record := some r } }

/-- The reader asks the East units for their counters; after a Corridor failure it cannot (R20). -/
def State.askCounters (s : State) (r : TallyRec) : State :=
  let ks := s.eastCounters r
  if s.corridor.failed then s.setRecord { r with left := some [], lost := ks }
  else ks.foldl (fun a i => a.corPush true corControl (.tallyRead s.tally.snapSeq i)) (s.setRecord { r with left := some ks })

/-- Every counter of the record has been read. -/
def State.countersRead (s : State) (r : TallyRec) : Bool := r.left == some [] || (s.eastCounters r).isEmpty

/-- An answer to a read of the present snapshot reaches the reader. -/
def State.counterAnswered (s : State) (snap : Word) (i : Nat) : State := match s.tally.record with
  | some r => if snap == s.tally.snapSeq then s.setRecord { r with left := r.left.map (fun l => l.filter (fun j => j != i)) } else s
  | none => s

/-- The Corridor fails while the reader waits for counters: a SNAPSHOT task fails, and in another record they are open (R20). -/
def State.countersLost (s : State) : State := match s.tally.record with
  | some { q, frozen, left := some (i :: l), lost } => match q, q.bind (fun q => (s.queue q).task) with
    | some q, some t => s.failCmd q t.cmd s.corridorFault
    | _, _ => s.setRecord { q := q, frozen := frozen, left := some [], lost := lost ++ i :: l }
  | _ => s

/-- The bytes of a Tally record. -/
def State.recordBytes (s : State) (r : TallyRec) : List Byte :=
  let us := s.recordUnits r.q.isSome
  record ([(s.tally.snapSeq.toNat, 4), (us.length, 4), (s.tally.snapCcyc.toNat, 8), (s.devid, 1),
      (oneIf r.q.isSome, 1), (r.q.getD 0, 1), (oneIf r.frozen, 1), (0, 12), (us.foldl (fun a u => a + 2 ^ u) 0, 32)] ++
    us.flatMap (fun u => (List.range 16).map (fun k => (s.readEntry r u k, 8))))

/-- The record of the present snapshot is being written. -/
def State.recordAway (s : State) : Bool := s.records.any (fun r => match r.note with
  | .tally | .snap _ _ => true
  | _ => false)

/-- The record of a TLY_CTRL snapshot is written, in a stream of its own (R29, R396, R404). -/
def State.writeTally (s : State) (r : TallyRec) : State :=
  let pa := s.fld offTlyDumpHi 0 20 * 2 ^ 32 + s.fld offTlyDumpLo 6 26 * 64
  if paDevice pa != s.devid then (s.raiseEvent offTlyStatus 1).recordDone
  else ({ s.bump with free := s.free + r.lost.length } : State).writeRecord .tally ⟨none, s.nextId, s.stwAsid, 1#2⟩
    [(pa, s.recordBytes r)]

/-- TALLY_RECORD: the reader asks the East units for their counters, or has them and writes the record of a TLY_CTRL snapshot
(R396). -/
def execTallyRecord (s : State) : Res :=
  match s.tally.record with
  | none => .next s
  | some r => whenever (s.alive && r.q.isNone && !s.recordAway) s (fun s =>
      if s.countersRead r then s.writeTally r else if r.left.isNone then s.askCounters r else s)

-- SNAPSHOT tasks (R397).

/-- Pages of the record, physical and virtual, checked for writing; none while one is being asked for, or once the task has
failed. -/
def State.snapPages (s : State) (q : Nat) (t : Task) (len : Nat) : State × Option (List (Nat × Nat)) :=
  match s.openReading (.command q t.cmd) with
  | (s, r) => (pagesOf t.snapVa.toNat len).foldl (fun (a : State × Option (List (Nat × Nat))) p => match a with
    | (s, none) => (s, none)
    | (s, some ps) =>
      match s.lookPage (s.issuer r) accWrite p (.reader r.id t.snapVa.toNat t.snapVa.toNat len) t.snapVa.toNat with
      | (u, .found pp) => (u, some (ps ++ [(pp, p)]))
      | (u, .wait) => (u, none)
      | (u, .denied f) => (u.failCmd q t.cmd f, none)) (s, some [])

/-- The bytes of the record by the physical address of each page. -/
def snapChunks (va : Nat) (pages : List (Nat × Nat)) (bytes : List Byte) : List (Nat × List Byte) :=
  pages.map (fun p =>
    let lo := max va (p.2 * 4096)
    (p.1 * 4096 + lo % 4096, (bytes.drop (lo - va)).take ((p.2 + 1) * 4096 - lo)))

/-- The record leaves, page by page: its writes are the queue's, those to another device in RWRITE parcels (R69, R397). -/
def State.sendSnap (s : State) (q : Nat) (va : Nat) (pages : List (Nat × Nat)) (bytes : List Byte) : State :=
  match s.openRecord (.snap q pages) (snapChunks va pages bytes) with
  | (t, rid, parts) => parts.foldl (fun a p =>
      if paDevice p.1.1 == a.devid then
        a.sendPart (a.recordReq { a.feWriter q with stream := rid } rid p.2 p.1.1 p.1.2)
      else a.remoteWrite q (feStream q) false none (p.1.2.zipIdx.map (fun b => (p.1.1 + b.2, b.1))) [] (some (rid, p.2))) t

/-- The record of a SNAPSHOT task is written through translation, or its pages are asked for. -/
def State.writeSnap (s : State) (q : Nat) (t : Task) (r : TallyRec) : State :=
  let bytes := s.recordBytes r
  match s.snapPages q t bytes.length with
  | (u, some pages) => (u.closeReading (.command q t.cmd)).sendSnap q t.snapVa.toNat pages bytes
  | (u, none) => u

/-- SNAPSHOT_TASK: the reader asks the East units for their counters, or has them and writes the record of a queue's SNAPSHOT
task through translation; when it has landed the itineraries start (R397). After a Corridor failure a record with East units
fails its task (R20). -/
def execSnapshotTask (q : Nat) (s : State) : Res :=
  match s.tally.record, (s.queue q).task with
  | some r, some t => whenever (s.alive && r.q == some q && t.phase == .snapshot && !s.recordAway && !(s.queue q).stopping) s
      (fun s =>
        if s.countersRead r then s.writeSnap q t r
        else if r.left.isSome then s
        else if s.corridor.failed then s.failCmd q t.cmd s.corridorFault
        else s.askCounters r)
  | some r, none => whenever (s.alive && r.q == some q) s (fun s => s.recordDone)
  | none, _ => .next s

-- Selections (R391, R392).

/-- What a unit's event counts by: it does not exist, has no qualifier, a qualifier below a bound, or a queue of the
instance. -/
inductive TlyEvent where
  | absent
  | plain
  | upTo (n : Nat)
  | queue
  deriving DecidableEq, Repr, Inhabited

def evLane : Nat → TlyEvent
  | 0x01 | 0x04 | 0x05 | 0x06 | 0x07 | 0x08 | 0x09 => .upTo 8
  | 0x0B | 0x0C | 0x0D | 0x0E => .queue
  | 0x02 | 0x03 | 0x0A | 0x0F | 0x10 | 0x11 | 0x12 | 0x13 | 0x14 => .plain
  | _ => .absent

def evPorts (u ev : Nat) : TlyEvent :=
  if u < 80 then match ev with
    | 0x01 => .upTo 3
    | 0x08 => .upTo 4
    | 0x02 | 0x03 | 0x04 | 0x05 | 0x06 | 0x07 => .plain
    | _ => .absent
  else if u < 112 then match ev with
    | 0x01 | 0x02 | 0x03 | 0x04 => .plain
    | 0x05 => .upTo 1024
    | _ => .absent
  else match ev with
    | 0x01 | 0x02 | 0x06 => .upTo 2
    | 0x03 | 0x04 | 0x05 | 0x07 => .plain
    | _ => .absent

def evOthers (u ev : Nat) : TlyEvent :=
  let last (n : Nat) : TlyEvent := if 1 ≤ ev ∧ ev ≤ n then .plain else .absent
  match u with
  | 116 | 117 => last 6
  | 118 | 119 => last 8
  | 120 | 121 | 124 | 125 => last 4
  | 122 | 123 => last 6
  | 126 | 127 => if ev = 1 then .upTo 1024 else if ev = 2 then .plain else .absent
  | 128 => if ev = 1 then .upTo 16 else if ev = 2 then .plain else .absent
  | _ => if ev = 1 ∨ ev = 2 ∨ ev = 3 then .queue else .absent

/-- The events of each unit kind (R392). -/
def tlyEvent (u ev : Nat) : TlyEvent :=
  if ev = 0 then .plain
  else if u < 64 then evLane ev
  else if u < 116 then evPorts u ev
  else evOthers u ev

/-- A selection that R391 ignores, or one of a fixed counter (R390). A queue that the instance does not have is outside QUAL's
range (R3; DESIGN CHOICE, log 110). -/
def selBad (cfg : ConfigPoint) (u k : Nat) (lo hi : Word) : Bool :=
  (isCportUnit u && decide (k < 8)) ||
    (match tlyEvent u (bits lo 20 8) with
      | .absent => true
      | .plain => bitAt hi 10
      | .upTo n => decide (n ≤ bits hi 0 10)
      | .queue => decide (cfg.queues ≤ bits hi 0 10))

/-- A write of TLY_SEL_LO or TLY_SEL_HI of counter k of unit u. -/
def State.writeTlySel (s : State) (u k : Nat) (hi : Bool) (data : Word) : State :=
  if !s.unitPresent u || decide (16 ≤ k) then s
  else
    let lo := if hi then s.tlySelLo u k else data
    let h := if hi then data else s.tlySelHi u k
    if selBad s.cfg u k lo h then s.raiseEvent offTlyStatus 2
    else
      -- What the present cycle has shown so far were occurrences of the event selected before.
      let s : State := { s with tally := { s.tally with occ := s.tally.occ.set (16 * u + k) 0 } }
      if hi then s.putMasked (offTly u (8 * k + 4)) 0x000007FF#32 data
      else s.putMasked (offTly u (8 * k)) 0xEFF0FFFF#32 data

/-- TLY_SEL_WRITE. -/
def execTlySelWrite (u k : Nat) (hi : Bool) (data : Word) (s : State) : Res :=
  s.cpWriteAt 0#8 (offTly u (8 * k + if hi then 4 else 0)) data (fun s => s.writeTlySel u k hi data)

/-- A write of TLY_CNT_LO or TLY_CNT_HI: a half of the counter's value (R390). -/
def State.writeTlyCnt (s : State) (u k : Nat) (hi : Bool) (data : Word) : State :=
  if !s.unitPresent u || decide (16 ≤ k) then s
  else
    let i := 16 * u + k
    let v := s.tally.cnt.get i
    let v' := if hi then bits data 0 16 * 2 ^ 32 + v % 2 ^ 32 else v / 2 ^ 32 * 2 ^ 32 + data.toNat
    { s with tally := { s.tally with cnt := s.tally.cnt.set i v' } }

-- TLY_CCYC and time marks.

/-- A read of TLY_CCYC_LO latches the upper bits (R393). -/
def State.latchCcyc (s : State) : State := { s with ccycLatch := BitVec.ofNat 16 (s.ccyc.toNat / 2 ^ 32) }

/-- TLY_CCYC_LO_READ: a read of TLY_CCYC_LO. -/
def execTlyCcycLoRead (s : State) : Res :=
  whenever s.cpTakes s (fun s =>
    match s.cpAnswer (BitVec.ofNat 24 offTlyCcycLo) with
    | .ok => s.latchCcyc.cpReply 0#2 (s.ccyc.truncate 32)
    | a => s.cpReply (cpCode a) 0#32)

/-- TRACE_TIME_MARK: every 65,536 ccyc a time mark is formed; `stall` is TRC_STALL (R86, R399). -/
def execTraceTimeMark (stall : Bool) (s : State) : Res :=
  whenever s.alive s (fun s =>
    let s : State := { s with pins := { s.pins with trcStall := stall } }
    let s := s.passCycles ((65536 - s.ccyc.toNat % 65536) % 65536)
    s.traceFree 7 (s.ccyc.toNat * 2 ^ 56))

end Sys2Proof.Machine
end

