-- ==== Sys2Proof/Machine/Control.lean ====
section
/-!
DEFINITION. The control port's writes by register (R7, R56-R58, R400 and the register tables of the chapters), and the debug
TAP (R84, R85).
-/

namespace Sys2Proof.Machine

/-- Bits of a register that are RW and have no effect but their value. -/
def rwMask (off : Nat) : Option Word :=
  if inQueues off then
    if (off - 0x011000) % 0x80 = qTmo then some 0x1F#32 else none
  else if decide (0x069000 ≤ off) && decide (off < 0x069400) then
    if off % 0x10 = 8 then some 0xFFFFFFFF#32 else none
  else if decide (0x130030 ≤ off) && decide (off < 0x130048) && off % 4 == 0 then some 0xFFFFFFFF#32
  else if decide (0x140100 ≤ off) && decide (off < 0x140120) && off % 4 == 0 then some 0x8700FFFF#32
  else if decide (0x140200 ≤ off) && decide (off < 0x140300) && off % 4 == 0 then some 0x8700003F#32
  else match off with
  | 0x080000 | 0x0A0110 | 0x100014 | 0x130400 => some 0x1F#32
  | 0x080020 => some 0xFFFFFFE0#32
  | 0x080024 => some 0xF00FFFFF#32
  | 0x0A0200 => some 0xFFFFF000#32
  | 0x0A0204 => some 0x000FFFFF#32
  | 0x0C0004 | 0x0C1004 | 0x0D0018 | 0x0D001C | 0x0D0020 | 0x0F0084 | 0x130048 => some 0xFFFFFFFF#32
  | 0x0D0000 => some 0x9F00FFFF#32
  | 0x0F0020 => some 0xFFFFFFC0#32
  | 0x0F0024 => some 0x000FFFFF#32
  | 0x0F0080 => some 0x80FF007F#32
  | 0x14000C => some 0xFF#32
  | _ => none

/-- Bits of an RW register that take a written word. A field of a unit the instance lacks ignores the write, as does one that
the word would make name such a unit (R3): LRD_PQDROP.EAST, and TLY_TRACE.QUEUE. -/
def State.presentBits (s : State) (off : Nat) (data : Word) : Word :=
  if off = 0x0D0020 ∧ !s.cfg.twoWings then 0x0000FFFF#32
  else if off = offTlyTrace ∧ s.cfg.queues ≤ bits data 0 6 then 0xFFFFFFC0#32
  else 0xFFFFFFFF#32

/-- Bits of a register that are W1C. -/
def w1cMask (off : Nat) : Option Word :=
  if inQueues off then
    if (off - 0x011000) % 0x80 = qEvents then some 0x3F#32 else none
  else match off with
  | 0x040000 | 0x10000C | 0x110004 => some 0xF#32
  | 0x080004 | 0x0E0000 | 0x0F0004 => some 0x7#32
  | 0x0A0208 => some 0x3#32
  | 0x120008 => some 0xFF#32
  | 0x130000 => some 0x0F9F#32
  | 0x0C0008 | 0x0C1008 | 0x0E0004 | 0x130050 | 0x130058 => some 0x80000000#32
  | _ => none

/-- Bits of the queue registers that are writable while EN is 0 (R90). -/
def queueMask (o : Nat) : Option Word := match o with
  | 0x00 => some 0xFFFFF000#32
  | 0x04 => some 0x1FFFFFFF#32
  | 0x20 => some 0xFFFFFFE0#32
  | 0x24 => some 0xF00FFFFF#32
  | 0x28 => some 0xFFFFFF00#32
  | 0x2C => some 0x000FFFFF#32
  | _ => none

/-- Registers of a pigeonhole other than PGH_BIND that have a writable field. -/
def pghWritable (o : Nat) : Bool := [0x08, 0x0C, 0x10, 0x14, 0x18, 0x1C, 0x20, 0x24].contains o

def State.writeQueueReg (s : State) (q o : Nat) (data : Word) : State :=
  match o with
  | 0x08 => s.writeQcfg q data
  | 0x10 => s.writeDoorbell q data
  | 0x1C => s.writeAction q data
  | _ => match queueMask o with
    | some m => if s.qEn q then s else s.putMasked (offQ q o) m data
    | none => s

/-- A control-port master's write of a pigeonhole register. Only the Steward acts under identity 0xFF: a master that shows it is
no side (R332, R333). -/
def State.writePghReg (s : State) (p o : Nat) (mid : BitVec 8) (data : Word) : State :=
  if mid == 0xFF#8 && o != 0x00 then (if (s.pgh p).locked && pghWritable o then s.pghError .mid p mid else s)
  else match o with
  | 0x00 => s.writePghBind p mid data
  | 0x08 => s.writePghPtr p false false mid data
  | 0x0C => s.writePghPtr p false true mid data
  | 0x10 => s.writePghPtr p true false mid data
  | 0x14 => s.writePghPtr p true true mid data
  | 0x18 => s.writePghAck p mid data
  | 0x1C => s.writePghRing p mid data
  | 0x20 => s.writePghPend p mid data
  | 0x24 => s.writePghMask p mid data
  | _ => s

/-- TLY_UMASK bits of units the instance has (R3). -/
def State.umaskBits (s : State) (w : Nat) : Word :=
  BitVec.ofNat 32 (((List.range 32).filter (fun b => decide (32 * w + b < 130) && s.unitPresent (32 * w + b))).foldl
    (fun a b => a + 2 ^ b) 0)

def State.writeTallyReg (s : State) (off : Nat) (data : Word) : State :=
  if 0x0F1000 ≤ off then
    let u := (off - 0x0F1000) / 0x100
    let o := off % 0x100
    if 130 ≤ u then s
    else if o < 0x80 then s.writeTlySel u (o / 8) (o % 8 == 4) data
    else s.writeTlyCnt u ((o - 0x80) / 8) (o % 8 == 4) data
  else if off = offTlyCtrl then s.writeTlyCtrl data
  else if decide (0x0F0040 ≤ off) && decide (off < 0x0F0060) then s.putMasked off (s.umaskBits ((off - 0x0F0040) / 4)) data
  else s

def State.writeStewardReg (s : State) (off : Nat) (data : Word) : State :=
  match off with
  | 0x110008 => s.writeStwCtrl data
  | 0x110020 | 0x110028 | 0x110030 | 0x110038 => s.writeImgLo ((off - 0x110020) / 8) data
  | 0x110024 | 0x11002C | 0x110034 | 0x11003C => s.setRet off (data &&& 0x000FFFFF#32)
  | 0x110040 => s.setRet off (data &&& 0x0000FFFF#32)
  | _ => s

/-- A write whose effect is more than a value. -/
def State.writeSpecial (s : State) (mid : BitVec 8) (off : Nat) (data : Word) : State :=
  if inQueues off then s.writeQueueReg ((off - 0x011000) / 0x80) ((off - 0x011000) % 0x80) data
  else if decide (0x041000 ≤ off) && decide (off < 0x044000) && off % 8 == 4 then s.writeSemSet ((off - 0x041004) / 8) data
  else if decide (0x0E1000 ≤ off) && decide (off < 0x0E1400) then
    s.writePghReg ((off - 0x0E1000) / 0x40) (off % 0x40) mid data
  else match off / 0x10000 with
  | 0x0F => s.writeTallyReg off data
  | 0x11 => s.writeStewardReg off data
  | 0x12 => if off = offPwrCtrl then s.writePwrCtrl data else s
  | 0x13 =>
    if off = offRelInject then s.writeInject data
    else if decide (0x130010 ≤ off) && decide (off < 0x130028) then s.writeCeCfg ((off - 0x130010) / 4) data
    else s
  | _ => s

/-- A write that the port performs, by access code: RWT, RW, W1C, or a register with an effect of its own. Everything else
is read-only or holds no register (R7, R57). -/
def State.cpWrite (s : State) (mid : BitVec 8) (off : Nat) (data : Word) : State :=
  if !s.offPresent off then s
  else if isRwt off then s.writeRwt mid off data
  else match rwMask off, w1cMask off with
  | some m, _ => s.putMasked off (m &&& s.presentBits off data) data
  | none, some m => s.clearBits off (data &&& m)
  | none, none => s.writeSpecial mid off data

/-- A read that the port performs. -/
def State.cpRead (s : State) (off : Nat) : State × Word :=
  (if off = offTlyCcycLo then s.latchCcyc else s, s.readRegister off)

/-- REGISTER_WRITE. -/
def execRegisterWrite (mid : BitVec 8) (addr : BitVec 24) (data : Word) (s : State) : Res :=
  s.cpWriteAt mid addr.toNat data (fun s => s.cpWrite mid addr.toNat data)

/-- CONTROL_PORT_TIMEOUT: an access that is not answered, because the Corridor has failed or the Steward does not run (R57). It
cannot have reached its register (log 112). -/
def execControlPortTimeout (_mid : BitVec 8) (_isWrite : Bool) (addr : BitVec 24) (_data : Word) (s : State) : Res :=
  whenever (s.cpTakes && s.cpAnswer addr == .timeout) s (fun s => s.cpReply 3#2 0#32)

-- The debug TAP.

/-- Master identity of the TAP (R58). -/
def midTap : BitVec 8 := 0xFE#8

/-- Instruction codes of the TAP; every other code selects BYPASS (R84). -/
def tapIdcode : Byte := 0x01#8
def tapCpacc : Byte := 0x10#8

/-- TAP_IDCODE: a code is loaded into the instruction register, and the data register it selects is scanned out: 32 bits of
IDCODE, or the BYPASS bit, which captures 0 (R84; log 59). CPACC has captures of its own. -/
def execTapIdcode (code : Byte) (s : State) : Res :=
  whenever (s.power.st != .n3) s (fun s =>
    let s : State := { s with tap := { s.tap with ir := code } }
    if code == tapIdcode then
      s.drive (.tdo 32 (BitVec.ofNat 64 (0x3 * 2 ^ 28 + 0x4E33 * 2 ^ 12 + s.pins.mfr.toNat * 2 + 1)))
    else if code == tapCpacc then s
    else s.drive (.tdo 1 0#64))

/-- The register access a CPACC word asks for: a write under the TAP's identity, or a read (R58, R85). -/
def tapRequest (dr : BitVec 58) : CpAccess :=
  { write := if bitAt dr 57 then some (midTap, BitVec.ofNat 32 (bits dr 1 32)) else none, off := bits dr 33 24, tap := true }

/-- An access takes effect at its register, and gives the word read. -/
def State.accessRegister (s : State) (a : CpAccess) : State × Word :=
  match a.write with
  | some (mid, data) => (s.cpWrite mid a.off data, 0#32)
  | none => s.cpRead a.off

/-- The TAP's access: made at once, sent to the East wing, or answered with an error and without effect (R57, R85). -/
def State.tapAccess (s : State) (a : CpAccess) : State :=
  match s.cpAnswer (BitVec.ofNat 24 a.off) with
  | .ok => match s.accessRegister a with
    | (t, v) => t.accessAnswered true 0#2 v
  | .crosses => s.cpSend a
  | e => s.accessAnswered true (cpCode e) 0#32

/-- An access of the TAP is on its way to the East wing, or its answer on the way back. -/
def State.tapAway (s : State) : Bool := s.corItems.any (fun i => match i with
  | .access a => a.tap
  | .accessDone tap _ => tap
  | _ => false)

/-- CPACC_UPDATE_DR: the TAP holds CPACC, and one control-port access is made, unless DBG_LOCK (`lock`) makes CPACC act as
BYPASS (R84, R85). The handshake takes no further access while one is away (DESIGN CHOICE, log 59). -/
def execCpaccUpdateDr (dr : BitVec 58) (lock : Bool) (s : State) : Res :=
  whenever (s.power.st != .n3) s (fun s =>
    if lock || s.tapAway then { s with tap := { s.tap with ir := tapCpacc } }
    else
      let t : State := { s with tap := { ir := tapCpacc, busy := true, done := false, rdata := 0, err := 0 } }
      if t.portRuns then t.tapAccess (tapRequest dr) else t)

/-- CPACC_CAPTURE_DR: read data and done, if the response has arrived, which the clock crossing leaves open; the bits above
are not stated (R85). With done 0 the spec gives no read data: the model loads 0 (DESIGN CHOICE, log 59). -/
def execCpaccCaptureDr (lock : Bool) (s : State) : Res :=
  whenever (s.power.st != .n3) s (fun s =>
    let s : State := { s with tap := { s.tap with ir := tapCpacc } }
    if lock then s.drive (.tdo 1 0#64)
    else
      let t := s.tap
      let arrived := t.done && (!t.busy || s.freeBelow 2 == 1)
      let high := Config.freeNat (s.free + 1) % 2 ^ 25 * 2 ^ 33
      let low := if arrived then (if t.err == 0#2 then t.rdata.toNat * 2 else 0) + 1 else 0
      let s := s.tick.tick
      let s : State := { s with tap := { t with busy := t.busy && !arrived } }
      s.drive (.tdo 58 (BitVec.ofNat 64 (high + low))))

end Sys2Proof.Machine
end

