-- ==== Sys2Proof/Machine/Crossing.lean ====
section
/-!
DEFINITION. The Corridor's commands: what a flit's arrival does (R15, R17-R19, R403), replays and the Corridor's failure (R20).
-/

namespace Sys2Proof.Machine

/-- What an item does where it arrives. -/
def State.corridorDeliver (s : State) (i : CorItem) : State :=
  match i with
  | .request r => s.enterPort r
  | .quarter r base data whole => s.deliverQuarter r.dests base data whole
  | .landed r => s.landed r
  | .rejected r st pa => s.rejects r st pa
  | .pushed _ _ _ => s.sweep
  | .pushFailed q _ _ port => s.pushFails q port
  | .fill f => s.updCport f.port (fun v => { v with fills := v.fills ++ [f] })
  | .parcel x => s.parcelArrives x
  | .inbound _ _ p => s.answered p
  | .semInc src sem k => (s.inTurn sem rankInc k).semIncrement sem k src
  | .semTake idx w => s.takeArrives idx w
  | .semGrant _ w => s.grantTo w
  | .semNotice idx w => s.takePoisoned idx w.q (s.waiterNum w.who)
  | .command q idx => s.updQueue q (fun v => v.updCmd idx (fun c => { c with crossing := false }))
  | .missAsk id => s.missDriven id
  | .missAnswer id st vstart len pbase perm => s.missAnswered id st vstart len pbase perm
  | .larderAsk _ ps => s.askLarder ps
  | .access a => match s.accessRegister a with
    | (t, v) => t.corPush false corControl (.accessDone a.tap v)
  | .accessDone tap v => s.accessAnswered tap 0#2 v
  | .tallyRead snap k => s.corPush false corControl (.tallyAnswer snap k)
  | .tallyAnswer snap k => s.counterAnswered snap k

/-- CORRIDOR_FLIT_ARRIVAL: the flit whose turn it is leaves the receiver; with its last flit the item arrives (R17-R19,
R403). -/
def execCorridorFlitArrival (toEast : Bool) (cls : BitVec 2) (s : State) : Res :=
  match (s.corridor.lane toEast).get cls.toNat with
  | [] => .next s
  | i :: rest => whenever (s.alive && !s.corridor.failed && s.corridor.turn toEast == some cls.toNat) s (fun s =>
      let c := s.corridor.passed toEast cls.toNat
      let k := corKey toEast cls.toNat
      let s := s.count unitCorridor 0x01 (cls.toNat + if toEast then 0 else 8) 1
      if c.got.get k < i.flits then { s with corridor := c }
      else
        let c := (c.setLane toEast ((c.lane toEast).set cls.toNat rest))
        ({ s with corridor := { c with got := c.got.set k 0 } } : State).corridorDeliver i)

/-- The queue whose traffic an item is, the records of its commands among it (R20). -/
def CorItem.owner : CorItem → Option Nat
  | .request r | .quarter r _ _ _ | .landed r | .rejected r _ _ => r.q
  | i => i.queue

/-- The requests whose way or whose answer an item is. -/
def State.itemReqs (s : State) : CorItem → List Req
  | .larderAsk _ ps => ps.filterMap (fun p => s.destReq p.dests 0 0)
  | i => i.req?.toList

/-- The queue, or the master, whose item is lost has its work fail: the command it is, the batch or task it belongs to. An
access of a register is answered TIMEOUT (R57). -/
def State.itemFails (s : State) (i : CorItem) : State :=
  match i with
  | .command q idx => s.failCmd q idx s.corridorFault
  | .parcel x => s.parcelFails x s.corridorFault
  | .inbound _ q p => match s.outFor p with
    | some o => s.outFails o s.corridorFault
    | none => s.abort q s.corridorFault
  | .access a => s.accessAnswered a.tap 3#2 0#32
  | .accessDone tap _ => s.accessAnswered tap 3#2 0#32
  | i => match i.owner with
    | some q => s.abort q s.corridorFault
    | none => s

/-- Of the lost items of a queue the first one fails it. -/
def State.itemsFail (s : State) (failed : List Nat) (items : List CorItem) : State :=
  (items.foldl (fun (a : State × List Nat) i => match i.owner with
    | some q => if a.2.contains q then a else (a.1.itemFails i, a.2 ++ [q])
    | none => (a.1.itemFails i, a.2)) (s, failed)).1

/-- The Corridor is declared failed (R20). -/
def State.failCorridor (s : State) : State :=
  let items := s.corItems
  -- The misses of the East wing are on their way over the Corridor until they are answered.
  let east := (s.misses.filter (fun m => m.east)).flatMap (fun m => m.waiters)
  let s : State := { s with
    corridor := { s.corridor with failed := true, toEast := .empty, toWest := .empty, got := .empty, replays := .empty }
    misses := s.misses.filter (fun m => !m.east) }
  let s := s.raiseEvent offRelEvents 11
  -- The requests, rows and acknowledgements in flight fail, then the queues whose other items are lost.
  let reqs := items.flatMap s.itemReqs
  let failed := firsts (reqs.filterMap (fun r => if r.record.isSome then none else r.q))
  let s := (s.requestsFault reqs (fun a => a.corridorFault)).itemsFail failed items
  -- A parcel that was crossing is never sent.
  let gone := items.filterMap (fun i => match i with
    | .parcel x => s.outOf x
    | _ => none)
  let s : State := { s with remote := { s.remote with outs := s.remote.outs.filter (fun o => !gone.contains o) } }
  let s := s.loseWrites ((gone.filter (fun o => isWriteParcel o.parcel)).map lostParcel ++ items.filterMap (fun i => match i with
    | .request r => lostReq r
    | _ => none))
  -- Of the East misses every waiter fails, a PREWARM's queue too.
  let seen := failed ++ items.filterMap CorItem.owner
  ((east.foldl (fun a w => if seen.contains w.q then a else match w.who with
    | .prewarm q idx => a.failCmd q idx a.corridorFault
    | _ => a.waiterFails w a.corridorFault) s).countersLost).sweep

/-- CORRIDOR_REPLAY: the flit whose turn it is fails its CRC; a flit whose first transmission and eight replays have all
failed makes the Corridor fail (R20). -/
def execCorridorReplay (toEast : Bool) (cls : BitVec 2) (s : State) : Res :=
  whenever (s.alive && !s.corridor.failed && s.corridor.turn toEast == some cls.toNat) s (fun s =>
    let n := s.corridor.replays.get (corKey toEast cls.toNat) + 1
    if 9 ≤ n then s.failCorridor
    else
      let c := s.corridor
      ({ s with corridor := { c with replays := c.replays.set (corKey toEast cls.toNat) n } } : State).count unitCorridor 0x02 0 1)

end Sys2Proof.Machine
end

