-- ==== Sys2Proof/Machine/Itinerary.lean ====
section
/-!
DEFINITION. The itinerary instructions: control, counters, displacements and origins (R153-R156, R172), index streams
(R165, R166), rings and semaphores (R167-R171, R197) and transfers (R157-R164).
-/

namespace Sys2Proof.Machine

/-- NOP (R149). -/
def execNopInstruction (lane : Nat) (s : State) : Res :=
  s.onIns lane 0x01 fun s i _ => .next (s.retired i id)

/-- HALT: the itinerary ends and its resident slot is free; with a slot held the task aborts (R172). -/
def execHalt (lane : Nat) (s : State) : Res :=
  s.onIns lane 0x02 fun s i _ =>
    if i.heldW.isSome || i.heldR.isSome then .next (s.illegal i stProgramIllegal)
    else
      let s := (s.closeWriteWindow i.stream).retired i (fun v => { v with place := .ended })
      .next s.sweep.placeAsides

/-- LOOP reads its count, then sets LC and LIM; a count of 0 goes to EXIT (R153). -/
def execLoop (lane : Nat) (s : State) : Res :=
  s.onIns lane 0x04 fun s i w =>
    let n := if insLoopSrc w then i.lc.get (insLcs w) else insImm32 w
    .next (s.retired i (fun v => { v with
      lc := v.lc.set (insLc w) 0#32
      lim := v.lim.set (insLc w) n
      pc := if n = 0#32 then insTarget w else v.pc }))

/-- ENDL adds 1 to LC and returns to BODY while LC is below LIM (R153). -/
def execEndl (lane : Nat) (s : State) : Res :=
  s.onIns lane 0x05 fun s i w =>
    let n := i.lc.get (insLc w) + 1#32
    .next (s.retired i (fun v => { v with
      lc := v.lc.set (insLc w) n
      pc := if n.toNat < (i.lim.get (insLc w)).toNat then insTarget w else v.pc }))

/-- LCSET (R154). -/
def execLcset (lane : Nat) (s : State) : Res :=
  s.onIns lane 0x10 fun s i w =>
    .next (s.retired i (fun v => { v with lc := v.lc.set (insLc w) (insImm32 w) }))

/-- LCADD, modulo 2^32 (R154). -/
def execLcadd (lane : Nat) (s : State) : Res :=
  s.onIns lane 0x11 fun s i w =>
    .next (s.retired i (fun v => { v with lc := v.lc.set (insLc w) (i.lc.get (insLcs w) + insImm32 w) }))

/-- ARSET: a signed 48-bit value (R155). -/
def execArset (lane : Nat) (s : State) : Res :=
  s.onIns lane 0x14 fun s i w =>
    .next (s.retired i (fun v => { v with ar := v.ar.set (insLc w) (wrapInt 56 (signedOf 48 (bits w 0 48))) }))

/-- ARADD; an exact result outside the signed 56-bit range changes nothing and aborts the task (R155). -/
def execAradd (lane : Nat) (s : State) : Res :=
  s.onIns lane 0x15 fun s i w =>
    let imm := signedOf 32 (bits w 0 32)
    let r := (i.ar.get (insLcs w)).toInt + if bitAt w 45 then (i.lc.get (bits w 46 3)).toNat * imm else imm
    if -(2 ^ 55) ≤ r ∧ r < 2 ^ 55 then .next (s.retired i (fun v => { v with ar := v.ar.set (insLc w) (wrapInt 56 r) }))
    else .next (s.illegal i stProgramIllegal)

/-- IXBIND binds a cursor and sets its position to 0 (R165). -/
def execIxbind (lane : Nat) (s : State) : Res :=
  s.onIns lane 0x18 fun s i w =>
    match i.desc (bits w 50 4) with
    | none => .next s
    | some d =>
      if tdNdim d ≠ 1 ∨ tdSlot d then
        .next (s.laneAbort i.q stDescInvalid i.num i.pc (i.dtb.toNat + 128 * bits w 50 4))
      else if tdDtype d ≠ 0x4 ∧ tdDtype d ≠ 0x9 then
        .next (s.laneAbort i.q stDtype i.num i.pc (i.dtb.toNat + 128 * bits w 50 4))
      else
        let c : Cursor := { bound := true, desc := d, delta := (i.ar.get (bits w 47 3)).toInt, pos := 0, wins := [],
                            fetching := [] }
        .next ((s.dropWindows i.stream (insIx w)).retired i (fun v => { v with ix := v.ix.set (insIx w) c }))

/-- IXGET takes one element, once it has arrived (R154, R166). -/
def execIxget (lane : Nat) (s : State) : Res :=
  s.onIns lane 0x19 fun s i w =>
    let c := i.ix.get (insIx w)
    if !c.bound then .next (s.illegal i stProgramIllegal)
    else match c.takeElems 1 with
    | some (x :: _) => .next (s.retired i (fun v => { v with
        lc := v.lc.set (bits w 51 3) x
        ix := v.ix.set (insIx w) (c.seek (c.pos + 1#32)) }))
    | _ => .next (s.blocked i)

/-- IXSEEK sets the position (R165). -/
def execIxseek (lane : Nat) (s : State) : Res :=
  s.onIns lane 0x1A fun s i w =>
    let p := if bitAt w 53 then i.lc.get (bits w 50 3) else insImm32 w
    .next (s.retired i (fun v => { v with ix := v.ix.set (insIx w) ((v.ix.get (insIx w)).seek p) }))

/-- CLAIM obtains a write slot (R167, R168, R197). A slot outside the Hall does not exist. -/
def execClaim (lane : Nat) (s : State) : Res :=
  s.onIns lane 0x20 fun s i w =>
    let r := insRing w
    if i.heldW.isSome then .next (s.illegal i stProgramIllegal)
    else if !s.hallFits r (s.ring r).claimp then .fault .hallAddress
    else match s.linkOf i.q r with
    | none => if s.claimable r then .next (s.claimSlot i r) else .next (s.blocked i)
    | some l =>
      if (s.slotRings r).length ≤ 1 then .next (s.insTake i l.2 1#20)
      else
        -- Every member's FREE_SEM, poisoned or not, in the order of the members.
        match (s.groupSems i.q r).find? (fun k => (s.sem k).poisoned) with
        | some k => .next (s.takePoisoned k i.q (some i.num))
        | none =>
          if s.groupFree i.q r && (s.groupSems i.q r).all (fun k => semEast k == laneEast i.lane) then
            .next (((s.groupSems i.q r).foldl (fun a k => a.semRemove k 1#20 i.q) s).claimSlot i r)
          else
            .next (s.groupTake i r).watchLaggards

/-- PUBLISH gives the held write slot up; the slot is published when the itinerary's earlier writes have landed (R169,
R181, R197). -/
def execPublish (lane : Nat) (s : State) : Res :=
  s.onIns lane 0x21 fun s i w =>
    match i.heldW with
    | none => .next (s.illegal i stProgramIllegal)
    | some h =>
      if h.ring ≠ insRing w then .next (s.illegal i stProgramIllegal)
      else
        let s := s.closeWriteWindow i.stream
        let s := (s.slotRings h.ring).foldl (fun a m =>
          a.release i (.slotPublish m h.slot ((a.linkOf i.q m).map (fun l => l.1))) (a.covered i.stream)) s
        .next (s.retired i (fun v => { v with heldW := none }))

/-- TAKE obtains a read slot of a Hall ring (R167, R168). -/
def execTake (lane : Nat) (s : State) : Res :=
  s.onIns lane 0x22 fun s i w =>
    let r := insRing w
    if i.heldR.isSome then .next (s.illegal i stProgramIllegal)
    else if !s.hallFits r (s.ring r).takep then .fault .hallAddress
    else match s.linkOf i.q r with
    | some l => .next (s.insTake i l.1 1#20)
    | none => if 0 < (s.ring r).avail then .next (s.takeSlot i r) else .next (s.blocked i)

/-- FREE gives the held read slot up; the slot is released when every read of it has returned (R169). -/
def execFree (lane : Nat) (s : State) : Res :=
  s.onIns lane 0x23 fun s i w =>
    match i.heldR with
    | none => .next (s.illegal i stProgramIllegal)
    | some h =>
      if h.ring ≠ insRing w then .next (s.illegal i stProgramIllegal)
      else
        let reads := (s.tiles.filter (fun t => t.stream == i.stream && t.slotR == some h)).map (fun t => t.id)
        let s := s.release i (.slotFree h.ring ((s.linkOf i.q h.ring).map (fun l => l.2))) reads
        .next (s.retired i (fun v => { v with heldR := none }))

/-- WAIT takes COUNT of a semaphore (R170). -/
def execWaitInstruction (lane : Nat) (s : State) : Res :=
  s.onIns lane 0x28 fun s i w => .next (s.insTake i (insSem w) (insCount20 w))

/-- SIGNAL: raised after every write of the itinerary issued before it has landed (R170, R181). -/
def execSignalInstruction (lane : Nat) (s : State) : Res :=
  s.onIns lane 0x29 fun s i w =>
    let s := s.closeWriteWindow i.stream
    let s := s.release i (.signal (insSem w) (insCount20 w)) (s.covered i.stream)
    .next (s.retired i id)

/-- DRAIN blocks until every earlier write of the itinerary has landed (R171). -/
def execDrain (lane : Nat) (s : State) : Res :=
  s.onIns lane 0x2C fun s i _ =>
    let s := (s.closeWriteWindow i.stream).sweep
    if (s.covered i.stream).isEmpty then .next (s.retired i id) else .next (s.blocked i)

/-- XFORM sets the transform selection (R141, R172). -/
def execXform (lane : Nat) (s : State) : Res :=
  s.onIns lane 0x38 fun s i w => .next (s.retired i (fun v => { v with sel := BitVec.ofNat 8 (bits w 0 8) }))

/-- ORG binds one origin component (R156). -/
def execOrg (lane : Nat) (s : State) : Res :=
  s.onIns lane 0x3C fun s i w =>
    let b : OrgBind := { offset := insImm32 w, useLc := bitAt w 51, lc := bits w 48 3, scale := BitVec.ofNat 16 (bits w 32 16) }
    .next (s.retired i (fun v => { v with org := v.org.set ((if bitAt w 55 then 8 else 0) + bits w 52 3) b }))

/-- MOVE moves one tile (R157). -/
def execMove (lane : Nat) (s : State) : Res :=
  s.onIns lane 0x30 fun s i w =>
    if !i.descsRead then .next s
    else s.transfer i (s.newTile i .move (some (insRd w)) (some (insWd w)) (insRar w) (insWar w) (insT0 w) (insT1 w)) none id

/-- XPAND routes one low-rank block through the Expander (R163, R164). -/
def execXpand (lane : Nat) (s : State) : Res :=
  s.onIns lane 0x32 fun s i w =>
    if !i.descsRead then .next s
    else s.transfer i (s.newTile i .xpand (some (insRd w)) (some (insWd w)) (insRar w) (insWar w) (insT0 w) (insT1 w))
      (if bitAt i.sel 0 then some stProgramIllegal else none) id

/-- The width a pooled instruction asks for does not fit the accumulator (R161). -/
def Itin.poolBad (i : Itin) (t0 : Nat) : Bool := decide (1024 < t0) || (match i.accW with
  | some w => w != t0
  | none => false)

/-- Weights of the next rows, once they have arrived (R160). -/
def Itin.weights (i : Itin) (w : BitVec 64) (n : Nat) : Option (List Word) :=
  if insWgt w then (i.ix.get (insWix w)).takeElems n else some []

/-- Move the weight cursor past the weights taken. -/
def Itin.pastWeights (i : Itin) (w : BitVec 64) (n : Nat) : Itin :=
  if insWgt w then { i with ix := i.ix.set (insWix w) (
    let c := i.ix.get (insWix w); c.seek (c.pos + BitVec.ofNat 32 n)) } else i

/-- GATHER takes rows by index, into a tile or the accumulator (R158, R160). With no rows it moves nothing. A descriptor that it
first names is read and checked before its run-time conditions, as for every transfer (DESIGN CHOICE, log 117: R173 orders these
only against R142's checks). -/
def execGather (lane : Nat) (s : State) : Res :=
  s.onIns lane 0x31 fun s i w =>
    if !i.descsRead then .next s
    else
      let n := i.rowsOf w
      let c := i.ix.get (insGix w)
      let wc := i.ix.get (insWix w)
      let kind : TileKind := if insPool w then .pool else .gather
      let t := s.newTile i kind (some (insRd w)) (if insPool w then none else some (insWd w)) (insRar w) (insWar w)
        (insT0 w) 0
      let bad : Option Byte :=
        if 4096 < n then some stProgramIllegal
        else if insPool w && (i.poolBad (insT0 w) || bitAt i.sel 0) then some stProgramIllegal
        else if !c.bound || (insWgt w && !wc.bound) then some stProgramIllegal
        else if tdDtype c.desc ≠ 0x4 ∨ (insWgt w ∧ tdDtype wc.desc ≠ 0x9) then some stDtype
        else none
      let width (v : Itin) : Itin := if insPool w then { v with accW := some (insT0 w) } else v
      match bad, c.takeElems n, i.weights w n with
      | none, some idx, some g =>
        if n = 0 then .next (s.retired i width)
        else s.transfer i { t with rows := idx.map (fun x => x.toInt), wgts := g } none (fun v =>
          (width { v with ix := v.ix.set (insGix w) (c.seek (c.pos + BitVec.ofNat 32 n)) }).pastWeights w n)
      | none, _, _ => .next (s.blocked i)
      | some st, _, _ => s.transfer i t (some st) id

/-- REDUCE adds the rows of a tile into the accumulator (R160, R161). A weight stream bound as int32 aborts nothing: its bits are
taken as binary32 (DESIGN CHOICE, log 117: R166 and R173 give ST_DTYPE_UNSUPPORTED to GATHER alone). -/
def execReduce (lane : Nat) (s : State) : Res :=
  s.onIns lane 0x33 fun s i w =>
    if !i.descsRead then .next s
    else
      let t := s.newTile i .reduce (some (insRd w)) none (insRar w) 0 (insT0 w) (insT1 w)
      let bad : Option Byte :=
        if i.poolBad (insT0 w) || bitAt i.sel 0 then some stProgramIllegal
        else if insWgt w && !(i.ix.get (insWix w)).bound then some stProgramIllegal
        else none
      match bad, i.weights w (insT1 w) with
      | some st, _ => s.transfer i t (some st) id
      | none, some g => s.transfer i { t with wgts := g } none (fun v =>
          ({ v with accW := some (insT0 w) } : Itin).pastWeights w (insT1 w))
      | none, none => .next (s.blocked i)

/-- POOLOUT writes the accumulator (R162). -/
def execPoolout (lane : Nat) (s : State) : Res :=
  s.onIns lane 0x34 fun s i w =>
    if !i.descsRead then .next s
    else
      let t := s.newTile i .poolout none (some (insWd w)) 0 (insWar w) (i.accW.getD 1) 1
      let bad : Option Byte := if i.accW.isNone || bitAt i.sel 0 then some stProgramIllegal else none
      s.transfer i { t with mean := insMode w == 1, keep := insKeep w } bad (fun v =>
        if insKeep w then v else { v with accW := none })

end Sys2Proof.Machine
end

