-- ==== Sys2Proof/Machine/Optimiser.lean ====
section
/-!
DEFINITION. Building the sub-windows of an UPDATE: entries and combined gradients (R285, R287, R288).
-/

namespace Sys2Proof.Machine

/-- E_SW: entries of an update sub-window (R287). -/
def updateSpan (c : ConfigPoint) (d : BitVec 512) : Nat :=
  let up16 (n : Nat) : Nat := (n + 15) / 16 * 16
  min c.winRows (c.stageBytes / (up16 (tbRowBytes d) + up16 (tbStateBytes d) + 4 * tbDim d))

/-- Address and length of gradient row i of a batch (R285). -/
def gradAt (b : Batch) (i : Nat) : Nat × Nat :=
  (ubGrad b.hdr + i * ubPitch b.hdr, tbDim b.desc * dtypeSize (ubGtype b.hdr))

/-- The entries of an update sub-window, as reads of one element (R285). -/
def Batch.entryAsk (b : Batch) (i : Nat) : Ask := { base := ubRow b.hdr, len := 8 * b.total, va := ubRow b.hdr + 8 * i, n := 8 }

/-- What the check of a sub-window's entries ends in: the rows they name, an entry that fails, or a read. -/
inductive Entries where
  | rows (l : List Nat)
  | fails (st : Byte) (va : Nat)
  | asks (a : Ask)
  deriving DecidableEq, Repr, Inhabited

/-- The entries are checked before any row is read (R288). -/
def Batch.entries (b : Batch) (r : Reading) (n : Nat) : Entries :=
  (List.range n).foldl (fun e i => match e with
    | .rows l =>
      let a := b.entryAsk (b.atIdx + i)
      match r.num a with
      | none => .asks a
      | some v =>
        if 2 ^ 40 ≤ v then .fails stDescInvalid a.va
        else if tbNLocal b.desc ≤ v then .fails stIndexRange a.va
        else .rows (l ++ [v])
    | e => e) (.rows [])

/-- The gradient rows of `n` entries, in entry order; none while one of them is on its way. -/
def State.readGrads (s : State) (b : Batch) (i : Nat) : Nat → State × Option (List (List Byte))
  | 0 => (s, some [])
  | n + 1 => match s.need (.batch b.id) (gradAt b i).1 (gradAt b i).2 with
    | (t, .bytes l) => match t.readGrads b (i + 1) n with
      | (u, some ls) => (u, some (l :: ls))
      | (u, none) => (u, none)
    | (t, _) => (t, none)

/-- The gradient of a distinct row: the rows of its entries, decoded and summed element by element (R288). -/
def State.combine (s : State) (b : Batch) (rows : List Nat) (grads : List (List Byte)) (row : Nat) : State × List Word :=
  let gt := ubGtype b.hdr
  let sz := dtypeSize gt
  let mine := ((rows.zip grads).filter (fun x => x.1 == row)).map (fun x => x.2)
  (List.range (tbDim b.desc)).foldl (fun a j =>
    let (t, w) := a.1.sumBare (mine.map (fun l => toWord (decodeElem gt (leNat ((l.drop (j * sz)).take sz)))))
    (t, a.2 ++ [w])) (s, [])

/-- An update sub-window whose entries and gradients have come is built: its distinct rows, each with its combined gradient,
wait for the lanes (R287, R288). -/
def State.closeUpdate (s : State) (b : Batch) (rows : List Nat) (grads : List (List Byte)) : State :=
  let ds := firsts rows
  let (s, sums) := ds.foldl (fun a row =>
    let (t, g) := a.1.combine b rows grads row
    (t, a.2 ++ [g])) (s, ([] : List (List Word)))
  let w : SubWin := {
    id := s.nextId, batch := b.id, east := b.east, num := b.built, firstBag := 0, bagN := [], pairs := [], pooled := true
    given := 0, sums := sums
    rows := ds.map (fun row => { owner := s.devid, row := row, mult := rows.count row, data := none }) }
  (s.openSub b w rows.length 0 0).feed

/-- UPDATE_SUB_WINDOW (R287, R288): the Porter goes on with an update sub-window, as far as what it has read lets it. -/
def execUpdateSubWindow (w : Wing) (batch : Nat) (s : State) : Res :=
  match (s.buildable (wingEast w) batch).filter (fun b => b.isUpdate) with
  | none => .next s
  | some b =>
    let n := min (updateSpan s.cfg b.desc) (b.total - b.atIdx)
    let (s, r) := s.openReading (.batch b.id)
    .next (match b.entries r n with
      | .asks a => s.buildReads b a
      | .fails c va => s.failBatch b { s.batchFault c 0x3#8 va with
          detail := if c == stIndexRange then BitVec.ofNat 32 b.table else 0#32 }
      | .rows l => match s.readGrads b b.atIdx n with
        | (s, some gs) => s.closeUpdate b l gs
        | (s, none) => s)

end Sys2Proof.Machine
end

