-- ==== Sys2Proof/Machine/Dispatch.lean ====
section
/-!
DEFINITION. The one table of meanings: each command's arm is one direct call of its own meaning.
-/

namespace Sys2Proof.Machine

/-- The command's effect on everything but the queue of waiting commands. -/
def exec (i : Instr) (s : State) : Host.Outcome State Fault Refusal :=
  match i with
  | .poresetNRelease devid mfr => Sys2Proof.Machine.execPoresetNRelease devid mfr s
  | .poresetNAssert => Sys2Proof.Machine.execPoresetNAssert s
  | .pllLock => Sys2Proof.Machine.execPllLock s
  | .warmresetNRelease => Sys2Proof.Machine.execWarmresetNRelease s
  | .thermWarnEdge level => Sys2Proof.Machine.execThermWarnEdge level s
  | .thermCritRise => Sys2Proof.Machine.execThermCritRise s
  | .thermCritFall => Sys2Proof.Machine.execThermCritFall s
  | .pmVlvlMatch => Sys2Proof.Machine.execPmVlvlMatch s
  | .pmVlvlTimeout lvl => Sys2Proof.Machine.execPmVlvlTimeout lvl s
  | .pmLoadupHoldFall => Sys2Proof.Machine.execPmLoadupHoldFall s
  | .rampUnitEnable hold => Sys2Proof.Machine.execRampUnitEnable hold s
  | .tapIdcode code => Sys2Proof.Machine.execTapIdcode code s
  | .cpaccUpdateDr dr lock => Sys2Proof.Machine.execCpaccUpdateDr dr lock s
  | .cpaccCaptureDr lock => Sys2Proof.Machine.execCpaccCaptureDr lock s
  | .registerWrite mid addr data => Sys2Proof.Machine.execRegisterWrite mid addr data s
  | .controlPortTimeout mid isWrite addr data => Sys2Proof.Machine.execControlPortTimeout mid isWrite addr data s
  | .memLinkAckRise p => Sys2Proof.Machine.execMemLinkAckRise p s
  | .memLinkAbsent p => Sys2Proof.Machine.execMemLinkAbsent p s
  | .memCreditReturn p rc wc => Sys2Proof.Machine.execMemCreditReturn p rc wc s
  | .portArbitration p => Sys2Proof.Machine.execPortArbitration p s
  | .read p k tag => Sys2Proof.Machine.execRead p k tag s
  | .write p k tag => Sys2Proof.Machine.execWrite p k tag s
  | .writeFinal p k tag => Sys2Proof.Machine.execWriteFinal p k tag s
  | .atomicAddFp32 p k tag => Sys2Proof.Machine.execAtomicAddFp32 p k tag s
  | .atomicAddBf16 p k tag => Sys2Proof.Machine.execAtomicAddBf16 p k tag s
  | .writeDataBeat p j tag ofs => Sys2Proof.Machine.execWriteDataBeat p j tag ofs s
  | .readResponseBeat p tag ofs st seq data => Sys2Proof.Machine.execReadResponseBeat p tag ofs st seq data s
  | .landedAck p tag st seq => Sys2Proof.Machine.execLandedAck p tag st seq s
  | .memPortWatchdog p => Sys2Proof.Machine.execMemPortWatchdog p s
  | .readWindowClose lane q => Sys2Proof.Machine.execReadWindowClose lane q s
  | .writeWindowClose lane stream => Sys2Proof.Machine.execWriteWindowClose lane stream s
  | .clientLinkUp c crd => Sys2Proof.Machine.execClientLinkUp c crd s
  | .clientLinkDown c => Sys2Proof.Machine.execClientLinkDown c s
  | .pushCreditReturn c n => Sys2Proof.Machine.execPushCreditReturn c n s
  | .pushBeat c => Sys2Proof.Machine.execPushBeat c s
  | .pushLanded c ring slot err => Sys2Proof.Machine.execPushLanded c ring slot err s
  | .semiInc c op idx cnt => Sys2Proof.Machine.execSemiInc c op idx cnt s
  | .semiDec c op idx cnt => Sys2Proof.Machine.execSemiDec c op idx cnt s
  | .stallReport c kind id => Sys2Proof.Machine.execStallReport c kind id s
  | .missRequest id => Sys2Proof.Machine.execMissRequest id s
  | .missResponse id st vstart len pbase perm => Sys2Proof.Machine.execMissResponse id st vstart len pbase perm s
  | .missTimeout id => Sys2Proof.Machine.execMissTimeout id s
  | .invalidationAccept id all asid va len => Sys2Proof.Machine.execInvalidationAccept id all asid va len s
  | .invalidationComplete id => Sys2Proof.Machine.execInvalidationComplete id s
  | .remoteLinkUp x c0 c1 => Sys2Proof.Machine.execRemoteLinkUp x c0 c1 s
  | .remoteLinkAbsent x => Sys2Proof.Machine.execRemoteLinkAbsent x s
  | .remoteLinkDown x => Sys2Proof.Machine.execRemoteLinkDown x s
  | .remoteCreditReturn x cls => Sys2Proof.Machine.execRemoteCreditReturn x cls s
  | .parcelSend x cls => Sys2Proof.Machine.execParcelSend x cls s
  | .lkupReq x p => Sys2Proof.Machine.execLkupReq x p s
  | .lkupRsp x p => Sys2Proof.Machine.execLkupRsp x p s
  | .rwrite x p => Sys2Proof.Machine.execRwrite x p s
  | .rwriteFinal x p => Sys2Proof.Machine.execRwriteFinal x p s
  | .rwLanded x p => Sys2Proof.Machine.execRwLanded x p s
  | .nack x p => Sys2Proof.Machine.execNack x p s
  | .parcelTimeout dst pseq => Sys2Proof.Machine.execParcelTimeout dst pseq s
  | .ltnReadyRise t => Sys2Proof.Machine.execLtnReadyRise t s
  | .ltnReadyTimeout t => Sys2Proof.Machine.execLtnReadyTimeout t s
  | .ltnReadyFall t => Sys2Proof.Machine.execLtnReadyFall t s
  | .tierReadData t k data chk => Sys2Proof.Machine.execTierReadData t k data chk s
  | .corridorFlitArrival toEast cls => Sys2Proof.Machine.execCorridorFlitArrival toEast cls s
  | .corridorReplay toEast cls => Sys2Proof.Machine.execCorridorReplay toEast cls s
  | .qctlCfgEn q data => Sys2Proof.Machine.execQctlCfgEn q data s
  | .qctlDoorbell q data => Sys2Proof.Machine.execQctlDoorbell q data s
  | .commandPrefetch q => Sys2Proof.Machine.execCommandPrefetch q s
  | .suspend q => Sys2Proof.Machine.execSuspend q s
  | .resume q => Sys2Proof.Machine.execResume q s
  | .replay q => Sys2Proof.Machine.execReplay q s
  | .skip q => Sys2Proof.Machine.execSkip q s
  | .retire q => Sys2Proof.Machine.execRetire q s
  | .abort q => Sys2Proof.Machine.execAbort q s
  | .suspensionComplete q => Sys2Proof.Machine.execSuspensionComplete q s
  | .preemptRelease q => Sys2Proof.Machine.execPreemptRelease q s
  | .progressTimeout q => Sys2Proof.Machine.execProgressTimeout q s
  | .stopComplete q => Sys2Proof.Machine.execStopComplete q s
  | .retireComplete q => Sys2Proof.Machine.execRetireComplete q s
  | .run q => Sys2Proof.Machine.execRun q s
  | .taskStart q => Sys2Proof.Machine.execTaskStart q s
  | .taskComplete q => Sys2Proof.Machine.execTaskComplete q s
  | .signalCommand q => Sys2Proof.Machine.execSignalCommand q s
  | .waitCommand q => Sys2Proof.Machine.execWaitCommand q s
  | .fence q => Sys2Proof.Machine.execFence q s
  | .marker q => Sys2Proof.Machine.execMarker q s
  | .nopCommand q => Sys2Proof.Machine.execNopCommand q s
  | .lookup q => Sys2Proof.Machine.execLookup q s
  | .update q => Sys2Proof.Machine.execUpdate q s
  | .tableBind q => Sys2Proof.Machine.execTableBind q s
  | .tableRetire q => Sys2Proof.Machine.execTableRetire q s
  | .versionRetired q => Sys2Proof.Machine.execVersionRetired q s
  | .larderCtlPreload q => Sys2Proof.Machine.execLarderCtlPreload q s
  | .larderCtlInvalidate q => Sys2Proof.Machine.execLarderCtlInvalidate q s
  | .prewarm q => Sys2Proof.Machine.execPrewarm q s
  | .backgroundStartAfterRun q => Sys2Proof.Machine.execBackgroundStartAfterRun q s
  | .ledgerBegin q => Sys2Proof.Machine.execLedgerBegin q s
  | .ledgerCommit q => Sys2Proof.Machine.execLedgerCommit q s
  | .ledgerRollback q => Sys2Proof.Machine.execLedgerRollback q s
  | .commitQuiesced => Sys2Proof.Machine.execCommitQuiesced s
  | .commitQuiescenceTimeout => Sys2Proof.Machine.execCommitQuiescenceTimeout s
  | .larderWindowClearDone => Sys2Proof.Machine.execLarderWindowClearDone s
  | .rwtStagedWrite mid addr data => Sys2Proof.Machine.execRwtStagedWrite mid addr data s
  | .nopInstruction lane => Sys2Proof.Machine.execNopInstruction lane s
  | .halt lane => Sys2Proof.Machine.execHalt lane s
  | .loop lane => Sys2Proof.Machine.execLoop lane s
  | .endl lane => Sys2Proof.Machine.execEndl lane s
  | .lcset lane => Sys2Proof.Machine.execLcset lane s
  | .lcadd lane => Sys2Proof.Machine.execLcadd lane s
  | .arset lane => Sys2Proof.Machine.execArset lane s
  | .aradd lane => Sys2Proof.Machine.execAradd lane s
  | .ixbind lane => Sys2Proof.Machine.execIxbind lane s
  | .ixget lane => Sys2Proof.Machine.execIxget lane s
  | .ixseek lane => Sys2Proof.Machine.execIxseek lane s
  | .indexWindowFetch lane slot ix => Sys2Proof.Machine.execIndexWindowFetch lane slot ix s
  | .claim lane => Sys2Proof.Machine.execClaim lane s
  | .laggardTimeout g => Sys2Proof.Machine.execLaggardTimeout g s
  | .publish lane => Sys2Proof.Machine.execPublish lane s
  | .slotPublished rel => Sys2Proof.Machine.execSlotPublished rel s
  | .take lane => Sys2Proof.Machine.execTake lane s
  | .free lane => Sys2Proof.Machine.execFree lane s
  | .slotReleased rel => Sys2Proof.Machine.execSlotReleased rel s
  | .waitInstruction lane => Sys2Proof.Machine.execWaitInstruction lane s
  | .signalInstruction lane => Sys2Proof.Machine.execSignalInstruction lane s
  | .signalRelease rel => Sys2Proof.Machine.execSignalRelease rel s
  | .semaphoreGrant idx => Sys2Proof.Machine.execSemaphoreGrant idx s
  | .drain lane => Sys2Proof.Machine.execDrain lane s
  | .move lane => Sys2Proof.Machine.execMove lane s
  | .gather lane => Sys2Proof.Machine.execGather lane s
  | .xpand lane => Sys2Proof.Machine.execXpand lane s
  | .reduce lane => Sys2Proof.Machine.execReduce lane s
  | .poolout lane => Sys2Proof.Machine.execPoolout lane s
  | .xform lane => Sys2Proof.Machine.execXform lane s
  | .org lane => Sys2Proof.Machine.execOrg lane s
  | .instructionRetry lane slot => Sys2Proof.Machine.execInstructionRetry lane slot s
  | .laneSwitch lane => Sys2Proof.Machine.execLaneSwitch lane s
  | .tileIssue lane hold => Sys2Proof.Machine.execTileIssue lane hold s
  | .descriptorRead lane slot d => Sys2Proof.Machine.execDescriptorRead lane slot d s
  | .finalMarking lane slot => Sys2Proof.Machine.execFinalMarking lane slot s
  | .expanderBlockStart w => Sys2Proof.Machine.execExpanderBlockStart w s
  | .blockCheck w => Sys2Proof.Machine.execBlockCheck w s
  | .blockExpand w => Sys2Proof.Machine.execBlockExpand w s
  | .subWindowBuild w batch => Sys2Proof.Machine.execSubWindowBuild w batch s
  | .subWindowPool w sw => Sys2Proof.Machine.execSubWindowPool w sw s
  | .subWindowFree w sw => Sys2Proof.Machine.execSubWindowFree w sw s
  | .updateSubWindow w batch => Sys2Proof.Machine.execUpdateSubWindow w batch s
  | .larderProbe w => Sys2Proof.Machine.execLarderProbe w s
  | .larderInstall w => Sys2Proof.Machine.execLarderInstall w s
  | .larderWriteInvalidate p tag => Sys2Proof.Machine.execLarderWriteInvalidate p tag s
  | .promotionInstall w => Sys2Proof.Machine.execPromotionInstall w s
  | .loadWindowClose => Sys2Proof.Machine.execLoadWindowClose s
  | .loadReport => Sys2Proof.Machine.execLoadReport s
  | .tteRecompute => Sys2Proof.Machine.execTteRecompute s
  | .ringHistory r => Sys2Proof.Machine.execRingHistory r s
  | .semSetClrflags idx data => Sys2Proof.Machine.execSemSetClrflags idx data s
  | .semSetSetcnt idx data => Sys2Proof.Machine.execSemSetSetcnt idx data s
  | .semSetSetown idx data => Sys2Proof.Machine.execSemSetSetown idx data s
  | .semSetRelease idx data => Sys2Proof.Machine.execSemSetRelease idx data s
  | .pghBind p mid data => Sys2Proof.Machine.execPghBind p mid data s
  | .pghPtrLoCommit p towardsA mid data => Sys2Proof.Machine.execPghPtrLoCommit p towardsA mid data s
  | .pghAck p mid data => Sys2Proof.Machine.execPghAck p mid data s
  | .pghRing p mid data => Sys2Proof.Machine.execPghRing p mid data s
  | .pghPendClear p mid data => Sys2Proof.Machine.execPghPendClear p mid data s
  | .pghMaskWrite p mid data => Sys2Proof.Machine.execPghMaskWrite p mid data s
  | .info p => Sys2Proof.Machine.execInfo p s
  | .loadrpt p => Sys2Proof.Machine.execLoadrpt p s
  | .power p => Sys2Proof.Machine.execPower p s
  | .bootStepEnd rep => Sys2Proof.Machine.execBootStepEnd rep s
  | .bootStepTimeout rep => Sys2Proof.Machine.execBootStepTimeout rep s
  | .stewardWatchdog => Sys2Proof.Machine.execStewardWatchdog s
  | .stewardHeartbeat => Sys2Proof.Machine.execStewardHeartbeat s
  | .reboot => Sys2Proof.Machine.execReboot s
  | .jrnlRetry => Sys2Proof.Machine.execJrnlRetry s
  | .stwImgLoWrite which data => Sys2Proof.Machine.execStwImgLoWrite which data s
  | .pwrCtrlTarget data => Sys2Proof.Machine.execPwrCtrlTarget data s
  | .n1Entry => Sys2Proof.Machine.execN1Entry s
  | .autowake => Sys2Proof.Machine.execAutowake s
  | .n2Entry => Sys2Proof.Machine.execN2Entry s
  | .n2EntryTimeout => Sys2Proof.Machine.execN2EntryTimeout s
  | .n2Exit => Sys2Proof.Machine.execN2Exit s
  | .n3Entry => Sys2Proof.Machine.execN3Entry s
  | .correctedError cls w unit index syn => Sys2Proof.Machine.execCorrectedError cls w unit index syn s
  | .uncorrectableError cls w unit index syn site => Sys2Proof.Machine.execUncorrectableError cls w unit index syn site s
  | .ceSubWindowRoll cls => Sys2Proof.Machine.execCeSubWindowRoll cls s
  | .laneSpareSwap lane => Sys2Proof.Machine.execLaneSpareSwap lane s
  | .tagBankSwap w bank => Sys2Proof.Machine.execTagBankSwap w bank s
  | .relInjectArm data => Sys2Proof.Machine.execRelInjectArm data s
  | .relCeCfgWrite cls data => Sys2Proof.Machine.execRelCeCfgWrite cls data s
  | .snap => Sys2Proof.Machine.execSnap s
  | .clear => Sys2Proof.Machine.execClear s
  | .freeze on => Sys2Proof.Machine.execFreeze on s
  | .tallyEdge => Sys2Proof.Machine.execTallyEdge s
  | .tallyRecord => Sys2Proof.Machine.execTallyRecord s
  | .snapshotTask q => Sys2Proof.Machine.execSnapshotTask q s
  | .tlySelWrite u k hi data => Sys2Proof.Machine.execTlySelWrite u k hi data s
  | .tlyCcycLoRead => Sys2Proof.Machine.execTlyCcycLoRead s
  | .traceTimeMark stall => Sys2Proof.Machine.execTraceTimeMark stall s
  | .warmresetNAssert => Sys2Proof.Machine.execWarmresetNAssert s
  | .memLinkAckFall p => Sys2Proof.Machine.execMemLinkAckFall p s
  | .linkDropTimeout port => Sys2Proof.Machine.execLinkDropTimeout port s

end Sys2Proof.Machine
end

