-- ==== Sys2Proof/Machine/Step.lean ====
section
/-!
DEFINITION. One step: the command at the front of the queue, or, on an empty queue, one core-clock cycle.
-/

namespace Sys2Proof.Machine

/-- The state in which a command's effect is computed: its own entry is no longer in the queue. -/
def State.withPending (s : State) (rest : List Instr) : State := { s with pending := rest }

/-- Run the command at the front of the queue on the queue's rest. With nothing waiting, one ccyc passes (log 7). -/
def step (s : State) : Host.Outcome State Fault Refusal :=
  match s.pending with
  | [] => Sys2Proof.Machine.idleCycle s
  | c :: rest => Sys2Proof.Machine.exec c (s.withPending rest)

/-- The state with the command a word spells at the front of its queue; no word spells one. -/
def State.withFetchWord (s : State) (nbits w : Nat) : State :=
  match Sys2Proof.decodeTableWord nbits w with
  | some c => s.withPending (c :: s.pending)
  | none => s

end Sys2Proof.Machine
end

