-- ==== Sys2Proof/Safety.lean ====
section
/-!
DEFINITION. The terms in which statements about the block are made: the state after an outcome, when the control port
performs an access, and the invariant of the table versions.
-/

namespace Sys2Proof.Machine

/-- The state an outcome gives; `s` where the step stops. -/
def stateAfter (s : State) : Res → State
  | .next t => t
  | .fault _ => s
  | .refused _ => s

/-- The control port runs, owes no answer and answers an access at `off` with OK at once (R57, R356, R403). -/
def State.performs (s : State) (off : Nat) : Prop :=
  s.portRuns = true ∧ s.cpWaits = [] ∧ s.cpAnswer (BitVec.ofNat 24 off) = .ok

/-- The response OK of a write stands at the port (R57). -/
def State.respondOk (s : State) : State := { s with out := .cpResponse 0#2 0#32 :: s.out }

/-- Every register outside `l` reads the word it read in `s`. -/
def State.regsBut (s t : State) (l : List Nat) : Prop := ∀ off, off ∉ l → t.reg off = s.reg off

/-- The Steward is side A (`isA`) or B of pigeonhole `p` and takes its request next; the pointer names this device (R348). -/
def State.takesNext (s : State) (p : Nat) (isA : Bool) : Prop :=
  s.alive = true ∧ s.stwRunning = true ∧ s.nextHole = some p ∧ (s.pgh p).stwSide = some isA ∧
    s.onDevice ((s.pgh p).pointer isA) = true

/-- The Steward has read the request `req` of pigeonhole `p`, whose REPLY_PA names this device (R348). -/
def State.serves (s : State) (p : Nat) (req : BitVec 512) : Prop :=
  s.alive = true ∧ s.stwRunning = true ∧ paDevice (fieldAt req 8 8) = s.devid ∧
    ∃ r l, s.reading (.hole p) = some r ∧ r.bytes r.start 64 = some l ∧ words512 l = req

/-- A boot step is in progress on its primary path and can end with report `r` (R352, R353). -/
def State.atStep (s : State) (n : Nat) (r : BootReport) : Prop :=
  s.mayEndStep r = true ∧ s.boot.step = n ∧ (s.boot.jrnl.get n).path ≠ 2#2

/-- No lane, Expander or Porter holds work: no itinerary, tile, block, sub-window, served parcel or reading. -/
def State.noLaneWork (s : State) : Prop :=
  s.itins = [] ∧ s.tiles = [] ∧ s.porter.subs = [] ∧ s.blocks = [] ∧ s.remote.serves = [] ∧ s.remote.owed = .empty ∧
    s.readings = []

/-- No exit from N2 waits for links (R360). -/
def State.noLinkWait (s : State) : Prop := ∀ ps, s.power.phase ≠ .linkUp ps

/-- The versions of a table (R295, R296): at most four are live, at most one is Current, no two have one epoch, and
every epoch is a number other than 0 up to LAST_EPOCH. -/
def Table.sound (t : Table) : Prop :=
  t.slots.length ≤ 4 ∧ (t.slots.filter (fun v => v.st == .current)).length ≤ 1 ∧ (t.slots.map (fun v => v.epoch)).Nodup ∧
    ∀ v ∈ t.slots, v.epoch ≠ 0#32 ∧ v.epoch.toNat ≤ t.last.toNat

/-- Every table's versions are sound. -/
def State.tablesSound (s : State) : Prop := ∀ k, (s.table k).sound

/-- A lane runs itinerary `i` next, and its next instruction has opcode `op` (R149, R174). -/
def State.runsIns (s : State) (lane op : Nat) (i : Itin) : Prop :=
  s.running lane = some i ∧ s.laneOn lane = true ∧ s.itinReady i = true ∧ insOp i.next = op ∧ s.itin i.stream = some i

/-- No tile of an itinerary exists, and it has no write window open. -/
def State.noTilesOf (s : State) (i : Itin) : Prop := (∀ t ∈ s.tiles, t.stream ≠ i.stream) ∧ i.wwin = none

/-- The queue's work may be stopped by a fault: the queue is Running or Suspended and no stop is in progress. -/
def State.mayFail (s : State) (q : Nat) : Prop :=
  ((s.queue q).st = .running ∨ (s.queue q).st = .suspended) ∧ (s.queue q).stop = none

/-- The queue's work is stopping for a fault with a status (R97, R107). -/
def State.stopsWith (t : State) (q : Nat) (st : Byte) : Prop :=
  ∃ p f, (t.queue q).stop = some p ∧ p.fault = some f ∧ f.status = st

/-- The semaphores but one are as they were. -/
def State.semsBut (s t : State) (i : Nat) : Prop := ∀ j, j ≠ i → t.sem j = s.sem j

/-- The queues but one are as they were. -/
def State.queuesBut (s t : State) (q : Nat) : Prop := ∀ j, j ≠ q → t.queue j = s.queue j

/-- The completion record of a command that completes in `s` (R110). -/
def State.recordOf (s : State) (q : Nat) (c : Cmd) (detail : Nat) : List Byte :=
  record [((s.queue q).seq.toNat, 4), (cmdUsertag c.bytes, 4), ((s.cmdVa q c.idx).toNat, 8), (cmdOp c.bytes, 1), (0, 1),
    (q, 1), (0, 1), (detail, 4), (s.ccyc.toNat, 8)]

/-- The windows that bytes at their addresses are written in, each a request of its own (R23). -/
def windowsAll (chunks : List (Nat × List Byte)) : List (Nat × List Byte) := chunks.flatMap (fun c => windowsOf c.1 c.2)

/-- The memory ports take the writes of a record from the West wing at once (R404): they are up and of that wing. -/
def State.recordGoes (s : State) (chunks : List (Nat × List Byte)) : Prop :=
  ∀ w ∈ windowsAll chunks, s.mportUp (s.portFor w.1) = true ∧ mportEast (s.portFor w.1) = false

/-- A record is on its way to memory: each of its pieces waits at its port as a write with the writer's ASID and class, and
`n` is what follows the last acknowledgement (R109, R404). -/
def State.recordWaits (t : State) (n : Note) (asid : BitVec 16) (prio : BitVec 2) (chunks : List (Nat × List Byte)) : Prop :=
  ∃ x ∈ t.records, x.note = n ∧ x.bad = false ∧ ∀ w ∈ windowsAll chunks, ∃ r ∈ t.waiting, r.record = some x.id ∧
    r.id ∈ x.left ∧ r.op = 1#3 ∧ r.pa = w.1 ∧ r.asid = asid ∧ r.prio = prio ∧
    r.bytes = w.2.zipIdx.map (fun b => (w.1 + b.2, b.1))

/-- Where the next completion record of a queue goes (R109). -/
def State.crecNext (s : State) (q : Nat) : Nat :=
  s.crecBase q + 32 * ((s.queue q).seq.toNat % 2 ^ s.fld (offQ q qCrecHi) 28 4)

/-- The completion record of command `c` goes out between `s` and `t`, with DONE to follow it when the command asks for it and,
for a MARKER, the command's end (R96, R97, R109). SEQ counts it; one whose ring lies on another device is dropped, and
CREC_LOST says so (R110). -/
def State.writesRecord (s t : State) (q : Nat) (c : Cmd) (detail : Nat) (marker : Option (BitVec 16)) : Prop :=
  (t.queue q).seq = (s.queue q).seq + 1 ∧
    (paDevice (s.crecBase q) ≠ s.devid → t.flag (offQ q qEvents) 5 = true) ∧
    (paDevice (s.crecBase q) = s.devid → s.recordGoes [(s.crecNext q, s.recordOf q c detail)] →
      t.recordWaits (.done q (cmdIrq c.bytes) marker) (s.qAsid q) (s.qPrio q) [(s.crecNext q, s.recordOf q c detail)])

/-- Command `c` of queue `q`, no MARKER, completes with ST_OK between `s` and `t`: no command of its index is left unfinished;
with REC its completion record goes out, and DONE is set when it asks for it, after the record if there is one (R92, R94,
R97, R109). -/
def State.completes (s t : State) (q : Nat) (c : Cmd) (detail : Nat) : Prop :=
  (∀ x ∈ (t.queue q).cmds, x.idx = c.idx → x.done = true) ∧
    (cmdRec c.bytes = true → s.writesRecord t q c detail none) ∧
    (cmdRec c.bytes = false → (t.queue q).seq = (s.queue q).seq ∧
      (cmdIrq c.bytes = true → t.flag (offQ q qEvents) 0 = true))

/-- What no queue's command touches on its own: the pins, the power state, the lanes' work, memory traffic but for the writes of
records, and the Larder. -/
def State.sameUnits (s t : State) : Prop :=
  t.pins = s.pins ∧ t.power = s.power ∧ t.boot = s.boot ∧ t.itins = s.itins ∧ t.tiles = s.tiles ∧
    t.waiting.filter (fun r => r.record.isNone) = s.waiting.filter (fun r => r.record.isNone) ∧ t.outs = s.outs ∧
    t.remote = s.remote ∧ t.larder = s.larder ∧ t.hall = s.hall ∧ t.rel = s.rel ∧ t.pghs = s.pghs

/-- Itinerary `i` becomes `j`; every other itinerary is as it was. -/
def State.itinBecomes (s t : State) (i j : Itin) : Prop :=
  t.itin i.stream = some j ∧ ∀ k, k ≠ i.stream → t.itin k = s.itin k

/-- An instruction that acts on the itinerary alone: `i` becomes `j`, and nothing but the Tally's counters changes besides. -/
def State.onlyItin (s t : State) (i j : Itin) : Prop :=
  s.itinBecomes t i j ∧ { t with itins := s.itins, tally := s.tally } = s

/-- The itinerary has passed its instruction (R149). -/
def Itin.past (i : Itin) : Itin := { i with pc := i.pc + 1, status := .ready }

/-- A transfer instruction has its descriptors, its write side keeps the checks of R142, and nothing blocks it (R174,
R178). -/
def State.mayHandOver (s : State) (i : Itin) (x : Tile) : Prop :=
  i.descsRead = true ∧ writeRole x.wd = none ∧ s.transferBlocks i = false

/-- The tile `x` enters the tile queue of the itinerary's lane and `i` becomes `j` (R150, R177). An injection that is armed for that queue
is used up (R386). -/
def State.handsOver (s t : State) (i j : Itin) (x : Tile) : Prop :=
  t.tiles = s.tiles ++ [x] ∧ (t.lane i.lane).tileq = (s.lane i.lane).tileq ++ [x.id] ∧ s.itinBecomes t i j ∧
    (∀ l, l ≠ i.lane → t.lane l = s.lane l) ∧
    (s.flag offRelInject 31 = false → t.regs = s.regs ∧ t.rel = s.rel) ∧ s.regsBut t [offRelInject] ∧
    { t with
      tiles := s.tiles, lanes := s.lanes, itins := s.itins, tally := s.tally, nextId := s.nextId, regs := s.regs
      rel := { t.rel with flips := s.rel.flips } } = s

/-- A read request that the arbitration of its port takes at once: the port is up and of the issuer's wing (R15, R39). -/
def State.portTakes (s : State) (east : Bool) (pa : Nat) : Prop :=
  s.mportUp (s.portFor pa) = true ∧ mportEast (s.portFor pa) = east ∧ s.banksOut east ≠ s.cfg.tagBanks

end Sys2Proof.Machine
end

