-- ==== Sys2Proof/Certificates/Slice0/Obligations.lean ====
section
/-!
DEFINITION. The statements for the provers.
-/

open Sys2Proof Sys2Proof.Machine

-- The block as a whole.

/-- The command at the front of the queue is run on the state with the queue's rest. -/
def Obligations.StepRunsFrontCommand : Prop :=
  ∀ (s : State) (c : Instr) (rest : List Instr), s.pending = c :: rest → step s = exec c { s with pending := rest }

/-- With nothing waiting and the clocks running, one ccyc passes: TLY_CCYC is one higher and nothing is faulted or refused.
That an empty queue lets a cycle pass is the model's choice (log 7). -/
def Obligations.EmptyQueuePassesOneCycle : Prop :=
  ∀ s : State, s.pending = [] → s.alive = true →
    ∃ t, step s = .next t ∧ t.ccyc = s.ccyc + 1 ∧ t.pending = [] ∧ t.tables = s.tables ∧ t.hall = s.hall

/-- A step takes its command off the queue, adds none, and leaves the configuration point as it is. -/
def Obligations.StepTakesOneCommand : Prop :=
  ∀ (s t : State) (c : Instr) (rest : List Instr), s.pending = c :: rest → step s = .next t →
    t.pending = rest ∧ t.cfg = s.cfg

/-- No command is refused, and only CLAIM and TAKE can meet a Hall address that does not exist. -/
def Obligations.OnlyHallAddressesStop : Prop :=
  ∀ s : State, (∀ r, step s ≠ .refused r) ∧
    ∀ f, step s = .fault f → f = .hallAddress ∧ ∃ lane rest, s.pending = .claim lane :: rest ∨ s.pending = .take lane :: rest

/-- R295, R296: whatever the command, each table keeps at most four live versions, at most one of them Current, with
distinct epochs none of which is above LAST_EPOCH. -/
def Obligations.EveryStepKeepsTheVersionSlots : Prop :=
  ∀ s t : State, s.tablesSound → step s = .next t → t.tablesSound

/-- R295: in reset every slot is free and no table has a version, so the invariant holds there. -/
def Obligations.ResetLeavesEverySlotFree : Prop :=
  (∀ k, (State.reset.table k).slots = []) ∧ State.reset.tablesSound

/-- R202: after either reset every semaphore has COUNT 0, OWNED 0, OWNER 0 and no flag set, and semaphore i is held by the wing that
owns client port i / 48. (Warm reset outside N3, log 2.) -/
def Obligations.ResetClearsEverySemaphore : Prop :=
  (∀ i, semEast i = cportEast (i / 48)) ∧
  ∀ (s : State) (c : Instr), c = .poresetNAssert ∨ c = .warmresetNAssert ∧ s.power.st ≠ .n3 → ∃ t, exec c s = .next t ∧
    ∀ i, (t.sem i).count = 0#20 ∧ (t.sem i).owned = false ∧ (t.sem i).owner = 0#6 ∧ (t.sem i).ovf = false ∧
      (t.sem i).unf = false ∧ (t.sem i).poisoned = false

-- Resets, pins and supply.

/-- R78, R79, R211, R352: asserting either reset returns every part of the block to its reset state except the levels at the inputs;
warm reset also keeps the PLL locked, DEVID, TAP_MFR, the retention SRAM and what the journal keeps, and makes POISONs due at each client
port. Releasing a reset begins a start at boot step 0 with the state at reset; power-on reset samples DEVID and TAP_MFR, warm reset keeps
DEVID and counts the start on. (That a warm reset has no effect in N3, and that it keeps TAP_MFR and the inputs' levels, are the model's
choices, log 2 and log 11.) -/
def Obligations.ResetsClearTheBlockAndBeginAStart : Prop :=
  (∀ s : State,
    exec .poresetNAssert s = .next { State.reset with
      pending := s.pending, cfg := s.cfg, pins := { s.pins.levels with poreset := true }, out := s.out, free := s.free } ∧
    (s.power.st ≠ .n3 → ∃ t, exec .warmresetNAssert s = .next t ∧ t.pins.warmreset = true ∧
      t.pins.pllLocked = s.pins.pllLocked ∧ t.pins.devid = s.pins.devid ∧ t.pins.mfr = s.pins.mfr ∧
      t.boot.ret = s.boot.ret ∧ t.boot.starts = s.boot.starts ∧ t.boot.ready = false ∧ t.boot.booting = false ∧
      (∀ n, (t.boot.jrnl.get n).pfailed = (s.boot.jrnl.get n).pfailed ∧
        (t.boot.jrnl.get n).fails = (s.boot.jrnl.get n).fails) ∧
      (∀ c, t.cport c = { (default : CPort) with poisonDue := decide (c < s.cfg.cports) }) ∧
      { t with pins := State.reset.pins, boot := State.reset.boot, cports := State.reset.cports } =
        { State.reset with pending := s.pending, cfg := s.cfg, out := s.out, free := s.free })) ∧
  ∀ (s : State) (devid : BitVec 6) (mfr : BitVec 11),
    (s.pins.poreset = true → ∃ t, exec (.poresetNRelease devid mfr) s = .next t ∧ t.pins.poreset = false ∧
      t.pins.devid = devid ∧ t.pins.mfr = mfr ∧ t.boot.booting = true ∧ t.boot.step = 0 ∧ t.boot.cause = 0#4 ∧
      t.boot.starts = 1 ∧ t.boot.ready = false ∧
      { t with pins := State.reset.pins, boot := State.reset.boot, lanes := State.reset.lanes } =
        { State.reset with pending := s.pending, cfg := s.cfg, out := s.out, free := s.free }) ∧
    (s.pins.warmreset = true → s.pins.poreset = false → ∃ t, exec .warmresetNRelease s = .next t ∧
      t.pins.warmreset = false ∧ t.pins.devid = s.pins.devid ∧ t.pins.pllLocked = s.pins.pllLocked ∧
      t.boot.ret = s.boot.ret ∧ t.boot.booting = true ∧ t.boot.step = 0 ∧ t.boot.cause = 1#4 ∧
      t.boot.starts = min 255 (s.boot.starts + 1) ∧ (∀ c < s.cfg.cports, (t.cport c).poisonDue = true) ∧
      { t with pins := State.reset.pins, boot := State.reset.boot, lanes := State.reset.lanes, cports := State.reset.cports } =
        { State.reset with pending := s.pending, cfg := s.cfg, out := s.out, free := s.free })

/-- R78, R84, R85, R403: the PLL locks once power-on reset is released; a code loaded into the TAP's instruction register selects its
data register: IDCODE gives the identification word, every code but IDCODE's and CPACC's the bypass bit; while DBG_LOCK is 1 CPACC captures a
bypass bit. Update-DR of a CPACC read brings the register's word into the TAP at once, one of the East wing over the Corridor. (That BYPASS
captures 0, that the TAP answers outside N3 and that it takes one access at a time are the model's choices, log 59.) -/
def Obligations.PllAndTapCommandsComplete : Prop :=
  ∀ s : State,
    (s.pins.poreset = false → s.pins.pllLocked = false →
      exec .pllLock s = .next { s with pins := { s.pins with pllLocked := true } }) ∧
    (s.power.st ≠ .n3 → exec (.tapIdcode 0x01#8) s = .next { s with
      tap := { s.tap with ir := 0x01#8 }, out := .tdo 32 (BitVec.ofNat 64 (0x34E33001 + 2 * s.pins.mfr.toNat)) :: s.out }) ∧
    (∀ code, s.power.st ≠ .n3 → code ≠ 0x01#8 → code ≠ 0x10#8 → exec (.tapIdcode code) s = .next { s with
      tap := { s.tap with ir := code }, out := .tdo 1 0#64 :: s.out }) ∧
    (s.power.st ≠ .n3 → exec (.tapIdcode 0x10#8) s = .next { s with tap := { s.tap with ir := 0x10#8 } }) ∧
    (s.power.st ≠ .n3 → exec (.cpaccCaptureDr true) s = .next { s with
      tap := { s.tap with ir := 0x10#8 }, out := .tdo 1 0#64 :: s.out }) ∧
    (s.power.st ≠ .n3 → s.tap.done = true → s.tap.busy = false → s.tap.err = 0#2 → ∃ bits,
      exec (.cpaccCaptureDr false) s = .next { s with
        tap := { s.tap with ir := 0x10#8 }, free := s.free + 2, out := .tdo 58 bits :: s.out } ∧
        bits.toNat % 2 ^ 33 = 2 * s.tap.rdata.toNat + 1) ∧
    (∀ dr : BitVec 58, s.portRuns = true → s.tapAway = false → bitAt dr 57 = false → bits dr 33 24 ≠ offTlyCcycLo →
      (s.cpAnswer (BitVec.ofNat 24 (bits dr 33 24)) = .ok → exec (.cpaccUpdateDr dr false) s = .next { s with
        tap := { ir := 0x10#8, busy := true, done := true, rdata := s.readRegister (bits dr 33 24), err := 0#2 } }) ∧
      (s.cpAnswer (BitVec.ofNat 24 (bits dr 33 24)) = .crosses → exec (.cpaccUpdateDr dr false) s = .next
        (({ s with tap := { ir := 0x10#8, busy := true, done := false, rdata := 0, err := 0#2 } } : State).corPush true corControl
          (.access { write := none, off := bits dr 33 24, tap := true }))))

/-- R83: each edge of a thermal input sets its bit of PWR_EVENTS. In N0, THERM_CRIT rising suspends: every Running queue has
SUSP_THERMAL and is on its way to suspension. When it falls no queue has SUSP_THERMAL any more. -/
def Obligations.ThermalEdgesActOnTheQueues : Prop :=
  ∀ s : State, s.alive = true → s.power.st = .n0 →
    (∀ level, s.pins.thermWarn ≠ level → ∃ t, exec (.thermWarnEdge level) s = .next t ∧ t.pins.thermWarn = level ∧
      t.flag offPwrEvents (if level then 4 else 5) = true ∧ s.regsBut t [offPwrEvents] ∧
      { t with pins := { t.pins with thermWarn := s.pins.thermWarn }, regs := s.regs } = s) ∧
    (s.pins.thermCrit = false → ∃ t, exec .thermCritRise s = .next t ∧ t.pins.thermCrit = true ∧
      t.flag offPwrEvents 6 = true ∧
      ∀ q < s.cfg.queues, (s.queue q).st = .running → (t.queue q).suspTherm = true ∧ (t.queue q).suspending = true) ∧
    (s.pins.thermCrit = true → ∃ t, exec .thermCritFall s = .next t ∧ t.pins.thermCrit = false ∧
      t.flag offPwrEvents 7 = true ∧ ∀ q < s.cfg.queues, (t.queue q).suspTherm = false)

-- Power states.

/-- R81, R357, R360: when PM_VLVL reaches the requested level the change that waits for it proceeds: into N2, into N3, or out of N2,
where every memory port asks for its link and N1 or the ramp follows once the links that the entry lowered have settled (log 102).
When the level does not come, the block stays in its state, VLVL_FAIL is set, TARGET names the state and PM_VREQ keeps its level (the last
is the model's choice, log 47). -/
def Obligations.SupplyHandshakeMovesThePowerState : Prop :=
  ∀ s : State,
    (s.power.phase = .offVolt → exec .pmVlvlMatch s = .next { s with
      pins := { s.pins with pmVlvl := s.pins.pmVreq }, power := { s.power with st := .n3, phase := .rest } }) ∧
    (s.power.phase = .retentionVolt → ∃ t, exec .pmVlvlMatch s = .next t ∧ t.power.st = .n2 ∧ t.power.phase = .rest ∧
      t.pins.pmVlvl = s.pins.pmVreq ∧ t.flag offPwrEvents 0 = true) ∧
    (s.power.phase = .wakeVolt → ∃ t, exec .pmVlvlMatch s = .next t ∧ t.power.st = .n1 ∧ t.pins.pmVlvl = s.pins.pmVreq ∧
      (∀ p < s.cfg.mports, (t.mport p).linkReq = true) ∧
      ((∃ x ∈ s.power.lowered, s.linkSettled x = false) → t.power.phase = .linkUp s.power.lowered) ∧
      ((∀ x ∈ s.power.lowered, s.linkSettled x = true) → s.target = 0 → t.power.phase = .ramp 0 ∧ t.pins.loadup = true) ∧
      ((∀ x ∈ s.power.lowered, s.linkSettled x = true) → s.target ≠ 0 → t.flag offPwrEvents 0 = true)) ∧
    (∀ lvl, lvl ≠ s.pins.pmVreq → s.power.phase = .wakeVolt ∨ s.power.phase = .offVolt →
      ∃ t, exec (.pmVlvlTimeout lvl) s = .next t ∧ t.power = { s.power with phase := .rest } ∧ t.pins.pmVlvl = lvl ∧
        t.pins.pmVreq = s.pins.pmVreq ∧ t.flag offPwrEvents 2 = true ∧ t.target = 2) ∧
    (∀ lvl, lvl ≠ s.pins.pmVreq → s.power.phase = .retentionVolt →
      ∃ t, exec (.pmVlvlTimeout lvl) s = .next t ∧ t.power.st = s.power.st ∧ t.power.phase = .rest ∧ t.pins.pmVlvl = lvl ∧
        t.flag offPwrEvents 2 = true ∧ t.target = 1)

/-- R82, R359: the ramp enables one unit after another. A held ramp resumes 256 ccyc after the hold falls. With neither
hold nor THERM_CRIT the next unit runs; while units follow, the ramp goes on 24 ccyc after it runs, and after the last one PM_LOADUP falls
and, outside a start, N0 is reached. -/
def Obligations.LaneRampEnablesUnitsInTurn : Prop :=
  ∀ (s : State) (k : Nat), s.power.phase = .ramp k →
    (s.pins.hold = true → s.pins.thermCrit = false → exec .pmLoadupHoldFall s = .next { s with
      pins := { s.pins with hold := false }, power := { s.power with due := s.ccyc + 256 } }) ∧
    (s.alive = true → exec (.rampUnitEnable true) s = .next { s with pins := { s.pins with hold := true } }) ∧
    (s.alive = true → s.pins.hold = false → s.pins.thermCrit = false →
      ∃ t, exec (.rampUnitEnable false) s = .next t ∧ t.ccyc = s.ccyc + BitVec.ofNat 48 (s.rampWait + 232) ∧
        (k + 1 < s.cfg.rampUnits → t.power = { s.power with running := k + 1, due := t.ccyc + 24, phase := .ramp (k + 1) } ∧
          t.pins = s.pins) ∧
        (s.cfg.rampUnits ≤ k + 1 → s.boot.booting = true → t.power.phase = .rest ∧ t.power.running = k + 1 ∧
          t.power.st = s.power.st ∧ t.pins = { s.pins with loadup := false }) ∧
        (s.cfg.rampUnits ≤ k + 1 → s.boot.booting = false → t.power.st = .n0))

/-- R357, R358, R361: a write of TARGET is refused while the Steward does not run; otherwise it starts the drain to N1. Once
drained, lanes are gated and N1 is reached 64 ccyc later, unless AUTOWAKE finds work waiting; and in N1 waiting work writes TARGET as N0,
which starts the ramp. -/
def Obligations.TargetMovesBetweenN0AndN1 : Prop :=
  ∀ s : State,
    (∀ data, s.performs offPwrCtrl → s.stwRunning = false → bits data 0 2 ≠ s.target → ∃ t,
      exec (.pwrCtrlTarget data) s = .next t ∧ t.flag offPwrEvents 3 = true ∧ t.target = s.target ∧ t.power = s.power) ∧
    (∀ data, s.performs offPwrCtrl → s.stwRunning = true → s.ready = true → s.power.st = .n0 → s.power.phase = .rest →
      s.target = 0 → bits data 0 2 ≠ 0 → ∃ t, exec (.pwrCtrlTarget data) s = .next t ∧ t.target = bits data 0 2 ∧
        t.flag offPwrCtrl 31 = bitAt data 31 ∧ t.power = { s.power with phase := .drainToN1 }) ∧
    (s.alive = true → s.stwRunning = true → s.power.phase = .drainToN1 → s.drained = true →
      ¬(s.autoWake = true ∧ s.workWaits = true) → ∃ t, exec .n1Entry s = .next t ∧ t.power.st = .n1 ∧ t.power.running = 0 ∧
        t.ccyc = s.ccyc + 64 ∧ t.flag offPwrEvents 0 = true ∧ ∀ l < s.cfg.lanes, (t.lane l).gated = true) ∧
    (s.alive = true → s.stwRunning = true → s.power.phase = .drainToN1 → s.drained = true → s.autoWake = true →
      s.workWaits = true → ∃ t, exec .n1Entry s = .next t ∧ t.power.st = s.power.st ∧ t.power.phase = .rest ∧
        t.flag offPwrEvents 1 = true ∧ t.target = 0) ∧
    (s.alive = true → s.power.st = .n1 → s.power.phase = .rest → s.autoWake = true → s.workWaits = true →
      s.stwRunning = true → s.ready = true → s.target ≠ 0 → ∃ t, exec .autowake s = .next t ∧ t.target = 0 ∧
        t.power.phase = .ramp 0 ∧ t.power.due = s.ccyc + 64 ∧ t.pins.loadup = true)

/-- R357, R360: entering N2 lowers LINK_REQ of every linked port and, once no link is up, asks for retention voltage with
the clocks stopped; conditions that do not hold in time abandon it; N2 is left upwards by the wake sequencer and downwards to N3. -/
def Obligations.N2EntryDropsTheLinks : Prop :=
  ∀ s : State,
    (s.alive = true → s.stwRunning = true → s.power.st = .n1 → s.power.phase = .n2Wait → s.n2Conditions = true →
      s.supplySettled = true → s.anyLink = true → exec .n2Entry s = .next (s.lowerLinks.setPhase .linkDrop) ∧
        ∀ p, (s.mport p).linkAck = true → (s.lowerLinks.mport p).linkReq = false) ∧
    (s.alive = true → s.stwRunning = true → s.power.st = .n1 → s.power.phase = .n2Wait → s.n2Conditions = true →
      s.supplySettled = true → s.anyLink = false →
      ∃ t, exec .n2Entry s = .next t ∧ t.power.phase = .retentionVolt ∧ t.pins.pmVreq = 1#2 ∧ t.clocksStopped = true ∧
        t.ccyc = s.ccyc + 512) ∧
    (s.alive = true → s.power.st = .n1 → s.power.phase = .n2Wait → s.n2Conditions = false → ∃ t,
      exec .n2EntryTimeout s = .next t ∧ t.power.st = .n1 ∧ t.power.phase = .rest ∧ t.flag offPwrEvents 1 = true ∧
        t.target = 1) ∧
    (∀ p, s.alive = true → p < s.cfg.mports → (s.mport p).linkAck = true → (s.mport p).linkReq = false →
      s.power.phase ≠ .linkDrop → ∃ t, exec (.memLinkAckFall p) s = .next t ∧ (t.mport p).linkAck = false ∧
        (t.mport p).reqCred = 0 ∧ (t.mport p).wdCred = 0 ∧ t.flag offMportLink p = false ∧
        { t with mports := s.mports, regs := s.regs } = s ∧ s.regsBut t [offMportLink]) ∧
    (∀ p, s.alive = true → s.power.phase = .linkDrop → (s.mport p).linkAck = true → (s.mport p).linkReq = false → ∃ t,
      exec (.linkDropTimeout (.mem p)) s = .next t ∧ (t.mport p).linkAck = false ∧ t.flag offMportLink p = false) ∧
    (s.inReset = false → s.power.st = .n2 → s.power.phase = .rest → s.supplySettled = true →
      (s.target ≠ 3 → exec .n2Exit s = .next { s with
        pins := { s.pins with pmVreq := 2#2 }, power := { s.power with phase := .wakeVolt } }) ∧
      (s.target = 3 → exec .n3Entry s = .next { s with
        pins := { s.pins with pmVreq := 0#2 }, power := { s.power with phase := .offVolt } }))

-- Boot and the Steward.

/-- R40, R140, R350, R352, R353, R370: a step that passes, by its primary or by its alternate, is recorded as passed and a later step is in
progress. A link step passes once its ports are linked (step 4: one of them), LARDER_DIR leaves every way invalid, SEED gives every lane its
seed, LARDER_BYPASS bypasses the Larder and TIER_MAPOUT takes the bad tiers out; a Steward image that keeps the checks of R350 is loaded, the
microcode too, and of a structure image that keeps its checks every structure register takes the last value or its default. When step 16 passes
the block is READY. -/
def Obligations.BootStepThatPassesLeadsOn : Prop :=
  ∀ (s : State) (r : BootReport),
    (∀ n ∈ [1, 2, 6], s.atStep n r → r.ok = true → ∃ t, exec (.bootStepEnd r) s = .next t ∧
      (t.boot.jrnl.get n).outcome = 1#4 ∧ (t.boot.jrnl.get n).fails = 0 ∧ t.boot.step = n + 1 ∧
      (t.boot.jrnl.get (n + 1)).outcome = 3#4 ∧ t.boot.booting = true) ∧
    (∀ n, s.atStep n r → n = 3 ∧ r.ok = true ∧ s.maskLanes r.lanes = [] ∨ n = 4 ∧ s.unlinked 4 < s.cfg.mports ∨
        n = 8 ∧ r.ok = true ∧ (∀ e, s.cfg.hasWing e = true → s.maskBanks r.banks e = []) ∨ n ∈ [9, 10, 14, 15] ∨
        n = 12 ∧ r.ok = true ∧ r.rows = [] ∧ s.badTiers r.tiers = 0#8 ∨ n = 13 ∧ r.ok = true → ∃ t,
      exec (.bootStepEnd r) s = .next t ∧ (t.boot.jrnl.get n).outcome = 1#4 ∧ (t.boot.jrnl.get n).fails = 0 ∧
      t.boot.booting = true ∧ n < t.boot.step ∧ (n = 3 → t.boot.lanesFailed = 0#64) ∧
      (n = 4 → (t.boot.jrnl.get 4).code = BitVec.ofNat 8 (s.unlinked 4)) ∧ (n = 13 → ∀ key w, t.way key w = default) ∧
      (n = 14 → ∀ l < s.cfg.lanes, (t.lane l).lfsr = r.seeds.getD l 0#32)) ∧
    (∀ n path, s.mayEndStep r = true → s.boot.step = n → s.policyNow n = 2 → path = (s.boot.jrnl.get n).path →
        n = 3 ∧ (path = 2#2 ∨ r.ok = false ∨ s.maskLanes r.lanes ≠ []) ∧ (s.spareLanes (s.maskLanes r.lanes)).2 = true ∨
        n = 8 ∧ (path = 2#2 ∨ r.ok = false) ∧ (s.spareBanks r.banks).2 = true ∨ n = 11 ∧ path = 2#2 ∨
        n = 12 ∧ r.rows = [] ∧ (path = 2#2 ∨ r.ok = false ∨ s.badTiers r.tiers ≠ 0#8) → ∃ t,
      exec (.bootStepEnd r) s = .next t ∧ (t.boot.jrnl.get n).outcome = 1#4 ∧ (t.boot.jrnl.get n).fails = 0 ∧
      (t.boot.jrnl.get n).path = 2#2 ∧ t.boot.booting = true ∧ n < t.boot.step ∧ (n = 11 → t.boot.bypass = true) ∧
      (n = 12 → t.larder.tiersOut = s.larder.tiersOut ||| s.badTiers r.tiers)) ∧
    (∀ n u h, n = 5 ∨ n = 11 → s.atStep n r → s.stepReads r = (u, true) →
      (if n = 5 then u.imageFound 0 1 r.sigOk else u.imageFound 2 2 r.sigOk) = (0#8, h) → ∃ t,
      exec (.bootStepEnd r) s = .next t ∧ (t.boot.jrnl.get n).outcome = 1#4 ∧ (t.boot.jrnl.get n).fails = 0 ∧ n < t.boot.step ∧
      (if n = 5 then t.boot.imgB = false ∧ t.boot.fwver = BitVec.ofNat 32 (fieldAt h 4 4) ∧
          t.boot.stwEpoch = BitVec.ofNat 16 (fieldAt h 8 2)
        else t.boot.lmver = BitVec.ofNat 32 (fieldAt h 4 4) ∧ t.boot.lmEpoch = BitVec.ofNat 16 (fieldAt h 8 2))) ∧
    (∀ u st h es, s.atStep 7 r → s.stepReads r = (u, true) → u.structFound = (st, h, es) → u.structImageBad st h es = none → ∃ t,
      exec (.bootStepEnd r) s = .next t ∧ (t.boot.jrnl.get 7).outcome = 1#4 ∧ t.boot.step = 8 ∧
      (∀ off, (structBits off).isSome = true → t.reg off = imageStruct s.cfg es off) ∧
      t.reg offLdgImgid = BitVec.ofNat 32 (fieldAt h 8 4)) ∧
    (s.atStep 16 r → ∃ t, exec (.bootStepEnd r) s = .next t ∧ (t.boot.jrnl.get 16).outcome = 1#4 ∧ t.boot.ready = true ∧
      t.boot.booting = false ∧ t.flag offStwEvents 0 = true)

/-- R352, R353, R355: a required step that fails, or runs into its limit, is recorded as failed. Its second failure in a row
puts the block into ROM recovery mode; before that an internal restart follows. -/
def Obligations.BootStepThatFailsRestartsOrRecovers : Prop :=
  ∀ (s : State) (r : BootReport), ∀ n ∈ [1, 2, 6], (s.boot.jrnl.get n).path ≠ 2#2 → s.boot.step = n →
    ∀ c, (c = .bootStepEnd r ∧ s.mayEndStep r = true ∧ r.ok = false ∨
        c = .bootStepTimeout r ∧ s.alive = true ∧ s.boot.booting = true) →
      (1 ≤ (s.boot.jrnl.get n).fails → ∃ t, exec c s = .next t ∧ t.recovery = true ∧ t.boot.booting = false ∧
        (t.boot.jrnl.get n).outcome = 2#4 ∧ (t.boot.jrnl.get n).pfailed = true ∧ t.flag offStwEvents 1 = true) ∧
      ((s.boot.jrnl.get n).fails = 0 → ∃ t, exec c s = .next t ∧ t.boot.step = 0 ∧
        t.boot.booting = true ∧ t.boot.cause = 3#4 ∧ t.boot.starts = min 255 (s.boot.starts + 1) ∧
        (t.boot.jrnl.get n).fails = 1 ∧ (t.boot.jrnl.get n).pfailed = true ∧ t.queues = State.reset.queues)

/-- R347, R352, R353, R362: the watchdog halts the Steward with WDOG set, the heartbeat advances, REBOOT begins a start of
cause 2 with the effects of a warm reset, JRNL_RETRY clears PFAILED of every step, and a write of an image address clears PFAILED of
the step that reads it. (That the halt drops the requests the Steward has taken, its replies and its promotions is read from R347, log 123.) -/
def Obligations.StewardControlsAct : Prop :=
  ∀ s : State,
    (s.alive = true → s.stwRunning = true →
      (∃ t, exec .stewardWatchdog s = .next t ∧ t.boot = { s.boot with stwState := 4#4, replies := [] } ∧
        t.flag offStwEvents 2 = true ∧ s.regsBut t [offStwEvents] ∧ t.power = { s.power with reqs := [] } ∧
        t.larder = { s.larder with newAddrs := [], installs := s.larder.installs.filter (fun i => i.preload.isSome) } ∧
        (∀ who, t.reading who = match who with
          | .hole _ | .promotion _ => none
          | _ => s.reading who) ∧
        t.records = s.records.filter (fun r => match r.note with
          | .reply _ _ => false
          | _ => true) ∧
        { t with boot := s.boot, regs := s.regs, power := s.power, larder := s.larder, readings := s.readings,
                 records := s.records } = s) ∧
      exec .stewardHeartbeat s = .next { s with boot := { s.boot with heartbeat := s.boot.heartbeat + 1 } }) ∧
    (s.performs offStwCtrl → ∃ t, exec .reboot s = .next t ∧ t.boot.cause = 2#4 ∧ t.boot.booting = true ∧ t.boot.step = 0 ∧
      t.boot.starts = min 255 (s.boot.starts + 1) ∧ t.boot.ret = s.boot.ret ∧ t.pins.devid = s.pins.devid ∧
      t.pins.pllLocked = s.pins.pllLocked ∧ t.regs = State.reset.regs ∧ t.queues = State.reset.queues ∧
      t.sems = State.reset.sems ∧ t.tables = State.reset.tables) ∧
    (s.performs offStwCtrl → ∃ t, exec .jrnlRetry s = .next t ∧ (∀ n < 17, (t.boot.jrnl.get n).pfailed = false) ∧
      { t with boot := { t.boot with jrnl := s.boot.jrnl }, out := s.out } = s) ∧
    (∀ (which : BitVec 2) (data : Word), s.performs (offStwImg which.toNat) → ∃ t,
      exec (.stwImgLoWrite which data) s = .next t ∧
      t.boot.ret.get (offStwImg which.toNat) = data &&& 0xFFFFFFC0#32 ∧
      (t.boot.jrnl.get (imgStep which.toNat)).pfailed = false ∧
      (∀ n, n ≠ imgStep which.toNat → t.boot.jrnl.get n = s.boot.jrnl.get n) ∧
      { t with boot := { t.boot with jrnl := s.boot.jrnl, ret := s.boot.ret }, out := s.out } = s)

/-- R282, R338, R341, R345, R348: the Steward acknowledges the request of the pigeonhole whose turn it is, clears its bit in its place
among the writes of the ccyc (log 69), and reads it with its own ASID. Once it is read, a request with bad arguments is answered BAD_ARGS, INFO
with the versions, an unknown OP with BAD_OP whatever its other bytes hold (log 44), POWER with DONE when the block is in the state already,
and LOADRPT with DONE when a report is due, whose address changes; another LOADRPT waits for the end of the window, and another POWER for the
state it asks for, which it drains to. A due load report is written, or LOST is set when it may not go to its address. -/
def Obligations.StewardServesRequests : Prop :=
  (∀ (s : State) (p : Nat) (isA : Bool) (c : Instr), c ∈ [Instr.info p, .loadrpt p, .power p] → s.takesNext p isA →
    ∀ u v, u = s.pghTurn p pghAck → v = u.pgh p → ∃ t r, exec c s = .next t ∧ t.reading (.hole p) = some r ∧ t.boot.lastPgh = p ∧
      t.pgh p = (if isA then { v with unreadA := false, pend := v.pend &&& ~~~0x00010000#32 }
        else { v with unreadB := false, pend := v.pend &&& ~~~0x00000001#32 }) ∧ (∀ k, k ≠ p → t.pgh k = u.pgh k) ∧
      ((s.pgh p).pointer isA % 64 = 0 → u.portTakes false ((s.pgh p).pointer isA) → ∃ x ∈ t.waiting, x.op = 0#3 ∧
        x.pa = (s.pgh p).pointer isA ∧ x.len = 64 ∧ x.asid = u.stwAsid ∧ r.id ∈ x.readings)) ∧
  (∀ (s : State) (p : Nat) (req : BitVec 512), s.serves p req →
    (∀ c st extra,
      c = Instr.info p ∧ fieldAt req 0 1 ∉ [1, 2, 3] ∧ st = StwStatus.badOp ∧ extra = 0 ∨
      c = .info p ∧ fieldAt req 0 1 = 1 ∧ (if reqWellFormed req = true ∧ fieldAt req 16 48 = 0 then st = .done ∧ extra = s.infoBytes
        else st = .badArgs ∧ extra = 0) ∨
      c = .loadrpt p ∧ fieldAt req 0 1 = 2 ∧ ¬(reqWellFormed req = true ∧ fieldAt req 24 40 = 0 ∧ fieldAt req 16 8 % 4096 = 0 ∧
        fieldAt req 16 8 < 2 ^ 52) ∧ st = .badArgs ∧ extra = 0 ∨
      c = .power p ∧ fieldAt req 0 1 = 3 ∧ ¬(reqWellFormed req = true ∧ fieldAt req 17 47 = 0 ∧ fieldAt req 16 1 ≤ 3) ∧
        st = .badArgs ∧ extra = 0 ∨
      c = .power p ∧ fieldAt req 0 1 = 3 ∧ (reqWellFormed req = true ∧ fieldAt req 17 47 = 0 ∧ fieldAt req 16 1 ≤ 3) ∧
        s.target = fieldAt req 16 1 ∧ pwrCode s.power.st = fieldAt req 16 1 ∧ s.power.phase = .rest ∧ st = .done ∧ extra = 0 →
      ∃ t, exec c s = .next t ∧ t.boot.served = s.boot.served + 1 ∧ t.reading (.hole p) = none ∧
        (s.recordGoes [((reqReplyPa req).toNat, replyBytes req st extra)] →
          t.recordWaits (.reply p (reqReplyPa req)) s.stwAsid 1#2 [((reqReplyPa req).toNat, replyBytes req st extra)]) ∧
        t.regs = s.regs ∧ t.power = s.power ∧ t.queues = s.queues ∧ t.pghs = s.pghs) ∧
    (reqWellFormed req = true → fieldAt req 0 1 = 2 → fieldAt req 24 40 = 0 → fieldAt req 16 8 % 4096 = 0 →
      fieldAt req 16 8 < 2 ^ 52 →
      (s.larder.due = none → ∃ t, exec (.loadrpt p) s = .next t ∧ t.reading (.hole p) = none ∧
        t.larder.newAddrs = s.larder.newAddrs ++ [(p, req, reqReplyPa req)] ∧ t.regs = s.regs ∧ t.out = s.out) ∧
      (s.larder.due ≠ none → ∃ t, exec (.loadrpt p) s = .next t ∧ t.loadBase = fieldAt req 16 8 ∧
        t.boot.served = s.boot.served + 1 ∧ s.regsBut t [offLoadrptLo, offLoadrptHi] ∧
        (s.recordGoes [((reqReplyPa req).toNat, replyBytes req .done 0)] →
          t.recordWaits (.reply p (reqReplyPa req)) s.stwAsid 1#2 [((reqReplyPa req).toNat, replyBytes req .done 0)]))) ∧
    (reqWellFormed req = true → fieldAt req 0 1 = 3 → fieldAt req 17 47 = 0 → fieldAt req 16 1 ≤ 3 → s.ready = true →
      s.power.st = .n0 → s.power.phase = .rest → s.target = 0 → fieldAt req 16 1 ≠ 0 → ∃ t, exec (.power p) s = .next t ∧
        t.target = fieldAt req 16 1 ∧ t.power.phase = .drainToN1 ∧
        t.power.reqs = s.power.reqs ++ [⟨p, req, BitVec.ofNat 2 (fieldAt req 16 1), false⟩])) ∧
  ∀ (s : State) (d : DueReport), s.alive = true → s.stwRunning = true → s.larder.due = some d → s.larder.newAddrs = [] →
    ∃ t, exec .loadReport s = .next t ∧ t.larder.due = none ∧
      (paDevice s.loadBase = s.devid → s.recordGoes [(s.loadBase, loadBytes d)] →
        t.recordWaits .load s.stwAsid 1#2 [(s.loadBase, loadBytes d)] ∧ t.regs = s.regs) ∧
      (paDevice s.loadBase ≠ s.devid → t.flag offLoadEvents 1 = true ∧ s.regsBut t [offLoadEvents])

-- Pigeonholes.

/-- R332, R333, R335-R337, R339, R341: binding a pigeonhole that is not locked sets its sides. In a locked one, a side commits a
pointer when the last one has been acknowledged, acknowledges, rings the other side, clears and masks its own half; each write changes
nothing else but the turn it takes among the writes of its ccyc, and one that comes too late for the ccyc waits for the next (log 69). A
ring by an identity that is neither side, a side's acknowledgement of the other's message, or a write of either half of a pointer whose
message has not been acknowledged, sets MID_ERR or BUSY_ERR and does nothing else, for the Steward's commit as for a master's. (That a mask
written with the other half as it stands is no write of the other side's half is the model's reading, log 42.) -/
def Obligations.PigeonholeWritesActForTheirSide : Prop :=
  (∀ (s : State) (p rank : Nat), s.outOfTurn (2000 + p) rank 0#20 = false →
    { s.pghTurn p rank with turns := s.turns } = s ∧ ((s.pghTurn p rank).turns.get (2000 + p)).rank =
      max ((s.turns.get (2000 + p)).rank) rank) ∧
  (∀ (s : State) (p : Nat) (mid : BitVec 8) (data : Word), p < 16 → mid ≠ 0xFF#8 →
    (s.performs (offPgh p 0x00) → (s.pgh p).locked = false →
      ¬(bitAt data 31 = true ∧ (bits data 0 8 = bits data 8 8 ∨ bits data 0 8 = 0xFE ∨ bits data 8 8 = 0xFE)) →
      exec (.pghBind p mid data) s =
        .next (s.setPgh p { s.pgh p with bind := data &&& 0x8000FFFF#32 }).respondOk) ∧
    ((s.pgh p).locked = true → ∀ isA, (s.pgh p).side mid = some isA →
      (∀ u v, u = s.pghTurn p pghRing → v = u.pgh p → s.performs (offPgh p (if isA then 0x08 else 0x10)) →
        v.unread (!isA) = false → exec (.pghPtrLoCommit p (!isA) mid data) s = .next (u.setPgh p (if isA
          then { v with abLo := data, unreadB := true, pend := v.pend ||| 0x00000001#32 }
          else { v with baLo := data, unreadA := true, pend := v.pend ||| 0x00010000#32 })).respondOk) ∧
      (∀ u v, u = s.pghTurn p pghAck → v = u.pgh p → s.performs (offPgh p 0x18) → bitAt data (if isA then 1 else 0) = true →
        bitAt data (if isA then 0 else 1) = false → u.boot.replies = [] →
        exec (.pghAck p mid data) s = .next (u.setPgh p (if isA then { v with unreadA := false }
          else { v with unreadB := false })).respondOk) ∧
      (∀ u v, u = s.pghTurn p pghRing → v = u.pgh p → s.performs (offPgh p 0x1C) →
        exec (.pghRing p mid data) s = .next (u.setPgh p { v with
          pend := v.pend ||| (data &&& if isA then 0x0000FFFF#32 else 0xFFFF0000#32) }).respondOk) ∧
      (∀ u v, u = s.pghTurn p pghClear → v = u.pgh p → s.performs (offPgh p 0x20) →
        data &&& (if isA then 0x0000FFFF#32 else 0xFFFF0000#32) = 0#32 →
        exec (.pghPendClear p mid data) s = .next (u.setPgh p { v with
          pend := v.pend &&& ~~~(data &&& if isA then 0xFFFF0000#32 else 0x0000FFFF#32) }).respondOk) ∧
      (∀ u v, u = s.pghTurn p pghMask → v = u.pgh p → s.performs (offPgh p 0x24) →
        data &&& (if isA then 0x0000FFFF#32 else 0xFFFF0000#32) =
          (s.pgh p).mask &&& (if isA then 0x0000FFFF#32 else 0xFFFF0000#32) →
        exec (.pghMaskWrite p mid data) s = .next (u.setPgh p { v with
          mask := (v.mask &&& if isA then 0x0000FFFF#32 else 0xFFFF0000#32) |||
            (data &&& if isA then 0xFFFF0000#32 else 0x0000FFFF#32) }).respondOk))) ∧
  ∀ (s : State) (p : Nat) (mid : BitVec 8) (data : Word), p < 16 → mid ≠ 0xFF#8 → (s.pgh p).locked = true →
    ((s.pgh p).side mid = none → s.performs (offPgh p 0x1C) → ∃ t, exec (.pghRing p mid data) s = .next t ∧
      t.pghs = s.pghs ∧ t.flag offPghEvents 1 = true ∧ s.regsBut t [offPghEvents, offPghLasterr]) ∧
    (∀ isA u, (s.pgh p).side mid = some isA → u = s.pghTurn p pghAck → s.performs (offPgh p 0x18) →
      bitAt data (if isA then 1 else 0) = false → bitAt data (if isA then 0 else 1) = true → ∃ t,
      exec (.pghAck p mid data) s = .next t ∧ t.pghs = u.pghs ∧ t.flag offPghEvents 1 = true ∧
        u.regsBut t [offPghEvents, offPghLasterr]) ∧
    (∀ isA u, (s.pgh p).side mid = some isA → u = s.pghTurn p pghRing → (u.pgh p).unread (!isA) = true →
      (s.performs (offPgh p (if isA then 0x08 else 0x10)) → ∃ t, exec (.pghPtrLoCommit p (!isA) mid data) s = .next t ∧
        t.pghs = u.pghs ∧ t.flag offPghEvents 0 = true ∧ u.regsBut t [offPghEvents, offPghLasterr]) ∧
      (s.performs (offPgh p (if isA then 0x0C else 0x14)) → ∃ t,
        exec (.registerWrite mid (BitVec.ofNat 24 (offPgh p (if isA then 0x0C else 0x14))) data) s = .next t ∧
        t.pghs = u.pghs ∧ t.flag offPghEvents 0 = true ∧ u.regsBut t [offPghEvents, offPghLasterr])) ∧
    (∀ isA u, (s.pgh p).side 0xFF#8 = some isA → u = s.pghTurn p pghRing → (u.pgh p).unread (!isA) = true →
      s.alive = true → s.stwRunning = true → ∃ t,
      exec (.pghPtrLoCommit p (!isA) 0xFF#8 data) s = .next t ∧
      t.pghs = u.pghs ∧ t.flag offPghEvents 0 = true ∧ u.regsBut t [offPghEvents, offPghLasterr])

-- The Tally.

/-- R393, R394: a write of TLY_CTRL asks for the next Tally edge, the first ccyc at least 40 later that is a multiple of 20: for a
snapshot, a clear or a freeze change. A read of TLY_CCYC_LO latches the upper bits. -/
def Obligations.TallyRequestsWaitForTheEdge : Prop :=
  (∀ s : State,
    (s.performs offTlyCtrl → s.tally.record = none →
      (∃ t, exec .snap s = .next t ∧ t.tally = { s.tally with
        reqs := s.tally.reqs ++ [⟨.snap (s.flag offTlyCtrl 27), some (edgeAfter s.ccyc.toNat)⟩] } ∧
        s.regsBut t [] ∧ { t with tally := s.tally, regs := s.regs, out := s.out } = s) ∧
      (∃ t, exec .clear s = .next t ∧ t.tally = { s.tally with
        reqs := s.tally.reqs ++ [⟨.clear, some (edgeAfter s.ccyc.toNat)⟩] } ∧ s.regsBut t [] ∧
        { t with tally := s.tally, regs := s.regs, out := s.out } = s) ∧
      ∀ on, s.flag offTlyCtrl 31 ≠ on → ∃ t, exec (.freeze on) s = .next t ∧ t.tally = { s.tally with
        reqs := s.tally.reqs ++ [⟨.freeze on, some (edgeAfter s.ccyc.toNat)⟩] } ∧ t.flag offTlyCtrl 31 = on ∧
        s.regsBut t [offTlyCtrl] ∧ { t with tally := s.tally, regs := s.regs, out := s.out } = s) ∧
    (s.performs offTlyCcycLo → exec .tlyCcycLoRead s = .next { s with
      ccycLatch := BitVec.ofNat 16 (s.ccyc.toNat / 2 ^ 32), out := .cpResponse 0#2 (s.ccyc.truncate 32) :: s.out })) ∧
  ∀ c : Nat, c < 2 ^ 48 → edgeAfter c % 20 = 0 ∧ ∃ d, 40 ≤ d ∧ edgeAfter c = (c + d) % 2 ^ 48 ∧
    ∀ k, 40 ≤ k → (c + k) % 2 ^ 48 % 20 = 0 → d ≤ k

/-- R394, R395: the edge that a request waits for comes `TALLY_EDGE`'s step further, with time passing up to it, and the request
applies to every counter at once: a snapshot takes the counters as they stand and SNAP_SEQ rises, a clear sets every counter to 0, a
freeze change takes effect. Frozen counters count nothing meanwhile. -/
def Obligations.TallyEdgeAppliesWhatWasAsked : Prop :=
  ∀ (s : State) (ask : TallyAsk) (e : BitVec 48), s.alive = true → s.tally.record = none → e ≠ s.ccyc →
    s.tally.reqs = [⟨ask, some e.toNat⟩] →
    (∀ dump, ask = .snap dump → ∃ t, exec .tallyEdge s = .next t ∧ t.ccyc = e ∧ t.tally.shadow = t.tally.cnt ∧
      t.tally.snapSeq = s.tally.snapSeq + 1 ∧ t.tally.snapCcyc = e ∧ t.tally.reqs = [] ∧
      (s.tally.frozen = true → t.tally.cnt = s.tally.cnt) ∧
      t.tally.record = if dump then some ⟨none, s.tally.frozen, none, []⟩ else none) ∧
    (ask = .clear → ∃ t, exec .tallyEdge s = .next t ∧ t.ccyc = e ∧ (∀ i, t.tally.cnt.get i = 0) ∧ t.tally.reqs = [] ∧
      t.tally.frozen = s.tally.frozen ∧ t.tally.shadow = s.tally.shadow) ∧
    (∀ on, ask = .freeze on → ∃ t, exec .tallyEdge s = .next t ∧ t.ccyc = e ∧ t.tally.frozen = on ∧ t.tally.reqs = [] ∧
      (s.tally.frozen = true → t.tally.cnt = s.tally.cnt))

/-- R9, R20, R396, R397, R403: the reader of a record first asks the East units for their counters, one item each over the Corridor; once
it has them, the record of a TLY_CTRL snapshot goes out to TLY_DUMP with the Steward's ASID, or DUMP_LOST is set when the address lies on
another device, and that of a SNAPSHOT task with the queue's ASID once its pages are translated. (The model's choices: counters that a failed
Corridor cuts off a TLY_CTRL record are open, log 113, and the record of a task that is gone is given up, log 54.) -/
def Obligations.TallyRecordsAreWritten : Prop :=
  ∀ s : State, s.alive = true →
    (∀ k q c ks, s.tally.record = some k → k.left = none → ks = s.eastCounters k → ks ≠ [] → s.recordAway = false →
      k.q = none ∧ c = .tallyRecord ∨ k.q = some q ∧ c = .snapshotTask q ∧ (s.queue q).stopping = false ∧
        (∃ task, (s.queue q).task = some task ∧ task.phase = .snapshot) →
      (s.corridor.failed = false → ∃ t, exec c s = .next t ∧ t.tally = { s.tally with record := some { k with left := some ks } } ∧
        t.corridor.toEast.get corControl = s.corridor.toEast.get corControl ++ ks.map (.tallyRead s.tally.snapSeq) ∧
        { t with tally := s.tally, corridor := s.corridor } = s) ∧
      (s.corridor.failed = true → k.q = none → exec c s = .next { s with
        tally := { s.tally with record := some { k with left := some [], lost := ks } } })) ∧
    (∀ k pa bytes, s.tally.record = some k → k.q = none → s.countersRead k = true → s.recordAway = false →
      pa = s.fld offTlyDumpHi 0 20 * 2 ^ 32 + s.fld offTlyDumpLo 6 26 * 64 → bytes = s.recordBytes k → ∃ t,
      exec .tallyRecord s = .next t ∧
        (paDevice pa = s.devid → s.recordGoes [(pa, bytes)] → t.recordWaits .tally s.stwAsid 1#2 [(pa, bytes)] ∧
          t.tally = s.tally ∧ t.regs = s.regs) ∧
        (paDevice pa ≠ s.devid → t.tally.record = none ∧ t.flag offTlyStatus 1 = true ∧ s.regsBut t [offTlyStatus])) ∧
    (∀ q k, s.tally.record = some k → k.q = some q → (s.queue q).task = none →
      exec (.snapshotTask q) s = .next s.recordDone) ∧
    (∀ q k task u pages chunks, s.tally.record = some k → k.q = some q → (s.queue q).task = some task →
      task.phase = .snapshot → s.countersRead k = true → s.recordAway = false → (s.queue q).stopping = false →
      s.snapPages q task (s.recordBytes k).length = (u, some pages) →
      chunks = snapChunks task.snapVa.toNat pages (s.recordBytes k) → (∀ c ∈ windowsAll chunks, paDevice c.1 = s.devid) →
      u.recordGoes chunks → ∃ t, exec (.snapshotTask q) s = .next t ∧
        t.recordWaits (.snap q pages) (s.qAsid q) (s.qPrio q) chunks ∧ t.queues = u.queues)

/-- R391, R399: a counter selection takes effect when it is valid and sets SEL_ERR when the event or its qualifier does not exist; a
time mark comes at the next multiple of 65,536 ccyc and is traced when its type is chosen and the trace queue has room. -/
def Obligations.SelectionsAndMarksAct : Prop :=
  ∀ s : State,
    (∀ u k hi data, s.performs (offTly u (8 * k + if hi then 4 else 0)) → s.unitPresent u = true → k < 16 →
      (selBad s.cfg u k (if hi then s.tlySelLo u k else data) (if hi then data else s.tlySelHi u k) = false →
        ∃ t, exec (.tlySelWrite u k hi data) s = .next t ∧
          t.reg (offTly u (8 * k + if hi then 4 else 0)) =
            ((s.reg (offTly u (8 * k + if hi then 4 else 0)) &&& if hi then 0xFFFFF800#32 else 0x100F0000#32) |||
              (data &&& if hi then 0x000007FF#32 else 0xEFF0FFFF#32)) ∧
          s.regsBut t [offTly u (8 * k + if hi then 4 else 0)] ∧ t.tally.occ.get (16 * u + k) = 0 ∧
          { t with regs := s.regs, out := s.out, tally := { t.tally with occ := s.tally.occ } } = s) ∧
      (selBad s.cfg u k (if hi then s.tlySelLo u k else data) (if hi then data else s.tlySelHi u k) = true →
        ∃ t, exec (.tlySelWrite u k hi data) s = .next t ∧ t.flag offTlyStatus 2 = true ∧ s.regsBut t [offTlyStatus] ∧
          { t with regs := s.regs, out := s.out } = s)) ∧
    (∀ stall, s.alive = true → ∃ t, exec (.traceTimeMark stall) s = .next t ∧ t.ccyc.toNat % 65536 = 0 ∧
      (t.ccyc - s.ccyc).toNat < 65536 ∧ t.pins = { s.pins with trcStall := stall } ∧
      (s.ccyc.toNat % 65536 = 0 → (∀ q, t.queue q = s.queue q) ∧
        (stall = false → s.flag offTlyTrace 31 = true → s.flag offTlyTrace 22 = true → s.tally.trace.length < 64 →
          ∃ m, t.tally.trace = s.tally.trace ++ [m] ∧ m.toNat / 2 ^ 120 = 7 ∧ m.toNat / 2 ^ 56 % 2 ^ 48 = s.ccyc.toNat)))

-- Reliability.

/-- R381, R386: a corrected error adds to its class's total, sets CE, is captured while nothing is, and counts in its repair unit;
nothing else happens below the threshold. When a class's sub-window ends, each of its units' counts gains an empty sub-window and loses the
oldest of more than eight; the counts of other classes stay. -/
def Obligations.CorrectedErrorsAreCounted : Prop :=
  (∀ (s : State) (cls : BitVec 3) (w : Wing) (unit : BitVec 10) (index : Word) (syn : Byte), s.alive = true → cls.toNat < 6 →
    s.cfg.hasWing (wingEast w) = true → (cls.toNat = relLane → syn ≠ 0#8) →
    (∀ k ∈ s.rel.counts.cells.map (fun c => c.1), k ≠ relKey cls.toNat w unit.toNat index.toNat →
      windowCount (s.rel.counts.get k) < s.relThresh (k / relClassSize)) →
    windowCount (addEvents 1 (s.rel.counts.get (relKey cls.toNat w unit.toNat index.toNat))) < s.relThresh cls.toNat →
    ∃ t, exec (.correctedError cls w unit index syn) s = .next t ∧
      t.reg (offCeTotal cls.toNat) = BitVec.ofNat 32 (min (2 ^ 32 - 1) ((s.reg (offCeTotal cls.toNat)).toNat + 1)) ∧
      t.flag offRelEvents 0 = true ∧ (s.flag offLastCe0 31 = false → t.reg offLastCe1 = index ∧
        t.fld offLastCe0 28 3 = cls.toNat ∧ t.fld offLastCe0 16 10 = unit.toNat ∧ t.flag offLastCe0 31 = true) ∧
      t.rel.counts.get (relKey cls.toNat w unit.toNat index.toNat) =
        addEvents 1 (s.rel.counts.get (relKey cls.toNat w unit.toNat index.toNat)) ∧
      s.regsBut t [offCeTotal cls.toNat, offRelEvents, offLastCe0, offLastCe1] ∧
      { t with regs := s.regs, rel := { t.rel with
        counts := s.rel.counts, flips := s.rel.flips, tracked := s.rel.tracked } } = s) ∧
  ∀ (s : State) (cls : BitVec 3), s.alive = true → cls.toNat < 6 → ∃ t, exec (.ceSubWindowRoll cls) s = .next t ∧
    t.rel.rolled.get cls.toNat =
      (s.rel.rolled.get cls.toNat / 2 ^ s.relSubExp cls.toNat + 1) * 2 ^ s.relSubExp cls.toNat ∧
      ∀ k, t.rel.counts.get k = if k / relClassSize = cls.toNat ∧ s.rel.counts.get k ≠ [] then
        (if windowCount (0 :: s.rel.counts.get k) = 0 then [] else (0 :: s.rel.counts.get k).take 8) else s.rel.counts.get k

/-- R379, R381, R386: an uncorrectable error of any structure, of the structure's class, adds to UE_TOTAL and sets UE; in a two-wing
instance one of the version store is mended and counts as corrected. The structure reacts: a Larder way or set is dropped, the
semaphore is poisoned, the ring is broken, the block in the buffer is marked, the Steward is halted, and the work that read a word of the
Hall or of a lane's store fails with ST_ECC. -/
def Obligations.UncorrectableErrorReacts : Prop :=
  ∀ (s : State) (cls : BitVec 3) (w : Wing) (unit : BitVec 10) (index : Word) (syn : Byte) (site : UeSite), s.alive = true →
    cls.toNat = ueClass site → s.cfg.hasWing (wingEast w) = true → s.ueSiteOk site = true →
    (∀ table epoch, site = .versionStore table epoch → s.cfg.twoWings = true → ∃ t,
      exec (.uncorrectableError cls w unit index syn site) s = .next t ∧ t.flag offRelEvents 0 = true ∧
      t.reg offUeTotal = s.reg offUeTotal ∧
      t.reg (offCeTotal 1) = BitVec.ofNat 32 (min (2 ^ 32 - 1) ((s.reg (offCeTotal 1)).toNat + 1))) ∧
    (¬(s.cfg.twoWings = true ∧ ∃ table epoch, site = .versionStore table epoch) → ∃ t,
      exec (.uncorrectableError cls w unit index syn site) s = .next t ∧ t.flag offRelEvents 1 = true ∧
      t.reg offUeTotal = BitVec.ofNat 32 (min (2 ^ 32 - 1) ((s.reg offUeTotal).toNat + 1)) ∧
      (site = .stewardSram → t.boot.stwState = 4#4 ∧ t.boot.replies = []) ∧
      (∀ i, site = .semaphore i → (t.sem i).poisoned = true ∧ (t.sem i).count = 0#20 ∧ t.flag offSemEvents 2 = true) ∧
      (∀ set way, site = .larderWay set way → (t.way (setKey (wingEast w) set) way).valid = false) ∧
      (∀ set way, site = .larderDir set → (t.way (setKey (wingEast w) set) way).valid = false) ∧
      (∀ r, site = .ringPos r → (t.ring r).broken = true) ∧
      (∀ id, site = .blockBuffer id → ∀ b ∈ t.blocks, b.id = id → b.poison = true) ∧
      (∀ q porter cmd va pa, site = .hall q porter cmd va pa → s.mayFail q → ∃ p f, (t.queue q).stop = some p ∧
        p.fault = some f ∧ f.status = stEcc ∧ f.unit = (if porter then 0x3#8 else 0x1#8) ∧ f.va = va ∧ f.pa = pa ∧
        (cmd ≠ none → p.failed = cmd)) ∧
      (∀ q n, site = .laneStore q n → s.mayFail q → t.stopsWith q stEcc))

/-- R3, R383, R384, R386: a lane that is to be replaced and holds nothing is replaced by a spare with MAPPED, or leaves service; so
does a drained tag bank. A write of REL_INJECT takes effect, but for a wing or a unit the instance lacks (R3); one of REL_CE_CFG clears
its class's counts. -/
def Obligations.SparesTakeTheNumbers : Prop :=
  ∀ s : State,
    (∀ lane, s.alive = true → s.stwRunning = true → s.rel.lanesWait.contains lane = true → s.pins.hold = false →
      s.power.phase = .rest → s.itins = [] → s.tiles = [] → (s.lane lane).rwins = [] →
      s.freeLaneSpare (laneEast lane) (s.spareLaneMask (laneEast lane)) = none → ∃ t,
      exec (.laneSpareSwap lane) s = .next t ∧ t.rel = { s.rel with
        lanesWait := s.rel.lanesWait.filter (fun l => l != lane)
        lanesOut := s.rel.lanesOut ||| BitVec.ofNat 64 (2 ^ lane) } ∧ t.flag offRelEvents 3 = true ∧
        t.flag offRelEvents 4 = true ∧ s.regsBut t [offRelEvents] ∧ { t with regs := s.regs, rel := s.rel } = s) ∧
    (∀ lane k, s.alive = true → s.stwRunning = true → s.rel.lanesWait.contains lane = true → s.pins.hold = false →
      s.power.phase = .rest → s.itins = [] → s.tiles = [] → (s.lane lane).rwins = [] →
      s.freeLaneSpare (laneEast lane) (s.spareLaneMask (laneEast lane)) = some k → ∃ t,
      exec (.laneSpareSwap lane) s = .next t ∧ t.rel.lanesOut = s.rel.lanesOut ∧ t.flag offRelEvents 3 = true ∧
        t.rel.laneSpares.get (wingNo (laneEast lane)) =
          s.rel.laneSpares.get (wingNo (laneEast lane)) ||| BitVec.ofNat 2 (2 ^ k)) ∧
    (∀ w bank, s.alive = true → s.stwRunning = true → bank < s.cfg.tagBanks →
      s.rel.tagBanks.get (bank + if wingEast w then 8 else 0) = .draining → s.outs = [] → ∃ t,
      exec (.tagBankSwap w bank) s = .next t ∧ t.flag offRelEvents 3 = true ∧
        t.rel.tagBanks.get (bank + if wingEast w then 8 else 0) =
          (if s.freeTagSpare (wingEast w) then BankState.inUse else .outOfUse) ∧
        (s.freeTagSpare (wingEast w) = true → t.rel.tagSpare.get (wingNo (wingEast w)) = true)) ∧
    (∀ data, s.performs offRelInject → ∃ t, exec (.relInjectArm data) s = .next t ∧
      (∀ m d, m = (if s.cfg.twoWings then 0xFFFF0000#32 else 0xF7FF0000#32) →
        d = (if s.cfg.unitAbsent (bits data 28 3) (bits data 16 10) then data &&& 0xFC00FFFF#32 else data) →
        t.reg offRelInject = (s.reg offRelInject &&& ~~~m) ||| (d &&& m)) ∧
      s.regsBut t [offRelInject] ∧ { t with regs := s.regs, out := s.out } = s) ∧
    (∀ (cls : BitVec 3) data, cls.toNat < 6 → s.performs (offCeCfg cls.toNat) → ∃ t,
      exec (.relCeCfgWrite cls data) s = .next t ∧
        t.reg (offCeCfg cls.toNat) = (s.reg (offCeCfg cls.toNat) &&& 0xFF0000E0#32) ||| (data &&& 0x00FFFF1F#32) ∧
        (∀ k, k / relClassSize = cls.toNat → t.rel.counts.get k = []) ∧
        (∀ k, k / relClassSize ≠ cls.toNat → t.rel.counts.get k = s.rel.counts.get k) ∧
        s.regsBut t [offCeCfg cls.toNat] ∧ { t with regs := s.regs, rel := s.rel, out := s.out } = s)

-- The control port.

/-- R9, R55-R57, R356, R403: an access at a misaligned or too high address is answered DECODE, one of a block that does not answer
NOTREADY, both without effect. A performed write puts the writable bits of a plain register, and clears those written 1 in a W1C
register, and no other register. A write of an East register sets out over the Corridor, and the responses after it wait their turn. With
eight answers owed the port takes nothing. An access that is not answered gives TIMEOUT, without effect. (The last two, and that an access not
answered has reached no register, are the model's choices, log 112.) -/
def Obligations.RegisterWritesFollowTheAccessCode : Prop :=
  ∀ (s : State) (mid : BitVec 8) (addr : BitVec 24) (data : Word), s.portRuns = true →
    (∀ err, (0x150000 ≤ addr.toNat ∨ addr.toNat % 4 ≠ 0) ∧ err = 1#2 ∨ addr.toNat < 0x150000 ∧ addr.toNat % 4 = 0 ∧
        s.blockAnswers (addr.toNat / 0x10000) = false ∧ err = 2#2 ∨ s.cpAnswer addr = .timeout ∧ err = 3#2 →
      (s.cpWaits = [] → exec (.registerWrite mid addr data) s = .next { s with out := .cpResponse err 0#32 :: s.out }) ∧
      (s.cpWaits ≠ [] → s.cpWaits.length < 8 →
        exec (.registerWrite mid addr data) s = .next { s with cpWaits := s.cpWaits ++ [some (err, 0#32)] }) ∧
      (err = 3#2 → ∀ w, (s.cpWaits = [] →
        exec (.controlPortTimeout mid w addr data) s = .next { s with out := .cpResponse 3#2 0#32 :: s.out }) ∧
        (s.cpWaits ≠ [] → s.cpWaits.length < 8 →
          exec (.controlPortTimeout mid w addr data) s = .next { s with cpWaits := s.cpWaits ++ [some (3#2, 0#32)] }))) ∧
    (s.cpAnswer addr = .crosses → s.cpWaits.length < 8 → exec (.registerWrite mid addr data) s = .next
      (({ s with cpWaits := s.cpWaits ++ [none] } : State).corPush true corControl
        (.access { write := some (mid, data), off := addr.toNat, tap := false }))) ∧
    (8 ≤ s.cpWaits.length → exec (.registerWrite mid addr data) s = .next s) ∧
    (∀ m, s.cpWaits = [] → s.cpAnswer addr = .ok → s.offPresent addr.toNat = true → isRwt addr.toNat = false → rwMask addr.toNat = some m →
      ∃ t, exec (.registerWrite mid addr data) s = .next t ∧
        (∀ w, w = m &&& s.presentBits addr.toNat data →
          t.reg addr.toNat = (s.reg addr.toNat &&& ~~~w) ||| (data &&& w)) ∧ s.regsBut t [addr.toNat] ∧
        t.out = .cpResponse 0#2 0#32 :: s.out ∧ { t with regs := s.regs, out := s.out } = s) ∧
    (∀ m, s.cpWaits = [] → s.cpAnswer addr = .ok → s.offPresent addr.toNat = true → isRwt addr.toNat = false → rwMask addr.toNat = none →
      w1cMask addr.toNat = some m → ∃ t, exec (.registerWrite mid addr data) s = .next t ∧
        t.reg addr.toNat = s.reg addr.toNat &&& ~~~(data &&& m) ∧ s.regsBut t [addr.toNat] ∧
        t.out = .cpResponse 0#2 0#32 :: s.out ∧ { t with regs := s.regs, out := s.out } = s)

-- Memory ports.

/-- R31, R32, R40, R360: LINK_ACK rising marks the link up in REL_MPORT_LINK, a link that does not come up is recorded as absent, and
returned credits are added, up to the largest number of their range (the model's choice, log 32); nothing else changes, unless an exit from N2
waits for this link as the last one (log 102): then the ramp begins, or N1 is reached. -/
def Obligations.MemoryLinksAndCreditsAreKept : Prop :=
  ∀ (s : State) (p : Nat), s.alive = true → p < s.cfg.mports →
    ((s.mport p).linkReq = true → (s.mport p).linkAck = false → (s.mport p).absent = false → ∀ ps, s.power.phase = .linkUp ps →
      (∀ x ∈ ps, x = .mem p ∨ s.linkSettled x = true) → ∃ t, exec (.memLinkAckRise p) s = .next t ∧
        (t.mport p).linkAck = true ∧ (s.target = 0 → t.power.phase = .ramp 0 ∧ t.pins.loadup = true) ∧
        (s.target ≠ 0 → t.flag offPwrEvents 0 = true)) ∧
    (s.noLinkWait → (s.mport p).linkReq = true → (s.mport p).linkAck = false → (s.mport p).absent = false → ∃ t,
      exec (.memLinkAckRise p) s = .next t ∧ t.mport p = { s.mport p with linkAck := true } ∧
        t.flag offMportLink p = true ∧ s.regsBut t [offMportLink] ∧ (∀ j, j ≠ p → t.mport j = s.mport j) ∧
        { t with mports := s.mports, regs := s.regs } = s) ∧
    (s.noLinkWait → (s.mport p).linkReq = true → (s.mport p).linkAck = false →
      exec (.memLinkAbsent p) s = .next { s with mports := s.mports.set p { s.mport p with absent := true } }) ∧
    (∀ (rc : BitVec 3) (wc : BitVec 2), (s.mport p).linkAck = true →
      exec (.memCreditReturn p rc wc) s = .next { s with mports := s.mports.set p { s.mport p with
        reqCred := min 255 ((s.mport p).reqCred + rc.toNat), wdCred := min 511 ((s.mport p).wdCred + wc.toNat) } })

/-- R189, R190: an mcyc's arbitration marks waiting requests with request slots and changes no request, no credit and nothing
outside the port. With one credit the request picked gets slot 0 and no other does; with none nothing is picked. -/
def Obligations.ArbitrationPicksByCredit : Prop :=
  ∀ (s : State) (p : Nat), s.alive = true → s.mportUp p = true →
    s.waiting.any (fun r => r.port == p && r.slot.isSome) = false →
    (∃ t, exec (.portArbitration p) s = .next t ∧ t.waiting.map (fun r => r.id) = s.waiting.map (fun r => r.id) ∧
      (t.mport p).reqCred = (s.mport p).reqCred ∧ (∀ j, j ≠ p → t.mport j = s.mport j) ∧
      { t with waiting := s.waiting, mports := s.mports, tally := s.tally } = s) ∧
    ((s.mport p).reqCred = 0 → exec (.portArbitration p) s = .next s) ∧
    (∀ id v urgent, (s.mport p).reqCred = 1 → s.pickOne p = some (id, v, urgent) → ∃ t,
      exec (.portArbitration p) s = .next t ∧ t.mport p = v ∧
        t.waiting = s.waiting.map (fun r => if r.id == id then { r with slot := some 0 } else r))

/-- R22, R24, R28, R29, R32: a picked request of the command's opcode goes out on its slot with the tag, the ASID, the class and
SEQ; it is outstanding under the tag, a credit is spent and the stream's SEQ advances. A beat of an outstanding write is sent for a quarter
that has had none, and spends a beat credit. -/
def Obligations.RequestsAndBeatsAreSent : Prop :=
  (∀ (s : State) (p : Nat) (k : BitVec 2) (tag : BitVec 17) (op : BitVec 3) (c : Instr),
    (op, c) ∈ [(0#3, Instr.read p k tag), (1#3, .write p k tag), (2#3, .writeFinal p k tag), (3#3, .atomicAddFp32 p k tag),
      (4#3, .atomicAddBf16 p k tag)] →
    ∀ r, s.pickedReq p k op = some r → s.mayIssue p r tag = true → ∃ t, exec c s = .next t ∧
      t.outs = s.outs ++ [⟨{ r with slot := none }, tag, s.seqs.get r.stream, (s.tagShare r).getD false, [], [], false, false,
        false⟩] ∧
      t.waiting = s.waiting.filter (fun w => w.id != r.id) ∧ t.seqs.get r.stream = s.seqs.get r.stream + 1 ∧
      (t.mport p).reqCred = (s.mport p).reqCred - 1 ∧
      t.out = .memReq p k r.op r.pa r.len tag r.asid r.prio (s.seqs.get r.stream) :: s.out ∧
      s.regsBut t [offTlyTraceDrop, offRelInject] ∧ t.queues = s.queues ∧ t.sems = s.sems ∧ t.tiles = s.tiles ∧ t.tables = s.tables) ∧
  ∀ (s : State) (p : Nat) (j : BitVec 1) (tag : BitVec 17) (ofs : BitVec 2) (o : OutReq), s.alive = true →
    s.mportUp p = true → s.outOn p true tag = some o → o.req.quarters.contains ofs = true → o.beats.contains ofs = false →
    0 < (s.mport p).wdCred → ∃ t, exec (.writeDataBeat p j tag ofs) s = .next t ∧
      (t.mport p).wdCred = (s.mport p).wdCred - 1 ∧ (t.mport p).reqCred = (s.mport p).reqCred ∧
      t.outs = s.outs.map (fun x => if x.req.id == o.req.id then { x with beats := x.beats ++ [ofs] } else x) ∧
      t.out = .memData p j tag ofs (o.req.bytes.filter (fun b => o.req.inQuarter ofs b.1)) :: s.out ∧
      { t with mports := s.mports, outs := s.outs, out := s.out, tally := s.tally } = s

/-- R15, R25, R26, R30, R33, R38, R39, R109, R302, R396, R397: the last response beat of a read, or the landed acknowledgement of a write,
frees its tag; for another wing a beat crosses the Corridor with its data, and a beat or an acknowledgement that reports an error with its
status. The acknowledgement of a record's last write sets DONE, REPORT or DUMP_DONE, ends a MARKER, starts a SNAPSHOT task or commits the
Steward's reply. The probe of a windowed write leaves invalid every way that held what it wrote. A tag that names nothing on the port, and the
watchdog, fail the port. (An acknowledgement is taken whether or not all beats were sent: the model's choice, log 31.) -/
def Obligations.ResponsesFreeTheirTag : Prop :=
  ∀ (s : State) (p : Nat) (tag : BitVec 17) (ofs : BitVec 2) (seq : BitVec 16) (data : BitVec 1024) (o : OutReq),
    s.alive = true → s.mportUp p = true →
    (s.outOn p false tag = some o → o.seq = seq → o.quarters = [] → o.req.quarters = [ofs] → mportEast p ≠ o.req.east →
      s.corridor.failed = false → ∃ t, exec (.readResponseBeat p tag ofs 0#2 seq data) s = .next t ∧
        t.outs = s.outs.filter (fun x => x.req.id != o.req.id) ∧
        (if o.req.east then t.corridor.toEast else t.corridor.toWest).get corData =
          (if o.req.east then s.corridor.toEast else s.corridor.toWest).get corData ++
            [.quarter o.req (o.req.pa / 512 * 512 + 128 * ofs.toNat) data
              (decide (o.req.pa ≤ o.req.pa / 512 * 512 + 128 * ofs.toNat) &&
                decide (o.req.pa / 512 * 512 + 128 * ofs.toNat + 128 ≤ o.req.pa + o.req.len))] ∧
        t.queues = s.queues ∧ s.regsBut t [offTlyTraceDrop]) ∧
    (s.outOn p false tag = some o → o.seq = seq → o.quarters = [] → o.req.quarters = [ofs] → mportEast p = o.req.east →
      o.req.dests = [] → s.noLaneWork → ∃ t, exec (.readResponseBeat p tag ofs 0#2 seq data) s = .next t ∧
        t.outs = s.outs.filter (fun x => x.req.id != o.req.id) ∧ t.queues = s.queues) ∧
    (s.outOn p true tag = some o → o.seq = seq → o.acked = false → o.probed = true ∨ s.probed o.req = [] →
      mportEast p = o.req.east → o.req.service = none → o.req.record = none → s.noLaneWork → ∃ t,
      exec (.landedAck p tag 0#2 seq) s = .next t ∧ t.outs = s.outs.filter (fun x => x.req.id != o.req.id) ∧
        t.queues = s.queues ∧ s.regsBut t [offTlyTraceDrop]) ∧
    (∀ x, s.outOn p true tag = some o → o.seq = seq → o.acked = false → o.probed = true ∨ s.probed o.req = [] →
      mportEast p = o.req.east → o.req.record = some x.id → s.records.find? (fun y => y.id == x.id) = some x →
      x.left = [o.req.id] → x.bad = false → s.boot.replies = [] → s.noLaneWork → ∃ t,
      exec (.landedAck p tag 0#2 seq) s = .next t ∧ t.records = s.records.filter (fun y => y.id != x.id) ∧
        (∀ q marker, x.note = .done q true marker → t.flag (offQ q qEvents) 0 = true) ∧
        (x.note = .load → t.flag offLoadEvents 0 = true) ∧
        (x.note = .tally → t.flag offTlyStatus 0 = true ∧ t.tally.record = none) ∧
        (∀ q pages task, x.note = .snap q pages → (s.queue q).task = some task →
          (t.queue q).task = some { task with phase := .running } ∧ t.tally.record = none) ∧
        (∀ q irq idx c, x.note = .done q irq (some idx) → (s.queue q).cmd idx = some c → c.started = true → c.done = false →
          ∀ y ∈ (t.queue q).cmds, y.idx = c.idx → y.done = true) ∧
        (∀ h pa isA, x.note = .reply h pa → (s.pgh h).stwSide = some isA → (s.pgh h).unread (!isA) = false →
          ((t.pgh h).unread (!isA)) = true ∧ (t.pgh h).pointer (!isA) = pa.toNat)) ∧
    (s.outOn p true tag = some o → o.seq = seq → o.acked = false → o.probed = false → s.probed o.req ≠ [] → ∃ t,
      exec (.landedAck p tag 0#2 seq) s = .next t ∧
        t.outs = s.outs.map (fun x => if x.req.id == o.req.id then { x with acked := true } else x)) ∧
    (∀ c st pa, c = .landedAck p tag st seq ∧ s.outOn p true tag = some o ∧ o.acked = false ∧
        (o.probed = true ∨ s.probed o.req = []) ∧ pa = o.req.pa ∨
        c = .readResponseBeat p tag ofs st seq data ∧ s.outOn p false tag = some o ∧ o.quarters = [] ∧ o.req.quarters = [ofs] ∧
        pa = max o.req.pa (o.req.pa / 512 * 512 + 128 * ofs.toNat) →
      o.seq = seq → st ≠ 0#2 → mportEast p ≠ o.req.east → s.corridor.failed = false → ∃ t, exec c s = .next t ∧
        t.outs = s.outs.filter (fun x => x.req.id != o.req.id) ∧
        (if o.req.east then t.corridor.toEast else t.corridor.toWest).get corData =
          (if o.req.east then s.corridor.toEast else s.corridor.toWest).get corData ++ [.rejected o.req st pa] ∧
        t.queues = s.queues ∧ s.regsBut t [offTlyTraceDrop]) ∧
    (s.writeOn p tag = some o → o.probed = false → s.probed o.req ≠ [] → o.acked = false ∨ o.dead = true → ∃ t,
      exec (.larderWriteInvalidate p tag) s = .next t ∧
        (∀ g ∈ s.probed o.req, ∀ key w, key = setKey (s.homeEast (g * 128)) (larderSet g) → s.findWay key (larderTag g) = some w →
          (t.way key w).valid = false) ∧
        t.outs = s.outs.map (fun x => if x.req.id == o.req.id then { x with probed := true } else x) ∧
        s.regsBut t [offRelInject] ∧ { t with
          outs := s.outs, larder := s.larder, tally := s.tally, regs := s.regs, rel := s.rel, out := s.out } = s) ∧
    (∀ c ∈ [Instr.readResponseBeat p tag ofs 0#2 seq data, .memPortWatchdog p], s.outOn p false tag = none →
      s.outs.any (fun o => o.req.port == p && !o.dead) = true → ∃ t, exec c s = .next t ∧
        t.flag offMportFailed p = true ∧ t.flag offRelEvents 7 = true ∧ t.waiting.all (fun r => r.port != p) = true ∧
        t.outs = s.outs.map (fun o => if o.req.port == p then { o with dead := true } else o))

-- Client ports and semaphores.

/-- R43, R49, R52, R360: a client link that comes up takes its credits and is sent the latched state of each of its semaphores;
one that falls loses its credits and its fills, whose queues fault with ST_INTERNAL, unless the engine lowered it, which raises no event
(log 46). Returned credits are added, up to 64 (the model's choice, log 32), and a stalled ccyc is answered with one cause. -/
def Obligations.ClientLinksAndCreditsAreKept : Prop :=
  ∀ (s : State) (c : Nat), s.alive = true → c < s.cfg.cports →
    (∀ crd, s.noLinkWait → (s.cport c).linkReq = true → (s.cport c).linkAck = false → ∃ t, exec (.clientLinkUp c crd) s = .next t ∧
      t.cport c = { s.cport c with linkAck := true, credits := min 64 crd.toNat, heldSemo := [], poisonDue := false } ∧
      t.flag offCportLink c = true ∧ s.regsBut t [offCportLink] ∧
      (∀ n < 48, Out.semo c ⟨2#2, BitVec.ofNat 6 n, 0#20⟩ ∈ t.out ∧
        ((s.sem (48 * c + n)).count ≠ 0#20 → Out.semo c ⟨0#2, BitVec.ofNat 6 n, (s.sem (48 * c + n)).count⟩ ∈ t.out) ∧
        ((s.cport c).poisonDue = true → Out.semo c ⟨1#2, BitVec.ofNat 6 n, 0#20⟩ ∈ t.out)) ∧
      (∀ j, j ≠ c → t.cport j = s.cport j) ∧
      { t with cports := s.cports, regs := s.regs, out := s.out, tally := s.tally, incsDue := s.incsDue } = s) ∧
    ((s.cport c).linkAck = true → (s.cport c).linkReq = false → s.power.phase ≠ .linkDrop → ∃ t,
      exec (.clientLinkDown c) s = .next t ∧ t.cport c = { s.cport c with linkAck := false, credits := 0 } ∧
      t.flag offCportLink c = false ∧ s.regsBut t [offCportLink] ∧ { t with cports := s.cports, regs := s.regs } = s) ∧
    ((s.cport c).linkAck = true → (s.cport c).linkReq = true → s.noLaneWork → ∃ t,
      exec (.clientLinkDown c) s = .next t ∧ (t.cport c).linkAck = false ∧ (t.cport c).credits = 0 ∧
      (t.cport c).fills = [] ∧ (t.cport c).await = [] ∧ t.flag offCportLink c = false ∧ t.flag offRelEvents 8 = true ∧
      ∀ f ∈ (s.cport c).fills ++ (s.cport c).await, s.mayFail f.q → t.stopsWith f.q stInternal) ∧
    (∀ n : BitVec 2, s.cportUp c = true → exec (.pushCreditReturn c n) s = .next { s with
        cports := s.cports.set c { s.cport c with credits := min 64 ((s.cport c).credits + n.toNat) } }) ∧
    (∀ kind id, s.cportUp c = true → ∃ t, exec (.stallReport c kind id) s = .next t ∧
      t.out = .cause c (BitVec.ofNat 3 (if kind then 4 else s.stallCause id.toNat)) :: s.out ∧
      { t with out := s.out, tally := s.tally } = s)

/-- R15, R20, R43-R46: a beat of the fill at the front goes out in increasing address order and spends a credit; after its last beat the
fill waits for its acknowledgement, which removes it, or faults its queue when the client reports an error. The acknowledgement of a queue of
the other wing crosses the Corridor first, and faults its queue when the Corridor has failed. -/
def Obligations.SlotFillsGoOutBeatByBeat : Prop :=
  ∀ (s : State) (c : Nat), s.alive = true → c < s.cfg.cports → s.cportUp c = true →
    (∀ f rest b left, (s.cport c).fills = f :: rest → f.beats = b :: left → 0 < (s.cport c).credits → ∃ t,
      exec (.pushBeat c) s = .next t ∧
      t.out = .push c f.ring f.slot b left.isEmpty (f.bytes.filter (fun x => decide (b ≤ x.1) && decide (x.1 < b + 512))) ::
        s.out ∧
      t.cport c = (if left = [] then { s.cport c with
          credits := (s.cport c).credits - 1, fills := rest
          await := (s.cport c).await ++ [{ f with beats := [], begun := true }] }
        else { s.cport c with
          credits := (s.cport c).credits - 1, fills := { f with beats := left, begun := true } :: rest }) ∧
      (∀ j, j ≠ c → t.cport j = s.cport j) ∧
      { t with cports := s.cports, out := s.out, tally := s.tally } = s) ∧
    (∀ f (ring : BitVec 10) (slot : BitVec 6),
      (s.cport c).await.find? (fun f => f.ring == ring.toNat && f.slot == slot.toNat) = some f → s.noLaneWork →
      (s.qEast f.q = cportEast c → exec (.pushLanded c ring slot false) s = .next { s with
        cports := s.cports.set c { s.cport c with await := (s.cport c).await.erase f } }) ∧
      (s.qEast f.q = cportEast c → s.mayFail f.q → ∃ t, exec (.pushLanded c ring slot true) s = .next t ∧
        t.stopsWith f.q stInternal ∧ (t.cport c).await = (s.cport c).await.erase f) ∧
      ∀ err, s.qEast f.q ≠ cportEast c →
        (s.corridor.failed = false → exec (.pushLanded c ring slot err) s = .next (({ s with
          cports := s.cports.set c { s.cport c with await := (s.cport c).await.erase f } } : State).corPush (s.qEast f.q) corData
            (if err then .pushFailed f.q f.tile f.ring c else .pushed f.q f.tile f.ring))) ∧
        (s.corridor.failed = true → s.mayFail f.q → ∃ t, exec (.pushLanded c ring slot err) s = .next t ∧
          t.stopsWith f.q stInternal ∧ (t.cport c).await = (s.cport c).await.erase f))

/-- R47, R48, R205, R206, R207, R215: a client adds to and subtracts from its own semaphores; above 2^20 - 1 COUNT saturates with OVF
and below 0 it becomes 0 with UNF, and a Running owner faults. A poisoned semaphore discards both; a message with a reserved opcode, an
index above 47 or a count of 0 does nothing. `u` is the state once the operation's turn has come: one that comes too late for its ccyc
is one of the next (log 69). -/
def Obligations.ClientsCountTheirSemaphores : Prop :=
  (∀ (s : State) (i rank : Nat) (k : BitVec 20), s.outOfTurn i rank k = false → s.inTurn i rank k = s) ∧
  ∀ (s u : State) (c : Nat) (idx : BitVec 6) (k : BitVec 20) (i : Nat), s.alive = true → c < s.cfg.cports →
    s.cportUp c = true → idx.toNat < 48 → k ≠ 0#20 → i = 48 * c + idx.toNat →
    (u = s.inTurn i rankInc k →
      ((u.sem i).poisoned = false → (u.turns.get i).overflowed = false → (u.sem i).count.toNat + k.toNat < 2 ^ 20 → ∃ t,
        exec (.semiInc c 0#2 idx k) s = .next t ∧ t.sem i = { u.sem i with count := (u.sem i).count + k } ∧ u.semsBut t i ∧
        u.regsBut t [offTlyTraceDrop] ∧ (t.turns.get i).incs = (u.turns.get i).incs ++ [.client] ∧
        { t with sems := u.sems, rings := u.rings, regs := u.regs, tally := u.tally, turns := u.turns } = u) ∧
      ((u.sem i).poisoned = false → (u.turns.get i).overflowed = false → 2 ^ 20 ≤ (u.sem i).count.toNat + k.toNat → ∃ t,
        exec (.semiInc c 0#2 idx k) s = .next t ∧ (t.sem i).count = 0xFFFFF#20 ∧ (t.sem i).ovf = true ∧
        t.flag offSemEvents 0 = true ∧
        ((u.sem i).owned = true → u.mayFail (u.sem i).owner.toNat → t.stopsWith (u.sem i).owner.toNat stSemOverflow)) ∧
      ((u.sem i).poisoned = true → ∃ t, exec (.semiInc c 0#2 idx k) s = .next t ∧ { t with tally := u.tally } = u)) ∧
    (u = s.inTurn i rankDec k →
      ((u.sem i).poisoned = false → k.toNat ≤ (u.sem i).count.toNat → ∃ t,
        exec (.semiDec c 1#2 idx k) s = .next t ∧ t.sem i = { u.sem i with count := (u.sem i).count - k } ∧ u.semsBut t i ∧
        u.regsBut t [offTlyTraceDrop] ∧
        { t with sems := u.sems, regs := u.regs, tally := u.tally, turns := u.turns } = u) ∧
      ((u.sem i).poisoned = false → (u.sem i).count.toNat < k.toNat → ∃ t,
        exec (.semiDec c 1#2 idx k) s = .next t ∧ (t.sem i).count = 0#20 ∧ (t.sem i).unf = true ∧
        t.flag offSemEvents 1 = true ∧
        ((u.sem i).owned = true → u.mayFail (u.sem i).owner.toNat → t.stopsWith (u.sem i).owner.toNat stSemUnderflow)) ∧
      ((u.sem i).poisoned = true → ∃ t, exec (.semiDec c 1#2 idx k) s = .next t ∧ { t with tally := u.tally } = u)) ∧
    (∀ (op : BitVec 2) (j : BitVec 6) (n : BitVec 20), 1 < op.toNat ∨ 47 < j.toNat ∨ n = 0#20 →
      ∀ m ∈ [Instr.semiInc c op j n, .semiDec c op j n], ∃ t, exec m s = .next t ∧ { t with tally := s.tally } = s)

/-- R218: a write of SEM_SET that is not refused releases or sets the owner, clears the flags and sets the count as its bits ask;
one that is refused leaves the semaphore and sets SET_ERR. -/
def Obligations.SemaphoreSetWritesAct : Prop :=
  ∀ (s : State) (i : Nat) (data : Word), s.performs (offSemSet i) → i < s.cfg.sems →
    ∀ p ∈ [(Instr.semSetClrflags i data, 0x80000000#32), (.semSetSetcnt i data, 0x40000000#32),
      (.semSetSetown i data, 0x20000000#32), (.semSetRelease i data, 0x10000000#32)],
      (s.semSetRefused i (data ||| p.2) = false → ∃ t, exec p.1 s = .next t ∧
        (t.sem i).count = (if bitAt (data ||| p.2) 30 then BitVec.ofNat 20 (bits data 0 20) else (s.sem i).count) ∧
        (t.sem i).owned = (if bitAt (data ||| p.2) 29 then true else if bitAt (data ||| p.2) 28 then false else (s.sem i).owned) ∧
        (t.sem i).owner = (if bitAt (data ||| p.2) 29 then BitVec.ofNat 6 (bits data 20 6) else (s.sem i).owner) ∧
        ((t.sem i).ovf || (t.sem i).unf || (t.sem i).poisoned) =
          ((s.sem i).flagged && !bitAt (data ||| p.2) 31) ∧
        (t.sem i).waiters = (s.sem i).waiters ∧ s.semsBut t i ∧
        { t with sems := s.sems, cports := s.cports, tally := s.tally, out := s.out, incsDue := s.incsDue } = s) ∧
      (s.semSetRefused i (data ||| p.2) = true → ∃ t, exec p.1 s = .next t ∧ t.sems = s.sems ∧
        t.flag offSemEvents 3 = true ∧ s.regsBut t [offSemEvents] ∧ { t with regs := s.regs, out := s.out } = s)

-- Translation.

/-- R9, R59-R62, R64, R316: a miss is asked for under a free ID, over the Corridor when it is the East wing's, and so does its answer
come; the answer is installed in the wing's L2 and covers the tile that waits, or fails the queue that waits with the status of the
answer. A stale answer (one that an invalidation overlaps in the model's reading of R64, log 89) is discarded and asked for again under the
same ID, an answer to no request is discarded, and one that does not come in time fails with ST_XLATE_AGENT_ERROR. -/
def Obligations.MissesAreAskedAndAnswered : Prop :=
  ∀ (s : State) (id : BitVec 9), s.alive = true →
    (∀ m l, s.misses.find? (fun m => m.east == bitAt id 8 && !m.sent) = some m → s.cfg.hasWing (bitAt id 8) = true →
      (∀ x ∈ s.misses, x.east = bitAt id 8 → x.sent = true → x.n ≠ BitVec.ofNat 8 (bits id 0 8)) →
      l = s.misses.map (fun x => if x == m then { x with sent := true, n := BitVec.ofNat 8 (bits id 0 8) } else x) →
      (bitAt id 8 = false →
        exec (.missRequest id) s = .next { s with misses := l, out := .missReq id m.page m.asid m.acc m.pre :: s.out }) ∧
      (bitAt id 8 = true → s.corridor.failed = false → exec (.missRequest id) s = .next { s with
        misses := l
        corridor := { s.corridor with
          toWest := s.corridor.toWest.set corControl (s.corridor.toWest.get corControl ++ [.missAsk id]) } })) ∧
    (∀ st vstart len pbase perm,
      (s.missOf id = none ∨ s.missCrossing id = true → ∃ t, exec (.missResponse id st vstart len pbase perm) s = .next t ∧
        t.flag offXltEvents 0 = true ∧ s.regsBut t [offXltEvents] ∧ { t with regs := s.regs, tally := s.tally } = s) ∧
      ∀ m, s.missOf id = some m → s.missCrossing id = false →
        (bitAt id 8 = true → exec (.missResponse id st vstart len pbase perm) s = .next { s with
          corridor := { s.corridor with
            toEast := s.corridor.toEast.set corControl
              (s.corridor.toEast.get corControl ++ [.missAnswer id st vstart len pbase perm]) } }) ∧
        (bitAt id 8 = false → m.stale st vstart len = true → ∃ t,
          exec (.missResponse id st vstart len pbase perm) s = .next t ∧
          t.out = .missReq id m.page m.asid m.acc m.pre :: s.out ∧
          t.misses = s.misses.map (fun x => if x == m then { x with crossed := [] } else x) ∧
          { t with misses := s.misses, out := s.out, tally := s.tally } = s) ∧
        (bitAt id 8 = false → m.stale st vstart len = false → st = 0#2 → answerFits m.page vstart len pbase = true → ∀ x acc,
          m.waiters = [⟨.tile x, (s.tile x).elim 0 (fun y => y.q), acc⟩] → bitAt perm acc.toNat = true → ∃ t,
          exec (.missResponse id st vstart len pbase perm) s = .next t ∧ t.misses = s.misses.filter (fun y => y != m) ∧
          t.l2.get (wingNo m.east) = installIn (s.cacheSize (8 + wingNo m.east)) ⟨m.asid, vstart, len.toNat + 1, pbase, perm⟩
            (s.l2.get (wingNo m.east)) ∧
          (∀ y, s.tile x = some y → t.tile x =
            some (y.coverBy (acc != accRead) ⟨m.asid, vstart, len.toNat + 1, pbase, perm⟩ y.touched)) ∧
          s.regsBut t [offRelInject] ∧
          { t with misses := s.misses, l1 := s.l1, l2 := s.l2, tiles := s.tiles, regs := s.regs, rel := s.rel } = s) ∧
        ∀ q idx r va len' item acc x, m.waiters = [⟨.reader r item va len', q, acc⟩] →
          s.readings.find? (fun y => y.id == r) = some x → x.who = .command q idx → s.mayFail q →
          (bitAt id 8 = false → m.stale st vstart len = false → st ≠ 0#2 → ∃ t,
            exec (.missResponse id st vstart len pbase perm) s = .next t ∧ t.stopsWith q (missStatus st) ∧ m ∉ t.misses) ∧
          ∃ t, exec (.missTimeout id) s = .next t ∧ t.stopsWith q stAgentError ∧ m ∉ t.misses ∧
            t.flag offXltEvents 1 = true)

/-- R63, R64, R314, R323: an accepted invalidation leaves no overlapping entry in any L1 or L2 and makes an answer stale that overlaps it
and belongs to a miss already sent (by its page, or by the range it carries: the model's reading, log 89). It waits for the issued tiles that
a removed entry covers, for their requests, and for the requests of its ASID that belong to no tile any more (the model's reading, log 30);
it is completed when none of these is left, with the read-cache lines of its queues dropped in every lane. -/
def Obligations.InvalidationsClearTheCaches : Prop :=
  ∀ (s : State) (id : BitVec 4), s.alive = true →
    (∀ all asid va len, s.invals.length < 16 → (∀ v ∈ s.invals, v.id ≠ id) → ∃ t,
      exec (.invalidationAccept id all asid va len) s = .next t ∧
      (∀ tiles, tiles = (s.tiles.filter (fun x => x.stage == .issued && asidMeets all asid (s.qAsid x.q) &&
          x.meets va.toNat (len.toNat + 1))).map (fun x => x.id) →
        t.invals = s.invals ++ [⟨id, all, asid, va, len, (s.liveReqs.filter (fun r => asidMeets all asid r.asid &&
          (r.tiles.any (fun x => tiles.contains x) || r.tiles.all (fun x => (s.tile x).isNone)))).map (fun r => r.id), tiles⟩]) ∧
      (∀ g, ∀ r ∈ t.l1.get g,
        r.overlaps (if all then r.asid else asid) va.toNat (len.toNat + 1) = false) ∧
      (∀ w, ∀ r ∈ t.l2.get w,
        r.overlaps (if all then r.asid else asid) va.toNat (len.toNat + 1) = false) ∧
      (∀ m ∈ t.misses, m.sent = true → asidMeets all asid m.asid = true → ∀ st vs n,
        (pagesMeet m.page.toNat 1 va.toNat (len.toNat + 1) = true ∨
          (st = 0#2 ∧ pagesMeet vs.toNat (n.toNat + 1) va.toNat (len.toNat + 1) = true)) → m.stale st vs n = true) ∧
      { t with invals := s.invals, tiles := s.tiles, misses := s.misses, l1 := s.l1, l2 := s.l2 } = s) ∧
    (∀ v, s.invals.find? (fun v => v.id == id) = some v → (∀ x ∈ v.tiles, s.tile x = none) →
      (∀ x ∈ s.liveReqs, x.id ∉ v.reqs ∧ ∀ y ∈ x.tiles, y ∉ v.tiles) → ∃ t, exec (.invalidationComplete id) s = .next t ∧
      t.invals = s.invals.filter (fun x => x.id != id) ∧ t.out = .invDone id :: s.out ∧
      (∀ east, ∀ i < s.cfg.wingLanes, ∀ c ∈ (t.lane (wingLane0 east + i)).cache,
        asidMeets v.all v.asid (s.qAsid c.q) = false) ∧
      { t with invals := s.invals, lanes := s.lanes, out := s.out } = s)

-- Remote ports and the Corridor.

/-- R65, R70, R73, R360: a remote link that comes up takes the fabric's credits and grants its own; one that falls loses its credits and
its parcels, and a queue with a request outstanding on it faults with ST_OWNER_UNREACHABLE. A link that settles as the last one an exit
from N2 waits for (log 102) lets the exit go on. (The model's choices: a link comes up after its absence or its fall, logs 33 and 99, one the
engine lowered raises no event, log 46, and credits go up to 255, log 32.) -/
def Obligations.RemoteLinksAndCreditsAreKept : Prop :=
  ∀ (s : State) (x : Nat), s.xportAlive x = true →
    (∀ c0 c1, s.noLinkWait → (s.xport x).linkReq = true → (s.xport x).linkAck = false → ∃ t,
      exec (.remoteLinkUp x c0 c1) s = .next t ∧
      t.xport x = { s.xport x with linkAck := true, absent := false, cred0 := c0.toNat, cred1 := c1.toNat } ∧
      t.flag offXportLink x = true ∧ s.regsBut t [offXportLink] ∧
      t.out = .flitCredits x true 128 :: .flitCredits x false 128 :: s.out ∧ (∀ j, j ≠ x → t.xport j = s.xport j) ∧
      { t with remote := { t.remote with ports := s.remote.ports }, regs := s.regs, out := s.out } = s) ∧
    (s.noLinkWait → (s.xport x).linkReq = true → (s.xport x).linkAck = false → ∃ t, exec (.remoteLinkAbsent x) s = .next t ∧
      t.xport x = { s.xport x with absent := true } ∧ (∀ j, j ≠ x → t.xport j = s.xport j) ∧
      { t with remote := { t.remote with ports := s.remote.ports } } = s) ∧
    (∀ ps, s.power.phase = .linkUp ps → (∀ y ∈ ps, y = .remote x ∨ s.linkSettled y = true) → (s.xport x).linkReq = true →
      (s.xport x).linkAck = false → ∀ m c0 c1, m ∈ [Instr.remoteLinkUp x c0 c1, .remoteLinkAbsent x] → ∃ t, exec m s = .next t ∧
        (s.target = 0 → t.power.phase = .ramp 0 ∧ t.pins.loadup = true) ∧ (s.target ≠ 0 → t.flag offPwrEvents 0 = true)) ∧
    (∀ cls, (s.xport x).linkAck = true → ∃ t, exec (.remoteCreditReturn x cls) s = .next t ∧
      t.xport x = (if cls then { s.xport x with cred1 := min 255 ((s.xport x).cred1 + 1) }
        else { s.xport x with cred0 := min 255 ((s.xport x).cred0 + 1) }) ∧
      (∀ j, j ≠ x → t.xport j = s.xport j) ∧ { t with remote := { t.remote with ports := s.remote.ports } } = s) ∧
    ((s.xport x).linkAck = true → (s.xport x).linkReq = false → s.power.phase ≠ .linkDrop → ∃ t,
      exec (.remoteLinkDown x) s = .next t ∧ t.xport x = { s.xport x with linkAck := false, cred0 := 0, cred1 := 0 } ∧
      t.flag offXportLink x = false ∧ s.regsBut t [offXportLink] ∧
      { t with remote := { t.remote with ports := s.remote.ports }, regs := s.regs } = s) ∧
    ((s.xport x).linkAck = true → (s.xport x).linkReq = true → s.noLaneWork → s.porter.batches = [] → ∃ t,
      exec (.remoteLinkDown x) s = .next t ∧ (t.xport x).linkAck = false ∧ (t.xport x).tx = [] ∧
      t.flag offXportLink x = false ∧ t.flag offRelEvents 9 = true ∧ (∀ o ∈ t.remote.outs, o.port ≠ x) ∧
      ∀ o ∈ s.remote.outs, o.port = x → s.mayFail o.q → t.stopsWith o.q stUnreachable)

/-- R23, R65-R67, R71, R110, R270, R404: a parcel sends as many flits as its class has credits, each in the layout of R65, and its first
flit counts it for the fault record of its queue. In N0 a valid
LKUP_REQ is refused with NACK when its epoch is not served or a row is out of range, and otherwise its rows are read with the ASID of the
version, in the remote category; an RWRITE or RWRITE_FINAL becomes a write request of its wing; a parcel of a reserved type is discarded. -/
def Obligations.ParcelsAreSentAndServed : Prop :=
  ∀ (s : State) (x : Nat), s.xportAlive x = true → s.flag offXportLink x = true →
    (∀ cls p n, s.nextParcel x cls = some p → n = min p.flits (if cls then (s.xport x).cred1 else (s.xport x).cred0) → 0 < n →
      p.answers = none ∨ s.noLaneWork →
      ∃ t pad, exec (.parcelSend x cls) s = .next t ∧ pad.length = (if n = p.flits then parcelPad p.parcel else 0) ∧
        t.out = .flits x cls ((List.range n).map (fun i => flitBytes p.parcel pad (parcelFlits p.parcel - p.flits + i))) :: s.out ∧
        (t.xport x).cred0 = (s.xport x).cred0 - (if cls then 0 else n) ∧
        (t.xport x).cred1 = (s.xport x).cred1 - (if cls then n else 0) ∧
        (t.xport x).tx = (if n = p.flits then (s.xport x).tx.erase p else
          (s.xport x).tx.map (fun y => if y == p then { y with begun := true, flits := p.flits - n } else y)) ∧
        (p.begun = true ∨ p.q = none → t.queues = s.queues) ∧
        (∀ j, { t.queue j with snaps := (s.queue j).snaps } = s.queue j) ∧ s.regsBut t [offTlyTraceDrop] ∧ { t with
          remote := { t.remote with ports := s.remote.ports }, regs := s.regs, out := s.out, tally := s.tally
          free := s.free, queues := s.queues } = s) ∧
    (∀ p : Parcel, knownType p.ptype = false → p.cls = true ∨ s.replyFull (xportEast x) = false →
      ∀ m ∈ [Instr.lkupReq x p, .lkupRsp x p, .rwrite x p, .rwriteFinal x p, .rwLanded x p, .nack x p], ∃ t, exec m s = .next t ∧
        t.out = .flitCredits x p.cls (parcelFlits p) :: s.out ∧ { t with out := s.out, tally := s.tally } = s) ∧
    (∀ p : Parcel, p.ptype = 0x01#8 → s.parcelBad p = false → s.power.st = .n0 → s.noLaneWork →
      s.replyFull (xportEast x) = false →
      (∀ st : Byte, (st = stEpochRetired ∧ (s.table (bits p.table 0 12)).version p.epoch = none) ∨
        (st = stIndexRange ∧ ∃ v, (s.table (bits p.table 0 12)).version p.epoch = some v ∧
          (∀ i < p.count.toNat, reqEntry p i < 2 ^ 40) ∧ ∃ i < p.count.toNat, tbNLocal v.desc ≤ reqEntry p i) →
        s.reachable p.src.toNat = true → xportEast (s.xroute p.src.toNat) = xportEast x → ∃ t y,
        exec (.lkupReq x p) s = .next t ∧
        (t.xport (s.xroute p.src.toNat)).tx = (s.xport (s.xroute p.src.toNat)).tx ++ [y] ∧ y.cls = true ∧
        y.parcel.ptype = 0x06#8 ∧ y.parcel.status = st ∧ y.parcel.dst = p.src ∧ y.parcel.pseq = p.pseq ∧
        t.remote.serves = [] ∧ t.waiting = s.waiting ∧ t.queues = s.queues ∧ t.tables = s.tables) ∧
      (∀ v va pa r, (s.table (bits p.table 0 12)).version p.epoch = some v → tbLarder v.desc = false → p.count = 1#16 →
        reqEntry p 0 < 2 ^ 40 → reqEntry p 0 < tbNLocal v.desc → va = tbRowVa v.desc (reqEntry p 0) → va < 2 ^ 56 →
        0 < tbRowBytes v.desc → va % 512 + tbRowBytes v.desc ≤ 512 → s.misses = [] →
        s.findL2 (xportEast x) v.asid (va / 4096) = some r → r.allows accRead = true →
        pa = r.ppage (va / 4096) * 4096 + va % 4096 → paDevice pa = s.devid → s.portTakes (xportEast x) pa → ∃ t q,
        exec (.lkupReq x p) s = .next t ∧ t.waiting = s.waiting ++ [q] ∧ q.op = 0#3 ∧ q.pa = pa / 16 * 16 ∧
        q.pa + q.len = (pa + tbRowBytes v.desc + 15) / 16 * 16 ∧ q.asid = v.asid ∧ q.prio = 1#2 ∧ q.cat = .remote ∧ q.holder = .porter ∧
        t.remote.serves = [⟨s.nextId, x, p, some (v.asid, v.desc), 0, true, false⟩] ∧ t.queues = s.queues ∧
        t.tables = s.tables ∧ s.regsBut t [offTlyTraceDrop])) ∧
    (∀ p : Parcel, s.parcelBad p = false → s.power.st = .n0 → paDevice p.addr.toNat = s.devid → p.payload ≠ [] →
      s.mportUp (s.portFor p.addr.toNat) = true → mportEast (s.portFor p.addr.toNat) = xportEast x →
      p.cls = true ∨ s.replyFull (xportEast x) = false →
      ∀ m ∈ (if p.ptype = 0x03#8 then [Instr.rwrite x p] else if p.ptype = 0x04#8 then [.rwriteFinal x p] else []), ∃ t r,
        exec m s = .next t ∧ t.waiting = s.waiting ++ [r] ∧ r.op = 1#3 ∧ r.pa = p.addr.toNat ∧ r.len = p.payload.length ∧
        r.bytes = p.payload.zipIdx.map (fun b => (p.addr.toNat + b.2, b.1)) ∧ r.asid = p.table ∧ r.cat = .remote ∧
        r.service = some s.nextId ∧
        t.remote = { s.remote with service := s.remote.service ++ [⟨s.nextId, x, p, [s.nextId + 1], false⟩] } ∧
        t.out = .flitCredits x p.cls (parcelFlits p) :: s.out ∧ t.queues = s.queues ∧ s.regsBut t [offTlyTraceDrop])

/-- R15, R68, R69, R71, R72, R269, R322: an RW_LANDED settles its write parcel, a part of a reply gives its rows their data, a NACK faults
the queue with ST_REMOTE_NACK, or ST_ACCESS_KEY for that status (the model takes R322 before R72 there, log 61), and a parcel with no response
in time faults it with ST_REMOTE_TIMEOUT. A response for the other wing crosses the Corridor, and one that answers nothing, by its PSEQ or by
its kind (the latter the model's choice, log 100), is discarded. -/
def Obligations.AnswersSettleTheirParcels : Prop :=
  ∀ (s : State) (x : Nat) (p : Parcel), s.xportAlive x = true → s.flag offXportLink x = true → s.parcelBad p = false →
    (∀ m ∈ (if p.ptype = 0x05#8 then [Instr.rwLanded x p] else if p.ptype = 0x02#8 then [.lkupRsp x p]
        else if p.ptype = 0x06#8 then [.nack x p] else []), p.cls = true →
      (s.outFor p = none → ∃ t, exec m s = .next t ∧ t.remote = s.remote ∧ t.queues = s.queues ∧ s.regsBut t [offTlyTraceDrop]) ∧
      ∀ o, s.outFor p = some o → s.outEast o ≠ xportEast x → s.corridor.failed = false → ∃ t, exec m s = .next t ∧
        (t.corridor.lane (s.outEast o)).get corParcel =
          (s.corridor.lane (s.outEast o)).get corParcel ++ [.inbound x o.q p] ∧
        t.remote = s.remote ∧ t.queues = s.queues ∧ s.regsBut t [offTlyTraceDrop]) ∧
    ∀ o, s.outFor p = some o → s.outEast o = xportEast x →
      (p.ptype = 0x05#8 → o.record = none → s.noLaneWork → ∃ t, exec (.rwLanded x p) s = .next t ∧
        t.remote.outs = s.remote.outs.filter (fun y => !(y.dst == o.dst && y.pseq == o.pseq)) ∧
        (t.queue o.q).stop = (s.queue o.q).stop ∧ (t.queue o.q).st = (s.queue o.q).st ∧ s.queuesBut t o.q ∧
        s.regsBut t [offTlyTraceDrop]) ∧
      (p.ptype = 0x02#8 → ∀ k w b, o.sw = some k → s.subWin k = some w → s.batch w.batch = some b →
        o.parts.contains (bits p.table 12 4) = false → tbRowBytes b.desc ≤ 8192 → p.ebytes.toNat = tbRowBytes b.desc →
        p.count.toNat = min (rowsPerReply (tbRowBytes b.desc))
          (o.parcel.count.toNat - bits p.table 12 4 * rowsPerReply (tbRowBytes b.desc)) →
        bits p.table 12 4 * rowsPerReply (tbRowBytes b.desc) < o.parcel.count.toNat → ∃ t, exec (.lkupRsp x p) s = .next t ∧
        t.subWin k = some (w.take o.dst.toNat ((List.range p.count.toNat).map (fun i =>
          (reqEntry o.parcel (bits p.table 12 4 * rowsPerReply (tbRowBytes b.desc) + i) % 2 ^ 40,
            (p.payload.drop (i * tbRowBytes b.desc)).take (tbRowBytes b.desc))))) ∧ s.queuesBut t o.q ∧
        (t.queue o.q).stop = (s.queue o.q).stop) ∧
      (p.ptype = 0x06#8 → s.mayFail o.q → s.noLaneWork → s.porter.batches = [] → ∃ t, exec (.nack x p) s = .next t ∧
        t.stopsWith o.q (if p.status = stAccessKey then stAccessKey else stRemoteNack) ∧
        ∀ y ∈ t.remote.outs, y.dst ≠ o.dst ∨ y.pseq ≠ o.pseq) ∧
      (s.remote.outs.find? (fun y => y.dst == o.dst && y.pseq == o.pseq) = some o → s.mayFail o.q → s.noLaneWork →
        s.porter.batches = [] → ∃ t, exec (.parcelTimeout o.dst o.pseq) s = .next t ∧ t.stopsWith o.q stRemoteTimeout ∧
        ∀ y ∈ t.remote.outs, y.dst ≠ o.dst ∨ y.pseq ≠ o.pseq)

/-- R9, R15, R17, R20, R26, R403: the flit whose turn it is crosses: control before semaphore before the other classes. With its last flit
the oldest item of a direction and class arrives and acts where it arrives: a request waits at its port, a rejected one faults its queue, a
fill waits at its client port, an increment or take at its semaphore, a command at its queue, a miss at the agent and its answer at the miss;
an access reaches its register and its answer the port or the TAP, a read of a counter is answered, and the answer reaches the Tally's reader. A
flit that fails is replayed; after eight failed replays the Corridor has failed, and the queue whose item was crossing faults with ST_INTERNAL.
(The model's: that eight replays follow the first transmission, log 34; the numbers of the classes and the turn's order, log 21.) -/
def Obligations.CorridorItemsArriveInOrder : Prop :=
  ∀ (s : State) (toEast : Bool) (cls : BitVec 2) (i : CorItem) (rest : List CorItem), s.alive = true →
    s.corridor.failed = false → (s.corridor.lane toEast).get cls.toNat = i :: rest →
    (cls ≠ 0#2 → (s.corridor.lane toEast).get corControl ≠ [] ∨ (cls ≠ 1#2 ∧ (s.corridor.lane toEast).get corSemaphore ≠ []) →
      exec (.corridorFlitArrival toEast cls) s = .next s) ∧
    (s.corridor.turn toEast = some cls.toNat → s.corridor.got.get (corKey toEast cls.toNat) + 1 < i.flits → ∃ t,
      exec (.corridorFlitArrival toEast cls) s = .next t ∧
      t.corridor.got.get (corKey toEast cls.toNat) = s.corridor.got.get (corKey toEast cls.toNat) + 1 ∧
      t.corridor.toEast = s.corridor.toEast ∧ t.corridor.toWest = s.corridor.toWest ∧
      { t with corridor := s.corridor, tally := s.tally } = s) ∧
    (s.corridor.turn toEast = some cls.toNat → i.flits ≤ s.corridor.got.get (corKey toEast cls.toNat) + 1 → ∃ t,
      exec (.corridorFlitArrival toEast cls) s = .next t ∧
      (∀ r, i = .request r → s.mportUp r.port = true → r.op ≠ 0#3 ∨ s.banksOut r.east ≠ s.cfg.tagBanks →
        t.waiting = s.waiting ++ [r] ∧ t.queues = s.queues ∧ (t.corridor.lane toEast).get cls.toNat = rest) ∧
      (∀ f, i = .fill f → (t.cport f.port).fills = (s.cport f.port).fills ++ [f] ∧ t.queues = s.queues) ∧
      (∀ k w, i = .semTake k w → (s.sem k).poisoned = false → (t.sem k).waiters = (s.sem k).waiters ++ [w] ∧
        s.semsBut t k ∧ t.queues = s.queues) ∧
      (∀ src k c, i = .semInc src k c → s.outOfTurn k rankInc c = false → (s.sem k).poisoned = false →
        (s.turns.get k).overflowed = false → (s.sem k).count.toNat + c.toNat < 2 ^ 20 →
        (t.sem k).count = (s.sem k).count + c ∧ s.semsBut t k ∧ t.queues = s.queues ∧
        t.incsDue = if src = .client ∨ (k, none) ∈ s.incsDue then s.incsDue else s.incsDue ++ [(k, some c)]) ∧
      (∀ a, i = .access a → ∃ u : State, { u with corridor := s.corridor, tally := s.tally } = s ∧
        (a.write = none → t = (u.cpRead a.off).1.corPush false corControl (.accessDone a.tap (u.cpRead a.off).2)) ∧
        ∀ mid data, a.write = some (mid, data) →
          t = (u.cpWrite mid a.off data).corPush false corControl (.accessDone a.tap 0#32)) ∧
      (∀ v, i = .accessDone true v → t.tap = { s.tap with done := true, rdata := v, err := 0#2 } ∧ t.out = s.out) ∧
      (∀ v l, i = .accessDone false v → s.cpWaits = none :: l → l.all Option.isSome = true →
        t.cpWaits = [] ∧ t.out = (l.filterMap id).reverse.map (fun e => .cpResponse e.1 e.2) ++ .cpResponse 0#2 v :: s.out) ∧
      (∀ n k, i = .tallyRead n k → ∃ u : State, { u with corridor := s.corridor, tally := s.tally } = s ∧
        t = u.corPush false corControl (.tallyAnswer n k)) ∧
      (∀ k r, i = .tallyAnswer s.tally.snapSeq k → s.tally.record = some r →
        t.tally.record = some { r with left := r.left.map (fun l => l.filter (fun j => j != k)) }) ∧
      (∀ r st pa q, i = .rejected r st pa → rspStatus st ≠ stEcc → r.record = none → r.service = none → r.fetches = false →
        r.q = some q → s.mayFail q → s.noLaneWork → s.porter.batches = [] → t.stopsWith q (rspStatus st)) ∧
      (∀ q idx, i = .command q idx → s.queuesBut t q ∧
        (t.queue q).cmds = (s.queue q).cmds.map (fun c => if c.idx == idx then { c with crossing := false } else c)) ∧
      (∀ id m, i = .missAsk id → s.missOf id = some m → t.out = .missReq id m.page m.asid m.acc m.pre :: s.out) ∧
      ∀ id st vstart len pbase perm m q idx r item va len' acc x, i = .missAnswer id st vstart len pbase perm →
        s.missOf id = some m → m.stale st vstart len = false → st ≠ 0#2 → m.waiters = [⟨.reader r item va len', q, acc⟩] →
        s.readings.find? (fun y => y.id == r) = some x → x.who = .command q idx → s.mayFail q →
        t.stopsWith q (missStatus st) ∧ m ∉ t.misses) ∧
    (s.corridor.turn toEast = some cls.toNat → s.corridor.replays.get (corKey toEast cls.toNat) < 8 → ∃ t,
      exec (.corridorReplay toEast cls) s = .next t ∧
      t.corridor.replays.get (corKey toEast cls.toNat) = s.corridor.replays.get (corKey toEast cls.toNat) + 1 ∧
      t.corridor.toEast = s.corridor.toEast ∧ t.corridor.toWest = s.corridor.toWest ∧
      { t with corridor := s.corridor, tally := s.tally } = s) ∧
    (s.corridor.turn toEast = some cls.toNat → 8 ≤ s.corridor.replays.get (corKey toEast cls.toNat) → ∃ t,
      exec (.corridorReplay toEast cls) s = .next t ∧ t.corridor.failed = true ∧ t.flag offRelEvents 11 = true ∧
      t.corItems = [] ∧ (∀ m ∈ t.misses, m.east = false) ∧
      ∀ q, s.corItems = [i] → s.mayFail q → (i.queue = some q ∧ (∀ r, i ≠ .larderAsk (some q) r) ∧
        (∀ x o, i = .parcel x → s.outOf x = some o → o.q = q) ∧ (∀ x k p o, i = .inbound x k p → s.outFor p = some o → o.q = q) ∧
        ∀ r, (i = .request r ∨ i = .landed r ∨ (∃ b d w, i = .quarter r b d w) ∨ ∃ st pa, i = .rejected r st pa) →
          r.record = none ∧ r.service = none ∧ r.fetches = false) → t.stopsWith q stInternal)

-- The Larder.

/-- R75, R76, R274, R379: LTn_READY rising puts a tier in service, a tier that stays down is out, and one that falls is mapped out with
all of its ways, faulting the queue that reads there. A row that returns with at most one flipped bit in each word is delivered as it stood
when its command came, a directory row to the probe that asked for it. With two flipped bits a way's row invalidates the way, and its granule is
read from memory; a directory row invalidates its set, and the probe misses. (That the read itself counts no error is read from the table's
rows, log 22; the flips of a row stand for a code that the spec does not give, log 91.) -/
def Obligations.TiersServeOrAreMappedOut : Prop :=
  ∀ (s : State) (k : Nat), s.alive = true →
    (k < s.cfg.tiers → bitAt s.larder.tiersOut k = false → exec (.ltnReadyRise k) s = .next { s with
      larder := { s.larder with tiersUp := s.larder.tiersUp ||| BitVec.ofNat 8 (2 ^ k) } }) ∧
    (k < s.cfg.tiers → bitAt s.larder.tiersUp k = false → exec (.ltnReadyTimeout k) s = .next { s with
      larder := { s.larder with tiersOut := s.larder.tiersOut ||| BitVec.ofNat 8 (2 ^ k) } }) ∧
    (bitAt s.larder.tiersUp k = true → ∃ t, exec (.ltnReadyFall k) s = .next t ∧ bitAt t.larder.tiersUp k = false ∧
      bitAt t.larder.tiersOut k = true ∧ t.flag offRelEvents 10 = true ∧
      (∀ east set, set < 2 ^ 19 → ∀ w, t.way (setKey east set) w =
        if setTier east set = k then default else s.way (setKey east set) w) ∧
      (∀ r ∈ t.larder.reads, r.tier ≠ k) ∧
      ∀ r id va pa len u, s.larder.reads.filter (fun r => r.tier == k) = [r] → r.dests = [.tile id va pa len] →
        s.tile id = some u → s.mayFail u.q → t.stopsWith u.q stInternal) ∧
    (∀ (b : BitVec 3) r (data : BitVec 1024) (chk : BitVec 128),
      s.larder.reads.find? (fun r => r.tier == k && r.row % 8 == b.toNat) = some r →
      (∀ p, r.dir = true → s.larder.probes.find? (fun p => p.east == tierEast r.tier && p.granule == r.granule &&
          p.dests == r.dests && p.seen == some none) = some p →
        (rowFlips r.data data chk ≤ 1 → exec (.tierReadData k b data chk) s = .next { s with free := s.free + 1, larder := { s.larder with
          reads := s.larder.reads.erase r
          probes := s.larder.probes.map (fun x => if x == p then { x with seen := some (some r.data) } else x) } }) ∧
        (rowFlips r.data data chk = 2 → ∃ t, exec (.tierReadData k b data chk) s = .next t ∧
          (∀ way, t.way (setKey (tierEast r.tier) r.set) way = default) ∧ t.larder.reads = s.larder.reads.erase r ∧
          ∀ y ∈ s.larder.probes, y ≠ p → y.key = p.key → y.missed = false →
            t.larder.probes = s.larder.probes.map (fun x => if x == p then { x with missed := true } else x))) ∧
      (r.dir = false → rowFlips r.data data chk ≤ 1 → s.destReq r.dests (r.granule * 128) (r.granule * 128 + 128) = none →
        exec (.tierReadData k b data chk) s = .next { s with
          larder := { s.larder with reads := s.larder.reads.erase r }, free := s.free + 1 }) ∧
      (r.dir = false → rowFlips r.data data chk = 2 → ∃ t, exec (.tierReadData k b data chk) s = .next t ∧
        t.way (setKey (tierEast k) r.set) r.way = default ∧ t.larder.reads = s.larder.reads.erase r ∧
        ∀ id va pa len u, r.dests = [.tile id va pa len] → s.tile id = some u → s.qEast u.q = tierEast k →
          s.portTakes (tierEast k) pa → ∃ q, t.waiting = s.waiting ++ [q] ∧ q.op = 0#3 ∧ q.pa = pa ∧ q.len = len ∧
          q.dests = r.dests ∧ q.q = some u.q ∧ t.tiles = s.tiles ∧ t.queues = s.queues) ∧
      ∀ id va pa len u, r.dir = false → rowFlips r.data data chk ≤ 1 → r.dests = [.tile id va pa len] → s.tiles = [u] → u.id = id →
        s.qEast u.q = tierEast k → u.written = false → s.itins = [] → s.porter.subs = [] → s.blocks = [] →
        s.remote.serves = [] → s.remote.owed = .empty → u.want.filter (fun x => !(x.1 == va && x.2 == len)) ≠ [] → ∃ t,
        exec (.tierReadData k b data chk) s = .next t ∧ t.larder = { s.larder with reads := s.larder.reads.erase r } ∧
        t.tiles = [u.receive va ((List.range len).map (fun i => BitVec.ofNat 8 (fieldAt r.data ((pa + i) % 128) 1)))] ∧
        { t with larder := s.larder, tiles := s.tiles, free := s.free } = s)

/-- R75, R267, R274-R278, R281, R282, R346: a probe reads the directory row of its set; when that row holds its tag it hits, raises the
way's HEAT and reads the way's row; one that misses waits until its row is known, and then the row is read from memory. While the Steward runs
a promoted granule is read and installed with HEAT 1 unless its install was spoilt. The end of a load window counts it, clears its counts and
estimates, makes its report due or sets LOST, and lowers HEAT by 1 (at once, the model's reading, log 23); the next window is 2^WIN_EXP ccyc
long from there (the model's reading, log 109). -/
def Obligations.ProbesInstallsAndWindows : Prop :=
  ∀ (s : State) (w : Wing), s.alive = true →
    (∀ p key, s.larder.probes.find? (fun p => p.east == wingEast w && !p.missed && p.seen != some none) = some p →
      key = setKey (wingEast w) (larderSet p.granule) →
      (s.setUp (wingEast w) (larderSet p.granule) = true → p.seen = none → ∃ t, exec (.larderProbe w) s = .next t ∧
        t.larder = { s.larder with
          probes := s.larder.probes.map (fun x => if x == p then { x with seen := some none } else x)
          reads := s.larder.reads ++ [⟨dirData (s.larder.dir.get key), setTier (wingEast w) (larderSet p.granule),
            dirRow (larderSet p.granule), larderSet p.granule, 0, p.granule, p.dests, true⟩] } ∧
        t.out = .tierRead (setTier (wingEast w) (larderSet p.granule)) (dirRow (larderSet p.granule)) :: s.out ∧
        { t with larder := s.larder, out := s.out, tally := s.tally } = s) ∧
      (∀ row y, s.setUp (wingEast w) (larderSet p.granule) = true → p.seen = some (some row) →
        s.seenWay key row (larderTag p.granule) = none → y ∈ s.larder.probes → y ≠ p → y.key = p.key → y.missed = false → ∃ t,
        exec (.larderProbe w) s = .next t ∧
        t.larder.probes = s.larder.probes.map (fun x => if x == p then { x with missed := true } else x) ∧
        s.larder.est.get p.granule + p.mult ≤ t.larder.est.get p.granule ∧ t.larder.dir = s.larder.dir ∧
        t.larder.reads = s.larder.reads ∧ t.queues = s.queues ∧ s.regsBut t [offLrdPqdrop]) ∧
      (∀ row k, s.setUp (wingEast w) (larderSet p.granule) = true → p.seen = some (some row) →
        s.seenWay key row (larderTag p.granule) = some k → s.larder.probes.filter (fun x => x.key == p.key) = [p] → ∃ t,
        exec (.larderProbe w) s = .next t ∧
        t.way key k = { s.way key k with heat := if (s.way key k).heat = 3#2 then 3#2 else (s.way key k).heat + 1#2 } ∧
        t.larder.reads = s.larder.reads ++ [⟨s.larder.rows.get (setTier (wingEast w) (larderSet p.granule) * 2 ^ 22 +
          wayRow (larderSet p.granule) k), setTier (wingEast w) (larderSet p.granule), wayRow (larderSet p.granule) k,
          larderSet p.granule, k, p.granule, p.dests, false⟩] ∧
        t.larder.probes = s.larder.probes.filter (fun x => x != p) ∧
        t.out.head? = some (.tierRead (setTier (wingEast w) (larderSet p.granule)) (wayRow (larderSet p.granule) k)) ∧
        s.regsBut t [offRelInject] ∧
        { t with larder := s.larder, out := s.out, tally := s.tally, regs := s.regs, rel := s.rel } = s) ∧
      (∀ y ∈ s.larder.probes, y ≠ p → y.key = p.key → y.missed = false →
        s.setUp (wingEast w) (larderSet p.granule) = false → ∃ t, exec (.larderProbe w) s = .next t ∧
        t.larder = { s.larder with
          probes := s.larder.probes.map (fun x => if x == p then { x with missed := true } else x) } ∧
        { t with larder := s.larder, tally := s.tally } = s) ∧
      ∀ id va pa len u, s.larder.probes.filter (fun x => x.key == p.key) = [p] →
        s.setUp (wingEast w) (larderSet p.granule) = false → p.dests = [.tile id va pa len] → s.tile id = some u →
        s.qEast u.q = wingEast w → s.portTakes (wingEast w) pa → ∃ t q, exec (.larderProbe w) s = .next t ∧
        t.waiting = s.waiting ++ [q] ∧ q.op = 0#3 ∧ q.pa = pa ∧ q.len = len ∧ q.dests = p.dests ∧ q.q = some u.q ∧
        (∀ x ∈ t.larder.probes, x.key ≠ p.key) ∧ t.queues = s.queues ∧ t.regs = s.regs) ∧
    (∀ i key, s.stwRunning = true → s.larder.installs.find? (fun i => i.east == wingEast w && i.preload.isNone && (s.installRead i).isSome) = some i →
      key = setKey (s.homeEast (i.granule * 128)) (larderSet i.granule) →
      (i.dropped = true ∨ s.installRead i = some none → ∃ t, exec (.larderInstall w) s = .next t ∧
        t.larder = { s.larder with installs := s.larder.installs.filter (fun x => x != i) } ∧
        { t with larder := s.larder, tally := s.tally, readings := s.readings } = s) ∧
      (∀ k data, i.dropped = false → s.installRead i = some (some data) → s.installable i.granule = true →
        s.findWay key (larderTag i.granule) = none →
        (s.usableWays key).any (fun j => (s.way key j).heat == 0#2) = true → s.victim key = some k →
        ∃ t, exec (.larderInstall w) s = .next t ∧ t.way key k = ⟨true, 1#2, larderTag i.granule⟩ ∧
        (∀ j, j ≠ k → t.way key j = s.way key j) ∧
        t.larder.rows.get (setTier (s.homeEast (i.granule * 128)) (larderSet i.granule) * 2 ^ 22 +
          wayRow (larderSet i.granule) k) = data ∧
        t.larder.installs = s.larder.installs.filter (fun x => x != i) ∧ t.queues = s.queues ∧
        s.regsBut t [offLrdPromo (wingEast w), offRelInject])) ∧
    (∀ g table rest, s.stwRunning = true →
      (if wingEast w then s.larder.promoE else s.larder.promoW) = (g, table) :: rest → ∃ t,
      exec (.promotionInstall w) s = .next t ∧
      (if wingEast w then t.larder.promoE else t.larder.promoW) = rest ∧
      t.larder.installs = s.larder.installs ++ [⟨s.nextId, wingEast w, g, table, false, none⟩] ∧ t.queues = s.queues ∧
      (128 * g < 2 ^ 52 → s.readings = [] → s.portTakes false (128 * g) → ∃ q, t.waiting = s.waiting ++ [q] ∧
        q.op = 0#3 ∧ q.pa = 128 * g ∧ q.len = 128 ∧ q.asid = s.stwAsid ∧ q.prio = 1#2 ∧ q.east = false)) ∧
    (∃ t, exec .loadWindowClose s = .next t ∧ t.larder.windows = (s.larder.windows + 1) % 2 ^ 32 ∧
      t.larder.window = some (s.windowEnd + 2 ^ s.winExp, s.winExp) ∧ t.larder.counts = .empty ∧
      t.larder.est = .empty ∧ t.larder.posted = [] ∧ t.larder.due.isSome = s.stwRunning ∧
      (s.larder.due ≠ none ∨ s.stwRunning = false → t.flag offLoadEvents 1 = true) ∧
      (s.stwRunning = true → ∀ key, ∀ k < 31, (t.way key k).heat =
        if (s.way key k).valid && (s.way key k).heat != 0#2 then (s.way key k).heat - 1#2 else (s.way key k).heat))

-- Queues.

/-- R90, R91, R93, R104, R320: EN goes to 1 on an Idle queue with legal ring sizes, with HEAD, TAIL and SEQ at 0, and is refused with
ACT_ERR otherwise; QCTL_CFG ignores writes while EN is 1. A doorbell sets TAIL and makes an Idle queue with work Running; one beyond
the ring is refused with DB_ERR, whatever EN (the model's reading, log 65). The front end reads the next command with the queue's ASID and
class; a command that has been read is taken, over the Corridor for an East queue, and one whose read fails faults the queue with that status, at
once (the model's reading, log 66). -/
def Obligations.QueuesAreEnabledRungAndRead : Prop :=
  ∀ (s : State) (q : Nat) (data : Word), q < s.cfg.queues →
    (s.performs (offQ q qCfg) → s.qEn q = true → exec (.qctlCfgEn q data) s = .next s.respondOk) ∧
    (s.performs (offQ q qCfg) → s.qEn q = false → s.enRefused q = false → bitAt data 31 = true → ∃ t,
      exec (.qctlCfgEn q data) s = .next t ∧ t.qEn q = true ∧ (t.queue q).head = 0#16 ∧ (t.queue q).tail = 0#16 ∧
      (t.queue q).seq = 0#32 ∧ (t.queue q).st = .idle ∧ t.qAsid q = BitVec.ofNat 16 (bits data 0 16) ∧
      t.qPrio q = BitVec.ofNat 2 (bits data 16 2) ∧ s.queuesBut t q ∧ s.regsBut t [offQ q qCfg]) ∧
    (s.performs (offQ q qCfg) → s.qEn q = false → s.enRefused q = true → bitAt data 31 = true → ∃ t,
      exec (.qctlCfgEn q data) s = .next t ∧ t.qEn q = false ∧ t.flag (offQ q qEvents) 3 = true ∧ t.queues = s.queues ∧
      s.regsBut t [offQ q qCfg, offQ q qEvents]) ∧
    (s.performs (offQ q qDoorbell) → bits data 0 16 < s.qRingN q → s.qEn q = true → s.thermalStop = false → ∃ t,
      exec (.qctlDoorbell q data) s = .next t ∧ (t.queue q).tail = BitVec.ofNat 16 (bits data 0 16) ∧
      (t.queue q).head = (s.queue q).head ∧
      (t.queue q).st = (if (s.queue q).st = .idle ∧ (s.queue q).head ≠ BitVec.ofNat 16 (bits data 0 16) then .running
        else (s.queue q).st) ∧ (∀ c ∈ (t.queue q).cmds, c ∈ (s.queue q).cmds) ∧ s.queuesBut t q ∧
      { t with queues := s.queues, out := s.out, readings := s.readings } = s) ∧
    (s.performs (offQ q qDoorbell) → s.qRingN q ≤ bits data 0 16 → ∃ t, exec (.qctlDoorbell q data) s = .next t ∧
      t.flag (offQ q qEvents) 2 = true ∧ t.queues = s.queues ∧ s.regsBut t [offQ q qEvents] ∧
      { t with regs := s.regs, out := s.out } = s) ∧
    (∀ idx va r pa, s.alive = true → (s.queue q).executing = true → (s.queue q).cmds.find? (s.readStands q) = none →
      (s.queue q).ahead < 8 → (s.queue q).cmds.length < s.published q →
      idx = BitVec.ofNat 16 (((s.queue q).head.toNat + (s.queue q).cmds.length) % s.qRingN q) → va = (s.cmdVa q idx).toNat →
      va % 64 = 0 → s.readings = [] → s.misses = [] → s.findL2 (s.qEast q) (s.qAsid q) (va / 4096) = some r →
      r.allows accRead = true → pa = r.ppage (va / 4096) * 4096 + va % 4096 → paDevice pa = s.devid → s.portTakes false pa →
      ∃ t w, exec (.commandPrefetch q) s = .next t ∧
        (t.queue q).cmds = (s.queue q).cmds ++ [⟨idx, 0#512, false, false, false, 0, false, true⟩] ∧
        (t.queue q).st = (s.queue q).st ∧ s.queuesBut t q ∧ t.regs = s.regs ∧ t.waiting = s.waiting ++ [w] ∧ w.op = 0#3 ∧
        w.pa = pa ∧ w.len = 64 ∧ w.asid = s.qAsid q ∧ w.prio = s.qPrio q ∧ w.q = some q ∧ w.stream = feStream q) ∧
    (∀ c r l, s.alive = true → (s.queue q).executing = true → (s.queue q).cmds.find? (s.readStands q) = some c →
      s.reading (.command q c.idx) = some r → r.bytes (s.cmdVa q c.idx).toNat 64 = some l →
      (s.qEast q = true → s.corridor.failed = false) → ∃ t, exec (.commandPrefetch q) s = .next t ∧
        (t.queue q).cmds = (s.queue q).cmds.map (fun x => if x.idx == c.idx then { x with
          bytes := words512 l, unread := false, crossing := s.qEast q } else x) ∧
        (s.qEast q = true → t.corridor.toEast.get corControl = s.corridor.toEast.get corControl ++ [.command q c.idx]) ∧
        s.queuesBut t q ∧ t.waiting = s.waiting ∧ t.regs = s.regs) ∧
    (∀ p tag ofs st seq bytes o id va pa len item x idx, s.mportAlive p = true → s.mportUp p = true →
      s.outOn p false tag = some o → o.seq = seq → o.quarters.contains ofs = false → o.req.quarters.contains ofs = true →
      mportEast p = o.req.east → o.req.record = none → o.req.service = none → o.req.dests = [.fetch id va pa len item] →
      s.readings.find? (fun y => y.id == id) = some x → x.who = .command q idx → st ≠ 0#2 → s.mayFail q → ∃ t,
      exec (.readResponseBeat p tag ofs st seq bytes) s = .next t ∧ t.stopsWith q (rspStatus st) ∧
      ∃ z, (t.queue q).stop = some z ∧ z.failed = some idx)

/-- R103, R104, R105, R108: an action that the queue's state allows takes its effect: after SKIP the failed command is passed over and
the queue is Idle, Running or, held back for heat, Suspended; one that it does not allow sets ACT_ERR and changes nothing else. (That RETIRE
clears EN and sets HEAD to TAIL when it is accepted is the model's reading, log 65.) -/
def Obligations.ActionsFollowTheQueueState : Prop :=
  ∀ (s : State) (q : Nat), q < s.cfg.queues → s.performs (offQ q qAction) →
    ((s.queue q).st = .running → ∃ t, exec (.suspend q) s = .next t ∧ (t.queue q).suspSw = true ∧
      (t.queue q).suspending = true ∧ (t.queue q).st = .running ∧ (t.queue q).cmds = (s.queue q).cmds) ∧
    ((s.queue q).st = .suspended → (s.queue q).stop = none → (s.queue q).suspPre = false → (s.queue q).suspTherm = false →
      (s.queue q).suspending = false → (s.asides q) = [] →
      (∀ c ∈ (s.queue q).cmds, c.started = true → c.done = false → cmdOp c.bytes ≠ 0x03) → ∃ t,
      exec (.resume q) s = .next t ∧ (t.queue q).suspSw = false ∧
      (t.queue q).st = (if (s.queue q).head = (s.queue q).tail then .idle else .running) ∧ s.queuesBut t q ∧
      { t with queues := s.queues, out := s.out } = s) ∧
    ((s.queue q).st = .suspended → (s.queue q).suspPre = true ∨ (s.queue q).suspTherm = true → exec (.resume q) s =
      .next (s.updQueue q (fun v => { v with suspSw := false })).respondOk) ∧
    ((s.queue q).st = .faulted → (s.queue q).head ≠ (s.queue q).tail → ∃ t, exec (.replay q) s = .next t ∧
      (t.queue q).st = (if (s.queue q).suspTherm then .suspended else .running) ∧ (t.queue q).head = (s.queue q).head ∧
      (∀ c ∈ (t.queue q).cmds, c.failed = false) ∧ s.queuesBut t q ∧ { t with queues := s.queues, out := s.out } = s) ∧
    (∀ c rest, (s.queue q).st = .faulted → (s.queue q).cmds = c :: rest → c.failed = true →
      (∀ x ∈ rest, x.failed = false) → rest.head?.all (fun x => !x.done) = true → ∃ t, exec (.skip q) s = .next t ∧
      (t.queue q).cmds = rest ∧ (t.queue q).head = BitVec.ofNat 16 (((s.queue q).head.toNat + 1) % s.qRingN q) ∧
      (t.queue q).tail = (s.queue q).tail ∧ (t.queue q).st = (if (t.queue q).head = (s.queue q).tail then .idle
        else if (s.queue q).suspTherm then .suspended else .running) ∧ (t.queue q).seq = (s.queue q).seq ∧
      s.queuesBut t q ∧ { t with queues := s.queues, out := s.out } = s) ∧
    ((s.queue q).st ≠ .retiring → (s.queue q).stop = none → ∃ t, exec (.retire q) s = .next t ∧
      (t.queue q).st = .retiring ∧ (t.queue q).cmds = [] ∧ (t.queue q).head = (s.queue q).tail ∧ t.qEn q = false ∧
      (t.queue q).suspSw = false ∧ ∀ i ∈ t.itins, i.q = q → i.place = .ended) ∧
    (s.mayFail q → ∃ t, exec (.abort q) s = .next t ∧ t.stopsWith q stAborted ∧ ∀ i ∈ t.itins, i.q = q → i.place = .ended) ∧
    (∀ p ∈ [(Instr.suspend q, decide ((s.queue q).st ≠ .running)), (.resume q, decide ((s.queue q).st ≠ .suspended)),
      (.replay q, decide ((s.queue q).st ≠ .faulted)), (.skip q, decide ((s.queue q).st ≠ .faulted)),
      (.retire q, decide ((s.queue q).st = .retiring)),
      (.abort q, decide ((s.queue q).st ≠ .running ∧ (s.queue q).st ≠ .suspended))], p.2 = true → ∃ t,
      exec p.1 s = .next t ∧ t.flag (offQ q qEvents) 3 = true ∧ s.regsBut t [offQ q qEvents] ∧
      { t with regs := s.regs, out := s.out } = s)

/-- R102, R103, R106, R107, R108, R110, R214: a suspension completes at the boundaries of the queue's work; a pre-emption is released once
the task has started; the progress timer's limit faults the queue with ST_QUEUE_TIMEOUT. A stop that is complete leaves the queue Faulted with
the status of its fault, a RETIRE leaves it Idle with its semaphores poisoned and released. -/
def Obligations.SuspensionsTimeoutsAndStopsEnd : Prop :=
  ∀ (s : State) (q : Nat), s.alive = true →
    ((s.queue q).st = .running → (s.queue q).suspending = true → (s.queue q).stop = none → s.atBoundary q = true →
      (s.queue q).suspSw = true → s.thermalStop = false →
      (∀ p, p ≠ q → s.asides p = []) → ∃ t, exec (.suspensionComplete q) s = .next t ∧ (t.queue q).st = .suspended ∧
      (t.queue q).suspending = false ∧ (t.queue q).suspSw = true ∧ (t.queue q).cmds = (s.queue q).cmds ∧
      s.queuesBut t q ∧ (∀ i ∈ t.itins, i.q = q → i.place ≠ .resident) ∧ s.regsBut t []) ∧
    (∀ w rest, s.preempted = (q, w) :: rest → (s.queue q).taskStarted = true → (s.queue w).suspending = true →
      rest.all (fun p => p.2 != w) = true → exec (.preemptRelease q) s = .next
        ((({ s with preempted := rest } : State).updQueue w (fun v => { v with suspPre := false })).leaveSuspended w)) ∧
    (∀ w rest, s.preempted = (q, w) :: rest → (s.queue q).taskStarted = true → (s.queue w).suspending = true →
      rest.any (fun p => p.2 == w) = true → exec (.preemptRelease q) s = .next { s with preempted := rest }) ∧
    (q < s.cfg.queues → s.timerStands q = false → (s.queue q).tmo < 31 → ∃ t, exec (.progressTimeout q) s = .next t ∧
      t.stopsWith q stQueueTimeout ∧ t.ccyc = s.ccyc + BitVec.ofNat 48 ((s.queue q).limit - (s.queue q).timer)) ∧
    (∀ p f, (s.queue q).stop = some p → p.fault = some f → f.log = none ∨ p.logged = true → s.stopped q = true →
      s.logAway q = false → ∃ t, exec (.stopComplete q) s = .next t ∧
      (t.queue q).st = (if p.retire then .retiring else .faulted) ∧ (t.queue q).lastSt = f.status ∧
      (t.queue q).seq = (s.queue q).seq + 1 ∧ t.flag (offQ q qEvents) 1 = true ∧ (∀ b ∈ t.porter.batches, b.q ≠ q) ∧
      (p.retire = false → (t.queue q).stop = none ∧
        (paDevice (s.frecBase q) ≠ s.devid → t.flag (offQ q qEvents) 4 = true) ∧
        (paDevice (s.frecBase q) = s.devid → s.recordGoes [(s.frecBase q, s.faultBytes q f p)] →
          t.recordWaits (.fault q) (s.qAsid q) (s.qPrio q) [(s.frecBase q, s.faultBytes q f p)]))) ∧
    (∀ p f l base n, (s.queue q).stop = some p → p.fault = some f → f.log = some l → p.logged = false → s.stopped q = true →
      s.logAway q = false → base = s.fld offFlogHi 0 20 * 2 ^ 32 + (s.reg offFlogLo).toNat →
      n = base + 32 * ((s.reg offFlogWp).toNat % 2 ^ max 4 (s.fld offFlogHi 28 4)) → ∃ t, exec (.stopComplete q) s = .next t ∧
      t.reg offFlogWp = s.reg offFlogWp + 1 ∧
      (s.stwRunning = false ∨ paDevice base ≠ s.devid → t.flag offXltEvents 2 = true ∧
        (t.queue q).st = (if p.retire then .retiring else .faulted)) ∧
      (s.stwRunning = true → paDevice base = s.devid → (∀ b : List Byte, b.length = 32 → s.recordGoes [(n, b)]) →
        (t.queue q).st = (s.queue q).st ∧ (t.queue q).stop = some { p with logged := true } ∧
        ∃ b, b.length = 32 ∧ t.recordWaits (.log q) s.stwAsid 1#2 [(n, b)])) ∧
    (∀ p, (s.queue q).stop = some p → p.fault = none → s.stopped q = true → s.logAway q = false → (∀ j, s.asides j = []) → ∃ t,
      exec (.stopComplete q) s = .next t ∧ (t.queue q).stop = none ∧ (t.queue q).st = (s.queue q).st ∧
      s.queuesBut t q ∧ t.regs = s.regs) ∧
    ((s.queue q).st = .retiring → (s.queue q).stop = none → ∃ t, exec (.retireComplete q) s = .next t ∧
      (t.queue q).st = .idle ∧ (t.queue q).task = none ∧
      ∀ i, (s.sem i).owned = true → (s.sem i).owner.toNat = q → (t.sem i).poisoned = true ∧ (t.sem i).owned = false ∧
        (t.sem i).count = 0#20)

-- The commands of a queue.

/-- R13, R94, R96-R100, R105, R109, R110, R146, R374, R405: RUN starts its task waiting; with its descriptor and programs read, it is held
back without a fault while a commit is to change a ring it names; else, checked and with a slot for each, the task's itineraries are
loaded with PC 0 and the task runs, and a check that fails faults the queue with its status; when all its work is over the RUN completes. -/
def Obligations.TasksStartRunAndComplete : Prop :=
  ∀ (s : State) (q : Nat),
    (∀ c, s.mayWork = true → s.gate q (fun op => op == 0x01) = .go c → ∃ t, exec (.run q) s = .next t ∧
      (t.queue q).task = some ⟨c.idx, BitVec.ofNat 56 (cmdTaskPtr c.bytes), .waiting, 0#512, [], [], 0#56, s.nextId⟩ ∧
      (∀ x ∈ (t.queue q).cmds, x.idx = c.idx → x.started = true) ∧ s.queuesBut t q ∧ s.sameUnits t ∧
      t.sems = s.sems ∧ t.tables = s.tables ∧ s.regsBut t [offTlyTraceDrop]) ∧
    (∀ t0 r h l hdr itins rings links progs u, s.alive = true → (s.queue q).executing = true → (s.queue q).task = some t0 →
      t0.unstarted = true → s.mayWork = true → s.reading (.command q t0.cmd) = some r → r.bytes t0.va.toNat 64 = some h →
      hdr = words512 h → u = s.updQueue q (fun v => { v with task := some { t0 with hdr := hdr } }) →
      (taskHdrOk hdr = false → ∃ t, exec (.taskStart q) s = .next t ∧ t.stopsWith q stDescInvalid) ∧
      (taskHdrOk hdr = true → r.bytes t0.va.toNat (taskLen hdr) = some l →
        itins = words256 ((l.drop 64).take (32 * taskNItin hdr)) →
        rings = words64 ((l.drop (ringOff hdr 0)).take (8 * taskNRings hdr)) →
        links = words64 ((l.drop (linkOff hdr 0)).take (8 * taskNLinks hdr)) →
        taskEntriesOk s.cfg.sems itins rings links = true → progs.length = itins.length →
        (∀ x ∈ progs.zip itins, ∃ b, r.bytes (ieProg x.2) (8 * ieNInstr x.2) = some b ∧ x.1 = words64 b) →
        (u.heldBack rings = true → ∃ t, exec (.taskStart q) s = .next t ∧ (t.queue q).stop = none ∧
          (∃ t1, (t.queue q).task = some t1 ∧ t1.phase = .waiting ∧ t1.cmd = t0.cmd) ∧ t.itins = s.itins) ∧
        (∀ b, u.heldBack rings = false → u.programsBad t0.va.toNat itins rings links progs = some b ∨
            (u.programsBad t0.va.toNat itins rings links progs = none ∧ u.taskBad q t0.va.toNat hdr itins rings links = some b) →
          ∃ t, exec (.taskStart q) s = .next t ∧ t.stopsWith q b.st) ∧
        ∀ ps, u.programsBad t0.va.toNat itins rings links progs = none →
          u.taskBad q t0.va.toNat hdr itins rings links = none → u.heldBack rings = false →
          u.placesFor (u.qEast q) (fun _ => false) (itins.zipIdx.map (fun e => (e.2, iePin e.1))) = some ps → ∃ t,
          exec (.taskStart q) s = .next t ∧
          (∃ t1, (t.queue q).task = some t1 ∧ t1.phase = (if taskKind hdr = 1 then .snapshot else .running) ∧ t1.hdr = hdr ∧
            t1.rings = rings ∧ t1.links = links ∧ t1.cmd = t0.cmd) ∧
          ∀ p ∈ ps, ∃ i ∈ t.itins, i.q = q ∧ i.num = p.1 ∧ i.lane = p.2.1 ∧ i.slot = p.2.2 ∧ i.pc = 0 ∧ i.status = .ready ∧
            i.place = .resident ∧ i.prog = progs.getD p.1 [] ∧ i.ar.get 0 = ieArg0 (itins.getD p.1 0#256) ∧
            i.ar.get 1 = ieArg1 (itins.getD p.1 0#256))) ∧
    (∀ t0 c, s.alive = true → (s.queue q).task = some t0 → (s.queue q).cmd t0.cmd = some c → cmdOp c.bytes = 0x01 →
      (s.queue q).st = .running → (s.queue q).stop = none → t0.phase = .running → s.taskOver q = true → ∃ t,
      exec (.taskComplete q) s = .next t ∧ s.completes t q c 0 ∧ (t.queue q).task = none ∧ s.queuesBut t q ∧
      t.sems = s.sems ∧ t.tables = s.tables)

/-- R94, R96, R97, R109, R110, R203, R204: NOP completes at once, and FENCE when every earlier command has; MARKER writes a completion
record with its VALUE and completes with it; SIGNAL adds COUNT to its semaphore and completes; WAIT takes COUNT and completes, or joins the
waiters. A command that its start refuses faults the queue with that status. -/
def Obligations.SmallCommandsComplete : Prop :=
  ∀ (s : State) (q : Nat) (c : Cmd),
    (s.gate q (fun op => op == 0x3F || !opKnown op) = .go c → ∃ t, exec (.nopCommand q) s = .next t ∧
      s.completes t q c 0 ∧ s.queuesBut t q ∧ s.sameUnits t ∧ t.sems = s.sems ∧ t.tables = s.tables ∧
      s.regsBut t [offQ q qEvents, offTlyTraceDrop]) ∧
    (∀ st u, s.gate q (fun op => op == 0x3F || !opKnown op) = .refuse c st u → ∃ t, exec (.nopCommand q) s = .next t ∧
      t.stopsWith q st) ∧
    (((s.queue q).begun 0x04 = none ∧ s.gate q (fun op => op == 0x04) = .go c) ∨
      ((s.queue q).begun 0x04 = some c ∧ s.alive = true ∧ (s.queue q).executing = true) →
      ((s.queue q).allDone c.idx = true → ∃ t, exec (.fence q) s = .next t ∧ s.completes t q c 0 ∧ s.queuesBut t q ∧
        s.sameUnits t ∧ t.sems = s.sems ∧ t.tables = s.tables ∧ s.regsBut t [offQ q qEvents, offTlyTraceDrop]) ∧
      ((s.queue q).allDone c.idx = false → ∃ t, exec (.fence q) s = .next t ∧ (t.queue q).seq = (s.queue q).seq ∧
        (∀ x ∈ (t.queue q).cmds, x.idx = c.idx → x.started = true ∨ x ∈ (s.queue q).cmds) ∧ s.queuesBut t q ∧
        s.sameUnits t)) ∧
    (s.gate q (fun op => op == 0x05) = .go c → ∃ t, exec (.marker q) s = .next t ∧
      s.writesRecord t q c (cmdValue c.bytes) (some c.idx) ∧ s.queuesBut t q ∧ s.sameUnits t ∧ t.sems = s.sems ∧
      t.tables = s.tables ∧ s.regsBut t [offQ q qEvents, offTlyTraceDrop]) ∧
    (∀ i k, (s.queue q).begun 0x02 = none → s.gate q (fun op => op == 0x02) = .go c → i = cmdSem c.bytes →
      k = BitVec.ofNat 20 (cmdSemCount c.bytes) → semEast i = s.qEast q → s.outOfTurn i rankInc k = false →
      (s.sem i).poisoned = false → (s.turns.get i).overflowed = false → (s.sem i).count.toNat + k.toNat < 2 ^ 20 →
      s.signalAway q = false → ∃ t, exec (.signalCommand q) s = .next t ∧
      t.sem i = { s.sem i with count := (s.sem i).count + k } ∧ s.semsBut t i ∧
      t.incsDue = (if (i, none) ∈ s.incsDue then s.incsDue else s.incsDue ++ [(i, some k)]) ∧
      s.completes t q c 0 ∧ s.queuesBut t q) ∧
    (∀ i k, (s.queue q).begun 0x02 = none → s.gate q (fun op => op == 0x02) = .go c → i = cmdSem c.bytes →
      k = BitVec.ofNat 20 (cmdSemCount c.bytes) → semEast i ≠ s.qEast q → s.corridor.failed = false → ∃ t,
      exec (.signalCommand q) s = .next t ∧ (t.corridor.lane (semEast i)).get corSemaphore =
        (s.corridor.lane (semEast i)).get corSemaphore ++ [.semInc (.command q) i k] ∧ t.sems = s.sems ∧
      (t.queue q).seq = (s.queue q).seq ∧ s.queuesBut t q) ∧
    ((s.queue q).begun 0x02 = some c → s.alive = true → (s.queue q).st = .running → (s.queue q).stop = none →
      s.signalAway q = false → ∃ t, exec (.signalCommand q) s = .next t ∧ s.completes t q c 0 ∧ t.sems = s.sems) ∧
    (∀ i k, s.gate q (fun op => op == 0x03) = .go c → i = cmdSem c.bytes → k = BitVec.ofNat 20 (cmdSemCount c.bytes) →
      semEast i = s.qEast q → (s.sem i).poisoned = false →
      (s.semGrantsNow i k = true → ∃ t, exec (.waitCommand q) s = .next t ∧
        t.sem i = { s.sem i with count := (s.sem i).count - k } ∧ s.semsBut t i ∧ s.completes t q c 0 ∧ s.queuesBut t q) ∧
      (s.semGrantsNow i k = false → ((s.queue q).cmds.map (fun x => x.idx)).Nodup → ∃ t,
        exec (.waitCommand q) s = .next t ∧
        t.sem i = { s.sem i with waiters := (s.sem i).waiters ++ [⟨.command q, q, k⟩] } ∧ s.semsBut t i ∧ s.queuesBut t q))

/-- R253, R254, R256, R259, R262, R284, R286, R295, R296, R298, R299: TABLE_BIND installs a version with a new, higher epoch as the current
one once its descriptor and range table are read and keep their rules; TABLE_RETIRE frees the slot of its version once no batch is bound to
it. LOOKUP and UPDATE bind the current version of their table and hold their descriptors once these are read and checked. -/
def Obligations.TableCommandsActOnVersions : Prop :=
  ∀ (s : State) (q : Nat) (c : Cmd) (k : Nat) (e : Word), k = cmdTable c.bytes → e = cmdEpoch c.bytes →
    ((s.queue q).begun 0x12 = none → s.gate q (fun op => op == 0x12) = .go c → s.readings = [] → ∃ t,
      exec (.tableBind q) s = .next t ∧
      ∃ x ∈ (t.queue q).cmds, x.idx = c.idx ∧ x.started = true) ∧
    (∀ r h desc l, (s.queue q).begun 0x12 = some c → s.alive = true → (s.queue q).executing = true →
      s.reading (.command q c.idx) = some r → r.bytes (cmdBatchPtr c.bytes) 64 = some h → desc = words512 h →
      (tableFieldsOk desc = false ∨ tableLayoutOk desc = false → ∃ t, exec (.tableBind q) s = .next t ∧
        t.stopsWith q stDescInvalid) ∧
      (tableFieldsOk desc = true → tableLayoutOk desc = true →
        r.bytes (tbRangePtr desc) (if tbRange desc then 16 * tbNdev desc else 0) = some l → rangeTableOk (words128 l) = true →
        e ≠ 0#32 → (s.table k).last.toNat < e.toNat → (s.table k).slots.length < 4 → ∃ t,
        exec (.tableBind q) s = .next t ∧ t.table k = (s.table k).bind ⟨e, .current, s.qAsid q, desc⟩ ∧
        (t.table k).current.isSome = true ∧ (∀ j, j ≠ k → t.table j = s.table j) ∧ s.completes t q c 0 ∧ s.queuesBut t q)) ∧
    (∀ v, s.gate q (fun op => op == 0x13) = .go c →
      (s.table k).slots.find? (fun v => v.epoch == e && v.st != .retiring) = some v →
      (s.boundTo k e = 0 → ∃ t, exec (.tableRetire q) s = .next t ∧ t.table k = (s.table k).retired e ∧
        (∀ j, j ≠ k → t.table j = s.table j) ∧ s.completes t q c ((s.table k).retcnt + 1).toNat ∧ s.queuesBut t q) ∧
      (s.boundTo k e ≠ 0 → ∃ t, exec (.tableRetire q) s = .next t ∧
        (t.table k).slots = (s.table k).slots.map (fun v => if v.epoch = e then { v with st := .retiring } else v) ∧
        (t.table k).retcnt = (s.table k).retcnt ∧ (t.queue q).seq = (s.queue q).seq)) ∧
    ((s.queue q).begun 0x13 = some c → s.alive = true → (s.queue q).st = .running → (s.queue q).stop = none →
      s.boundTo k e = 0 → ∃ t, exec (.versionRetired q) s = .next t ∧ t.table k = (s.table k).retired e ∧
      s.completes t q c ((s.table k).retcnt + 1).toNat ∧ s.queuesBut t q) ∧
    (∀ v upd m op, (upd, m, op) ∈ [(false, Instr.lookup q, 0x10), (true, .update q, 0x11)] → s.mayWork = true →
      s.unreadBatch q upd = none → s.gate q (fun o => o == op) = .go c → (s.table k).current = some v → ∃ t b,
      exec m s = .next t ∧ b ∈ t.porter.batches ∧ b.q = q ∧ b.cmd = c.idx ∧ b.isUpdate = upd ∧ b.east = s.qEast q ∧
      b.table = k ∧ b.epoch = v.epoch ∧ b.desc = v.desc ∧ b.atIdx = 0 ∧ b.atBag = 0 ∧ t.tables = s.tables ∧
      s.queuesBut t q) ∧
    (∀ b r l r2 o, s.unreadBatch q false = some b → s.alive = true → (s.queue q).executing = true →
      s.reading (.command q b.cmd) = some r → r.bytes (cmdBatchPtr (s.batchCmd b)) 64 = some l →
      (lookupHdrOk (words512 l) = false → ∃ t, exec (.lookup q) s = .next t ∧ t.stopsWith q stDescInvalid) ∧
      (lookupHdrOk (words512 l) = true → s.reading (.batch b.id) = some r2 → r2.bytes (lbOut (words512 l)) 128 = some o →
        outputCheck (BitVec.ofNat 1024 (leNat o)) = none → ∃ t, exec (.lookup q) s = .next t ∧
        t.porter.batches = s.porter.batches.map (fun x => if x.id == b.id then
          { x with hdr := words512 l, out := BitVec.ofNat 1024 (leNat o) } else x) ∧
        t.tables = s.tables ∧ t.queues = s.queues)) ∧
    (∀ b r l, s.unreadBatch q true = some b → s.alive = true → (s.queue q).executing = true →
      s.reading (.command q b.cmd) = some r → r.bytes (cmdBatchPtr (s.batchCmd b)) 64 = some l →
      (updateHdrOk (words512 l) (tbDim b.desc) = false ∨ updateRuleOk (s.batchCmd b) b.desc = false → ∃ t,
        exec (.update q) s = .next t ∧ t.stopsWith q stDescInvalid) ∧
      (updateHdrOk (words512 l) (tbDim b.desc) = true → updateRuleOk (s.batchCmd b) b.desc = true → ∃ t,
        exec (.update q) s = .next t ∧ t.porter.batches = s.porter.batches.map (fun x => if x.id == b.id then
          { x with hdr := words512 l } else x) ∧ t.tables = s.tables ∧ t.queues = s.queues))

/-- R14, R96, R201, R275, R279, R280, R306: a PREWARM whose pages are covered completes, and opens a miss for a page that is not; a preload
installs the granules of a row that has been read with HEAT 3 and completes, installing nothing while the Larder is bypassed; an INVALIDATE
drops the granules of its pages; such a command behind a RUN starts when the task's last itinerary has halted. -/
def Obligations.BackgroundCommandsComplete : Prop :=
  ∀ (s : State) (q : Nat) (c : Cmd) (page : Nat),
    (s.gate q (fun op => op == 0x20) = .go c → ((s.queue q).cmds.map (fun x => x.idx)).Nodup → c.pages = 0 →
      (s.queue q).cmds.find? (fun c => c.started && !c.done && cmdOp c.bytes == 0x20 &&
        decide (c.pages < cmdPreLen c.bytes / 4096)) = none → cmdPreLen c.bytes = 4096 → page = cmdPreVa c.bytes / 4096 →
      (∀ r, s.findL2 (s.qEast q) (s.qAsid q) page = some r → s.commandWaits (.prewarm q c.idx) = false → ∃ t,
        exec (.prewarm q) s = .next t ∧ s.completes t q c 0 ∧ t.misses = s.misses ∧ s.queuesBut t q ∧ s.sameUnits t) ∧
      (s.findL2 (s.qEast q) (s.qAsid q) page = none → s.missShare (s.qEast q) .prewarm = some .prewarm →
        (s.qEast q = true → s.corridor.failed = false) →
        (∀ m ∈ s.misses, m.asid = s.qAsid q → m.page.toNat ≠ page) → ∃ t, exec (.prewarm q) s = .next t ∧
        t.misses = s.misses ++ [⟨s.qEast q, 0#8, s.qAsid q, BitVec.ofNat 44 page, BitVec.ofNat 2 (cmdPreAcc c.bytes), true,
          false, [], [⟨.prewarm q c.idx, q, BitVec.ofNat 2 (cmdPreAcc c.bytes)⟩], .prewarm⟩] ∧
        (t.queue q).seq = (s.queue q).seq ∧ s.queuesBut t q)) ∧
    (s.gate q (fun op => op == 0x14) = .go c → (s.queue q).nextCtl 0 = true → (s.queue q).begunCtl 0 = none →
      ((s.queue q).cmds.map (fun x => x.idx)).Nodup → s.preloadVersion c = none → ∃ t,
      exec (.larderCtlPreload q) s = .next t ∧ s.completes t q c 0 ∧ s.queuesBut t q ∧ t.larder.dir = s.larder.dir ∧
      t.larder.rows = s.larder.rows) ∧
    (s.larderBypass = true → s.preloadVersion c = none) ∧
    (∀ v r lrow row va n l i g key w, s.alive = true → (s.queue q).begunCtl 0 = some c →
      (s.queue q).cmd c.idx = some c → (s.queue q).stop = none → c.pages = 0 → cmdPreN c.bytes = 1 →
      s.preloadVersion c = some v → s.reading (.preload q c.idx) = some r → r.bytes (cmdCtlAddr c.bytes) 8 = some lrow →
      row = leNat lrow → row < tbNLocal v.desc → va = tbRowVa v.desc row / 128 * 128 →
      n = (tbRowVa v.desc row + tbRowBytes v.desc + 127) / 128 * 128 - va → s.preloads q c.idx = [i] → i.granule = g →
      i.dropped = false → r.bytes va n = some l → s.installable g = true →
      key = setKey (s.homeEast (g * 128)) (larderSet g) → s.findWay key (larderTag g) = none → s.victim key = some w →
      ((s.way key w).valid && (s.way key w).heat == 3#2) = false → ∃ t,
      exec (.larderCtlPreload q) s = .next t ∧ t.way key w = ⟨true, 3#2, larderTag g⟩ ∧
      (∀ j, j ≠ w → t.way key j = s.way key j) ∧
      t.larder.rows.get (setTier (s.homeEast (g * 128)) (larderSet g) * 2 ^ 22 + wayRow (larderSet g) w) =
        BitVec.ofNat 1024 (leNat (l.take 128)) ∧ s.completes t q c 0 ∧ s.queuesBut t q) ∧
    (∀ r pa, s.gate q (fun op => op == 0x14) = .go c → (s.queue q).nextCtl 1 = true → (s.queue q).begunCtl 1 = none →
      c.pages = 0 → ((s.queue q).cmds.map (fun x => x.idx)).Nodup → cmdCtlLen c.bytes = 4096 →
      page = cmdCtlAddr c.bytes / 4096 → s.findL2 (s.qEast q) (s.qAsid q) page = some r → r.allows accRead = true →
      pa = r.ppage page * 4096 →
      (∀ key a b, a < 31 → b < 31 → (s.way key a).valid = true → (s.way key b).valid = true →
        (s.way key a).tag = (s.way key b).tag → a = b) → ∃ t, exec (.larderCtlInvalidate q) s = .next t ∧
      s.completes t q c 0 ∧ (paDevice pa = s.devid → s.windowed pa = true → ∀ i < 32,
        t.findWay (setKey (s.homeEast ((pa / 128 + i) * 128)) (larderSet (pa / 128 + i))) (larderTag (pa / 128 + i)) = none)) ∧
    (∀ t0, s.alive = true → (s.queue q).executing = true → (s.queue q).task = some t0 → t0.phase = .running →
      (s.queue q).cmds.find? (fun x => !x.started && !x.done) = some c → c.crossing = false → cmdBackground c.bytes = true →
      cmdOk c.bytes s.cfg.sems = true →
      ((((s.queue q).cmds.dropWhile (fun x => x.idx != t0.cmd)).takeWhile (fun x => x.idx != c.idx)).drop 1).all
        (fun x => cmdBackground x.bytes) = true →
      (∀ i ∈ s.itins, i.q = q → i.place = .ended) →
      (cmdOp c.bytes ≠ 0x20 → ∃ t, exec (.backgroundStartAfterRun q) s = .next t ∧
        (∀ x ∈ (t.queue q).cmds, x.idx = c.idx → x.started = true) ∧ s.queuesBut t q ∧ s.sameUnits t) ∧
      ∀ r, cmdOp c.bytes = 0x20 → c.pages = 0 → ((s.queue q).cmds.map (fun x => x.idx)).Nodup → cmdPreLen c.bytes = 4096 →
        s.findL2 (s.qEast q) (s.qAsid q) (cmdPreVa c.bytes / 4096) = some r →
        s.commandWaits (.prewarm q c.idx) = false → ∃ t, exec (.backgroundStartAfterRun q) s = .next t ∧
        s.completes t q c 0 ∧ s.queuesBut t q ∧ s.sameUnits t)

-- The Ledger.

/-- R371, R373, R374, R376: BEGIN opens a closed Ledger, ROLLBACK discards what is staged, COMMIT checks it and waits for quiescence, or
completes at once with nothing staged; a COMMIT that fails a check fails with ST_LEDGER_CONFLICT and nothing applied, and so does a command
that the Ledger's state does not allow. -/
def Obligations.LedgerCommandsAct : Prop :=
  ∀ (s : State) (c : Cmd), s.gate 0 (fun op => op == 0x30) = .go c → ∀ op, (s.queue 0).nextLedger [op] = true →
    (op = 0 → s.ledger.st = .closed → ∃ t, exec (.ledgerBegin 0) s = .next t ∧
      t.ledger = { (default : Ledger) with st := .opened, txn := cmdTxn c.bytes } ∧ s.completes t 0 c 0 ∧ s.queuesBut t 0 ∧
      s.sameUnits t ∧ s.regsBut t [offQ 0 qEvents, offTlyTraceDrop]) ∧
    (op = 2 → s.ledger.st = .opened → ∃ t, exec (.ledgerRollback 0) s = .next t ∧ t.ledger = s.ledger.close ∧
      s.completes t 0 c 0 ∧ s.queuesBut t 0 ∧ s.sameUnits t ∧ s.regsBut t [offQ 0 qEvents, offTlyTraceDrop]) ∧
    (op = 1 → s.ledger.st = .opened → s.commitCheck = none → s.ledger.staged ≠ [] → ∃ t,
      exec (.ledgerCommit 0) s = .next t ∧ t.ledger = { s.ledger with st := .committing, cmd := c.idx } ∧
      (t.queue 0).seq = (s.queue 0).seq ∧ s.queuesBut t 0 ∧ s.sameUnits t ∧ s.regsBut t [offTlyTraceDrop]) ∧
    (op = 1 → s.ledger.st = .opened → s.commitCheck = none → s.ledger.staged = [] →
      ((s.queue 0).cmds.map (fun x => x.idx)).Nodup → (∀ x ∈ s.remote.ports.cells, x.2.tx = []) → ∃ t,
      exec (.ledgerCommit 0) s = .next t ∧ t.ledger.st = .closed ∧ s.completes t 0 c 0 ∧
      t.flag offLdgEvents 0 = true) ∧
    (∀ k off, op = 1 → s.ledger.st = .opened → s.commitCheck = some (k, off) → (s.queue 0).stop = none → ∃ t,
      exec (.ledgerCommit 0) s = .next t ∧ t.stopsWith 0 stLdgConflict ∧ t.ledger.st = .opened ∧
      t.ledger.staged = s.ledger.staged ∧ t.flag offLdgEvents 1 = true ∧
      s.regsBut t [offLdgResult, offLdgEvents, offTlyTraceDrop]) ∧
    (∀ m ∈ [Instr.ledgerBegin 0, .ledgerRollback 0, .ledgerCommit 0], (s.queue 0).stop = none →
      (m = .ledgerBegin 0 ∧ op = 0 ∧ s.ledger.st ≠ .closed ∨ m = .ledgerRollback 0 ∧ op = 2 ∧ s.ledger.st ≠ .opened ∨
        m = .ledgerCommit 0 ∧ op = 1 ∧ s.ledger.st ≠ .opened) →
      s.ledger.st ≠ .committing → ∃ t, exec m s = .next t ∧ t.stopsWith 0 stLdgConflict ∧ t.ledger = s.ledger)

/-- R3, R372, R374-R378: once quiescent, a commit's writes all apply at once and it completes; when a Larder window changes, every way is
invalidated first. A commit that does not become quiescent in time fails with nothing applied. An RWT write is staged while the Ledger is open,
the last value of a register standing, and is ignored with STRAY otherwise; one to a unit that the instance lacks is ignored (R3). -/
def Obligations.CommitsApplyAtQuiescence : Prop :=
  ∀ (s : State), s.alive = true →
    (∀ c, s.ledger.st = .committing → s.ledger.clearing = false → s.quiescent = true → s.windowsChange = false ∨ s.cfg.tiers = 0 →
      (s.ledger.staged.map (fun e => e.1)).Nodup → (∀ e ∈ s.ledger.staged, isRwt e.1 = true) →
      (s.queue 0).cmd s.ledger.cmd = some c → cmdOp c.bytes = 0x30 → (∀ x ∈ s.remote.ports.cells, x.2.tx = []) → ∃ t,
      exec .commitQuiesced s = .next t ∧
      (∀ e ∈ s.ledger.staged, t.reg e.1 = e.2) ∧ t.ledger = s.ledger.close ∧ t.flag offLdgEvents 0 = true ∧
      (∀ x ∈ (t.queue 0).cmds, x.idx = c.idx → x.done = true) ∧ s.queuesBut t 0 ∧ t.larder = s.larder ∧
      s.regsBut t (s.ledger.staged.map (fun e => e.1) ++
        [offLdgCounts, offLdgEvents, offLdgResult, offQ 0 qEvents, offTlyTraceDrop])) ∧
    (s.ledger.st = .committing → s.ledger.clearing = false → s.quiescent = true → s.windowsChange = true → 0 < s.cfg.tiers → ∃ t,
      exec .commitQuiesced s = .next t ∧ t.ledger = { s.ledger with clearing := true } ∧ t.larder.clearing = true ∧
      (∀ key w, (t.way key w).valid = false) ∧ t.regs = s.regs ∧ t.queues = s.queues) ∧
    (∀ c, s.larder.clearing = true → s.ledger.st = .committing → s.ledger.clearing = true →
      (s.ledger.staged.map (fun e => e.1)).Nodup → (∀ e ∈ s.ledger.staged, isRwt e.1 = true) →
      (s.queue 0).cmd s.ledger.cmd = some c → cmdOp c.bytes = 0x30 → ∃ t, exec .larderWindowClearDone s = .next t ∧
      (∀ e ∈ s.ledger.staged, t.reg e.1 = e.2) ∧ t.ledger = s.ledger.close ∧ t.larder.clearing = false ∧
      (∀ x ∈ (t.queue 0).cmds, x.idx = c.idx → x.done = true)) ∧
    (s.ledger.st = .committing → s.ledger.clearing = false → s.quiescent = false → s.mayFail 0 → ∃ t,
      exec .commitQuiescenceTimeout s = .next t ∧ t.stopsWith 0 stLdgNotQuiesced ∧ t.ledger.st = .opened ∧
      t.ledger.staged = s.ledger.staged ∧ t.flag offLdgEvents 1 = true ∧
      s.regsBut t [offLdgResult, offLdgEvents]) ∧
    (∀ (mid : BitVec 8) (addr : BitVec 24) (data : Word), isRwt addr.toNat = true → s.performs addr.toNat →
      (s.offPresent addr.toNat = false → exec (.rwtStagedWrite mid addr data) s = .next s.respondOk) ∧
      (s.offPresent addr.toNat = true → s.ledger.st = .opened → s.isStaged addr.toNat = false →
        s.ledger.staged.length < 4096 → ∃ t, exec (.rwtStagedWrite mid addr data) s = .next t ∧ t.ledger.staged = s.ledger.staged ++ [(addr.toNat, data)] ∧
        t.ledger.st = .opened ∧ { t with ledger := s.ledger, out := s.out } = s) ∧
      (s.offPresent addr.toNat = true → s.ledger.st = .opened → s.isStaged addr.toNat = true → ∃ t,
        exec (.rwtStagedWrite mid addr data) s = .next t ∧ t.ledger = { s.ledger with
          staged := s.ledger.staged.map (fun e => if e.1 = addr.toNat then (addr.toNat, data) else e) } ∧
        { t with ledger := s.ledger, out := s.out } = s) ∧
      (s.offPresent addr.toNat = true → s.ledger.st ≠ .opened → ∃ t, exec (.rwtStagedWrite mid addr data) s = .next t ∧
        t.ledger = s.ledger ∧
        t.flag offLdgEvents 3 = true ∧ s.regsBut t [offLdgCounts, offLdgEvents] ∧
        { t with regs := s.regs, out := s.out } = s))

-- Itineraries.

/-- R141, R149, R153-R156, R165, R166, R172: what the instructions on an itinerary's own registers leave: NOP, LOOP, ENDL, LCSET, LCADD,
ARSET, ARADD, IXBIND, IXGET, IXSEEK, XFORM and ORG change the registers they name and the PC, and nothing else;
ARADD outside the range changes no displacement and stops the task. HALT ends the itinerary, or stops the task while a slot is held. -/
def Obligations.InstructionsActOnTheirRegisters : Prop :=
  ∀ (s : State) (lane : Nat) (i : Itin) (w : BitVec 64), w = i.next →
    (s.runsIns lane 0x01 i → ∃ t, exec (.nopInstruction lane) s = .next t ∧ s.onlyItin t i i.past) ∧
    (∀ n, s.runsIns lane 0x04 i → n = (if insLoopSrc w then i.lc.get (insLcs w) else insImm32 w) → ∃ t,
      exec (.loop lane) s = .next t ∧ s.onlyItin t i { i.past with
        lc := i.lc.set (insLc w) 0#32, lim := i.lim.set (insLc w) n, pc := if n = 0#32 then insTarget w else i.pc + 1 }) ∧
    (s.runsIns lane 0x05 i → ∃ t, exec (.endl lane) s = .next t ∧ s.onlyItin t i { i.past with
      lc := i.lc.set (insLc w) (i.lc.get (insLc w) + 1)
      pc := if (i.lc.get (insLc w) + 1).toNat < (i.lim.get (insLc w)).toNat then insTarget w else i.pc + 1 }) ∧
    (s.runsIns lane 0x10 i → ∃ t, exec (.lcset lane) s = .next t ∧
      s.onlyItin t i { i.past with lc := i.lc.set (insLc w) (insImm32 w) }) ∧
    (s.runsIns lane 0x11 i → ∃ t, exec (.lcadd lane) s = .next t ∧
      s.onlyItin t i { i.past with lc := i.lc.set (insLc w) (i.lc.get (insLcs w) + insImm32 w) }) ∧
    (s.runsIns lane 0x14 i → ∃ t, exec (.arset lane) s = .next t ∧
      s.onlyItin t i { i.past with ar := i.ar.set (insLc w) (wrapInt 56 (signedOf 48 (bits w 0 48))) }) ∧
    (∀ r : Int, s.runsIns lane 0x15 i → r = (i.ar.get (insLcs w)).toInt + (if bitAt w 45 then
        (i.lc.get (bits w 46 3)).toNat * signedOf 32 (bits w 0 32) else signedOf 32 (bits w 0 32)) →
      (-(2 ^ 55) ≤ r → r < 2 ^ 55 → ∃ t, exec (.aradd lane) s = .next t ∧
        s.onlyItin t i { i.past with ar := i.ar.set (insLc w) (wrapInt 56 r) }) ∧
      (r < -(2 ^ 55) ∨ 2 ^ 55 ≤ r → ∃ t, exec (.aradd lane) s = .next t ∧ t.stopsWith i.q stProgramIllegal ∧
        ∀ j ∈ t.itins, ∃ k ∈ s.itins, k.stream = j.stream ∧ j.ar = k.ar)) ∧
    (∀ d, s.runsIns lane 0x18 i → i.desc (bits w 50 4) = some d → tdNdim d = 1 → tdSlot d = false →
      tdDtype d = 0x4 ∨ tdDtype d = 0x9 → ∃ t, exec (.ixbind lane) s = .next t ∧ s.onlyItin t i { i.past with
        ix := i.ix.set (insIx w) ⟨true, d, (i.ar.get (bits w 47 3)).toInt, 0#32, [], []⟩ }) ∧
    (∀ x rest, s.runsIns lane 0x19 i → s.noTilesOf i → (i.ix.get (insIx w)).bound = true →
      (i.ix.get (insIx w)).takeElems 1 = some (x :: rest) → ∃ t, exec (.ixget lane) s = .next t ∧
      s.onlyItin t i { i.past with
        lc := i.lc.set (bits w 51 3) x
        ix := i.ix.set (insIx w) ((i.ix.get (insIx w)).seek ((i.ix.get (insIx w)).pos + 1)) }) ∧
    (s.runsIns lane 0x19 i → s.noTilesOf i → (i.ix.get (insIx w)).bound = true →
      (i.ix.get (insIx w)).takeElems 1 = none → ∃ t, exec (.ixget lane) s = .next t ∧
      s.onlyItin t i { i with status := .blocked, chosen := false }) ∧
    (s.runsIns lane 0x1A i → ∃ t, exec (.ixseek lane) s = .next t ∧ s.onlyItin t i { i.past with
      ix := i.ix.set (insIx w) ((i.ix.get (insIx w)).seek (if bitAt w 53 then i.lc.get (bits w 50 3) else insImm32 w)) }) ∧
    (s.runsIns lane 0x38 i → ∃ t, exec (.xform lane) s = .next t ∧
      s.onlyItin t i { i.past with sel := BitVec.ofNat 8 (bits w 0 8) }) ∧
    (s.runsIns lane 0x3C i → ∃ t, exec (.org lane) s = .next t ∧ s.onlyItin t i { i.past with
      org := i.org.set ((if bitAt w 55 then 8 else 0) + bits w 52 3)
        ⟨insImm32 w, bitAt w 51, bits w 48 3, BitVec.ofNat 16 (bits w 32 16)⟩ }) ∧
    (s.runsIns lane 0x02 i → i.heldW = none → i.heldR = none → i.wwin = none → s.tiles = [] → s.porter.subs = [] →
      s.remote.serves = [] → s.remote.owed = .empty → (∀ j ∈ s.itins, j.stream = i.stream → j = i) →
      (∀ q, s.asides q = []) → ∃ t, exec (.halt lane) s = .next t ∧ t.itin i.stream = none ∧ t.queues = s.queues ∧
      t.regs = s.regs ∧ t.sems = s.sems ∧ t.rings = s.rings) ∧
    (s.runsIns lane 0x02 i → s.noTilesOf i → i.heldW ≠ none ∨ i.heldR ≠ none → ∃ t, exec (.halt lane) s = .next t ∧
      t.stopsWith i.q stProgramIllegal)

/-- R128, R167-R169, R173, R182, R183, R197, R203, R219, R223: CLAIM and TAKE obtain the slot at their position, at once on an unlinked ring
with one, through the semaphore on a linked one and through every member's on a group's leader, where a CLAIM that is not granted waits;
they stop where the slot lies beyond the Hall, for which the spec gives no effect (the model's own stop, hallAddress, in NOTES.md under
'Stops'); once it is obtained the lane has no shared line of the queue. PUBLISH and FREE give the slot up and raise its release. Bytes
written into a Hall slot are at their addresses, and every other byte of the Hall is as it was; an ACCUM write adds a binary32 element to
the one that stands there. -/
def Obligations.SlotsAreClaimedTakenAndGivenUp : Prop :=
  ∀ (s : State) (lane : Nat) (i : Itin) (r : Nat), s.noTilesOf i →
    (s.runsIns lane 0x20 i → r = insRing i.next → i.heldW = none → s.hallFits r (s.ring r).claimp = true →
      (s.linkOf i.q r = none → s.claimable r = true → s.slotRings r = [r] → ∃ t, exec (.claim lane) s = .next t ∧
        t.ring r = { s.ring r with claimp := ((s.ring r).claimp + 1) % s.nslot r, claimed := (s.ring r).claimed + 1 } ∧
        s.itinBecomes t i { i.past with heldW := some ⟨r, (s.ring r).claimp⟩ } ∧ (∀ j, j ≠ r → t.ring j = s.ring j) ∧
        (∀ c ∈ (t.lane i.lane).cache, c.q = i.q → c.shared = false) ∧ { t with
          itins := s.itins, rings := s.rings, lag := s.lag, lanes := s.lanes, tally := s.tally } = s) ∧
      (∀ l, s.linkOf i.q r = some l → (s.slotRings r).length ≤ 1 → semEast l.2 = laneEast i.lane →
        (s.sem l.2).poisoned = false → s.semGrantsNow l.2 1#20 = true → ∃ t, exec (.claim lane) s = .next t ∧
        t.sem l.2 = { s.sem l.2 with count := (s.sem l.2).count - 1 } ∧ s.semsBut t l.2 ∧
        (∀ c ∈ (t.lane i.lane).cache, c.q = i.q → c.shared = false) ∧
        s.itinBecomes t i { i.past with heldW := some ⟨r, (s.ring r).claimp⟩ }) ∧
      (∀ l, s.linkOf i.q r = some l → 1 < (s.slotRings r).length → (∀ k, (s.sem k).poisoned = false) →
        (∀ k ∈ s.groupSems i.q r, semEast k = laneEast i.lane) →
        (s.groupFree i.q r = true → ∃ t, exec (.claim lane) s = .next t ∧
          (∀ c ∈ (t.lane i.lane).cache, c.q = i.q → c.shared = false) ∧
          s.itinBecomes t i { i.past with heldW := some ⟨r, (s.ring r).claimp⟩ } ∧
          ∀ m ∈ s.slotRings r, (t.ring m).claimp = ((s.ring m).claimp + 1) % s.nslot m) ∧
        (s.groupFree i.q r = false → ∃ t, exec (.claim lane) s = .next t ∧
          (∀ k ∈ s.groupSems i.q r, (⟨.group i.lane i.slot r, i.q, 1#20⟩ : SemWaiter) ∈ (t.sem k).waiters) ∧
          (∀ k, (t.sem k).count = (s.sem k).count) ∧ s.itinBecomes t i { i with status := .taking, chosen := false } ∧
          t.rings = s.rings ∧ t.queues = s.queues))) ∧
    (s.runsIns lane 0x20 i → i.heldW = none → s.hallFits (insRing i.next) (s.ring (insRing i.next)).claimp = false →
      exec (.claim lane) s = .fault .hallAddress) ∧
    (s.runsIns lane 0x22 i → r = insRing i.next → i.heldR = none → s.hallFits r (s.ring r).takep = true →
      (s.linkOf i.q r = none → 0 < (s.ring r).avail → ∃ t, exec (.take lane) s = .next t ∧
        t.ring r = { s.ring r with takep := ((s.ring r).takep + 1) % s.nslot r, avail := (s.ring r).avail - 1 } ∧
        s.itinBecomes t i { i.past with heldR := some ⟨r, (s.ring r).takep⟩ } ∧ (∀ j, j ≠ r → t.ring j = s.ring j) ∧
        (∀ c ∈ (t.lane i.lane).cache, c.q = i.q → c.shared = false) ∧
        { t with itins := s.itins, rings := s.rings, lanes := s.lanes, tally := s.tally } = s) ∧
      (∀ l, s.linkOf i.q r = some l → semEast l.1 = laneEast i.lane → (s.sem l.1).poisoned = false →
        (s.semGrantsNow l.1 1#20 = true → ∃ t, exec (.take lane) s = .next t ∧
          t.sem l.1 = { s.sem l.1 with count := (s.sem l.1).count - 1 } ∧ s.semsBut t l.1 ∧
          (∀ c ∈ (t.lane i.lane).cache, c.q = i.q → c.shared = false) ∧
          s.itinBecomes t i { i.past with heldR := some ⟨r, (s.ring r).takep⟩ }) ∧
        (s.semGrantsNow l.1 1#20 = false → ∃ t, exec (.take lane) s = .next t ∧
          t.sem l.1 = { s.sem l.1 with waiters := (s.sem l.1).waiters ++ [⟨.itin i.lane i.slot, i.q, 1#20⟩] } ∧
          s.itinBecomes t i { i with status := .taking, chosen := false } ∧
          { t with itins := s.itins, sems := s.sems } = s))) ∧
    (s.runsIns lane 0x22 i → i.heldR = none → s.hallFits (insRing i.next) (s.ring (insRing i.next)).takep = false →
      exec (.take lane) s = .fault .hallAddress) ∧
    (∀ h, s.runsIns lane 0x21 i → i.heldW = some h → h.ring = insRing i.next → s.slotRings h.ring = [h.ring] → ∃ t,
      exec (.publish lane) s = .next t ∧ s.itinBecomes t i { i.past with heldW := none } ∧
      t.releases = s.releases ++ [⟨s.nextId, i.q, i.num, laneEast i.lane,
        .slotPublish h.ring h.slot ((s.linkOf i.q h.ring).map (fun l => l.1)), []⟩] ∧
      { t with itins := s.itins, releases := s.releases, tally := s.tally, nextId := s.nextId } = s) ∧
    (∀ h, s.runsIns lane 0x23 i → i.heldR = some h → h.ring = insRing i.next → ∃ t, exec (.free lane) s = .next t ∧
      s.itinBecomes t i { i.past with heldR := none } ∧
      t.releases = s.releases ++ [⟨s.nextId, i.q, i.num, laneEast i.lane,
        .slotFree h.ring ((s.linkOf i.q h.ring).map (fun l => l.2)), []⟩] ∧
      { t with itins := s.itins, releases := s.releases, tally := s.tally, nextId := s.nextId } = s) ∧
    (∀ (x : Tile) (d : BitVec 1024) (h : HeldSlot) (bytes : List (Nat × Byte)), s.ringClient h.ring = false →
      (bytes.map (fun b => b.1)).Nodup →
      (tdAccum d = false → ∀ b ∈ bytes, (s.writeSlot x d h bytes).hall.get (s.hallAddr h.ring h.slot b.1) = b.2) ∧
      (∀ off (v : Word), tdAccum d = true → tdDtype d = 0x9 →
        bytes = (List.range 4).map (fun j => (off + j, (natBytes 4 v.toNat).getD j 0)) → ∀ j < 4,
        (s.writeSlot x d h bytes).hall.get (s.hallAddr h.ring h.slot (off + j)) = (natBytes 4 (addWord (BitVec.ofNat 32
          (leNat ((List.range 4).map (fun j => s.hall.get (s.hallAddr h.ring h.slot (off + j)))))) v).toNat).getD j 0) ∧
      (∀ a, (∀ b ∈ bytes, s.hallAddr h.ring h.slot b.1 ≠ a) → tdAccum d = false →
        (s.writeSlot x d h bytes).hall.get a = s.hall.get a) ∧
      (s.flag offRelInject 31 = false → { s.writeSlot x d h bytes with hall := s.hall, tally := s.tally } = s))

/-- R169, R183, R184, R192, R193, R197-R199: a publish whose writes have landed moves TAIL and adds 1 to FULL_SEM, a release whose reads have
returned moves HEAD and adds 1 to FREE_SEM. The laggard timeout faults the producing queue with ST_LAGGARD; time-to-empty is recomputed for every
ring, and a ring has history 4,096 ccyc after its reset. -/
def Obligations.RingsMoveOn : Prop :=
  ∀ (s : State) (n : Nat) (r : Release), s.alive = true →
    (∀ ring slot full, s.releases.find? (fun r => r.id == n) = some r → r.kind = .slotPublish ring slot full →
      r.tiles.all (s.landedFor ring) = true → s.firstPublish n ring = true →
      (∀ k, full = some k → semEast k = r.east ∧ (s.sem k).poisoned = false ∧ (s.sem k).count.toNat + 1 < 2 ^ 20 ∧
        s.outOfTurn k rankInc 1#20 = false ∧ (s.turns.get k).overflowed = false ∧
        ∀ c ∈ s.rings.cells, c.2.pair ≠ some k) → ∃ t, exec (.slotPublished n) s = .next t ∧
      t.ring ring = { s.ring ring with
        tail := ((s.ring ring).tail + 1) % s.nslot ring, occ := (s.ring ring).occ + 1
        avail := (s.ring ring).avail + 1, claimed := (s.ring ring).claimed - 1 } ∧
      (∀ j, j ≠ ring → t.ring j = s.ring j) ∧ t.releases = s.releases.filter (fun x => x.id != n) ∧
      (∀ k, t.sem k = if full = some k then { s.sem k with count := (s.sem k).count + 1 } else s.sem k) ∧
      t.queues = s.queues) ∧
    (∀ ring free, s.releases.find? (fun r => r.id == n) = some r → r.kind = .slotFree ring free →
      r.tiles.all s.slotRead = true → s.firstFree n ring = true →
      (∀ k, free = some k → semEast k = r.east ∧ (s.sem k).poisoned = false ∧ (s.sem k).count.toNat + 1 < 2 ^ 20 ∧
        s.outOfTurn k rankInc 1#20 = false ∧ (s.turns.get k).overflowed = false ∧
        ∀ c ∈ s.rings.cells, c.2.pair ≠ some k) → ∃ t, exec (.slotReleased n) s = .next t ∧
      (t.ring ring).head = ((s.ring ring).head + 1) % s.nslot ring ∧ (t.ring ring).occ = (s.ring ring).occ - 1 ∧
      (t.ring ring).frees.head? = some s.ccyc ∧ (∀ j, j ≠ ring → t.ring j = s.ring j) ∧
      t.releases = s.releases.filter (fun x => x.id != n) ∧
      (∀ k, t.sem k = if free = some k then { s.sem k with count := (s.sem k).count + 1 } else s.sem k) ∧
      t.queues = s.queues) ∧
    (∀ t0 i, s.watchLaggards.lag.get n = some t0 → s.watchLaggards.claimBlocked n = some i → 0 < s.fld (offMg n 0) 24 5 →
      (s.queue i.q).st = .running → (s.queue i.q).stop = none → s.tally.reqs = [] → ∃ t,
      exec (.laggardTimeout n) s = .next t ∧
      t.stopsWith i.q stLaggard ∧ t.ccyc = s.ccyc + BitVec.ofNat 48 (2 ^ max 8 (s.fld (offMg n 0) 24 5) - t0)) ∧
    (∃ t, exec .tteRecompute s = .next t ∧ (∀ j, t.ring j = if j < 1024 ∧ s.ringValid j = true then
      { s.ring j with tte := s.emptyTime j } else s.ring j) ∧ { t with rings := s.rings } = s) ∧
    (s.ringValid n = true → (s.ring n).hist = false → s.tally.reqs = [] → ∃ t, exec (.ringHistory n) s = .next t ∧
      t.ring n = { s.ring n with hist := true } ∧ (∀ j, j ≠ n → t.ring j = s.ring j) ∧
      t.ccyc = s.ccyc + BitVec.ofNat 48 (4096 - (s.ccyc - (s.ring n).since).toNat))

/-- R170, R197, R203-R205, R220, R223: an itinerary's WAIT takes COUNT at once, or waits for its grant, on its own wing or across the
Corridor; a grant takes it for the oldest waiter, from every semaphore the waiter takes from, and goes back over the Corridor to the other
wing. SIGNAL is raised when what it covers has landed, and adds COUNT. -/
def Obligations.ItinerariesWaitAndSignal : Prop :=
  ∀ (s : State) (lane : Nat) (i : Itin) (k : Nat) (n : BitVec 20), s.noTilesOf i →
    (s.runsIns lane 0x28 i → k = insSem i.next → n = insCount20 i.next →
      (semEast k = laneEast i.lane → (s.sem k).poisoned = false → s.semGrantsNow k n = true → ∃ t,
        exec (.waitInstruction lane) s = .next t ∧ t.sem k = { s.sem k with count := (s.sem k).count - n } ∧ s.semsBut t k ∧
        s.itinBecomes t i i.past ∧ (∀ c ∈ (t.lane i.lane).cache, c.q = i.q → c.shared = false) ∧
        s.regsBut t [offTlyTraceDrop] ∧ { t with
          itins := s.itins, sems := s.sems, lanes := s.lanes, regs := s.regs, tally := s.tally
          turns := s.turns } = s) ∧
      (semEast k = laneEast i.lane → (s.sem k).poisoned = false → s.semGrantsNow k n = false → ∃ t,
        exec (.waitInstruction lane) s = .next t ∧
        t.sem k = { s.sem k with waiters := (s.sem k).waiters ++ [⟨.itin i.lane i.slot, i.q, n⟩] } ∧ s.semsBut t k ∧
        s.itinBecomes t i { i with status := .taking, chosen := false } ∧ { t with itins := s.itins, sems := s.sems } = s) ∧
      (semEast k = laneEast i.lane → (s.sem k).poisoned = true → ∃ t, exec (.waitInstruction lane) s = .next t ∧
        t.stopsWith i.q stSemPoisoned) ∧
      (semEast k ≠ laneEast i.lane → s.corridor.failed = false → ∃ t, exec (.waitInstruction lane) s = .next t ∧
        (t.corridor.lane (semEast k)).get corSemaphore = (s.corridor.lane (semEast k)).get corSemaphore ++
          [.semTake k ⟨.itin i.lane i.slot, i.q, n⟩] ∧
        s.itinBecomes t i { i with status := .taking, chosen := false } ∧ t.sems = s.sems)) ∧
    (s.runsIns lane 0x29 i → k = insSem i.next → n = insCount20 i.next → ∃ t, exec (.signalInstruction lane) s = .next t ∧
      t.releases = s.releases ++ [⟨s.nextId, i.q, i.num, laneEast i.lane, .signal k n, []⟩] ∧ s.itinBecomes t i i.past ∧
      { t with itins := s.itins, releases := s.releases, tally := s.tally, nextId := s.nextId } = s) ∧
    (∀ rel r, s.alive = true → s.releases.find? (fun r => r.id == rel) = some r → r.kind = .signal k n →
      (∀ x ∈ r.tiles, s.tile x = none) → (s.sem k).poisoned = false → (s.sem k).count.toNat + n.toNat < 2 ^ 20 →
      (semEast k = r.east → s.outOfTurn k rankInc n = false → (s.turns.get k).overflowed = false → ∃ t,
        exec (.signalRelease rel) s = .next t ∧
        t.sem k = { s.sem k with count := (s.sem k).count + n } ∧ s.semsBut t k ∧
        t.releases = s.releases.filter (fun x => x.id != rel) ∧ t.queues = s.queues) ∧
      (semEast k ≠ r.east → s.corridor.failed = false → ∃ t, exec (.signalRelease rel) s = .next t ∧
        (t.corridor.lane (semEast k)).get corSemaphore = (s.corridor.lane (semEast k)).get corSemaphore ++
          [.semInc (s.incSource r.q r.itin) k n] ∧ t.releases = s.releases.filter (fun x => x.id != rel) ∧ t.sems = s.sems ∧
        t.queues = s.queues)) ∧
    (∀ w rest, s.alive = true → (s.sem k).waiters = w :: rest → w.k.toNat ≤ (s.sem k).count.toNat →
      s.takenBy k w = [k] →
      (s.waiterEast w = semEast k → ∃ t, exec (.semaphoreGrant k) s = .next t ∧
        t.sem k = { s.sem k with count := (s.sem k).count - w.k, waiters := rest } ∧ s.semsBut t k ∧
        (w.who = .itin i.lane i.slot → s.resident i.lane i.slot = some i → s.itin i.stream = some i → i.q = w.q →
          i.status = .taking → insOp i.next = 0x28 → s.itinBecomes t i i.past) ∧
        ∀ c, w.who = .command w.q →
          (s.queue w.q).cmds.find? (fun c => c.started && !c.done && cmdOp c.bytes == 0x03) = some c →
          s.completes t w.q c 0) ∧
      (s.waiterEast w ≠ semEast k → s.corridor.failed = false → ∃ t, exec (.semaphoreGrant k) s = .next t ∧
        t.sem k = { s.sem k with count := (s.sem k).count - w.k, waiters := rest } ∧ s.semsBut t k ∧
        (t.corridor.lane (s.waiterEast w)).get corSemaphore = (s.corridor.lane (s.waiterEast w)).get corSemaphore ++
          [.semGrant k w] ∧ t.itins = s.itins ∧ t.queues = s.queues)) ∧
    (∀ w, s.alive = true → s.grantable k = some w → (s.takenBy k w).Nodup →
      (∀ j ∈ k :: s.takenBy k w, semEast j = s.waiterEast w) → ∃ t, exec (.semaphoreGrant k) s = .next t ∧
      ∀ j ∈ s.takenBy k w, t.sem j = { s.sem j with count := (s.sem j).count - w.k, waiters := (s.sem j).waiters.drop 1 })

/-- R141, R150, R157-R164, R171, R173: a transfer instruction that nothing stops or blocks hands one tile to its lane, with the origins and
displacements of now, and the itinerary goes on, a SLOT descriptor with no held slot among them, whose tile stops as it issues (the model's
reading, log 87); a GATHER of no rows moves nothing. DRAIN goes on when nothing of the itinerary is outstanding. -/
def Obligations.TransfersHandOverATile : Prop :=
  ∀ (s : State) (lane : Nat) (i : Itin) (w : BitVec 64) (x : Tile), w = i.next → s.noTilesOf i →
    (s.runsIns lane 0x30 i →
      x = s.newTile i .move (some (insRd w)) (some (insWd w)) (insRar w) (insWar w) (insT0 w) (insT1 w) →
      s.mayHandOver i x → ∃ t, exec (.move lane) s = .next t ∧ s.handsOver t i i.past x) ∧
    (s.runsIns lane 0x32 i → bitAt i.sel 0 = false →
      x = s.newTile i .xpand (some (insRd w)) (some (insWd w)) (insRar w) (insWar w) (insT0 w) (insT1 w) →
      s.mayHandOver i x → ∃ t, exec (.xpand lane) s = .next t ∧ s.handsOver t i i.past x) ∧
    (∀ idx n g, s.runsIns lane 0x31 i → n = i.rowsOf w → n ≤ 4096 → (i.ix.get (insGix w)).bound = true →
      tdDtype (i.ix.get (insGix w)).desc = 0x4 →
      (insWgt w = true → (i.ix.get (insWix w)).bound = true ∧ tdDtype (i.ix.get (insWix w)).desc = 0x9) →
      (insPool w = true → i.poolBad (insT0 w) = false ∧ bitAt i.sel 0 = false) →
      (i.ix.get (insGix w)).takeElems n = some idx → i.weights w n = some g →
      (0 < n → x = { s.newTile i (if insPool w then .pool else .gather) (some (insRd w))
          (if insPool w then none else some (insWd w)) (insRar w) (insWar w) (insT0 w) 0 with
          rows := idx.map (fun v => v.toInt), wgts := g } → s.mayHandOver i x → ∃ t, exec (.gather lane) s = .next t ∧
        s.handsOver t i (({ i.past with
          accW := if insPool w then some (insT0 w) else i.accW
          ix := i.ix.set (insGix w) ((i.ix.get (insGix w)).seek ((i.ix.get (insGix w)).pos + BitVec.ofNat 32 n)) } :
            Itin).pastWeights w n) x) ∧
      (n = 0 → i.descsRead = true → ∃ t, exec (.gather lane) s = .next t ∧
        s.onlyItin t i { i.past with accW := if insPool w then some (insT0 w) else i.accW })) ∧
    (∀ g, s.runsIns lane 0x33 i → i.poolBad (insT0 w) = false → bitAt i.sel 0 = false →
      (insWgt w = true → (i.ix.get (insWix w)).bound = true) → i.weights w (insT1 w) = some g →
      x = { s.newTile i .reduce (some (insRd w)) none (insRar w) 0 (insT0 w) (insT1 w) with wgts := g } →
      s.mayHandOver i x → ∃ t, exec (.reduce lane) s = .next t ∧
      s.handsOver t i (({ i.past with accW := some (insT0 w) } : Itin).pastWeights w (insT1 w)) x) ∧
    (∀ n, s.runsIns lane 0x34 i → i.accW = some n → bitAt i.sel 0 = false →
      x = { s.newTile i .poolout none (some (insWd w)) 0 (insWar w) n 1 with mean := insMode w == 1, keep := insKeep w } →
      s.mayHandOver i x → ∃ t, exec (.poolout lane) s = .next t ∧
      s.handsOver t i { i.past with accW := if insKeep w then some n else none } x) ∧
    (s.runsIns lane 0x2C i → s.tiles = [] → s.porter.subs = [] → s.remote.serves = [] → s.remote.owed = .empty → ∃ t,
      exec (.drain lane) s = .next t ∧
      t.itin i.stream = some i.past ∧ t.queues = s.queues ∧ t.regs = s.regs ∧ t.sems = s.sems ∧ t.waiting = s.waiting)

/-- R113, R142, R149, R166, R174-R177, R180, R181, R225, R312, R317: a blocked itinerary becomes ready; a lane selects one of the most
urgent class, and a switch takes 2 ccyc; a tile that is covered issues, and one with misses, of a lane or of the Porter, steps aside; a descriptor is asked for and, once it has come, held; a
cursor's window is fetched; an open window closes into one request; the instruction that decides the marking marks the earlier tiles. -/
def Obligations.LaneEventsAct : Prop :=
  ∀ (s : State) (lane slot : Nat) (i : Itin),
    (s.laneOn lane = true → s.queueRuns i.q = true → s.resident lane slot = some i → s.itin i.stream = some i →
      (i.status = .blocked → s.unblocked i = true → ∃ t, exec (.instructionRetry lane slot) s = .next t ∧
        s.itinBecomes t i { i with status := .ready } ∧ { t with itins := s.itins } = s) ∧
      (∀ (d va : Nat), ((insDescs i.next).filter (fun x => x.1 == d)) ≠ [] → i.desc d = none → va = i.dtb.toNat + 128 * d →
        (∀ u l data, s.need (.desc i.stream) va 128 = (u, .bytes l) → data = BitVec.ofNat 1024 (leNat l) →
          (tdReadCheck data (((insDescs i.next).filter (fun x => x.1 == d)).any (fun x => x.2)) = none → ∃ t,
            exec (.descriptorRead lane slot d) s = .next t ∧
            s.itinBecomes t i { i with descs := i.descs.set d (some data) } ∧ t.queues = s.queues ∧ t.tiles = s.tiles) ∧
          ∀ st, tdReadCheck data (((insDescs i.next).filter (fun x => x.1 == d)).any (fun x => x.2)) = some st → ∃ t,
            exec (.descriptorRead lane slot d) s = .next t ∧ t.stopsWith i.q st) ∧
        (∀ u v r page, s.reading (.desc i.stream) = none → va % 128 = 0 → s.openReading (.desc i.stream) = (u, r) →
          u.lookPage (u.issuer r) accRead (va / 4096) (.reader r.id va va 128) va = (v, .found page) →
          s.portTakes (laneEast i.lane) (page * 4096 + va % 4096) → ∃ t x, exec (.descriptorRead lane slot d) s = .next t ∧
          t.waiting = s.waiting ++ [x] ∧ x.op = 0#3 ∧ x.pa = page * 4096 + va % 4096 ∧ x.len = 128 ∧ x.asid = s.qAsid i.q ∧
          t.itins = s.itins ∧ t.queues = s.queues ∧ t.tiles = s.tiles)) ∧
      (∀ ix w u v r page, (i.ix.get ix).bound = true → (i.ix.get ix).nextWindow (i.needs ix) = some w →
        alignBad (i.ix.get ix).desc (i.ix.get ix).delta = false → 0 ≤ w → w < 2 ^ 56 →
        s.openReading (.desc i.stream) = (u, r) →
        u.lookPage (u.issuer r) accRead (w.toNat / 4096) (.reader r.id w.toNat w.toNat 512) w.toNat = (v, .found page) →
        s.portTakes (s.qEast i.q) (page * 4096 + w.toNat % 4096) → ∃ t x r,
        exec (.indexWindowFetch lane slot ix) s = .next t ∧ t.tiles = s.tiles ++ [x] ∧ x.kind = .indexWin ∧
        x.stream = i.stream ∧ x.ref = ix ∧ t.waiting = s.waiting ++ [r] ∧ r.op = 0#3 ∧
        r.pa = page * 4096 + w.toNat % 4096 ∧ r.len = 512 ∧
        s.itinBecomes t i { i with ix := i.ix.set ix { i.ix.get ix with
          fetching := (i.ix.get ix).fetching ++ [w.toNat] } } ∧ t.queues = s.queues) ∧
      (decides (insOp i.next) = true → s.waiting.all (fun r => r.heldFor.isNone) = true →
        s.remote.ports.cells.all (fun c => c.2.tx.all (fun x => x.heldFor.isNone)) = true → ∃ t,
        exec (.finalMarking lane slot) s = .next t ∧
        (∀ x ∈ t.tiles, x.stream = i.stream → x.kind.ordered = true → x.final.isSome = true) ∧
        (∀ x, t.xport x = s.xport x) ∧
        { t with tiles := s.tiles, remote := { t.remote with ports := s.remote.ports } } = s)) ∧
    (s.laneOn lane = true → (s.running lane).filter s.itinReady = none → s.choose lane (s.readySlots lane) = some i →
      s.itin i.stream = some i → ∃ t, exec (.laneSwitch lane) s = .next t ∧ t.running lane = some { i with chosen := true } ∧
      (t.lane lane).ran = 0 ∧ (t.lane lane).switching =
        (s.lane lane).switching + (if (s.lane lane).run = some i.stream then 0 else 2) ∧ s.itinBecomes t i { i with chosen := true } ∧
      (∀ j ∈ s.readySlots lane, (s.qPrio i.q).toNat ≤ (s.qPrio j.q).toNat) ∧ (∀ l, l ≠ lane → t.lane l = s.lane l) ∧
      { t with lanes := s.lanes, itins := s.itins } = s) ∧
    (∀ hold x v u, v = s.fillQueue lane → s.laneOn lane = true → v.nextTile lane hold = some x → v.tileMayIssue x = true →
      v.tileCheck x = none → x.kind ≠ .xpand ∨ v.blockRoom (laneEast lane) = true →
      (v.walk x = (u, .waiting) → 0 < u.tileMisses x.id → ∃ t, exec (.tileIssue lane hold) s = .next t ∧
        (∀ y ∈ t.tiles, y.id = x.id → y.stage = .held) ∧ x.id ∉ (t.lane lane).tileq ∧ t.queues = u.queues) ∧
      (∀ y, v.walk x = (u, .covered) → u.tile x.id = some y → y.lane = lane → u.porter.subs = [] → u.remote.serves = [] →
        u.remote.owed = .empty → (if y.kind == .rowGroup || y.kind == .updateRows then y.want else y.readUnits).find?
          (fun v => paDevice (y.phys false v.1) != u.devid) = none → ∃ t, exec (.tileIssue lane hold) s = .next t ∧
        x.id ∉ (t.lane lane).tileq ∧ ∀ z ∈ t.tiles, z.id = x.id → z.stage = .issued)) ∧
    (∀ q w n y, s.alive = true → (s.lane lane).rwins.find? (fun w => w.q == q) = some w → w.needs = [n] → w.base ≤ n.pa →
      s.tile n.tile = some y → s.portTakes (s.qEast y.q) n.pa → ∃ t r, exec (.readWindowClose lane q) s = .next t ∧
      (∀ v ∈ (t.lane lane).rwins, v.q ≠ q) ∧ t.waiting = s.waiting ++ [r] ∧ r.op = 0#3 ∧ r.pa = n.pa ∧ r.len = n.len ∧
      r.q = some y.q ∧ r.dests = [.tile n.tile n.va n.pa n.len] ∧ (∀ l, l ≠ lane → t.lane l = s.lane l) ∧
      { t with lanes := s.lanes, waiting := s.waiting, nextId := s.nextId } = s) ∧
    (∀ w b y f, s.alive = true → s.itin i.stream = some i → i.lane = lane → i.wwin = some w → w.writes = [b] → s.tiles = [y] →
      y.id = b.tile → y.final = some f → isWriteOp w.op = true → (∀ l ∈ s.lost, l.stream ≠ i.stream) →
      paDevice b.pa = s.devid → s.portTakes (s.qEast i.q) (b.pa / 16 * 16) →
      (∀ j ∈ s.itins, j.place ≠ .ended) → ∃ t r, exec (.writeWindowClose lane i.stream) s = .next t ∧
      s.itinBecomes t i { i with wwin := none } ∧ t.waiting = s.waiting ++ [r] ∧ r.pa = b.pa / 16 * 16 ∧ r.len = 16 ∧
      r.op = (if w.op = 1#3 ∧ f = true then 2#3 else w.op) ∧ r.bytes = [(b.pa, b.byte)] ∧ r.heldFor = none ∧
      t.tiles = s.tiles ∧ t.queues = s.queues)

-- The Expander and the Porter.

/-- R239, R244-R248: a block takes a buffer unit and its first 512 bytes are read; one whose header, sizes and check value are right is
checked, and a longer one gets units for its payload, which is read. One whose header or check value is wrong fails with ST_CHECK_MISMATCH, one
of wrong sizes with ST_EXPAND_SIZE and one that an error reached with ST_ECC: the first in start order stops its task and is gone, a later one
waits for those before. An expanded block hands its tile the elements of R246 or R247, and one that an error has reached since fails with ST_ECC.
(That units for payloads are given out in start order is the model's choice, log 116.) -/
def Obligations.BlocksAreReadCheckedAndExpanded : Prop :=
  ∀ (s : State) (w : Wing) (b : Block) (x : Tile), s.expanderOn (wingEast w) = true → s.tile b.tile = some x →
    (s.nextBlock (wingEast w) = some b → s.unitsUsed (wingEast w) < s.bufferUnits →
      s.portTakes (s.qEast x.q) (x.phys false b.va.toNat) → ∃ t r, exec (.expanderBlockStart w) s = .next t ∧
      (∃ c ∈ t.blocks, c.id = b.id ∧ c.stage = .header ∧ c.units = 1) ∧ t.waiting = s.waiting ++ [r] ∧ r.op = 0#3 ∧
      r.pa = x.phys false b.va.toNat ∧ r.len = 512 ∧ r.holder = .expander ∧
      { t with blocks := s.blocks, waiting := s.waiting, nextId := s.nextId } = s) ∧
    (s.nextCheck (wingEast w) = some (b, x) →
      (b.stage = .header ∧ b.formOk = true ∧ b.sizeOk x = true ∧ 32 + b.pbytes ≤ 512 ∨ b.stage = .payload → b.crcOk = true →
        b.poison = false → (∀ c ∈ s.blocks, ∀ st, c.stage ≠ .failed st) → ∃ t, exec (.blockCheck w) s = .next t ∧
        t.blocks = s.blocks.map (fun c => if c.id == b.id then { c with stage := .checked } else c) ∧
        { t with blocks := s.blocks } = s) ∧
      (b.stage = .header → b.formOk = true → b.sizeOk x = true → 512 < 32 + b.pbytes →
        (∀ o, 512 ≤ o → o < 64 + b.pbytes → s.portTakes (s.qEast x.q) (x.phys false (b.va.toNat + o))) → ∃ t,
        exec (.blockCheck w) s = .next t ∧ (∃ c ∈ t.blocks, c.id = b.id ∧ c.stage = .payload ∧ c.units = b.unitsFor) ∧
        { t with blocks := s.blocks, waiting := s.waiting, nextId := s.nextId } = s) ∧
      (∀ st, b.stage = .header ∧ b.formOk = false ∧ st = stCheckMismatch ∨
          b.stage = .header ∧ b.formOk = true ∧ b.sizeOk x = false ∧ st = stExpandSize ∨
          (b.stage = .header ∧ b.formOk = true ∧ b.sizeOk x = true ∧ 32 + b.pbytes ≤ 512 ∨ b.stage = .payload) ∧
            (b.crcOk = false ∧ st = stCheckMismatch ∨ b.crcOk = true ∧ b.poison = true ∧ st = stEcc) →
        (s.blocks.find? (fun c => c.q == b.q && c.stage != .checked && !c.dropped) = some b → s.mayFail b.q → ∃ t,
          exec (.blockCheck w) s = .next t ∧ t.stopsWith b.q st ∧ ∀ c ∈ t.blocks, c.id ≠ b.id) ∧
        (∀ c, s.blocks.find? (fun c => c.q == b.q && c.stage != .checked && !c.dropped) = some c → c.id ≠ b.id →
          (∀ st, c.stage ≠ .failed st) → (s.blocks.map (fun c => c.id)).Nodup → ∃ t, exec (.blockCheck w) s = .next t ∧
          (∃ y ∈ t.blocks, y.id = b.id ∧ y.stage = .failed st) ∧ t.queues = s.queues))) ∧
    (∀ rest, s.expBlocks (wingEast w) = b :: rest → b.stage = .checked → b.dropped = false →
      (s.tiles.filter (s.inOutputStage (wingEast w))).length < 4 →
      (b.poison = false → ∃ u : State, exec (.blockExpand w) s = .next (State.sweep u) ∧
        u.blocks = s.blocks.filter (fun c => c.id != b.id) ∧ ∃ z : Tile, u.tile b.tile = some z ∧
        ∀ j0 < x.t0, ∀ j1 < x.t1, z.load (4 * (j0 + x.t0 * j1)) 4 = (b.y j1 j0).toNat) ∧
      (b.poison = true → s.blocks.find? (fun c => c.q == b.q && !c.dropped) = some b → s.mayFail b.q → ∃ t,
        exec (.blockExpand w) s = .next t ∧ t.stopsWith b.q stEcc ∧ ∀ c ∈ t.blocks, c.id ≠ b.id))

/-- R260, R264-R266, R271, R287-R289: a sub-window whose indices have come is stored with its rows and bags, and its batch goes on behind
it; until then what it needs is asked for, and one that breaks a rule stops its task. One whose rows are all there is pooled; a freed one is
gone, and the last completes its command, a LOOKUP with the number of its sub-windows. An update sub-window advances its batch by its
entries, which name its rows; RULE 0 adds LR times the gradient to each element. -/
def Obligations.SubWindowsAreBuiltPooledAndFreed : Prop :=
  ∀ (s : State) (w : Wing) (id : Nat) (b : Batch),
    (∀ u r, s.buildable (wingEast w) id = some b → b.isUpdate = false → s.openReading (.batch b.id) = (u, r) →
      (∀ x n, u.buildAll b r = .closed x n → s.corridor.failed = false → ∃ y v, exec (.subWindowBuild w id) s = .next (State.feed y) ∧
        y.porter.subs = s.porter.subs ++ [v] ∧ v.batch = b.id ∧ v.num = b.built ∧ v.rows = x.rows ∧ v.bagN = x.bagN ∧
        v.firstBag = b.atBag ∧ ∃ c ∈ y.porter.batches, c.id = b.id ∧ c.atBag = b.atBag + x.bagN.length ∧
          c.atIdx = b.atIdx + x.taken ∧ c.built = b.built + 1) ∧
      (∀ a n, u.buildAll b r = .asks a n → exec (.subWindowBuild w id) s = .next ((u.countBuild b r n).buildReads b a)) ∧
      (∀ st unit va pa n, u.buildAll b r = .fails st unit va pa n → s.mayFail b.q → ∃ t,
        exec (.subWindowBuild w id) s = .next t ∧ t.stopsWith b.q st)) ∧
    (∀ v : SubWin, s.alive = true → s.subWin id = some v → v.east = wingEast w → v.pooled = false →
      v.rows.all (fun r => r.data.isSome) = true → ∃ t, ∃ v' : SubWin, exec (.subWindowPool w id) s = .next t ∧ t.subWin id = some v' ∧
      v'.pooled = true ∧ v'.rows = v.rows ∧ v'.bagN = v.bagN ∧ t.porter.batches = s.porter.batches) ∧
    (∀ (v : SubWin) c, s.alive = true → s.subWin id = some v → v.east = wingEast w → s.subDone v = true → s.batch v.batch = some b →
      (b.isUpdate = false → b.bags ≤ b.atBag) → (b.isUpdate = true → b.total ≤ b.atIdx) → s.porter.subs = [v] →
      (s.queue b.q).cmd b.cmd = some c → cmdOp c.bytes = 0x10 ∨ cmdOp c.bytes = 0x11 → ∃ t,
      exec (.subWindowFree w id) s = .next t ∧ t.porter.subs = [] ∧ (∀ x ∈ t.porter.batches, x.id ≠ v.batch) ∧
      s.completes t b.q c (if b.isUpdate then 0 else b.built) ∧ s.queuesBut t b.q) ∧
    (∀ v : SubWin, s.alive = true → s.subWin id = some v → v.east = wingEast w → s.subDone v = true → s.batch v.batch = some b →
      b.isUpdate = false → b.atBag < b.bags → s.porter.subs = [v] → ∃ t, exec (.subWindowFree w id) s = .next t ∧
      t.porter = { s.porter with subs := [] } ∧ t.queues = s.queues) ∧
    (∀ n u r, s.buildable (wingEast w) id = some b → b.isUpdate = true → n = min (updateSpan s.cfg b.desc) (b.total - b.atIdx) →
      s.openReading (.batch b.id) = (u, r) →
      (∀ l v gs, b.entries r n = .rows l → u.readGrads b b.atIdx n = (v, some gs) → ∃ y z,
        exec (.updateSubWindow w id) s = .next (State.feed y) ∧ y.porter.subs = s.porter.subs ++ [z] ∧ z.batch = b.id ∧
        z.rows.map (fun x => x.row) = firsts l ∧ z.pooled = true ∧
        ∃ c ∈ y.porter.batches, c.id = b.id ∧ c.atIdx = b.atIdx + n ∧ c.built = b.built + 1) ∧
      (∀ st va, b.entries r n = .fails st va → s.mayFail b.q → ∃ t, exec (.updateSubWindow w id) s = .next t ∧
        t.stopsWith b.q st)) ∧
    (∀ c d (x g : List Word) (a : List Byte), cmdRule c = 0 → (s.optimise c d x g a).1 = s ∧
      (s.optimise c d x g a).2.1.length = tbDim d ∧ ∀ j < tbDim d, (s.optimise c d x g a).2.1.getD j 0 =
        addWord (x.getD j 0) (mulWord (cmdLr c) (g.getD j 0)))
end

