-- ==== Sys2Proof/Laws/Bank.lean ====
section
/-!
SUPPORT. The laws of a bank: what is read after a write, and that a write keeps the canonical form.
-/

namespace Sys2Proof

variable {α : Type}

theorem Bank.find_without_same (i : Nat) (l : List (Nat × α)) : Bank.find i (Bank.without i l) = none := by
  induction l with
  | nil => rfl
  | cons c t ih =>
    obtain ⟨j, v⟩ := c
    by_cases h : j = i
    · subst h; simpa [Bank.without] using ih
    · simpa [Bank.without, Bank.find, h] using ih

theorem Bank.find_without_other {i j : Nat} (h : j ≠ i) (l : List (Nat × α)) :
    Bank.find j (Bank.without i l) = Bank.find j l := by
  induction l with
  | nil => rfl
  | cons c t ih =>
    obtain ⟨k, v⟩ := c
    by_cases hk : k = i
    · subst hk
      have : ¬ k = j := fun e => h e.symm
      simpa [Bank.without, Bank.find, this] using ih
    · by_cases hj : k = j
      · subst hj; simp [Bank.without, Bank.find, hk]
      · simpa [Bank.without, Bank.find, hk, hj] using ih

theorem Bank.find_place_same (i : Nat) (v : α) (l : List (Nat × α)) (h : Bank.find i l = none) :
    Bank.find i (Bank.place i v l) = some v := by
  induction l with
  | nil => simp [Bank.place, Bank.find]
  | cons c t ih =>
    obtain ⟨j, w⟩ := c
    by_cases hj : j = i
    · simp [Bank.find, hj] at h
    · have ht : Bank.find i t = none := by simpa [Bank.find, hj] using h
      by_cases hl : i < j
      · simp [Bank.place, hl, Bank.find]
      · simp [Bank.place, hl, Bank.find, hj, ih ht]

theorem Bank.find_place_other {i j : Nat} (hne : j ≠ i) (v : α) (l : List (Nat × α)) :
    Bank.find j (Bank.place i v l) = Bank.find j l := by
  have hne' : ¬ i = j := fun e => hne e.symm
  induction l with
  | nil => simp [Bank.place, Bank.find, hne']
  | cons c t ih =>
    obtain ⟨k, w⟩ := c
    by_cases hl : i < k
    · simp [Bank.place, hl, Bank.find, hne']
    · by_cases hk : k = j
      · simp only [Bank.place, hl, if_false]
        simp [Bank.find, hk]
      · simp [Bank.place, hl, Bank.find, hk, ih]

/-- A number read after it was written gives what was written. -/
@[simp] theorem Bank.get_set_same [Inhabited α] [DecidableEq α] (b : Bank α) (i : Nat) (v : α) :
    (b.set i v).get i = v := by
  unfold Bank.get Bank.set
  by_cases h : v = default
  · simp [h, Bank.find_without_same]
  · simp [h, Bank.find_place_same i v _ (Bank.find_without_same i _)]

/-- Every other number reads as before. -/
theorem Bank.get_set_other [Inhabited α] [DecidableEq α] (b : Bank α) {i j : Nat} (h : j ≠ i) (v : α) :
    (b.set i v).get j = b.get j := by
  unfold Bank.get Bank.set
  by_cases hv : v = default
  · simp [hv, Bank.find_without_other h]
  · simp [hv, Bank.find_place_other h, Bank.find_without_other h]

theorem Bank.get_set [Inhabited α] [DecidableEq α] (b : Bank α) (i j : Nat) (v : α) :
    (b.set i v).get j = if j = i then v else b.get j := by
  by_cases h : j = i
  · subst h; simp
  · simp [h, Bank.get_set_other b h]

@[simp] theorem Bank.get_empty [Inhabited α] (i : Nat) : (Bank.empty : Bank α).get i = default := rfl

@[simp] theorem Bank.wf_empty [Inhabited α] [DecidableEq α] : (Bank.empty : Bank α).wf = true := rfl

theorem Bank.mem_without {i : Nat} {l : List (Nat × α)} {c : Nat × α} (h : c ∈ Bank.without i l) :
    c ∈ l ∧ c.1 ≠ i := by
  simpa [Bank.without] using h

theorem Bank.mem_place {i : Nat} {v : α} {l : List (Nat × α)} {c : Nat × α} (h : c ∈ Bank.place i v l) :
    c = (i, v) ∨ c ∈ l := by
  induction l with
  | nil => simpa [Bank.place] using h
  | cons d t ih =>
    obtain ⟨j, w⟩ := d
    by_cases hl : i < j
    · simpa [Bank.place, hl] using h
    · simp only [Bank.place, hl, if_false, List.mem_cons] at h
      rcases h with h | h
      · simp [h]
      · rcases ih h with h | h <;> simp [h]

theorem Bank.pairwise_place {i : Nat} {v : α} {l : List (Nat × α)} (h : l.Pairwise (fun x y => x.1 < y.1))
    (hi : ∀ c ∈ l, c.1 ≠ i) : (Bank.place i v l).Pairwise (fun x y => x.1 < y.1) := by
  induction l with
  | nil => simp [Bank.place]
  | cons d t ih =>
    obtain ⟨j, w⟩ := d
    rw [List.pairwise_cons] at h
    by_cases hl : i < j
    · simp only [Bank.place, hl, if_true, List.pairwise_cons]
      refine ⟨?_, h.1, h.2⟩
      intro c hc
      rcases List.mem_cons.1 hc with rfl | hc
      · exact hl
      · exact Nat.lt_trans hl (h.1 c hc)
    · simp only [Bank.place, hl, if_false, List.pairwise_cons]
      refine ⟨?_, ih h.2 (fun c hc => hi c (List.mem_cons_of_mem _ hc))⟩
      intro c hc
      have hj := hi (j, w) (by simp)
      rcases Bank.mem_place hc with rfl | hc
      · simp only at hj ⊢; omega
      · exact h.1 c hc

/-- A write keeps the canonical form. -/
theorem Bank.wf_set [Inhabited α] [DecidableEq α] (b : Bank α) (i : Nat) (v : α) (h : b.wf = true) :
    (b.set i v).wf = true := by
  simp only [Bank.wf, Bool.and_eq_true, decide_eq_true_eq, List.all_eq_true, ne_eq] at h ⊢
  obtain ⟨hp, hd⟩ := h
  have hw : (Bank.without i b.cells).Pairwise (fun x y => x.1 < y.1) := hp.filter _
  unfold Bank.set
  by_cases hv : v = default
  · simp only [hv, if_true]
    exact ⟨hw, fun c hc => hd c (Bank.mem_without hc).1⟩
  · simp only [hv, if_false]
    refine ⟨Bank.pairwise_place hw (fun c hc => (Bank.mem_without hc).2), fun c hc => ?_⟩
    rcases Bank.mem_place hc with rfl | hc
    · simpa using hv
    · exact hd c (Bank.mem_without hc).1

theorem Bank.foldl_set_get [Inhabited α] [DecidableEq α] (g : Nat → α) (l : List (Nat × α)) (a : Bank α) (i : Nat) :
    (l.foldl (fun a c => a.set c.1 (g c.1)) a).get i = if i ∈ l.map (fun c => c.1) then g i else a.get i := by
  induction l generalizing a with
  | nil => simp
  | cons c t ih =>
    rw [List.foldl_cons, ih, Bank.get_set]
    by_cases h : i = c.1 <;> by_cases h' : i ∈ t.map (fun c => c.1) <;> simp_all

theorem Bank.find_none {i : Nat} {l : List (Nat × α)} (h : i ∉ l.map (fun c => c.1)) : Bank.find i l = none := by
  induction l with
  | nil => rfl
  | cons c t ih =>
    simp only [List.map_cons, List.mem_cons, not_or] at h
    rw [Bank.find, if_neg (Ne.symm h.1), ih h.2]

/-- What a number reads as once `each` has changed the listed ones. -/
theorem Bank.get_each [Inhabited α] [DecidableEq α] (b : Bank α) (f : Nat → α → α) (i : Nat) (h : f i default = default) :
    (b.each f).get i = f i (b.get i) := by
  unfold Bank.each
  rw [Bank.foldl_set_get (fun j => f j (b.get j))]
  split
  · rfl
  · next hm => rw [Bank.get, Bank.find_none hm]; exact h.symm

theorem Bank.wf_each [Inhabited α] [DecidableEq α] (b : Bank α) (f : Nat → α → α) (h : b.wf = true) : (b.each f).wf = true := by
  unfold Bank.each
  generalize hg : (fun (c : Nat × α) => f c.1 (b.get c.1)) = g
  have key : ∀ (l : List (Nat × α)) (a : Bank α), a.wf = true → (l.foldl (fun a c => a.set c.1 (g c)) a).wf = true := by
    intro l
    induction l with
    | nil => exact fun _ h => h
    | cons c t ih => exact fun a ha => ih _ (Bank.wf_set a c.1 (g c) ha)
  subst hg
  exact key b.cells b h

end Sys2Proof
end

