-- ==== Sys2Proof/Laws/State.lean ====
section
/-!
SUPPORT. One law per field of the state and per plain update of it, and what an accessor gives after the update of its
own part.
-/

namespace Sys2Proof.Machine

@[simp] theorem State.setQueue_pending (s : State) (q : Nat) (v : Queue) : (s.setQueue q v).pending = s.pending := (rfl)
@[simp] theorem State.setQueue_cfg (s : State) (q : Nat) (v : Queue) : (s.setQueue q v).cfg = s.cfg := (rfl)
@[simp] theorem State.setQueue_pins (s : State) (q : Nat) (v : Queue) : (s.setQueue q v).pins = s.pins := (rfl)
@[simp] theorem State.setQueue_regs (s : State) (q : Nat) (v : Queue) : (s.setQueue q v).regs = s.regs := (rfl)
@[simp] theorem State.setQueue_ccyc (s : State) (q : Nat) (v : Queue) : (s.setQueue q v).ccyc = s.ccyc := (rfl)
@[simp] theorem State.setQueue_ccycLatch (s : State) (q : Nat) (v : Queue) : (s.setQueue q v).ccycLatch = s.ccycLatch := (rfl)
@[simp] theorem State.setQueue_power (s : State) (q : Nat) (v : Queue) : (s.setQueue q v).power = s.power := (rfl)
@[simp] theorem State.setQueue_boot (s : State) (q : Nat) (v : Queue) : (s.setQueue q v).boot = s.boot := (rfl)
@[simp] theorem State.setQueue_tap (s : State) (q : Nat) (v : Queue) : (s.setQueue q v).tap = s.tap := (rfl)
@[simp] theorem State.setQueue_preempted (s : State) (q : Nat) (v : Queue) : (s.setQueue q v).preempted = s.preempted := (rfl)
@[simp] theorem State.setQueue_nextId (s : State) (q : Nat) (v : Queue) : (s.setQueue q v).nextId = s.nextId := (rfl)
@[simp] theorem State.setQueue_seqs (s : State) (q : Nat) (v : Queue) : (s.setQueue q v).seqs = s.seqs := (rfl)
@[simp] theorem State.setQueue_sems (s : State) (q : Nat) (v : Queue) : (s.setQueue q v).sems = s.sems := (rfl)
@[simp] theorem State.setQueue_turns (s : State) (q : Nat) (v : Queue) : (s.setQueue q v).turns = s.turns := (rfl)
@[simp] theorem State.setQueue_incsDue (s : State) (q : Nat) (v : Queue) : (s.setQueue q v).incsDue = s.incsDue := (rfl)
@[simp] theorem State.setQueue_cpWaits (s : State) (q : Nat) (v : Queue) : (s.setQueue q v).cpWaits = s.cpWaits := (rfl)
@[simp] theorem State.setQueue_rings (s : State) (q : Nat) (v : Queue) : (s.setQueue q v).rings = s.rings := (rfl)
@[simp] theorem State.setQueue_lag (s : State) (q : Nat) (v : Queue) : (s.setQueue q v).lag = s.lag := (rfl)
@[simp] theorem State.setQueue_lanes (s : State) (q : Nat) (v : Queue) : (s.setQueue q v).lanes = s.lanes := (rfl)
@[simp] theorem State.setQueue_itins (s : State) (q : Nat) (v : Queue) : (s.setQueue q v).itins = s.itins := (rfl)
@[simp] theorem State.setQueue_tiles (s : State) (q : Nat) (v : Queue) : (s.setQueue q v).tiles = s.tiles := (rfl)
@[simp] theorem State.setQueue_releases (s : State) (q : Nat) (v : Queue) : (s.setQueue q v).releases = s.releases := (rfl)
@[simp] theorem State.setQueue_mports (s : State) (q : Nat) (v : Queue) : (s.setQueue q v).mports = s.mports := (rfl)
@[simp] theorem State.setQueue_waiting (s : State) (q : Nat) (v : Queue) : (s.setQueue q v).waiting = s.waiting := (rfl)
@[simp] theorem State.setQueue_outs (s : State) (q : Nat) (v : Queue) : (s.setQueue q v).outs = s.outs := (rfl)
@[simp] theorem State.setQueue_lost (s : State) (q : Nat) (v : Queue) : (s.setQueue q v).lost = s.lost := (rfl)
@[simp] theorem State.setQueue_readings (s : State) (q : Nat) (v : Queue) : (s.setQueue q v).readings = s.readings := (rfl)
@[simp] theorem State.setQueue_records (s : State) (q : Nat) (v : Queue) : (s.setQueue q v).records = s.records := (rfl)
@[simp] theorem State.setQueue_cports (s : State) (q : Nat) (v : Queue) : (s.setQueue q v).cports = s.cports := (rfl)
@[simp] theorem State.setQueue_l1 (s : State) (q : Nat) (v : Queue) : (s.setQueue q v).l1 = s.l1 := (rfl)
@[simp] theorem State.setQueue_l2 (s : State) (q : Nat) (v : Queue) : (s.setQueue q v).l2 = s.l2 := (rfl)
@[simp] theorem State.setQueue_misses (s : State) (q : Nat) (v : Queue) : (s.setQueue q v).misses = s.misses := (rfl)
@[simp] theorem State.setQueue_invals (s : State) (q : Nat) (v : Queue) : (s.setQueue q v).invals = s.invals := (rfl)
@[simp] theorem State.setQueue_remote (s : State) (q : Nat) (v : Queue) : (s.setQueue q v).remote = s.remote := (rfl)
@[simp] theorem State.setQueue_corridor (s : State) (q : Nat) (v : Queue) : (s.setQueue q v).corridor = s.corridor := (rfl)
@[simp] theorem State.setQueue_tables (s : State) (q : Nat) (v : Queue) : (s.setQueue q v).tables = s.tables := (rfl)
@[simp] theorem State.setQueue_porter (s : State) (q : Nat) (v : Queue) : (s.setQueue q v).porter = s.porter := (rfl)
@[simp] theorem State.setQueue_larder (s : State) (q : Nat) (v : Queue) : (s.setQueue q v).larder = s.larder := (rfl)
@[simp] theorem State.setQueue_blocks (s : State) (q : Nat) (v : Queue) : (s.setQueue q v).blocks = s.blocks := (rfl)
@[simp] theorem State.setQueue_hall (s : State) (q : Nat) (v : Queue) : (s.setQueue q v).hall = s.hall := (rfl)
@[simp] theorem State.setQueue_ledger (s : State) (q : Nat) (v : Queue) : (s.setQueue q v).ledger = s.ledger := (rfl)
@[simp] theorem State.setQueue_rel (s : State) (q : Nat) (v : Queue) : (s.setQueue q v).rel = s.rel := (rfl)
@[simp] theorem State.setQueue_tally (s : State) (q : Nat) (v : Queue) : (s.setQueue q v).tally = s.tally := (rfl)
@[simp] theorem State.setQueue_pghs (s : State) (q : Nat) (v : Queue) : (s.setQueue q v).pghs = s.pghs := (rfl)
@[simp] theorem State.setQueue_out (s : State) (q : Nat) (v : Queue) : (s.setQueue q v).out = s.out := (rfl)
@[simp] theorem State.setQueue_free (s : State) (q : Nat) (v : Queue) : (s.setQueue q v).free = s.free := (rfl)
@[simp] theorem State.updQueue_pending (s : State) (q : Nat) (f : Queue → Queue) : (s.updQueue q f).pending = s.pending := (rfl)
@[simp] theorem State.updQueue_cfg (s : State) (q : Nat) (f : Queue → Queue) : (s.updQueue q f).cfg = s.cfg := (rfl)
@[simp] theorem State.updQueue_pins (s : State) (q : Nat) (f : Queue → Queue) : (s.updQueue q f).pins = s.pins := (rfl)
@[simp] theorem State.updQueue_regs (s : State) (q : Nat) (f : Queue → Queue) : (s.updQueue q f).regs = s.regs := (rfl)
@[simp] theorem State.updQueue_ccyc (s : State) (q : Nat) (f : Queue → Queue) : (s.updQueue q f).ccyc = s.ccyc := (rfl)
@[simp] theorem State.updQueue_ccycLatch (s : State) (q : Nat) (f : Queue → Queue) : (s.updQueue q f).ccycLatch = s.ccycLatch := (rfl)
@[simp] theorem State.updQueue_power (s : State) (q : Nat) (f : Queue → Queue) : (s.updQueue q f).power = s.power := (rfl)
@[simp] theorem State.updQueue_boot (s : State) (q : Nat) (f : Queue → Queue) : (s.updQueue q f).boot = s.boot := (rfl)
@[simp] theorem State.updQueue_tap (s : State) (q : Nat) (f : Queue → Queue) : (s.updQueue q f).tap = s.tap := (rfl)
@[simp] theorem State.updQueue_preempted (s : State) (q : Nat) (f : Queue → Queue) : (s.updQueue q f).preempted = s.preempted := (rfl)
@[simp] theorem State.updQueue_nextId (s : State) (q : Nat) (f : Queue → Queue) : (s.updQueue q f).nextId = s.nextId := (rfl)
@[simp] theorem State.updQueue_seqs (s : State) (q : Nat) (f : Queue → Queue) : (s.updQueue q f).seqs = s.seqs := (rfl)
@[simp] theorem State.updQueue_sems (s : State) (q : Nat) (f : Queue → Queue) : (s.updQueue q f).sems = s.sems := (rfl)
@[simp] theorem State.updQueue_turns (s : State) (q : Nat) (f : Queue → Queue) : (s.updQueue q f).turns = s.turns := (rfl)
@[simp] theorem State.updQueue_incsDue (s : State) (q : Nat) (f : Queue → Queue) : (s.updQueue q f).incsDue = s.incsDue := (rfl)
@[simp] theorem State.updQueue_cpWaits (s : State) (q : Nat) (f : Queue → Queue) : (s.updQueue q f).cpWaits = s.cpWaits := (rfl)
@[simp] theorem State.updQueue_rings (s : State) (q : Nat) (f : Queue → Queue) : (s.updQueue q f).rings = s.rings := (rfl)
@[simp] theorem State.updQueue_lag (s : State) (q : Nat) (f : Queue → Queue) : (s.updQueue q f).lag = s.lag := (rfl)
@[simp] theorem State.updQueue_lanes (s : State) (q : Nat) (f : Queue → Queue) : (s.updQueue q f).lanes = s.lanes := (rfl)
@[simp] theorem State.updQueue_itins (s : State) (q : Nat) (f : Queue → Queue) : (s.updQueue q f).itins = s.itins := (rfl)
@[simp] theorem State.updQueue_tiles (s : State) (q : Nat) (f : Queue → Queue) : (s.updQueue q f).tiles = s.tiles := (rfl)
@[simp] theorem State.updQueue_releases (s : State) (q : Nat) (f : Queue → Queue) : (s.updQueue q f).releases = s.releases := (rfl)
@[simp] theorem State.updQueue_mports (s : State) (q : Nat) (f : Queue → Queue) : (s.updQueue q f).mports = s.mports := (rfl)
@[simp] theorem State.updQueue_waiting (s : State) (q : Nat) (f : Queue → Queue) : (s.updQueue q f).waiting = s.waiting := (rfl)
@[simp] theorem State.updQueue_outs (s : State) (q : Nat) (f : Queue → Queue) : (s.updQueue q f).outs = s.outs := (rfl)
@[simp] theorem State.updQueue_lost (s : State) (q : Nat) (f : Queue → Queue) : (s.updQueue q f).lost = s.lost := (rfl)
@[simp] theorem State.updQueue_readings (s : State) (q : Nat) (f : Queue → Queue) : (s.updQueue q f).readings = s.readings := (rfl)
@[simp] theorem State.updQueue_records (s : State) (q : Nat) (f : Queue → Queue) : (s.updQueue q f).records = s.records := (rfl)
@[simp] theorem State.updQueue_cports (s : State) (q : Nat) (f : Queue → Queue) : (s.updQueue q f).cports = s.cports := (rfl)
@[simp] theorem State.updQueue_l1 (s : State) (q : Nat) (f : Queue → Queue) : (s.updQueue q f).l1 = s.l1 := (rfl)
@[simp] theorem State.updQueue_l2 (s : State) (q : Nat) (f : Queue → Queue) : (s.updQueue q f).l2 = s.l2 := (rfl)
@[simp] theorem State.updQueue_misses (s : State) (q : Nat) (f : Queue → Queue) : (s.updQueue q f).misses = s.misses := (rfl)
@[simp] theorem State.updQueue_invals (s : State) (q : Nat) (f : Queue → Queue) : (s.updQueue q f).invals = s.invals := (rfl)
@[simp] theorem State.updQueue_remote (s : State) (q : Nat) (f : Queue → Queue) : (s.updQueue q f).remote = s.remote := (rfl)
@[simp] theorem State.updQueue_corridor (s : State) (q : Nat) (f : Queue → Queue) : (s.updQueue q f).corridor = s.corridor := (rfl)
@[simp] theorem State.updQueue_tables (s : State) (q : Nat) (f : Queue → Queue) : (s.updQueue q f).tables = s.tables := (rfl)
@[simp] theorem State.updQueue_porter (s : State) (q : Nat) (f : Queue → Queue) : (s.updQueue q f).porter = s.porter := (rfl)
@[simp] theorem State.updQueue_larder (s : State) (q : Nat) (f : Queue → Queue) : (s.updQueue q f).larder = s.larder := (rfl)
@[simp] theorem State.updQueue_blocks (s : State) (q : Nat) (f : Queue → Queue) : (s.updQueue q f).blocks = s.blocks := (rfl)
@[simp] theorem State.updQueue_hall (s : State) (q : Nat) (f : Queue → Queue) : (s.updQueue q f).hall = s.hall := (rfl)
@[simp] theorem State.updQueue_ledger (s : State) (q : Nat) (f : Queue → Queue) : (s.updQueue q f).ledger = s.ledger := (rfl)
@[simp] theorem State.updQueue_rel (s : State) (q : Nat) (f : Queue → Queue) : (s.updQueue q f).rel = s.rel := (rfl)
@[simp] theorem State.updQueue_tally (s : State) (q : Nat) (f : Queue → Queue) : (s.updQueue q f).tally = s.tally := (rfl)
@[simp] theorem State.updQueue_pghs (s : State) (q : Nat) (f : Queue → Queue) : (s.updQueue q f).pghs = s.pghs := (rfl)
@[simp] theorem State.updQueue_out (s : State) (q : Nat) (f : Queue → Queue) : (s.updQueue q f).out = s.out := (rfl)
@[simp] theorem State.updQueue_free (s : State) (q : Nat) (f : Queue → Queue) : (s.updQueue q f).free = s.free := (rfl)
@[simp] theorem State.setSem_pending (s : State) (i : Nat) (v : Sem) : (s.setSem i v).pending = s.pending := (rfl)
@[simp] theorem State.setSem_cfg (s : State) (i : Nat) (v : Sem) : (s.setSem i v).cfg = s.cfg := (rfl)
@[simp] theorem State.setSem_pins (s : State) (i : Nat) (v : Sem) : (s.setSem i v).pins = s.pins := (rfl)
@[simp] theorem State.setSem_regs (s : State) (i : Nat) (v : Sem) : (s.setSem i v).regs = s.regs := (rfl)
@[simp] theorem State.setSem_ccyc (s : State) (i : Nat) (v : Sem) : (s.setSem i v).ccyc = s.ccyc := (rfl)
@[simp] theorem State.setSem_ccycLatch (s : State) (i : Nat) (v : Sem) : (s.setSem i v).ccycLatch = s.ccycLatch := (rfl)
@[simp] theorem State.setSem_power (s : State) (i : Nat) (v : Sem) : (s.setSem i v).power = s.power := (rfl)
@[simp] theorem State.setSem_boot (s : State) (i : Nat) (v : Sem) : (s.setSem i v).boot = s.boot := (rfl)
@[simp] theorem State.setSem_tap (s : State) (i : Nat) (v : Sem) : (s.setSem i v).tap = s.tap := (rfl)
@[simp] theorem State.setSem_queues (s : State) (i : Nat) (v : Sem) : (s.setSem i v).queues = s.queues := (rfl)
@[simp] theorem State.setSem_preempted (s : State) (i : Nat) (v : Sem) : (s.setSem i v).preempted = s.preempted := (rfl)
@[simp] theorem State.setSem_nextId (s : State) (i : Nat) (v : Sem) : (s.setSem i v).nextId = s.nextId := (rfl)
@[simp] theorem State.setSem_seqs (s : State) (i : Nat) (v : Sem) : (s.setSem i v).seqs = s.seqs := (rfl)
@[simp] theorem State.setSem_turns (s : State) (i : Nat) (v : Sem) : (s.setSem i v).turns = s.turns := (rfl)
@[simp] theorem State.setSem_incsDue (s : State) (i : Nat) (v : Sem) : (s.setSem i v).incsDue = s.incsDue := (rfl)
@[simp] theorem State.setSem_cpWaits (s : State) (i : Nat) (v : Sem) : (s.setSem i v).cpWaits = s.cpWaits := (rfl)
@[simp] theorem State.setSem_rings (s : State) (i : Nat) (v : Sem) : (s.setSem i v).rings = s.rings := (rfl)
@[simp] theorem State.setSem_lag (s : State) (i : Nat) (v : Sem) : (s.setSem i v).lag = s.lag := (rfl)
@[simp] theorem State.setSem_lanes (s : State) (i : Nat) (v : Sem) : (s.setSem i v).lanes = s.lanes := (rfl)
@[simp] theorem State.setSem_itins (s : State) (i : Nat) (v : Sem) : (s.setSem i v).itins = s.itins := (rfl)
@[simp] theorem State.setSem_tiles (s : State) (i : Nat) (v : Sem) : (s.setSem i v).tiles = s.tiles := (rfl)
@[simp] theorem State.setSem_releases (s : State) (i : Nat) (v : Sem) : (s.setSem i v).releases = s.releases := (rfl)
@[simp] theorem State.setSem_mports (s : State) (i : Nat) (v : Sem) : (s.setSem i v).mports = s.mports := (rfl)
@[simp] theorem State.setSem_waiting (s : State) (i : Nat) (v : Sem) : (s.setSem i v).waiting = s.waiting := (rfl)
@[simp] theorem State.setSem_outs (s : State) (i : Nat) (v : Sem) : (s.setSem i v).outs = s.outs := (rfl)
@[simp] theorem State.setSem_lost (s : State) (i : Nat) (v : Sem) : (s.setSem i v).lost = s.lost := (rfl)
@[simp] theorem State.setSem_readings (s : State) (i : Nat) (v : Sem) : (s.setSem i v).readings = s.readings := (rfl)
@[simp] theorem State.setSem_records (s : State) (i : Nat) (v : Sem) : (s.setSem i v).records = s.records := (rfl)
@[simp] theorem State.setSem_cports (s : State) (i : Nat) (v : Sem) : (s.setSem i v).cports = s.cports := (rfl)
@[simp] theorem State.setSem_l1 (s : State) (i : Nat) (v : Sem) : (s.setSem i v).l1 = s.l1 := (rfl)
@[simp] theorem State.setSem_l2 (s : State) (i : Nat) (v : Sem) : (s.setSem i v).l2 = s.l2 := (rfl)
@[simp] theorem State.setSem_misses (s : State) (i : Nat) (v : Sem) : (s.setSem i v).misses = s.misses := (rfl)
@[simp] theorem State.setSem_invals (s : State) (i : Nat) (v : Sem) : (s.setSem i v).invals = s.invals := (rfl)
@[simp] theorem State.setSem_remote (s : State) (i : Nat) (v : Sem) : (s.setSem i v).remote = s.remote := (rfl)
@[simp] theorem State.setSem_corridor (s : State) (i : Nat) (v : Sem) : (s.setSem i v).corridor = s.corridor := (rfl)
@[simp] theorem State.setSem_tables (s : State) (i : Nat) (v : Sem) : (s.setSem i v).tables = s.tables := (rfl)
@[simp] theorem State.setSem_porter (s : State) (i : Nat) (v : Sem) : (s.setSem i v).porter = s.porter := (rfl)
@[simp] theorem State.setSem_larder (s : State) (i : Nat) (v : Sem) : (s.setSem i v).larder = s.larder := (rfl)
@[simp] theorem State.setSem_blocks (s : State) (i : Nat) (v : Sem) : (s.setSem i v).blocks = s.blocks := (rfl)
@[simp] theorem State.setSem_hall (s : State) (i : Nat) (v : Sem) : (s.setSem i v).hall = s.hall := (rfl)
@[simp] theorem State.setSem_ledger (s : State) (i : Nat) (v : Sem) : (s.setSem i v).ledger = s.ledger := (rfl)
@[simp] theorem State.setSem_rel (s : State) (i : Nat) (v : Sem) : (s.setSem i v).rel = s.rel := (rfl)
@[simp] theorem State.setSem_tally (s : State) (i : Nat) (v : Sem) : (s.setSem i v).tally = s.tally := (rfl)
@[simp] theorem State.setSem_pghs (s : State) (i : Nat) (v : Sem) : (s.setSem i v).pghs = s.pghs := (rfl)
@[simp] theorem State.setSem_out (s : State) (i : Nat) (v : Sem) : (s.setSem i v).out = s.out := (rfl)
@[simp] theorem State.setSem_free (s : State) (i : Nat) (v : Sem) : (s.setSem i v).free = s.free := (rfl)
@[simp] theorem State.updSem_pending (s : State) (i : Nat) (f : Sem → Sem) : (s.updSem i f).pending = s.pending := (rfl)
@[simp] theorem State.updSem_cfg (s : State) (i : Nat) (f : Sem → Sem) : (s.updSem i f).cfg = s.cfg := (rfl)
@[simp] theorem State.updSem_pins (s : State) (i : Nat) (f : Sem → Sem) : (s.updSem i f).pins = s.pins := (rfl)
@[simp] theorem State.updSem_regs (s : State) (i : Nat) (f : Sem → Sem) : (s.updSem i f).regs = s.regs := (rfl)
@[simp] theorem State.updSem_ccyc (s : State) (i : Nat) (f : Sem → Sem) : (s.updSem i f).ccyc = s.ccyc := (rfl)
@[simp] theorem State.updSem_ccycLatch (s : State) (i : Nat) (f : Sem → Sem) : (s.updSem i f).ccycLatch = s.ccycLatch := (rfl)
@[simp] theorem State.updSem_power (s : State) (i : Nat) (f : Sem → Sem) : (s.updSem i f).power = s.power := (rfl)
@[simp] theorem State.updSem_boot (s : State) (i : Nat) (f : Sem → Sem) : (s.updSem i f).boot = s.boot := (rfl)
@[simp] theorem State.updSem_tap (s : State) (i : Nat) (f : Sem → Sem) : (s.updSem i f).tap = s.tap := (rfl)
@[simp] theorem State.updSem_queues (s : State) (i : Nat) (f : Sem → Sem) : (s.updSem i f).queues = s.queues := (rfl)
@[simp] theorem State.updSem_preempted (s : State) (i : Nat) (f : Sem → Sem) : (s.updSem i f).preempted = s.preempted := (rfl)
@[simp] theorem State.updSem_nextId (s : State) (i : Nat) (f : Sem → Sem) : (s.updSem i f).nextId = s.nextId := (rfl)
@[simp] theorem State.updSem_seqs (s : State) (i : Nat) (f : Sem → Sem) : (s.updSem i f).seqs = s.seqs := (rfl)
@[simp] theorem State.updSem_turns (s : State) (i : Nat) (f : Sem → Sem) : (s.updSem i f).turns = s.turns := (rfl)
@[simp] theorem State.updSem_incsDue (s : State) (i : Nat) (f : Sem → Sem) : (s.updSem i f).incsDue = s.incsDue := (rfl)
@[simp] theorem State.updSem_cpWaits (s : State) (i : Nat) (f : Sem → Sem) : (s.updSem i f).cpWaits = s.cpWaits := (rfl)
@[simp] theorem State.updSem_rings (s : State) (i : Nat) (f : Sem → Sem) : (s.updSem i f).rings = s.rings := (rfl)
@[simp] theorem State.updSem_lag (s : State) (i : Nat) (f : Sem → Sem) : (s.updSem i f).lag = s.lag := (rfl)
@[simp] theorem State.updSem_lanes (s : State) (i : Nat) (f : Sem → Sem) : (s.updSem i f).lanes = s.lanes := (rfl)
@[simp] theorem State.updSem_itins (s : State) (i : Nat) (f : Sem → Sem) : (s.updSem i f).itins = s.itins := (rfl)
@[simp] theorem State.updSem_tiles (s : State) (i : Nat) (f : Sem → Sem) : (s.updSem i f).tiles = s.tiles := (rfl)
@[simp] theorem State.updSem_releases (s : State) (i : Nat) (f : Sem → Sem) : (s.updSem i f).releases = s.releases := (rfl)
@[simp] theorem State.updSem_mports (s : State) (i : Nat) (f : Sem → Sem) : (s.updSem i f).mports = s.mports := (rfl)
@[simp] theorem State.updSem_waiting (s : State) (i : Nat) (f : Sem → Sem) : (s.updSem i f).waiting = s.waiting := (rfl)
@[simp] theorem State.updSem_outs (s : State) (i : Nat) (f : Sem → Sem) : (s.updSem i f).outs = s.outs := (rfl)
@[simp] theorem State.updSem_lost (s : State) (i : Nat) (f : Sem → Sem) : (s.updSem i f).lost = s.lost := (rfl)
@[simp] theorem State.updSem_readings (s : State) (i : Nat) (f : Sem → Sem) : (s.updSem i f).readings = s.readings := (rfl)
@[simp] theorem State.updSem_records (s : State) (i : Nat) (f : Sem → Sem) : (s.updSem i f).records = s.records := (rfl)
@[simp] theorem State.updSem_cports (s : State) (i : Nat) (f : Sem → Sem) : (s.updSem i f).cports = s.cports := (rfl)
@[simp] theorem State.updSem_l1 (s : State) (i : Nat) (f : Sem → Sem) : (s.updSem i f).l1 = s.l1 := (rfl)
@[simp] theorem State.updSem_l2 (s : State) (i : Nat) (f : Sem → Sem) : (s.updSem i f).l2 = s.l2 := (rfl)
@[simp] theorem State.updSem_misses (s : State) (i : Nat) (f : Sem → Sem) : (s.updSem i f).misses = s.misses := (rfl)
@[simp] theorem State.updSem_invals (s : State) (i : Nat) (f : Sem → Sem) : (s.updSem i f).invals = s.invals := (rfl)
@[simp] theorem State.updSem_remote (s : State) (i : Nat) (f : Sem → Sem) : (s.updSem i f).remote = s.remote := (rfl)
@[simp] theorem State.updSem_corridor (s : State) (i : Nat) (f : Sem → Sem) : (s.updSem i f).corridor = s.corridor := (rfl)
@[simp] theorem State.updSem_tables (s : State) (i : Nat) (f : Sem → Sem) : (s.updSem i f).tables = s.tables := (rfl)
@[simp] theorem State.updSem_porter (s : State) (i : Nat) (f : Sem → Sem) : (s.updSem i f).porter = s.porter := (rfl)
@[simp] theorem State.updSem_larder (s : State) (i : Nat) (f : Sem → Sem) : (s.updSem i f).larder = s.larder := (rfl)
@[simp] theorem State.updSem_blocks (s : State) (i : Nat) (f : Sem → Sem) : (s.updSem i f).blocks = s.blocks := (rfl)
@[simp] theorem State.updSem_hall (s : State) (i : Nat) (f : Sem → Sem) : (s.updSem i f).hall = s.hall := (rfl)
@[simp] theorem State.updSem_ledger (s : State) (i : Nat) (f : Sem → Sem) : (s.updSem i f).ledger = s.ledger := (rfl)
@[simp] theorem State.updSem_rel (s : State) (i : Nat) (f : Sem → Sem) : (s.updSem i f).rel = s.rel := (rfl)
@[simp] theorem State.updSem_tally (s : State) (i : Nat) (f : Sem → Sem) : (s.updSem i f).tally = s.tally := (rfl)
@[simp] theorem State.updSem_pghs (s : State) (i : Nat) (f : Sem → Sem) : (s.updSem i f).pghs = s.pghs := (rfl)
@[simp] theorem State.updSem_out (s : State) (i : Nat) (f : Sem → Sem) : (s.updSem i f).out = s.out := (rfl)
@[simp] theorem State.updSem_free (s : State) (i : Nat) (f : Sem → Sem) : (s.updSem i f).free = s.free := (rfl)
@[simp] theorem State.setRing_pending (s : State) (r : Nat) (v : Ring) : (s.setRing r v).pending = s.pending := (rfl)
@[simp] theorem State.setRing_cfg (s : State) (r : Nat) (v : Ring) : (s.setRing r v).cfg = s.cfg := (rfl)
@[simp] theorem State.setRing_pins (s : State) (r : Nat) (v : Ring) : (s.setRing r v).pins = s.pins := (rfl)
@[simp] theorem State.setRing_regs (s : State) (r : Nat) (v : Ring) : (s.setRing r v).regs = s.regs := (rfl)
@[simp] theorem State.setRing_ccyc (s : State) (r : Nat) (v : Ring) : (s.setRing r v).ccyc = s.ccyc := (rfl)
@[simp] theorem State.setRing_ccycLatch (s : State) (r : Nat) (v : Ring) : (s.setRing r v).ccycLatch = s.ccycLatch := (rfl)
@[simp] theorem State.setRing_power (s : State) (r : Nat) (v : Ring) : (s.setRing r v).power = s.power := (rfl)
@[simp] theorem State.setRing_boot (s : State) (r : Nat) (v : Ring) : (s.setRing r v).boot = s.boot := (rfl)
@[simp] theorem State.setRing_tap (s : State) (r : Nat) (v : Ring) : (s.setRing r v).tap = s.tap := (rfl)
@[simp] theorem State.setRing_queues (s : State) (r : Nat) (v : Ring) : (s.setRing r v).queues = s.queues := (rfl)
@[simp] theorem State.setRing_preempted (s : State) (r : Nat) (v : Ring) : (s.setRing r v).preempted = s.preempted := (rfl)
@[simp] theorem State.setRing_nextId (s : State) (r : Nat) (v : Ring) : (s.setRing r v).nextId = s.nextId := (rfl)
@[simp] theorem State.setRing_seqs (s : State) (r : Nat) (v : Ring) : (s.setRing r v).seqs = s.seqs := (rfl)
@[simp] theorem State.setRing_sems (s : State) (r : Nat) (v : Ring) : (s.setRing r v).sems = s.sems := (rfl)
@[simp] theorem State.setRing_turns (s : State) (r : Nat) (v : Ring) : (s.setRing r v).turns = s.turns := (rfl)
@[simp] theorem State.setRing_incsDue (s : State) (r : Nat) (v : Ring) : (s.setRing r v).incsDue = s.incsDue := (rfl)
@[simp] theorem State.setRing_cpWaits (s : State) (r : Nat) (v : Ring) : (s.setRing r v).cpWaits = s.cpWaits := (rfl)
@[simp] theorem State.setRing_lag (s : State) (r : Nat) (v : Ring) : (s.setRing r v).lag = s.lag := (rfl)
@[simp] theorem State.setRing_lanes (s : State) (r : Nat) (v : Ring) : (s.setRing r v).lanes = s.lanes := (rfl)
@[simp] theorem State.setRing_itins (s : State) (r : Nat) (v : Ring) : (s.setRing r v).itins = s.itins := (rfl)
@[simp] theorem State.setRing_tiles (s : State) (r : Nat) (v : Ring) : (s.setRing r v).tiles = s.tiles := (rfl)
@[simp] theorem State.setRing_releases (s : State) (r : Nat) (v : Ring) : (s.setRing r v).releases = s.releases := (rfl)
@[simp] theorem State.setRing_mports (s : State) (r : Nat) (v : Ring) : (s.setRing r v).mports = s.mports := (rfl)
@[simp] theorem State.setRing_waiting (s : State) (r : Nat) (v : Ring) : (s.setRing r v).waiting = s.waiting := (rfl)
@[simp] theorem State.setRing_outs (s : State) (r : Nat) (v : Ring) : (s.setRing r v).outs = s.outs := (rfl)
@[simp] theorem State.setRing_lost (s : State) (r : Nat) (v : Ring) : (s.setRing r v).lost = s.lost := (rfl)
@[simp] theorem State.setRing_readings (s : State) (r : Nat) (v : Ring) : (s.setRing r v).readings = s.readings := (rfl)
@[simp] theorem State.setRing_records (s : State) (r : Nat) (v : Ring) : (s.setRing r v).records = s.records := (rfl)
@[simp] theorem State.setRing_cports (s : State) (r : Nat) (v : Ring) : (s.setRing r v).cports = s.cports := (rfl)
@[simp] theorem State.setRing_l1 (s : State) (r : Nat) (v : Ring) : (s.setRing r v).l1 = s.l1 := (rfl)
@[simp] theorem State.setRing_l2 (s : State) (r : Nat) (v : Ring) : (s.setRing r v).l2 = s.l2 := (rfl)
@[simp] theorem State.setRing_misses (s : State) (r : Nat) (v : Ring) : (s.setRing r v).misses = s.misses := (rfl)
@[simp] theorem State.setRing_invals (s : State) (r : Nat) (v : Ring) : (s.setRing r v).invals = s.invals := (rfl)
@[simp] theorem State.setRing_remote (s : State) (r : Nat) (v : Ring) : (s.setRing r v).remote = s.remote := (rfl)
@[simp] theorem State.setRing_corridor (s : State) (r : Nat) (v : Ring) : (s.setRing r v).corridor = s.corridor := (rfl)
@[simp] theorem State.setRing_tables (s : State) (r : Nat) (v : Ring) : (s.setRing r v).tables = s.tables := (rfl)
@[simp] theorem State.setRing_porter (s : State) (r : Nat) (v : Ring) : (s.setRing r v).porter = s.porter := (rfl)
@[simp] theorem State.setRing_larder (s : State) (r : Nat) (v : Ring) : (s.setRing r v).larder = s.larder := (rfl)
@[simp] theorem State.setRing_blocks (s : State) (r : Nat) (v : Ring) : (s.setRing r v).blocks = s.blocks := (rfl)
@[simp] theorem State.setRing_hall (s : State) (r : Nat) (v : Ring) : (s.setRing r v).hall = s.hall := (rfl)
@[simp] theorem State.setRing_ledger (s : State) (r : Nat) (v : Ring) : (s.setRing r v).ledger = s.ledger := (rfl)
@[simp] theorem State.setRing_rel (s : State) (r : Nat) (v : Ring) : (s.setRing r v).rel = s.rel := (rfl)
@[simp] theorem State.setRing_tally (s : State) (r : Nat) (v : Ring) : (s.setRing r v).tally = s.tally := (rfl)
@[simp] theorem State.setRing_pghs (s : State) (r : Nat) (v : Ring) : (s.setRing r v).pghs = s.pghs := (rfl)
@[simp] theorem State.setRing_out (s : State) (r : Nat) (v : Ring) : (s.setRing r v).out = s.out := (rfl)
@[simp] theorem State.setRing_free (s : State) (r : Nat) (v : Ring) : (s.setRing r v).free = s.free := (rfl)
@[simp] theorem State.updRing_pending (s : State) (r : Nat) (f : Ring → Ring) : (s.updRing r f).pending = s.pending := (rfl)
@[simp] theorem State.updRing_cfg (s : State) (r : Nat) (f : Ring → Ring) : (s.updRing r f).cfg = s.cfg := (rfl)
@[simp] theorem State.updRing_pins (s : State) (r : Nat) (f : Ring → Ring) : (s.updRing r f).pins = s.pins := (rfl)
@[simp] theorem State.updRing_regs (s : State) (r : Nat) (f : Ring → Ring) : (s.updRing r f).regs = s.regs := (rfl)
@[simp] theorem State.updRing_ccyc (s : State) (r : Nat) (f : Ring → Ring) : (s.updRing r f).ccyc = s.ccyc := (rfl)
@[simp] theorem State.updRing_ccycLatch (s : State) (r : Nat) (f : Ring → Ring) : (s.updRing r f).ccycLatch = s.ccycLatch := (rfl)
@[simp] theorem State.updRing_power (s : State) (r : Nat) (f : Ring → Ring) : (s.updRing r f).power = s.power := (rfl)
@[simp] theorem State.updRing_boot (s : State) (r : Nat) (f : Ring → Ring) : (s.updRing r f).boot = s.boot := (rfl)
@[simp] theorem State.updRing_tap (s : State) (r : Nat) (f : Ring → Ring) : (s.updRing r f).tap = s.tap := (rfl)
@[simp] theorem State.updRing_queues (s : State) (r : Nat) (f : Ring → Ring) : (s.updRing r f).queues = s.queues := (rfl)
@[simp] theorem State.updRing_preempted (s : State) (r : Nat) (f : Ring → Ring) : (s.updRing r f).preempted = s.preempted := (rfl)
@[simp] theorem State.updRing_nextId (s : State) (r : Nat) (f : Ring → Ring) : (s.updRing r f).nextId = s.nextId := (rfl)
@[simp] theorem State.updRing_seqs (s : State) (r : Nat) (f : Ring → Ring) : (s.updRing r f).seqs = s.seqs := (rfl)
@[simp] theorem State.updRing_sems (s : State) (r : Nat) (f : Ring → Ring) : (s.updRing r f).sems = s.sems := (rfl)
@[simp] theorem State.updRing_turns (s : State) (r : Nat) (f : Ring → Ring) : (s.updRing r f).turns = s.turns := (rfl)
@[simp] theorem State.updRing_incsDue (s : State) (r : Nat) (f : Ring → Ring) : (s.updRing r f).incsDue = s.incsDue := (rfl)
@[simp] theorem State.updRing_cpWaits (s : State) (r : Nat) (f : Ring → Ring) : (s.updRing r f).cpWaits = s.cpWaits := (rfl)
@[simp] theorem State.updRing_lag (s : State) (r : Nat) (f : Ring → Ring) : (s.updRing r f).lag = s.lag := (rfl)
@[simp] theorem State.updRing_lanes (s : State) (r : Nat) (f : Ring → Ring) : (s.updRing r f).lanes = s.lanes := (rfl)
@[simp] theorem State.updRing_itins (s : State) (r : Nat) (f : Ring → Ring) : (s.updRing r f).itins = s.itins := (rfl)
@[simp] theorem State.updRing_tiles (s : State) (r : Nat) (f : Ring → Ring) : (s.updRing r f).tiles = s.tiles := (rfl)
@[simp] theorem State.updRing_releases (s : State) (r : Nat) (f : Ring → Ring) : (s.updRing r f).releases = s.releases := (rfl)
@[simp] theorem State.updRing_mports (s : State) (r : Nat) (f : Ring → Ring) : (s.updRing r f).mports = s.mports := (rfl)
@[simp] theorem State.updRing_waiting (s : State) (r : Nat) (f : Ring → Ring) : (s.updRing r f).waiting = s.waiting := (rfl)
@[simp] theorem State.updRing_outs (s : State) (r : Nat) (f : Ring → Ring) : (s.updRing r f).outs = s.outs := (rfl)
@[simp] theorem State.updRing_lost (s : State) (r : Nat) (f : Ring → Ring) : (s.updRing r f).lost = s.lost := (rfl)
@[simp] theorem State.updRing_readings (s : State) (r : Nat) (f : Ring → Ring) : (s.updRing r f).readings = s.readings := (rfl)
@[simp] theorem State.updRing_records (s : State) (r : Nat) (f : Ring → Ring) : (s.updRing r f).records = s.records := (rfl)
@[simp] theorem State.updRing_cports (s : State) (r : Nat) (f : Ring → Ring) : (s.updRing r f).cports = s.cports := (rfl)
@[simp] theorem State.updRing_l1 (s : State) (r : Nat) (f : Ring → Ring) : (s.updRing r f).l1 = s.l1 := (rfl)
@[simp] theorem State.updRing_l2 (s : State) (r : Nat) (f : Ring → Ring) : (s.updRing r f).l2 = s.l2 := (rfl)
@[simp] theorem State.updRing_misses (s : State) (r : Nat) (f : Ring → Ring) : (s.updRing r f).misses = s.misses := (rfl)
@[simp] theorem State.updRing_invals (s : State) (r : Nat) (f : Ring → Ring) : (s.updRing r f).invals = s.invals := (rfl)
@[simp] theorem State.updRing_remote (s : State) (r : Nat) (f : Ring → Ring) : (s.updRing r f).remote = s.remote := (rfl)
@[simp] theorem State.updRing_corridor (s : State) (r : Nat) (f : Ring → Ring) : (s.updRing r f).corridor = s.corridor := (rfl)
@[simp] theorem State.updRing_tables (s : State) (r : Nat) (f : Ring → Ring) : (s.updRing r f).tables = s.tables := (rfl)
@[simp] theorem State.updRing_porter (s : State) (r : Nat) (f : Ring → Ring) : (s.updRing r f).porter = s.porter := (rfl)
@[simp] theorem State.updRing_larder (s : State) (r : Nat) (f : Ring → Ring) : (s.updRing r f).larder = s.larder := (rfl)
@[simp] theorem State.updRing_blocks (s : State) (r : Nat) (f : Ring → Ring) : (s.updRing r f).blocks = s.blocks := (rfl)
@[simp] theorem State.updRing_hall (s : State) (r : Nat) (f : Ring → Ring) : (s.updRing r f).hall = s.hall := (rfl)
@[simp] theorem State.updRing_ledger (s : State) (r : Nat) (f : Ring → Ring) : (s.updRing r f).ledger = s.ledger := (rfl)
@[simp] theorem State.updRing_rel (s : State) (r : Nat) (f : Ring → Ring) : (s.updRing r f).rel = s.rel := (rfl)
@[simp] theorem State.updRing_tally (s : State) (r : Nat) (f : Ring → Ring) : (s.updRing r f).tally = s.tally := (rfl)
@[simp] theorem State.updRing_pghs (s : State) (r : Nat) (f : Ring → Ring) : (s.updRing r f).pghs = s.pghs := (rfl)
@[simp] theorem State.updRing_out (s : State) (r : Nat) (f : Ring → Ring) : (s.updRing r f).out = s.out := (rfl)
@[simp] theorem State.updRing_free (s : State) (r : Nat) (f : Ring → Ring) : (s.updRing r f).free = s.free := (rfl)
@[simp] theorem State.setLane_pending (s : State) (l : Nat) (v : Lane) : (s.setLane l v).pending = s.pending := (rfl)
@[simp] theorem State.setLane_cfg (s : State) (l : Nat) (v : Lane) : (s.setLane l v).cfg = s.cfg := (rfl)
@[simp] theorem State.setLane_pins (s : State) (l : Nat) (v : Lane) : (s.setLane l v).pins = s.pins := (rfl)
@[simp] theorem State.setLane_regs (s : State) (l : Nat) (v : Lane) : (s.setLane l v).regs = s.regs := (rfl)
@[simp] theorem State.setLane_ccyc (s : State) (l : Nat) (v : Lane) : (s.setLane l v).ccyc = s.ccyc := (rfl)
@[simp] theorem State.setLane_ccycLatch (s : State) (l : Nat) (v : Lane) : (s.setLane l v).ccycLatch = s.ccycLatch := (rfl)
@[simp] theorem State.setLane_power (s : State) (l : Nat) (v : Lane) : (s.setLane l v).power = s.power := (rfl)
@[simp] theorem State.setLane_boot (s : State) (l : Nat) (v : Lane) : (s.setLane l v).boot = s.boot := (rfl)
@[simp] theorem State.setLane_tap (s : State) (l : Nat) (v : Lane) : (s.setLane l v).tap = s.tap := (rfl)
@[simp] theorem State.setLane_queues (s : State) (l : Nat) (v : Lane) : (s.setLane l v).queues = s.queues := (rfl)
@[simp] theorem State.setLane_preempted (s : State) (l : Nat) (v : Lane) : (s.setLane l v).preempted = s.preempted := (rfl)
@[simp] theorem State.setLane_nextId (s : State) (l : Nat) (v : Lane) : (s.setLane l v).nextId = s.nextId := (rfl)
@[simp] theorem State.setLane_seqs (s : State) (l : Nat) (v : Lane) : (s.setLane l v).seqs = s.seqs := (rfl)
@[simp] theorem State.setLane_sems (s : State) (l : Nat) (v : Lane) : (s.setLane l v).sems = s.sems := (rfl)
@[simp] theorem State.setLane_turns (s : State) (l : Nat) (v : Lane) : (s.setLane l v).turns = s.turns := (rfl)
@[simp] theorem State.setLane_incsDue (s : State) (l : Nat) (v : Lane) : (s.setLane l v).incsDue = s.incsDue := (rfl)
@[simp] theorem State.setLane_cpWaits (s : State) (l : Nat) (v : Lane) : (s.setLane l v).cpWaits = s.cpWaits := (rfl)
@[simp] theorem State.setLane_rings (s : State) (l : Nat) (v : Lane) : (s.setLane l v).rings = s.rings := (rfl)
@[simp] theorem State.setLane_lag (s : State) (l : Nat) (v : Lane) : (s.setLane l v).lag = s.lag := (rfl)
@[simp] theorem State.setLane_itins (s : State) (l : Nat) (v : Lane) : (s.setLane l v).itins = s.itins := (rfl)
@[simp] theorem State.setLane_tiles (s : State) (l : Nat) (v : Lane) : (s.setLane l v).tiles = s.tiles := (rfl)
@[simp] theorem State.setLane_releases (s : State) (l : Nat) (v : Lane) : (s.setLane l v).releases = s.releases := (rfl)
@[simp] theorem State.setLane_mports (s : State) (l : Nat) (v : Lane) : (s.setLane l v).mports = s.mports := (rfl)
@[simp] theorem State.setLane_waiting (s : State) (l : Nat) (v : Lane) : (s.setLane l v).waiting = s.waiting := (rfl)
@[simp] theorem State.setLane_outs (s : State) (l : Nat) (v : Lane) : (s.setLane l v).outs = s.outs := (rfl)
@[simp] theorem State.setLane_lost (s : State) (l : Nat) (v : Lane) : (s.setLane l v).lost = s.lost := (rfl)
@[simp] theorem State.setLane_readings (s : State) (l : Nat) (v : Lane) : (s.setLane l v).readings = s.readings := (rfl)
@[simp] theorem State.setLane_records (s : State) (l : Nat) (v : Lane) : (s.setLane l v).records = s.records := (rfl)
@[simp] theorem State.setLane_cports (s : State) (l : Nat) (v : Lane) : (s.setLane l v).cports = s.cports := (rfl)
@[simp] theorem State.setLane_l1 (s : State) (l : Nat) (v : Lane) : (s.setLane l v).l1 = s.l1 := (rfl)
@[simp] theorem State.setLane_l2 (s : State) (l : Nat) (v : Lane) : (s.setLane l v).l2 = s.l2 := (rfl)
@[simp] theorem State.setLane_misses (s : State) (l : Nat) (v : Lane) : (s.setLane l v).misses = s.misses := (rfl)
@[simp] theorem State.setLane_invals (s : State) (l : Nat) (v : Lane) : (s.setLane l v).invals = s.invals := (rfl)
@[simp] theorem State.setLane_remote (s : State) (l : Nat) (v : Lane) : (s.setLane l v).remote = s.remote := (rfl)
@[simp] theorem State.setLane_corridor (s : State) (l : Nat) (v : Lane) : (s.setLane l v).corridor = s.corridor := (rfl)
@[simp] theorem State.setLane_tables (s : State) (l : Nat) (v : Lane) : (s.setLane l v).tables = s.tables := (rfl)
@[simp] theorem State.setLane_porter (s : State) (l : Nat) (v : Lane) : (s.setLane l v).porter = s.porter := (rfl)
@[simp] theorem State.setLane_larder (s : State) (l : Nat) (v : Lane) : (s.setLane l v).larder = s.larder := (rfl)
@[simp] theorem State.setLane_blocks (s : State) (l : Nat) (v : Lane) : (s.setLane l v).blocks = s.blocks := (rfl)
@[simp] theorem State.setLane_hall (s : State) (l : Nat) (v : Lane) : (s.setLane l v).hall = s.hall := (rfl)
@[simp] theorem State.setLane_ledger (s : State) (l : Nat) (v : Lane) : (s.setLane l v).ledger = s.ledger := (rfl)
@[simp] theorem State.setLane_rel (s : State) (l : Nat) (v : Lane) : (s.setLane l v).rel = s.rel := (rfl)
@[simp] theorem State.setLane_tally (s : State) (l : Nat) (v : Lane) : (s.setLane l v).tally = s.tally := (rfl)
@[simp] theorem State.setLane_pghs (s : State) (l : Nat) (v : Lane) : (s.setLane l v).pghs = s.pghs := (rfl)
@[simp] theorem State.setLane_out (s : State) (l : Nat) (v : Lane) : (s.setLane l v).out = s.out := (rfl)
@[simp] theorem State.setLane_free (s : State) (l : Nat) (v : Lane) : (s.setLane l v).free = s.free := (rfl)
@[simp] theorem State.updLane_pending (s : State) (l : Nat) (f : Lane → Lane) : (s.updLane l f).pending = s.pending := (rfl)
@[simp] theorem State.updLane_cfg (s : State) (l : Nat) (f : Lane → Lane) : (s.updLane l f).cfg = s.cfg := (rfl)
@[simp] theorem State.updLane_pins (s : State) (l : Nat) (f : Lane → Lane) : (s.updLane l f).pins = s.pins := (rfl)
@[simp] theorem State.updLane_regs (s : State) (l : Nat) (f : Lane → Lane) : (s.updLane l f).regs = s.regs := (rfl)
@[simp] theorem State.updLane_ccyc (s : State) (l : Nat) (f : Lane → Lane) : (s.updLane l f).ccyc = s.ccyc := (rfl)
@[simp] theorem State.updLane_ccycLatch (s : State) (l : Nat) (f : Lane → Lane) : (s.updLane l f).ccycLatch = s.ccycLatch := (rfl)
@[simp] theorem State.updLane_power (s : State) (l : Nat) (f : Lane → Lane) : (s.updLane l f).power = s.power := (rfl)
@[simp] theorem State.updLane_boot (s : State) (l : Nat) (f : Lane → Lane) : (s.updLane l f).boot = s.boot := (rfl)
@[simp] theorem State.updLane_tap (s : State) (l : Nat) (f : Lane → Lane) : (s.updLane l f).tap = s.tap := (rfl)
@[simp] theorem State.updLane_queues (s : State) (l : Nat) (f : Lane → Lane) : (s.updLane l f).queues = s.queues := (rfl)
@[simp] theorem State.updLane_preempted (s : State) (l : Nat) (f : Lane → Lane) : (s.updLane l f).preempted = s.preempted := (rfl)
@[simp] theorem State.updLane_nextId (s : State) (l : Nat) (f : Lane → Lane) : (s.updLane l f).nextId = s.nextId := (rfl)
@[simp] theorem State.updLane_seqs (s : State) (l : Nat) (f : Lane → Lane) : (s.updLane l f).seqs = s.seqs := (rfl)
@[simp] theorem State.updLane_sems (s : State) (l : Nat) (f : Lane → Lane) : (s.updLane l f).sems = s.sems := (rfl)
@[simp] theorem State.updLane_turns (s : State) (l : Nat) (f : Lane → Lane) : (s.updLane l f).turns = s.turns := (rfl)
@[simp] theorem State.updLane_incsDue (s : State) (l : Nat) (f : Lane → Lane) : (s.updLane l f).incsDue = s.incsDue := (rfl)
@[simp] theorem State.updLane_cpWaits (s : State) (l : Nat) (f : Lane → Lane) : (s.updLane l f).cpWaits = s.cpWaits := (rfl)
@[simp] theorem State.updLane_rings (s : State) (l : Nat) (f : Lane → Lane) : (s.updLane l f).rings = s.rings := (rfl)
@[simp] theorem State.updLane_lag (s : State) (l : Nat) (f : Lane → Lane) : (s.updLane l f).lag = s.lag := (rfl)
@[simp] theorem State.updLane_itins (s : State) (l : Nat) (f : Lane → Lane) : (s.updLane l f).itins = s.itins := (rfl)
@[simp] theorem State.updLane_tiles (s : State) (l : Nat) (f : Lane → Lane) : (s.updLane l f).tiles = s.tiles := (rfl)
@[simp] theorem State.updLane_releases (s : State) (l : Nat) (f : Lane → Lane) : (s.updLane l f).releases = s.releases := (rfl)
@[simp] theorem State.updLane_mports (s : State) (l : Nat) (f : Lane → Lane) : (s.updLane l f).mports = s.mports := (rfl)
@[simp] theorem State.updLane_waiting (s : State) (l : Nat) (f : Lane → Lane) : (s.updLane l f).waiting = s.waiting := (rfl)
@[simp] theorem State.updLane_outs (s : State) (l : Nat) (f : Lane → Lane) : (s.updLane l f).outs = s.outs := (rfl)
@[simp] theorem State.updLane_lost (s : State) (l : Nat) (f : Lane → Lane) : (s.updLane l f).lost = s.lost := (rfl)
@[simp] theorem State.updLane_readings (s : State) (l : Nat) (f : Lane → Lane) : (s.updLane l f).readings = s.readings := (rfl)
@[simp] theorem State.updLane_records (s : State) (l : Nat) (f : Lane → Lane) : (s.updLane l f).records = s.records := (rfl)
@[simp] theorem State.updLane_cports (s : State) (l : Nat) (f : Lane → Lane) : (s.updLane l f).cports = s.cports := (rfl)
@[simp] theorem State.updLane_l1 (s : State) (l : Nat) (f : Lane → Lane) : (s.updLane l f).l1 = s.l1 := (rfl)
@[simp] theorem State.updLane_l2 (s : State) (l : Nat) (f : Lane → Lane) : (s.updLane l f).l2 = s.l2 := (rfl)
@[simp] theorem State.updLane_misses (s : State) (l : Nat) (f : Lane → Lane) : (s.updLane l f).misses = s.misses := (rfl)
@[simp] theorem State.updLane_invals (s : State) (l : Nat) (f : Lane → Lane) : (s.updLane l f).invals = s.invals := (rfl)
@[simp] theorem State.updLane_remote (s : State) (l : Nat) (f : Lane → Lane) : (s.updLane l f).remote = s.remote := (rfl)
@[simp] theorem State.updLane_corridor (s : State) (l : Nat) (f : Lane → Lane) : (s.updLane l f).corridor = s.corridor := (rfl)
@[simp] theorem State.updLane_tables (s : State) (l : Nat) (f : Lane → Lane) : (s.updLane l f).tables = s.tables := (rfl)
@[simp] theorem State.updLane_porter (s : State) (l : Nat) (f : Lane → Lane) : (s.updLane l f).porter = s.porter := (rfl)
@[simp] theorem State.updLane_larder (s : State) (l : Nat) (f : Lane → Lane) : (s.updLane l f).larder = s.larder := (rfl)
@[simp] theorem State.updLane_blocks (s : State) (l : Nat) (f : Lane → Lane) : (s.updLane l f).blocks = s.blocks := (rfl)
@[simp] theorem State.updLane_hall (s : State) (l : Nat) (f : Lane → Lane) : (s.updLane l f).hall = s.hall := (rfl)
@[simp] theorem State.updLane_ledger (s : State) (l : Nat) (f : Lane → Lane) : (s.updLane l f).ledger = s.ledger := (rfl)
@[simp] theorem State.updLane_rel (s : State) (l : Nat) (f : Lane → Lane) : (s.updLane l f).rel = s.rel := (rfl)
@[simp] theorem State.updLane_tally (s : State) (l : Nat) (f : Lane → Lane) : (s.updLane l f).tally = s.tally := (rfl)
@[simp] theorem State.updLane_pghs (s : State) (l : Nat) (f : Lane → Lane) : (s.updLane l f).pghs = s.pghs := (rfl)
@[simp] theorem State.updLane_out (s : State) (l : Nat) (f : Lane → Lane) : (s.updLane l f).out = s.out := (rfl)
@[simp] theorem State.updLane_free (s : State) (l : Nat) (f : Lane → Lane) : (s.updLane l f).free = s.free := (rfl)
@[simp] theorem State.updMport_pending (s : State) (p : Nat) (f : MPort → MPort) : (s.updMport p f).pending = s.pending := (rfl)
@[simp] theorem State.updMport_cfg (s : State) (p : Nat) (f : MPort → MPort) : (s.updMport p f).cfg = s.cfg := (rfl)
@[simp] theorem State.updMport_pins (s : State) (p : Nat) (f : MPort → MPort) : (s.updMport p f).pins = s.pins := (rfl)
@[simp] theorem State.updMport_regs (s : State) (p : Nat) (f : MPort → MPort) : (s.updMport p f).regs = s.regs := (rfl)
@[simp] theorem State.updMport_ccyc (s : State) (p : Nat) (f : MPort → MPort) : (s.updMport p f).ccyc = s.ccyc := (rfl)
@[simp] theorem State.updMport_ccycLatch (s : State) (p : Nat) (f : MPort → MPort) : (s.updMport p f).ccycLatch = s.ccycLatch := (rfl)
@[simp] theorem State.updMport_power (s : State) (p : Nat) (f : MPort → MPort) : (s.updMport p f).power = s.power := (rfl)
@[simp] theorem State.updMport_boot (s : State) (p : Nat) (f : MPort → MPort) : (s.updMport p f).boot = s.boot := (rfl)
@[simp] theorem State.updMport_tap (s : State) (p : Nat) (f : MPort → MPort) : (s.updMport p f).tap = s.tap := (rfl)
@[simp] theorem State.updMport_queues (s : State) (p : Nat) (f : MPort → MPort) : (s.updMport p f).queues = s.queues := (rfl)
@[simp] theorem State.updMport_preempted (s : State) (p : Nat) (f : MPort → MPort) : (s.updMport p f).preempted = s.preempted := (rfl)
@[simp] theorem State.updMport_nextId (s : State) (p : Nat) (f : MPort → MPort) : (s.updMport p f).nextId = s.nextId := (rfl)
@[simp] theorem State.updMport_seqs (s : State) (p : Nat) (f : MPort → MPort) : (s.updMport p f).seqs = s.seqs := (rfl)
@[simp] theorem State.updMport_sems (s : State) (p : Nat) (f : MPort → MPort) : (s.updMport p f).sems = s.sems := (rfl)
@[simp] theorem State.updMport_turns (s : State) (p : Nat) (f : MPort → MPort) : (s.updMport p f).turns = s.turns := (rfl)
@[simp] theorem State.updMport_incsDue (s : State) (p : Nat) (f : MPort → MPort) : (s.updMport p f).incsDue = s.incsDue := (rfl)
@[simp] theorem State.updMport_cpWaits (s : State) (p : Nat) (f : MPort → MPort) : (s.updMport p f).cpWaits = s.cpWaits := (rfl)
@[simp] theorem State.updMport_rings (s : State) (p : Nat) (f : MPort → MPort) : (s.updMport p f).rings = s.rings := (rfl)
@[simp] theorem State.updMport_lag (s : State) (p : Nat) (f : MPort → MPort) : (s.updMport p f).lag = s.lag := (rfl)
@[simp] theorem State.updMport_lanes (s : State) (p : Nat) (f : MPort → MPort) : (s.updMport p f).lanes = s.lanes := (rfl)
@[simp] theorem State.updMport_itins (s : State) (p : Nat) (f : MPort → MPort) : (s.updMport p f).itins = s.itins := (rfl)
@[simp] theorem State.updMport_tiles (s : State) (p : Nat) (f : MPort → MPort) : (s.updMport p f).tiles = s.tiles := (rfl)
@[simp] theorem State.updMport_releases (s : State) (p : Nat) (f : MPort → MPort) : (s.updMport p f).releases = s.releases := (rfl)
@[simp] theorem State.updMport_waiting (s : State) (p : Nat) (f : MPort → MPort) : (s.updMport p f).waiting = s.waiting := (rfl)
@[simp] theorem State.updMport_outs (s : State) (p : Nat) (f : MPort → MPort) : (s.updMport p f).outs = s.outs := (rfl)
@[simp] theorem State.updMport_lost (s : State) (p : Nat) (f : MPort → MPort) : (s.updMport p f).lost = s.lost := (rfl)
@[simp] theorem State.updMport_readings (s : State) (p : Nat) (f : MPort → MPort) : (s.updMport p f).readings = s.readings := (rfl)
@[simp] theorem State.updMport_records (s : State) (p : Nat) (f : MPort → MPort) : (s.updMport p f).records = s.records := (rfl)
@[simp] theorem State.updMport_cports (s : State) (p : Nat) (f : MPort → MPort) : (s.updMport p f).cports = s.cports := (rfl)
@[simp] theorem State.updMport_l1 (s : State) (p : Nat) (f : MPort → MPort) : (s.updMport p f).l1 = s.l1 := (rfl)
@[simp] theorem State.updMport_l2 (s : State) (p : Nat) (f : MPort → MPort) : (s.updMport p f).l2 = s.l2 := (rfl)
@[simp] theorem State.updMport_misses (s : State) (p : Nat) (f : MPort → MPort) : (s.updMport p f).misses = s.misses := (rfl)
@[simp] theorem State.updMport_invals (s : State) (p : Nat) (f : MPort → MPort) : (s.updMport p f).invals = s.invals := (rfl)
@[simp] theorem State.updMport_remote (s : State) (p : Nat) (f : MPort → MPort) : (s.updMport p f).remote = s.remote := (rfl)
@[simp] theorem State.updMport_corridor (s : State) (p : Nat) (f : MPort → MPort) : (s.updMport p f).corridor = s.corridor := (rfl)
@[simp] theorem State.updMport_tables (s : State) (p : Nat) (f : MPort → MPort) : (s.updMport p f).tables = s.tables := (rfl)
@[simp] theorem State.updMport_porter (s : State) (p : Nat) (f : MPort → MPort) : (s.updMport p f).porter = s.porter := (rfl)
@[simp] theorem State.updMport_larder (s : State) (p : Nat) (f : MPort → MPort) : (s.updMport p f).larder = s.larder := (rfl)
@[simp] theorem State.updMport_blocks (s : State) (p : Nat) (f : MPort → MPort) : (s.updMport p f).blocks = s.blocks := (rfl)
@[simp] theorem State.updMport_hall (s : State) (p : Nat) (f : MPort → MPort) : (s.updMport p f).hall = s.hall := (rfl)
@[simp] theorem State.updMport_ledger (s : State) (p : Nat) (f : MPort → MPort) : (s.updMport p f).ledger = s.ledger := (rfl)
@[simp] theorem State.updMport_rel (s : State) (p : Nat) (f : MPort → MPort) : (s.updMport p f).rel = s.rel := (rfl)
@[simp] theorem State.updMport_tally (s : State) (p : Nat) (f : MPort → MPort) : (s.updMport p f).tally = s.tally := (rfl)
@[simp] theorem State.updMport_pghs (s : State) (p : Nat) (f : MPort → MPort) : (s.updMport p f).pghs = s.pghs := (rfl)
@[simp] theorem State.updMport_out (s : State) (p : Nat) (f : MPort → MPort) : (s.updMport p f).out = s.out := (rfl)
@[simp] theorem State.updMport_free (s : State) (p : Nat) (f : MPort → MPort) : (s.updMport p f).free = s.free := (rfl)
@[simp] theorem State.updCport_pending (s : State) (c : Nat) (f : CPort → CPort) : (s.updCport c f).pending = s.pending := (rfl)
@[simp] theorem State.updCport_cfg (s : State) (c : Nat) (f : CPort → CPort) : (s.updCport c f).cfg = s.cfg := (rfl)
@[simp] theorem State.updCport_pins (s : State) (c : Nat) (f : CPort → CPort) : (s.updCport c f).pins = s.pins := (rfl)
@[simp] theorem State.updCport_regs (s : State) (c : Nat) (f : CPort → CPort) : (s.updCport c f).regs = s.regs := (rfl)
@[simp] theorem State.updCport_ccyc (s : State) (c : Nat) (f : CPort → CPort) : (s.updCport c f).ccyc = s.ccyc := (rfl)
@[simp] theorem State.updCport_ccycLatch (s : State) (c : Nat) (f : CPort → CPort) : (s.updCport c f).ccycLatch = s.ccycLatch := (rfl)
@[simp] theorem State.updCport_power (s : State) (c : Nat) (f : CPort → CPort) : (s.updCport c f).power = s.power := (rfl)
@[simp] theorem State.updCport_boot (s : State) (c : Nat) (f : CPort → CPort) : (s.updCport c f).boot = s.boot := (rfl)
@[simp] theorem State.updCport_tap (s : State) (c : Nat) (f : CPort → CPort) : (s.updCport c f).tap = s.tap := (rfl)
@[simp] theorem State.updCport_queues (s : State) (c : Nat) (f : CPort → CPort) : (s.updCport c f).queues = s.queues := (rfl)
@[simp] theorem State.updCport_preempted (s : State) (c : Nat) (f : CPort → CPort) : (s.updCport c f).preempted = s.preempted := (rfl)
@[simp] theorem State.updCport_nextId (s : State) (c : Nat) (f : CPort → CPort) : (s.updCport c f).nextId = s.nextId := (rfl)
@[simp] theorem State.updCport_seqs (s : State) (c : Nat) (f : CPort → CPort) : (s.updCport c f).seqs = s.seqs := (rfl)
@[simp] theorem State.updCport_sems (s : State) (c : Nat) (f : CPort → CPort) : (s.updCport c f).sems = s.sems := (rfl)
@[simp] theorem State.updCport_turns (s : State) (c : Nat) (f : CPort → CPort) : (s.updCport c f).turns = s.turns := (rfl)
@[simp] theorem State.updCport_incsDue (s : State) (c : Nat) (f : CPort → CPort) : (s.updCport c f).incsDue = s.incsDue := (rfl)
@[simp] theorem State.updCport_cpWaits (s : State) (c : Nat) (f : CPort → CPort) : (s.updCport c f).cpWaits = s.cpWaits := (rfl)
@[simp] theorem State.updCport_rings (s : State) (c : Nat) (f : CPort → CPort) : (s.updCport c f).rings = s.rings := (rfl)
@[simp] theorem State.updCport_lag (s : State) (c : Nat) (f : CPort → CPort) : (s.updCport c f).lag = s.lag := (rfl)
@[simp] theorem State.updCport_lanes (s : State) (c : Nat) (f : CPort → CPort) : (s.updCport c f).lanes = s.lanes := (rfl)
@[simp] theorem State.updCport_itins (s : State) (c : Nat) (f : CPort → CPort) : (s.updCport c f).itins = s.itins := (rfl)
@[simp] theorem State.updCport_tiles (s : State) (c : Nat) (f : CPort → CPort) : (s.updCport c f).tiles = s.tiles := (rfl)
@[simp] theorem State.updCport_releases (s : State) (c : Nat) (f : CPort → CPort) : (s.updCport c f).releases = s.releases := (rfl)
@[simp] theorem State.updCport_mports (s : State) (c : Nat) (f : CPort → CPort) : (s.updCport c f).mports = s.mports := (rfl)
@[simp] theorem State.updCport_waiting (s : State) (c : Nat) (f : CPort → CPort) : (s.updCport c f).waiting = s.waiting := (rfl)
@[simp] theorem State.updCport_outs (s : State) (c : Nat) (f : CPort → CPort) : (s.updCport c f).outs = s.outs := (rfl)
@[simp] theorem State.updCport_lost (s : State) (c : Nat) (f : CPort → CPort) : (s.updCport c f).lost = s.lost := (rfl)
@[simp] theorem State.updCport_readings (s : State) (c : Nat) (f : CPort → CPort) : (s.updCport c f).readings = s.readings := (rfl)
@[simp] theorem State.updCport_records (s : State) (c : Nat) (f : CPort → CPort) : (s.updCport c f).records = s.records := (rfl)
@[simp] theorem State.updCport_l1 (s : State) (c : Nat) (f : CPort → CPort) : (s.updCport c f).l1 = s.l1 := (rfl)
@[simp] theorem State.updCport_l2 (s : State) (c : Nat) (f : CPort → CPort) : (s.updCport c f).l2 = s.l2 := (rfl)
@[simp] theorem State.updCport_misses (s : State) (c : Nat) (f : CPort → CPort) : (s.updCport c f).misses = s.misses := (rfl)
@[simp] theorem State.updCport_invals (s : State) (c : Nat) (f : CPort → CPort) : (s.updCport c f).invals = s.invals := (rfl)
@[simp] theorem State.updCport_remote (s : State) (c : Nat) (f : CPort → CPort) : (s.updCport c f).remote = s.remote := (rfl)
@[simp] theorem State.updCport_corridor (s : State) (c : Nat) (f : CPort → CPort) : (s.updCport c f).corridor = s.corridor := (rfl)
@[simp] theorem State.updCport_tables (s : State) (c : Nat) (f : CPort → CPort) : (s.updCport c f).tables = s.tables := (rfl)
@[simp] theorem State.updCport_porter (s : State) (c : Nat) (f : CPort → CPort) : (s.updCport c f).porter = s.porter := (rfl)
@[simp] theorem State.updCport_larder (s : State) (c : Nat) (f : CPort → CPort) : (s.updCport c f).larder = s.larder := (rfl)
@[simp] theorem State.updCport_blocks (s : State) (c : Nat) (f : CPort → CPort) : (s.updCport c f).blocks = s.blocks := (rfl)
@[simp] theorem State.updCport_hall (s : State) (c : Nat) (f : CPort → CPort) : (s.updCport c f).hall = s.hall := (rfl)
@[simp] theorem State.updCport_ledger (s : State) (c : Nat) (f : CPort → CPort) : (s.updCport c f).ledger = s.ledger := (rfl)
@[simp] theorem State.updCport_rel (s : State) (c : Nat) (f : CPort → CPort) : (s.updCport c f).rel = s.rel := (rfl)
@[simp] theorem State.updCport_tally (s : State) (c : Nat) (f : CPort → CPort) : (s.updCport c f).tally = s.tally := (rfl)
@[simp] theorem State.updCport_pghs (s : State) (c : Nat) (f : CPort → CPort) : (s.updCport c f).pghs = s.pghs := (rfl)
@[simp] theorem State.updCport_out (s : State) (c : Nat) (f : CPort → CPort) : (s.updCport c f).out = s.out := (rfl)
@[simp] theorem State.updCport_free (s : State) (c : Nat) (f : CPort → CPort) : (s.updCport c f).free = s.free := (rfl)
@[simp] theorem State.updXport_pending (s : State) (x : Nat) (f : XPort → XPort) : (s.updXport x f).pending = s.pending := (rfl)
@[simp] theorem State.updXport_cfg (s : State) (x : Nat) (f : XPort → XPort) : (s.updXport x f).cfg = s.cfg := (rfl)
@[simp] theorem State.updXport_pins (s : State) (x : Nat) (f : XPort → XPort) : (s.updXport x f).pins = s.pins := (rfl)
@[simp] theorem State.updXport_regs (s : State) (x : Nat) (f : XPort → XPort) : (s.updXport x f).regs = s.regs := (rfl)
@[simp] theorem State.updXport_ccyc (s : State) (x : Nat) (f : XPort → XPort) : (s.updXport x f).ccyc = s.ccyc := (rfl)
@[simp] theorem State.updXport_ccycLatch (s : State) (x : Nat) (f : XPort → XPort) : (s.updXport x f).ccycLatch = s.ccycLatch := (rfl)
@[simp] theorem State.updXport_power (s : State) (x : Nat) (f : XPort → XPort) : (s.updXport x f).power = s.power := (rfl)
@[simp] theorem State.updXport_boot (s : State) (x : Nat) (f : XPort → XPort) : (s.updXport x f).boot = s.boot := (rfl)
@[simp] theorem State.updXport_tap (s : State) (x : Nat) (f : XPort → XPort) : (s.updXport x f).tap = s.tap := (rfl)
@[simp] theorem State.updXport_queues (s : State) (x : Nat) (f : XPort → XPort) : (s.updXport x f).queues = s.queues := (rfl)
@[simp] theorem State.updXport_preempted (s : State) (x : Nat) (f : XPort → XPort) : (s.updXport x f).preempted = s.preempted := (rfl)
@[simp] theorem State.updXport_nextId (s : State) (x : Nat) (f : XPort → XPort) : (s.updXport x f).nextId = s.nextId := (rfl)
@[simp] theorem State.updXport_seqs (s : State) (x : Nat) (f : XPort → XPort) : (s.updXport x f).seqs = s.seqs := (rfl)
@[simp] theorem State.updXport_sems (s : State) (x : Nat) (f : XPort → XPort) : (s.updXport x f).sems = s.sems := (rfl)
@[simp] theorem State.updXport_turns (s : State) (x : Nat) (f : XPort → XPort) : (s.updXport x f).turns = s.turns := (rfl)
@[simp] theorem State.updXport_incsDue (s : State) (x : Nat) (f : XPort → XPort) : (s.updXport x f).incsDue = s.incsDue := (rfl)
@[simp] theorem State.updXport_cpWaits (s : State) (x : Nat) (f : XPort → XPort) : (s.updXport x f).cpWaits = s.cpWaits := (rfl)
@[simp] theorem State.updXport_rings (s : State) (x : Nat) (f : XPort → XPort) : (s.updXport x f).rings = s.rings := (rfl)
@[simp] theorem State.updXport_lag (s : State) (x : Nat) (f : XPort → XPort) : (s.updXport x f).lag = s.lag := (rfl)
@[simp] theorem State.updXport_lanes (s : State) (x : Nat) (f : XPort → XPort) : (s.updXport x f).lanes = s.lanes := (rfl)
@[simp] theorem State.updXport_itins (s : State) (x : Nat) (f : XPort → XPort) : (s.updXport x f).itins = s.itins := (rfl)
@[simp] theorem State.updXport_tiles (s : State) (x : Nat) (f : XPort → XPort) : (s.updXport x f).tiles = s.tiles := (rfl)
@[simp] theorem State.updXport_releases (s : State) (x : Nat) (f : XPort → XPort) : (s.updXport x f).releases = s.releases := (rfl)
@[simp] theorem State.updXport_mports (s : State) (x : Nat) (f : XPort → XPort) : (s.updXport x f).mports = s.mports := (rfl)
@[simp] theorem State.updXport_waiting (s : State) (x : Nat) (f : XPort → XPort) : (s.updXport x f).waiting = s.waiting := (rfl)
@[simp] theorem State.updXport_outs (s : State) (x : Nat) (f : XPort → XPort) : (s.updXport x f).outs = s.outs := (rfl)
@[simp] theorem State.updXport_lost (s : State) (x : Nat) (f : XPort → XPort) : (s.updXport x f).lost = s.lost := (rfl)
@[simp] theorem State.updXport_readings (s : State) (x : Nat) (f : XPort → XPort) : (s.updXport x f).readings = s.readings := (rfl)
@[simp] theorem State.updXport_records (s : State) (x : Nat) (f : XPort → XPort) : (s.updXport x f).records = s.records := (rfl)
@[simp] theorem State.updXport_cports (s : State) (x : Nat) (f : XPort → XPort) : (s.updXport x f).cports = s.cports := (rfl)
@[simp] theorem State.updXport_l1 (s : State) (x : Nat) (f : XPort → XPort) : (s.updXport x f).l1 = s.l1 := (rfl)
@[simp] theorem State.updXport_l2 (s : State) (x : Nat) (f : XPort → XPort) : (s.updXport x f).l2 = s.l2 := (rfl)
@[simp] theorem State.updXport_misses (s : State) (x : Nat) (f : XPort → XPort) : (s.updXport x f).misses = s.misses := (rfl)
@[simp] theorem State.updXport_invals (s : State) (x : Nat) (f : XPort → XPort) : (s.updXport x f).invals = s.invals := (rfl)
@[simp] theorem State.updXport_corridor (s : State) (x : Nat) (f : XPort → XPort) : (s.updXport x f).corridor = s.corridor := (rfl)
@[simp] theorem State.updXport_tables (s : State) (x : Nat) (f : XPort → XPort) : (s.updXport x f).tables = s.tables := (rfl)
@[simp] theorem State.updXport_porter (s : State) (x : Nat) (f : XPort → XPort) : (s.updXport x f).porter = s.porter := (rfl)
@[simp] theorem State.updXport_larder (s : State) (x : Nat) (f : XPort → XPort) : (s.updXport x f).larder = s.larder := (rfl)
@[simp] theorem State.updXport_blocks (s : State) (x : Nat) (f : XPort → XPort) : (s.updXport x f).blocks = s.blocks := (rfl)
@[simp] theorem State.updXport_hall (s : State) (x : Nat) (f : XPort → XPort) : (s.updXport x f).hall = s.hall := (rfl)
@[simp] theorem State.updXport_ledger (s : State) (x : Nat) (f : XPort → XPort) : (s.updXport x f).ledger = s.ledger := (rfl)
@[simp] theorem State.updXport_rel (s : State) (x : Nat) (f : XPort → XPort) : (s.updXport x f).rel = s.rel := (rfl)
@[simp] theorem State.updXport_tally (s : State) (x : Nat) (f : XPort → XPort) : (s.updXport x f).tally = s.tally := (rfl)
@[simp] theorem State.updXport_pghs (s : State) (x : Nat) (f : XPort → XPort) : (s.updXport x f).pghs = s.pghs := (rfl)
@[simp] theorem State.updXport_out (s : State) (x : Nat) (f : XPort → XPort) : (s.updXport x f).out = s.out := (rfl)
@[simp] theorem State.updXport_free (s : State) (x : Nat) (f : XPort → XPort) : (s.updXport x f).free = s.free := (rfl)
@[simp] theorem State.setTable_pending (s : State) (t : Nat) (v : Table) : (s.setTable t v).pending = s.pending := (rfl)
@[simp] theorem State.setTable_cfg (s : State) (t : Nat) (v : Table) : (s.setTable t v).cfg = s.cfg := (rfl)
@[simp] theorem State.setTable_pins (s : State) (t : Nat) (v : Table) : (s.setTable t v).pins = s.pins := (rfl)
@[simp] theorem State.setTable_regs (s : State) (t : Nat) (v : Table) : (s.setTable t v).regs = s.regs := (rfl)
@[simp] theorem State.setTable_ccyc (s : State) (t : Nat) (v : Table) : (s.setTable t v).ccyc = s.ccyc := (rfl)
@[simp] theorem State.setTable_ccycLatch (s : State) (t : Nat) (v : Table) : (s.setTable t v).ccycLatch = s.ccycLatch := (rfl)
@[simp] theorem State.setTable_power (s : State) (t : Nat) (v : Table) : (s.setTable t v).power = s.power := (rfl)
@[simp] theorem State.setTable_boot (s : State) (t : Nat) (v : Table) : (s.setTable t v).boot = s.boot := (rfl)
@[simp] theorem State.setTable_tap (s : State) (t : Nat) (v : Table) : (s.setTable t v).tap = s.tap := (rfl)
@[simp] theorem State.setTable_queues (s : State) (t : Nat) (v : Table) : (s.setTable t v).queues = s.queues := (rfl)
@[simp] theorem State.setTable_preempted (s : State) (t : Nat) (v : Table) : (s.setTable t v).preempted = s.preempted := (rfl)
@[simp] theorem State.setTable_nextId (s : State) (t : Nat) (v : Table) : (s.setTable t v).nextId = s.nextId := (rfl)
@[simp] theorem State.setTable_seqs (s : State) (t : Nat) (v : Table) : (s.setTable t v).seqs = s.seqs := (rfl)
@[simp] theorem State.setTable_sems (s : State) (t : Nat) (v : Table) : (s.setTable t v).sems = s.sems := (rfl)
@[simp] theorem State.setTable_turns (s : State) (t : Nat) (v : Table) : (s.setTable t v).turns = s.turns := (rfl)
@[simp] theorem State.setTable_incsDue (s : State) (t : Nat) (v : Table) : (s.setTable t v).incsDue = s.incsDue := (rfl)
@[simp] theorem State.setTable_cpWaits (s : State) (t : Nat) (v : Table) : (s.setTable t v).cpWaits = s.cpWaits := (rfl)
@[simp] theorem State.setTable_rings (s : State) (t : Nat) (v : Table) : (s.setTable t v).rings = s.rings := (rfl)
@[simp] theorem State.setTable_lag (s : State) (t : Nat) (v : Table) : (s.setTable t v).lag = s.lag := (rfl)
@[simp] theorem State.setTable_lanes (s : State) (t : Nat) (v : Table) : (s.setTable t v).lanes = s.lanes := (rfl)
@[simp] theorem State.setTable_itins (s : State) (t : Nat) (v : Table) : (s.setTable t v).itins = s.itins := (rfl)
@[simp] theorem State.setTable_tiles (s : State) (t : Nat) (v : Table) : (s.setTable t v).tiles = s.tiles := (rfl)
@[simp] theorem State.setTable_releases (s : State) (t : Nat) (v : Table) : (s.setTable t v).releases = s.releases := (rfl)
@[simp] theorem State.setTable_mports (s : State) (t : Nat) (v : Table) : (s.setTable t v).mports = s.mports := (rfl)
@[simp] theorem State.setTable_waiting (s : State) (t : Nat) (v : Table) : (s.setTable t v).waiting = s.waiting := (rfl)
@[simp] theorem State.setTable_outs (s : State) (t : Nat) (v : Table) : (s.setTable t v).outs = s.outs := (rfl)
@[simp] theorem State.setTable_lost (s : State) (t : Nat) (v : Table) : (s.setTable t v).lost = s.lost := (rfl)
@[simp] theorem State.setTable_readings (s : State) (t : Nat) (v : Table) : (s.setTable t v).readings = s.readings := (rfl)
@[simp] theorem State.setTable_records (s : State) (t : Nat) (v : Table) : (s.setTable t v).records = s.records := (rfl)
@[simp] theorem State.setTable_cports (s : State) (t : Nat) (v : Table) : (s.setTable t v).cports = s.cports := (rfl)
@[simp] theorem State.setTable_l1 (s : State) (t : Nat) (v : Table) : (s.setTable t v).l1 = s.l1 := (rfl)
@[simp] theorem State.setTable_l2 (s : State) (t : Nat) (v : Table) : (s.setTable t v).l2 = s.l2 := (rfl)
@[simp] theorem State.setTable_misses (s : State) (t : Nat) (v : Table) : (s.setTable t v).misses = s.misses := (rfl)
@[simp] theorem State.setTable_invals (s : State) (t : Nat) (v : Table) : (s.setTable t v).invals = s.invals := (rfl)
@[simp] theorem State.setTable_remote (s : State) (t : Nat) (v : Table) : (s.setTable t v).remote = s.remote := (rfl)
@[simp] theorem State.setTable_corridor (s : State) (t : Nat) (v : Table) : (s.setTable t v).corridor = s.corridor := (rfl)
@[simp] theorem State.setTable_porter (s : State) (t : Nat) (v : Table) : (s.setTable t v).porter = s.porter := (rfl)
@[simp] theorem State.setTable_larder (s : State) (t : Nat) (v : Table) : (s.setTable t v).larder = s.larder := (rfl)
@[simp] theorem State.setTable_blocks (s : State) (t : Nat) (v : Table) : (s.setTable t v).blocks = s.blocks := (rfl)
@[simp] theorem State.setTable_hall (s : State) (t : Nat) (v : Table) : (s.setTable t v).hall = s.hall := (rfl)
@[simp] theorem State.setTable_ledger (s : State) (t : Nat) (v : Table) : (s.setTable t v).ledger = s.ledger := (rfl)
@[simp] theorem State.setTable_rel (s : State) (t : Nat) (v : Table) : (s.setTable t v).rel = s.rel := (rfl)
@[simp] theorem State.setTable_tally (s : State) (t : Nat) (v : Table) : (s.setTable t v).tally = s.tally := (rfl)
@[simp] theorem State.setTable_pghs (s : State) (t : Nat) (v : Table) : (s.setTable t v).pghs = s.pghs := (rfl)
@[simp] theorem State.setTable_out (s : State) (t : Nat) (v : Table) : (s.setTable t v).out = s.out := (rfl)
@[simp] theorem State.setTable_free (s : State) (t : Nat) (v : Table) : (s.setTable t v).free = s.free := (rfl)
@[simp] theorem State.setPgh_pending (s : State) (p : Nat) (v : Pgh) : (s.setPgh p v).pending = s.pending := (rfl)
@[simp] theorem State.setPgh_cfg (s : State) (p : Nat) (v : Pgh) : (s.setPgh p v).cfg = s.cfg := (rfl)
@[simp] theorem State.setPgh_pins (s : State) (p : Nat) (v : Pgh) : (s.setPgh p v).pins = s.pins := (rfl)
@[simp] theorem State.setPgh_regs (s : State) (p : Nat) (v : Pgh) : (s.setPgh p v).regs = s.regs := (rfl)
@[simp] theorem State.setPgh_ccyc (s : State) (p : Nat) (v : Pgh) : (s.setPgh p v).ccyc = s.ccyc := (rfl)
@[simp] theorem State.setPgh_ccycLatch (s : State) (p : Nat) (v : Pgh) : (s.setPgh p v).ccycLatch = s.ccycLatch := (rfl)
@[simp] theorem State.setPgh_power (s : State) (p : Nat) (v : Pgh) : (s.setPgh p v).power = s.power := (rfl)
@[simp] theorem State.setPgh_boot (s : State) (p : Nat) (v : Pgh) : (s.setPgh p v).boot = s.boot := (rfl)
@[simp] theorem State.setPgh_tap (s : State) (p : Nat) (v : Pgh) : (s.setPgh p v).tap = s.tap := (rfl)
@[simp] theorem State.setPgh_queues (s : State) (p : Nat) (v : Pgh) : (s.setPgh p v).queues = s.queues := (rfl)
@[simp] theorem State.setPgh_preempted (s : State) (p : Nat) (v : Pgh) : (s.setPgh p v).preempted = s.preempted := (rfl)
@[simp] theorem State.setPgh_nextId (s : State) (p : Nat) (v : Pgh) : (s.setPgh p v).nextId = s.nextId := (rfl)
@[simp] theorem State.setPgh_seqs (s : State) (p : Nat) (v : Pgh) : (s.setPgh p v).seqs = s.seqs := (rfl)
@[simp] theorem State.setPgh_sems (s : State) (p : Nat) (v : Pgh) : (s.setPgh p v).sems = s.sems := (rfl)
@[simp] theorem State.setPgh_turns (s : State) (p : Nat) (v : Pgh) : (s.setPgh p v).turns = s.turns := (rfl)
@[simp] theorem State.setPgh_incsDue (s : State) (p : Nat) (v : Pgh) : (s.setPgh p v).incsDue = s.incsDue := (rfl)
@[simp] theorem State.setPgh_cpWaits (s : State) (p : Nat) (v : Pgh) : (s.setPgh p v).cpWaits = s.cpWaits := (rfl)
@[simp] theorem State.setPgh_rings (s : State) (p : Nat) (v : Pgh) : (s.setPgh p v).rings = s.rings := (rfl)
@[simp] theorem State.setPgh_lag (s : State) (p : Nat) (v : Pgh) : (s.setPgh p v).lag = s.lag := (rfl)
@[simp] theorem State.setPgh_lanes (s : State) (p : Nat) (v : Pgh) : (s.setPgh p v).lanes = s.lanes := (rfl)
@[simp] theorem State.setPgh_itins (s : State) (p : Nat) (v : Pgh) : (s.setPgh p v).itins = s.itins := (rfl)
@[simp] theorem State.setPgh_tiles (s : State) (p : Nat) (v : Pgh) : (s.setPgh p v).tiles = s.tiles := (rfl)
@[simp] theorem State.setPgh_releases (s : State) (p : Nat) (v : Pgh) : (s.setPgh p v).releases = s.releases := (rfl)
@[simp] theorem State.setPgh_mports (s : State) (p : Nat) (v : Pgh) : (s.setPgh p v).mports = s.mports := (rfl)
@[simp] theorem State.setPgh_waiting (s : State) (p : Nat) (v : Pgh) : (s.setPgh p v).waiting = s.waiting := (rfl)
@[simp] theorem State.setPgh_outs (s : State) (p : Nat) (v : Pgh) : (s.setPgh p v).outs = s.outs := (rfl)
@[simp] theorem State.setPgh_lost (s : State) (p : Nat) (v : Pgh) : (s.setPgh p v).lost = s.lost := (rfl)
@[simp] theorem State.setPgh_readings (s : State) (p : Nat) (v : Pgh) : (s.setPgh p v).readings = s.readings := (rfl)
@[simp] theorem State.setPgh_records (s : State) (p : Nat) (v : Pgh) : (s.setPgh p v).records = s.records := (rfl)
@[simp] theorem State.setPgh_cports (s : State) (p : Nat) (v : Pgh) : (s.setPgh p v).cports = s.cports := (rfl)
@[simp] theorem State.setPgh_l1 (s : State) (p : Nat) (v : Pgh) : (s.setPgh p v).l1 = s.l1 := (rfl)
@[simp] theorem State.setPgh_l2 (s : State) (p : Nat) (v : Pgh) : (s.setPgh p v).l2 = s.l2 := (rfl)
@[simp] theorem State.setPgh_misses (s : State) (p : Nat) (v : Pgh) : (s.setPgh p v).misses = s.misses := (rfl)
@[simp] theorem State.setPgh_invals (s : State) (p : Nat) (v : Pgh) : (s.setPgh p v).invals = s.invals := (rfl)
@[simp] theorem State.setPgh_remote (s : State) (p : Nat) (v : Pgh) : (s.setPgh p v).remote = s.remote := (rfl)
@[simp] theorem State.setPgh_corridor (s : State) (p : Nat) (v : Pgh) : (s.setPgh p v).corridor = s.corridor := (rfl)
@[simp] theorem State.setPgh_tables (s : State) (p : Nat) (v : Pgh) : (s.setPgh p v).tables = s.tables := (rfl)
@[simp] theorem State.setPgh_porter (s : State) (p : Nat) (v : Pgh) : (s.setPgh p v).porter = s.porter := (rfl)
@[simp] theorem State.setPgh_larder (s : State) (p : Nat) (v : Pgh) : (s.setPgh p v).larder = s.larder := (rfl)
@[simp] theorem State.setPgh_blocks (s : State) (p : Nat) (v : Pgh) : (s.setPgh p v).blocks = s.blocks := (rfl)
@[simp] theorem State.setPgh_hall (s : State) (p : Nat) (v : Pgh) : (s.setPgh p v).hall = s.hall := (rfl)
@[simp] theorem State.setPgh_ledger (s : State) (p : Nat) (v : Pgh) : (s.setPgh p v).ledger = s.ledger := (rfl)
@[simp] theorem State.setPgh_rel (s : State) (p : Nat) (v : Pgh) : (s.setPgh p v).rel = s.rel := (rfl)
@[simp] theorem State.setPgh_tally (s : State) (p : Nat) (v : Pgh) : (s.setPgh p v).tally = s.tally := (rfl)
@[simp] theorem State.setPgh_out (s : State) (p : Nat) (v : Pgh) : (s.setPgh p v).out = s.out := (rfl)
@[simp] theorem State.setPgh_free (s : State) (p : Nat) (v : Pgh) : (s.setPgh p v).free = s.free := (rfl)
@[simp] theorem State.updItin_pending (s : State) (n : Nat) (f : Itin → Itin) : (s.updItin n f).pending = s.pending := (rfl)
@[simp] theorem State.updItin_cfg (s : State) (n : Nat) (f : Itin → Itin) : (s.updItin n f).cfg = s.cfg := (rfl)
@[simp] theorem State.updItin_pins (s : State) (n : Nat) (f : Itin → Itin) : (s.updItin n f).pins = s.pins := (rfl)
@[simp] theorem State.updItin_regs (s : State) (n : Nat) (f : Itin → Itin) : (s.updItin n f).regs = s.regs := (rfl)
@[simp] theorem State.updItin_ccyc (s : State) (n : Nat) (f : Itin → Itin) : (s.updItin n f).ccyc = s.ccyc := (rfl)
@[simp] theorem State.updItin_ccycLatch (s : State) (n : Nat) (f : Itin → Itin) : (s.updItin n f).ccycLatch = s.ccycLatch := (rfl)
@[simp] theorem State.updItin_power (s : State) (n : Nat) (f : Itin → Itin) : (s.updItin n f).power = s.power := (rfl)
@[simp] theorem State.updItin_boot (s : State) (n : Nat) (f : Itin → Itin) : (s.updItin n f).boot = s.boot := (rfl)
@[simp] theorem State.updItin_tap (s : State) (n : Nat) (f : Itin → Itin) : (s.updItin n f).tap = s.tap := (rfl)
@[simp] theorem State.updItin_queues (s : State) (n : Nat) (f : Itin → Itin) : (s.updItin n f).queues = s.queues := (rfl)
@[simp] theorem State.updItin_preempted (s : State) (n : Nat) (f : Itin → Itin) : (s.updItin n f).preempted = s.preempted := (rfl)
@[simp] theorem State.updItin_nextId (s : State) (n : Nat) (f : Itin → Itin) : (s.updItin n f).nextId = s.nextId := (rfl)
@[simp] theorem State.updItin_seqs (s : State) (n : Nat) (f : Itin → Itin) : (s.updItin n f).seqs = s.seqs := (rfl)
@[simp] theorem State.updItin_sems (s : State) (n : Nat) (f : Itin → Itin) : (s.updItin n f).sems = s.sems := (rfl)
@[simp] theorem State.updItin_turns (s : State) (n : Nat) (f : Itin → Itin) : (s.updItin n f).turns = s.turns := (rfl)
@[simp] theorem State.updItin_incsDue (s : State) (n : Nat) (f : Itin → Itin) : (s.updItin n f).incsDue = s.incsDue := (rfl)
@[simp] theorem State.updItin_cpWaits (s : State) (n : Nat) (f : Itin → Itin) : (s.updItin n f).cpWaits = s.cpWaits := (rfl)
@[simp] theorem State.updItin_rings (s : State) (n : Nat) (f : Itin → Itin) : (s.updItin n f).rings = s.rings := (rfl)
@[simp] theorem State.updItin_lag (s : State) (n : Nat) (f : Itin → Itin) : (s.updItin n f).lag = s.lag := (rfl)
@[simp] theorem State.updItin_lanes (s : State) (n : Nat) (f : Itin → Itin) : (s.updItin n f).lanes = s.lanes := (rfl)
@[simp] theorem State.updItin_tiles (s : State) (n : Nat) (f : Itin → Itin) : (s.updItin n f).tiles = s.tiles := (rfl)
@[simp] theorem State.updItin_releases (s : State) (n : Nat) (f : Itin → Itin) : (s.updItin n f).releases = s.releases := (rfl)
@[simp] theorem State.updItin_mports (s : State) (n : Nat) (f : Itin → Itin) : (s.updItin n f).mports = s.mports := (rfl)
@[simp] theorem State.updItin_waiting (s : State) (n : Nat) (f : Itin → Itin) : (s.updItin n f).waiting = s.waiting := (rfl)
@[simp] theorem State.updItin_outs (s : State) (n : Nat) (f : Itin → Itin) : (s.updItin n f).outs = s.outs := (rfl)
@[simp] theorem State.updItin_lost (s : State) (n : Nat) (f : Itin → Itin) : (s.updItin n f).lost = s.lost := (rfl)
@[simp] theorem State.updItin_readings (s : State) (n : Nat) (f : Itin → Itin) : (s.updItin n f).readings = s.readings := (rfl)
@[simp] theorem State.updItin_records (s : State) (n : Nat) (f : Itin → Itin) : (s.updItin n f).records = s.records := (rfl)
@[simp] theorem State.updItin_cports (s : State) (n : Nat) (f : Itin → Itin) : (s.updItin n f).cports = s.cports := (rfl)
@[simp] theorem State.updItin_l1 (s : State) (n : Nat) (f : Itin → Itin) : (s.updItin n f).l1 = s.l1 := (rfl)
@[simp] theorem State.updItin_l2 (s : State) (n : Nat) (f : Itin → Itin) : (s.updItin n f).l2 = s.l2 := (rfl)
@[simp] theorem State.updItin_misses (s : State) (n : Nat) (f : Itin → Itin) : (s.updItin n f).misses = s.misses := (rfl)
@[simp] theorem State.updItin_invals (s : State) (n : Nat) (f : Itin → Itin) : (s.updItin n f).invals = s.invals := (rfl)
@[simp] theorem State.updItin_remote (s : State) (n : Nat) (f : Itin → Itin) : (s.updItin n f).remote = s.remote := (rfl)
@[simp] theorem State.updItin_corridor (s : State) (n : Nat) (f : Itin → Itin) : (s.updItin n f).corridor = s.corridor := (rfl)
@[simp] theorem State.updItin_tables (s : State) (n : Nat) (f : Itin → Itin) : (s.updItin n f).tables = s.tables := (rfl)
@[simp] theorem State.updItin_porter (s : State) (n : Nat) (f : Itin → Itin) : (s.updItin n f).porter = s.porter := (rfl)
@[simp] theorem State.updItin_larder (s : State) (n : Nat) (f : Itin → Itin) : (s.updItin n f).larder = s.larder := (rfl)
@[simp] theorem State.updItin_blocks (s : State) (n : Nat) (f : Itin → Itin) : (s.updItin n f).blocks = s.blocks := (rfl)
@[simp] theorem State.updItin_hall (s : State) (n : Nat) (f : Itin → Itin) : (s.updItin n f).hall = s.hall := (rfl)
@[simp] theorem State.updItin_ledger (s : State) (n : Nat) (f : Itin → Itin) : (s.updItin n f).ledger = s.ledger := (rfl)
@[simp] theorem State.updItin_rel (s : State) (n : Nat) (f : Itin → Itin) : (s.updItin n f).rel = s.rel := (rfl)
@[simp] theorem State.updItin_tally (s : State) (n : Nat) (f : Itin → Itin) : (s.updItin n f).tally = s.tally := (rfl)
@[simp] theorem State.updItin_pghs (s : State) (n : Nat) (f : Itin → Itin) : (s.updItin n f).pghs = s.pghs := (rfl)
@[simp] theorem State.updItin_out (s : State) (n : Nat) (f : Itin → Itin) : (s.updItin n f).out = s.out := (rfl)
@[simp] theorem State.updItin_free (s : State) (n : Nat) (f : Itin → Itin) : (s.updItin n f).free = s.free := (rfl)
@[simp] theorem State.updTile_pending (s : State) (n : Nat) (f : Tile → Tile) : (s.updTile n f).pending = s.pending := (rfl)
@[simp] theorem State.updTile_cfg (s : State) (n : Nat) (f : Tile → Tile) : (s.updTile n f).cfg = s.cfg := (rfl)
@[simp] theorem State.updTile_pins (s : State) (n : Nat) (f : Tile → Tile) : (s.updTile n f).pins = s.pins := (rfl)
@[simp] theorem State.updTile_regs (s : State) (n : Nat) (f : Tile → Tile) : (s.updTile n f).regs = s.regs := (rfl)
@[simp] theorem State.updTile_ccyc (s : State) (n : Nat) (f : Tile → Tile) : (s.updTile n f).ccyc = s.ccyc := (rfl)
@[simp] theorem State.updTile_ccycLatch (s : State) (n : Nat) (f : Tile → Tile) : (s.updTile n f).ccycLatch = s.ccycLatch := (rfl)
@[simp] theorem State.updTile_power (s : State) (n : Nat) (f : Tile → Tile) : (s.updTile n f).power = s.power := (rfl)
@[simp] theorem State.updTile_boot (s : State) (n : Nat) (f : Tile → Tile) : (s.updTile n f).boot = s.boot := (rfl)
@[simp] theorem State.updTile_tap (s : State) (n : Nat) (f : Tile → Tile) : (s.updTile n f).tap = s.tap := (rfl)
@[simp] theorem State.updTile_queues (s : State) (n : Nat) (f : Tile → Tile) : (s.updTile n f).queues = s.queues := (rfl)
@[simp] theorem State.updTile_preempted (s : State) (n : Nat) (f : Tile → Tile) : (s.updTile n f).preempted = s.preempted := (rfl)
@[simp] theorem State.updTile_nextId (s : State) (n : Nat) (f : Tile → Tile) : (s.updTile n f).nextId = s.nextId := (rfl)
@[simp] theorem State.updTile_seqs (s : State) (n : Nat) (f : Tile → Tile) : (s.updTile n f).seqs = s.seqs := (rfl)
@[simp] theorem State.updTile_sems (s : State) (n : Nat) (f : Tile → Tile) : (s.updTile n f).sems = s.sems := (rfl)
@[simp] theorem State.updTile_turns (s : State) (n : Nat) (f : Tile → Tile) : (s.updTile n f).turns = s.turns := (rfl)
@[simp] theorem State.updTile_incsDue (s : State) (n : Nat) (f : Tile → Tile) : (s.updTile n f).incsDue = s.incsDue := (rfl)
@[simp] theorem State.updTile_cpWaits (s : State) (n : Nat) (f : Tile → Tile) : (s.updTile n f).cpWaits = s.cpWaits := (rfl)
@[simp] theorem State.updTile_rings (s : State) (n : Nat) (f : Tile → Tile) : (s.updTile n f).rings = s.rings := (rfl)
@[simp] theorem State.updTile_lag (s : State) (n : Nat) (f : Tile → Tile) : (s.updTile n f).lag = s.lag := (rfl)
@[simp] theorem State.updTile_lanes (s : State) (n : Nat) (f : Tile → Tile) : (s.updTile n f).lanes = s.lanes := (rfl)
@[simp] theorem State.updTile_itins (s : State) (n : Nat) (f : Tile → Tile) : (s.updTile n f).itins = s.itins := (rfl)
@[simp] theorem State.updTile_releases (s : State) (n : Nat) (f : Tile → Tile) : (s.updTile n f).releases = s.releases := (rfl)
@[simp] theorem State.updTile_mports (s : State) (n : Nat) (f : Tile → Tile) : (s.updTile n f).mports = s.mports := (rfl)
@[simp] theorem State.updTile_waiting (s : State) (n : Nat) (f : Tile → Tile) : (s.updTile n f).waiting = s.waiting := (rfl)
@[simp] theorem State.updTile_outs (s : State) (n : Nat) (f : Tile → Tile) : (s.updTile n f).outs = s.outs := (rfl)
@[simp] theorem State.updTile_lost (s : State) (n : Nat) (f : Tile → Tile) : (s.updTile n f).lost = s.lost := (rfl)
@[simp] theorem State.updTile_readings (s : State) (n : Nat) (f : Tile → Tile) : (s.updTile n f).readings = s.readings := (rfl)
@[simp] theorem State.updTile_records (s : State) (n : Nat) (f : Tile → Tile) : (s.updTile n f).records = s.records := (rfl)
@[simp] theorem State.updTile_cports (s : State) (n : Nat) (f : Tile → Tile) : (s.updTile n f).cports = s.cports := (rfl)
@[simp] theorem State.updTile_l1 (s : State) (n : Nat) (f : Tile → Tile) : (s.updTile n f).l1 = s.l1 := (rfl)
@[simp] theorem State.updTile_l2 (s : State) (n : Nat) (f : Tile → Tile) : (s.updTile n f).l2 = s.l2 := (rfl)
@[simp] theorem State.updTile_misses (s : State) (n : Nat) (f : Tile → Tile) : (s.updTile n f).misses = s.misses := (rfl)
@[simp] theorem State.updTile_invals (s : State) (n : Nat) (f : Tile → Tile) : (s.updTile n f).invals = s.invals := (rfl)
@[simp] theorem State.updTile_remote (s : State) (n : Nat) (f : Tile → Tile) : (s.updTile n f).remote = s.remote := (rfl)
@[simp] theorem State.updTile_corridor (s : State) (n : Nat) (f : Tile → Tile) : (s.updTile n f).corridor = s.corridor := (rfl)
@[simp] theorem State.updTile_tables (s : State) (n : Nat) (f : Tile → Tile) : (s.updTile n f).tables = s.tables := (rfl)
@[simp] theorem State.updTile_porter (s : State) (n : Nat) (f : Tile → Tile) : (s.updTile n f).porter = s.porter := (rfl)
@[simp] theorem State.updTile_larder (s : State) (n : Nat) (f : Tile → Tile) : (s.updTile n f).larder = s.larder := (rfl)
@[simp] theorem State.updTile_blocks (s : State) (n : Nat) (f : Tile → Tile) : (s.updTile n f).blocks = s.blocks := (rfl)
@[simp] theorem State.updTile_hall (s : State) (n : Nat) (f : Tile → Tile) : (s.updTile n f).hall = s.hall := (rfl)
@[simp] theorem State.updTile_ledger (s : State) (n : Nat) (f : Tile → Tile) : (s.updTile n f).ledger = s.ledger := (rfl)
@[simp] theorem State.updTile_rel (s : State) (n : Nat) (f : Tile → Tile) : (s.updTile n f).rel = s.rel := (rfl)
@[simp] theorem State.updTile_tally (s : State) (n : Nat) (f : Tile → Tile) : (s.updTile n f).tally = s.tally := (rfl)
@[simp] theorem State.updTile_pghs (s : State) (n : Nat) (f : Tile → Tile) : (s.updTile n f).pghs = s.pghs := (rfl)
@[simp] theorem State.updTile_out (s : State) (n : Nat) (f : Tile → Tile) : (s.updTile n f).out = s.out := (rfl)
@[simp] theorem State.updTile_free (s : State) (n : Nat) (f : Tile → Tile) : (s.updTile n f).free = s.free := (rfl)
@[simp] theorem State.setReg_pending (s : State) (o : Nat) (w : Word) : (s.setReg o w).pending = s.pending := (rfl)
@[simp] theorem State.setReg_cfg (s : State) (o : Nat) (w : Word) : (s.setReg o w).cfg = s.cfg := (rfl)
@[simp] theorem State.setReg_pins (s : State) (o : Nat) (w : Word) : (s.setReg o w).pins = s.pins := (rfl)
@[simp] theorem State.setReg_ccyc (s : State) (o : Nat) (w : Word) : (s.setReg o w).ccyc = s.ccyc := (rfl)
@[simp] theorem State.setReg_ccycLatch (s : State) (o : Nat) (w : Word) : (s.setReg o w).ccycLatch = s.ccycLatch := (rfl)
@[simp] theorem State.setReg_power (s : State) (o : Nat) (w : Word) : (s.setReg o w).power = s.power := (rfl)
@[simp] theorem State.setReg_boot (s : State) (o : Nat) (w : Word) : (s.setReg o w).boot = s.boot := (rfl)
@[simp] theorem State.setReg_tap (s : State) (o : Nat) (w : Word) : (s.setReg o w).tap = s.tap := (rfl)
@[simp] theorem State.setReg_queues (s : State) (o : Nat) (w : Word) : (s.setReg o w).queues = s.queues := (rfl)
@[simp] theorem State.setReg_preempted (s : State) (o : Nat) (w : Word) : (s.setReg o w).preempted = s.preempted := (rfl)
@[simp] theorem State.setReg_nextId (s : State) (o : Nat) (w : Word) : (s.setReg o w).nextId = s.nextId := (rfl)
@[simp] theorem State.setReg_seqs (s : State) (o : Nat) (w : Word) : (s.setReg o w).seqs = s.seqs := (rfl)
@[simp] theorem State.setReg_sems (s : State) (o : Nat) (w : Word) : (s.setReg o w).sems = s.sems := (rfl)
@[simp] theorem State.setReg_turns (s : State) (o : Nat) (w : Word) : (s.setReg o w).turns = s.turns := (rfl)
@[simp] theorem State.setReg_incsDue (s : State) (o : Nat) (w : Word) : (s.setReg o w).incsDue = s.incsDue := (rfl)
@[simp] theorem State.setReg_cpWaits (s : State) (o : Nat) (w : Word) : (s.setReg o w).cpWaits = s.cpWaits := (rfl)
@[simp] theorem State.setReg_rings (s : State) (o : Nat) (w : Word) : (s.setReg o w).rings = s.rings := (rfl)
@[simp] theorem State.setReg_lag (s : State) (o : Nat) (w : Word) : (s.setReg o w).lag = s.lag := (rfl)
@[simp] theorem State.setReg_lanes (s : State) (o : Nat) (w : Word) : (s.setReg o w).lanes = s.lanes := (rfl)
@[simp] theorem State.setReg_itins (s : State) (o : Nat) (w : Word) : (s.setReg o w).itins = s.itins := (rfl)
@[simp] theorem State.setReg_tiles (s : State) (o : Nat) (w : Word) : (s.setReg o w).tiles = s.tiles := (rfl)
@[simp] theorem State.setReg_releases (s : State) (o : Nat) (w : Word) : (s.setReg o w).releases = s.releases := (rfl)
@[simp] theorem State.setReg_mports (s : State) (o : Nat) (w : Word) : (s.setReg o w).mports = s.mports := (rfl)
@[simp] theorem State.setReg_waiting (s : State) (o : Nat) (w : Word) : (s.setReg o w).waiting = s.waiting := (rfl)
@[simp] theorem State.setReg_outs (s : State) (o : Nat) (w : Word) : (s.setReg o w).outs = s.outs := (rfl)
@[simp] theorem State.setReg_lost (s : State) (o : Nat) (w : Word) : (s.setReg o w).lost = s.lost := (rfl)
@[simp] theorem State.setReg_readings (s : State) (o : Nat) (w : Word) : (s.setReg o w).readings = s.readings := (rfl)
@[simp] theorem State.setReg_records (s : State) (o : Nat) (w : Word) : (s.setReg o w).records = s.records := (rfl)
@[simp] theorem State.setReg_cports (s : State) (o : Nat) (w : Word) : (s.setReg o w).cports = s.cports := (rfl)
@[simp] theorem State.setReg_l1 (s : State) (o : Nat) (w : Word) : (s.setReg o w).l1 = s.l1 := (rfl)
@[simp] theorem State.setReg_l2 (s : State) (o : Nat) (w : Word) : (s.setReg o w).l2 = s.l2 := (rfl)
@[simp] theorem State.setReg_misses (s : State) (o : Nat) (w : Word) : (s.setReg o w).misses = s.misses := (rfl)
@[simp] theorem State.setReg_invals (s : State) (o : Nat) (w : Word) : (s.setReg o w).invals = s.invals := (rfl)
@[simp] theorem State.setReg_remote (s : State) (o : Nat) (w : Word) : (s.setReg o w).remote = s.remote := (rfl)
@[simp] theorem State.setReg_corridor (s : State) (o : Nat) (w : Word) : (s.setReg o w).corridor = s.corridor := (rfl)
@[simp] theorem State.setReg_tables (s : State) (o : Nat) (w : Word) : (s.setReg o w).tables = s.tables := (rfl)
@[simp] theorem State.setReg_porter (s : State) (o : Nat) (w : Word) : (s.setReg o w).porter = s.porter := (rfl)
@[simp] theorem State.setReg_larder (s : State) (o : Nat) (w : Word) : (s.setReg o w).larder = s.larder := (rfl)
@[simp] theorem State.setReg_blocks (s : State) (o : Nat) (w : Word) : (s.setReg o w).blocks = s.blocks := (rfl)
@[simp] theorem State.setReg_hall (s : State) (o : Nat) (w : Word) : (s.setReg o w).hall = s.hall := (rfl)
@[simp] theorem State.setReg_ledger (s : State) (o : Nat) (w : Word) : (s.setReg o w).ledger = s.ledger := (rfl)
@[simp] theorem State.setReg_rel (s : State) (o : Nat) (w : Word) : (s.setReg o w).rel = s.rel := (rfl)
@[simp] theorem State.setReg_tally (s : State) (o : Nat) (w : Word) : (s.setReg o w).tally = s.tally := (rfl)
@[simp] theorem State.setReg_pghs (s : State) (o : Nat) (w : Word) : (s.setReg o w).pghs = s.pghs := (rfl)
@[simp] theorem State.setReg_out (s : State) (o : Nat) (w : Word) : (s.setReg o w).out = s.out := (rfl)
@[simp] theorem State.setReg_free (s : State) (o : Nat) (w : Word) : (s.setReg o w).free = s.free := (rfl)
@[simp] theorem State.tick_pending (s : State) : (s.tick).pending = s.pending := (rfl)
@[simp] theorem State.tick_cfg (s : State) : (s.tick).cfg = s.cfg := (rfl)
@[simp] theorem State.tick_pins (s : State) : (s.tick).pins = s.pins := (rfl)
@[simp] theorem State.tick_regs (s : State) : (s.tick).regs = s.regs := (rfl)
@[simp] theorem State.tick_ccyc (s : State) : (s.tick).ccyc = s.ccyc := (rfl)
@[simp] theorem State.tick_ccycLatch (s : State) : (s.tick).ccycLatch = s.ccycLatch := (rfl)
@[simp] theorem State.tick_power (s : State) : (s.tick).power = s.power := (rfl)
@[simp] theorem State.tick_boot (s : State) : (s.tick).boot = s.boot := (rfl)
@[simp] theorem State.tick_tap (s : State) : (s.tick).tap = s.tap := (rfl)
@[simp] theorem State.tick_queues (s : State) : (s.tick).queues = s.queues := (rfl)
@[simp] theorem State.tick_preempted (s : State) : (s.tick).preempted = s.preempted := (rfl)
@[simp] theorem State.tick_nextId (s : State) : (s.tick).nextId = s.nextId := (rfl)
@[simp] theorem State.tick_seqs (s : State) : (s.tick).seqs = s.seqs := (rfl)
@[simp] theorem State.tick_sems (s : State) : (s.tick).sems = s.sems := (rfl)
@[simp] theorem State.tick_turns (s : State) : (s.tick).turns = s.turns := (rfl)
@[simp] theorem State.tick_incsDue (s : State) : (s.tick).incsDue = s.incsDue := (rfl)
@[simp] theorem State.tick_cpWaits (s : State) : (s.tick).cpWaits = s.cpWaits := (rfl)
@[simp] theorem State.tick_rings (s : State) : (s.tick).rings = s.rings := (rfl)
@[simp] theorem State.tick_lag (s : State) : (s.tick).lag = s.lag := (rfl)
@[simp] theorem State.tick_lanes (s : State) : (s.tick).lanes = s.lanes := (rfl)
@[simp] theorem State.tick_itins (s : State) : (s.tick).itins = s.itins := (rfl)
@[simp] theorem State.tick_tiles (s : State) : (s.tick).tiles = s.tiles := (rfl)
@[simp] theorem State.tick_releases (s : State) : (s.tick).releases = s.releases := (rfl)
@[simp] theorem State.tick_mports (s : State) : (s.tick).mports = s.mports := (rfl)
@[simp] theorem State.tick_waiting (s : State) : (s.tick).waiting = s.waiting := (rfl)
@[simp] theorem State.tick_outs (s : State) : (s.tick).outs = s.outs := (rfl)
@[simp] theorem State.tick_lost (s : State) : (s.tick).lost = s.lost := (rfl)
@[simp] theorem State.tick_readings (s : State) : (s.tick).readings = s.readings := (rfl)
@[simp] theorem State.tick_records (s : State) : (s.tick).records = s.records := (rfl)
@[simp] theorem State.tick_cports (s : State) : (s.tick).cports = s.cports := (rfl)
@[simp] theorem State.tick_l1 (s : State) : (s.tick).l1 = s.l1 := (rfl)
@[simp] theorem State.tick_l2 (s : State) : (s.tick).l2 = s.l2 := (rfl)
@[simp] theorem State.tick_misses (s : State) : (s.tick).misses = s.misses := (rfl)
@[simp] theorem State.tick_invals (s : State) : (s.tick).invals = s.invals := (rfl)
@[simp] theorem State.tick_remote (s : State) : (s.tick).remote = s.remote := (rfl)
@[simp] theorem State.tick_corridor (s : State) : (s.tick).corridor = s.corridor := (rfl)
@[simp] theorem State.tick_tables (s : State) : (s.tick).tables = s.tables := (rfl)
@[simp] theorem State.tick_porter (s : State) : (s.tick).porter = s.porter := (rfl)
@[simp] theorem State.tick_larder (s : State) : (s.tick).larder = s.larder := (rfl)
@[simp] theorem State.tick_blocks (s : State) : (s.tick).blocks = s.blocks := (rfl)
@[simp] theorem State.tick_hall (s : State) : (s.tick).hall = s.hall := (rfl)
@[simp] theorem State.tick_ledger (s : State) : (s.tick).ledger = s.ledger := (rfl)
@[simp] theorem State.tick_rel (s : State) : (s.tick).rel = s.rel := (rfl)
@[simp] theorem State.tick_tally (s : State) : (s.tick).tally = s.tally := (rfl)
@[simp] theorem State.tick_pghs (s : State) : (s.tick).pghs = s.pghs := (rfl)
@[simp] theorem State.tick_out (s : State) : (s.tick).out = s.out := (rfl)
@[simp] theorem State.bump_pending (s : State) : (s.bump).pending = s.pending := (rfl)
@[simp] theorem State.bump_cfg (s : State) : (s.bump).cfg = s.cfg := (rfl)
@[simp] theorem State.bump_pins (s : State) : (s.bump).pins = s.pins := (rfl)
@[simp] theorem State.bump_regs (s : State) : (s.bump).regs = s.regs := (rfl)
@[simp] theorem State.bump_ccyc (s : State) : (s.bump).ccyc = s.ccyc := (rfl)
@[simp] theorem State.bump_ccycLatch (s : State) : (s.bump).ccycLatch = s.ccycLatch := (rfl)
@[simp] theorem State.bump_power (s : State) : (s.bump).power = s.power := (rfl)
@[simp] theorem State.bump_boot (s : State) : (s.bump).boot = s.boot := (rfl)
@[simp] theorem State.bump_tap (s : State) : (s.bump).tap = s.tap := (rfl)
@[simp] theorem State.bump_queues (s : State) : (s.bump).queues = s.queues := (rfl)
@[simp] theorem State.bump_preempted (s : State) : (s.bump).preempted = s.preempted := (rfl)
@[simp] theorem State.bump_seqs (s : State) : (s.bump).seqs = s.seqs := (rfl)
@[simp] theorem State.bump_sems (s : State) : (s.bump).sems = s.sems := (rfl)
@[simp] theorem State.bump_turns (s : State) : (s.bump).turns = s.turns := (rfl)
@[simp] theorem State.bump_incsDue (s : State) : (s.bump).incsDue = s.incsDue := (rfl)
@[simp] theorem State.bump_cpWaits (s : State) : (s.bump).cpWaits = s.cpWaits := (rfl)
@[simp] theorem State.bump_rings (s : State) : (s.bump).rings = s.rings := (rfl)
@[simp] theorem State.bump_lag (s : State) : (s.bump).lag = s.lag := (rfl)
@[simp] theorem State.bump_lanes (s : State) : (s.bump).lanes = s.lanes := (rfl)
@[simp] theorem State.bump_itins (s : State) : (s.bump).itins = s.itins := (rfl)
@[simp] theorem State.bump_tiles (s : State) : (s.bump).tiles = s.tiles := (rfl)
@[simp] theorem State.bump_releases (s : State) : (s.bump).releases = s.releases := (rfl)
@[simp] theorem State.bump_mports (s : State) : (s.bump).mports = s.mports := (rfl)
@[simp] theorem State.bump_waiting (s : State) : (s.bump).waiting = s.waiting := (rfl)
@[simp] theorem State.bump_outs (s : State) : (s.bump).outs = s.outs := (rfl)
@[simp] theorem State.bump_lost (s : State) : (s.bump).lost = s.lost := (rfl)
@[simp] theorem State.bump_readings (s : State) : (s.bump).readings = s.readings := (rfl)
@[simp] theorem State.bump_records (s : State) : (s.bump).records = s.records := (rfl)
@[simp] theorem State.bump_cports (s : State) : (s.bump).cports = s.cports := (rfl)
@[simp] theorem State.bump_l1 (s : State) : (s.bump).l1 = s.l1 := (rfl)
@[simp] theorem State.bump_l2 (s : State) : (s.bump).l2 = s.l2 := (rfl)
@[simp] theorem State.bump_misses (s : State) : (s.bump).misses = s.misses := (rfl)
@[simp] theorem State.bump_invals (s : State) : (s.bump).invals = s.invals := (rfl)
@[simp] theorem State.bump_remote (s : State) : (s.bump).remote = s.remote := (rfl)
@[simp] theorem State.bump_corridor (s : State) : (s.bump).corridor = s.corridor := (rfl)
@[simp] theorem State.bump_tables (s : State) : (s.bump).tables = s.tables := (rfl)
@[simp] theorem State.bump_porter (s : State) : (s.bump).porter = s.porter := (rfl)
@[simp] theorem State.bump_larder (s : State) : (s.bump).larder = s.larder := (rfl)
@[simp] theorem State.bump_blocks (s : State) : (s.bump).blocks = s.blocks := (rfl)
@[simp] theorem State.bump_hall (s : State) : (s.bump).hall = s.hall := (rfl)
@[simp] theorem State.bump_ledger (s : State) : (s.bump).ledger = s.ledger := (rfl)
@[simp] theorem State.bump_rel (s : State) : (s.bump).rel = s.rel := (rfl)
@[simp] theorem State.bump_tally (s : State) : (s.bump).tally = s.tally := (rfl)
@[simp] theorem State.bump_pghs (s : State) : (s.bump).pghs = s.pghs := (rfl)
@[simp] theorem State.bump_out (s : State) : (s.bump).out = s.out := (rfl)
@[simp] theorem State.bump_free (s : State) : (s.bump).free = s.free := (rfl)
@[simp] theorem State.drive_pending (s : State) (o : Out) : (s.drive o).pending = s.pending := (rfl)
@[simp] theorem State.drive_cfg (s : State) (o : Out) : (s.drive o).cfg = s.cfg := (rfl)
@[simp] theorem State.drive_pins (s : State) (o : Out) : (s.drive o).pins = s.pins := (rfl)
@[simp] theorem State.drive_regs (s : State) (o : Out) : (s.drive o).regs = s.regs := (rfl)
@[simp] theorem State.drive_ccyc (s : State) (o : Out) : (s.drive o).ccyc = s.ccyc := (rfl)
@[simp] theorem State.drive_ccycLatch (s : State) (o : Out) : (s.drive o).ccycLatch = s.ccycLatch := (rfl)
@[simp] theorem State.drive_power (s : State) (o : Out) : (s.drive o).power = s.power := (rfl)
@[simp] theorem State.drive_boot (s : State) (o : Out) : (s.drive o).boot = s.boot := (rfl)
@[simp] theorem State.drive_tap (s : State) (o : Out) : (s.drive o).tap = s.tap := (rfl)
@[simp] theorem State.drive_queues (s : State) (o : Out) : (s.drive o).queues = s.queues := (rfl)
@[simp] theorem State.drive_preempted (s : State) (o : Out) : (s.drive o).preempted = s.preempted := (rfl)
@[simp] theorem State.drive_nextId (s : State) (o : Out) : (s.drive o).nextId = s.nextId := (rfl)
@[simp] theorem State.drive_seqs (s : State) (o : Out) : (s.drive o).seqs = s.seqs := (rfl)
@[simp] theorem State.drive_sems (s : State) (o : Out) : (s.drive o).sems = s.sems := (rfl)
@[simp] theorem State.drive_turns (s : State) (o : Out) : (s.drive o).turns = s.turns := (rfl)
@[simp] theorem State.drive_incsDue (s : State) (o : Out) : (s.drive o).incsDue = s.incsDue := (rfl)
@[simp] theorem State.drive_cpWaits (s : State) (o : Out) : (s.drive o).cpWaits = s.cpWaits := (rfl)
@[simp] theorem State.drive_rings (s : State) (o : Out) : (s.drive o).rings = s.rings := (rfl)
@[simp] theorem State.drive_lag (s : State) (o : Out) : (s.drive o).lag = s.lag := (rfl)
@[simp] theorem State.drive_lanes (s : State) (o : Out) : (s.drive o).lanes = s.lanes := (rfl)
@[simp] theorem State.drive_itins (s : State) (o : Out) : (s.drive o).itins = s.itins := (rfl)
@[simp] theorem State.drive_tiles (s : State) (o : Out) : (s.drive o).tiles = s.tiles := (rfl)
@[simp] theorem State.drive_releases (s : State) (o : Out) : (s.drive o).releases = s.releases := (rfl)
@[simp] theorem State.drive_mports (s : State) (o : Out) : (s.drive o).mports = s.mports := (rfl)
@[simp] theorem State.drive_waiting (s : State) (o : Out) : (s.drive o).waiting = s.waiting := (rfl)
@[simp] theorem State.drive_outs (s : State) (o : Out) : (s.drive o).outs = s.outs := (rfl)
@[simp] theorem State.drive_lost (s : State) (o : Out) : (s.drive o).lost = s.lost := (rfl)
@[simp] theorem State.drive_readings (s : State) (o : Out) : (s.drive o).readings = s.readings := (rfl)
@[simp] theorem State.drive_records (s : State) (o : Out) : (s.drive o).records = s.records := (rfl)
@[simp] theorem State.drive_cports (s : State) (o : Out) : (s.drive o).cports = s.cports := (rfl)
@[simp] theorem State.drive_l1 (s : State) (o : Out) : (s.drive o).l1 = s.l1 := (rfl)
@[simp] theorem State.drive_l2 (s : State) (o : Out) : (s.drive o).l2 = s.l2 := (rfl)
@[simp] theorem State.drive_misses (s : State) (o : Out) : (s.drive o).misses = s.misses := (rfl)
@[simp] theorem State.drive_invals (s : State) (o : Out) : (s.drive o).invals = s.invals := (rfl)
@[simp] theorem State.drive_remote (s : State) (o : Out) : (s.drive o).remote = s.remote := (rfl)
@[simp] theorem State.drive_corridor (s : State) (o : Out) : (s.drive o).corridor = s.corridor := (rfl)
@[simp] theorem State.drive_tables (s : State) (o : Out) : (s.drive o).tables = s.tables := (rfl)
@[simp] theorem State.drive_porter (s : State) (o : Out) : (s.drive o).porter = s.porter := (rfl)
@[simp] theorem State.drive_larder (s : State) (o : Out) : (s.drive o).larder = s.larder := (rfl)
@[simp] theorem State.drive_blocks (s : State) (o : Out) : (s.drive o).blocks = s.blocks := (rfl)
@[simp] theorem State.drive_hall (s : State) (o : Out) : (s.drive o).hall = s.hall := (rfl)
@[simp] theorem State.drive_ledger (s : State) (o : Out) : (s.drive o).ledger = s.ledger := (rfl)
@[simp] theorem State.drive_rel (s : State) (o : Out) : (s.drive o).rel = s.rel := (rfl)
@[simp] theorem State.drive_tally (s : State) (o : Out) : (s.drive o).tally = s.tally := (rfl)
@[simp] theorem State.drive_pghs (s : State) (o : Out) : (s.drive o).pghs = s.pghs := (rfl)
@[simp] theorem State.drive_free (s : State) (o : Out) : (s.drive o).free = s.free := (rfl)
@[simp] theorem State.withPending_cfg (s : State) (l : List Instr) : (s.withPending l).cfg = s.cfg := (rfl)
@[simp] theorem State.withPending_pins (s : State) (l : List Instr) : (s.withPending l).pins = s.pins := (rfl)
@[simp] theorem State.withPending_regs (s : State) (l : List Instr) : (s.withPending l).regs = s.regs := (rfl)
@[simp] theorem State.withPending_ccyc (s : State) (l : List Instr) : (s.withPending l).ccyc = s.ccyc := (rfl)
@[simp] theorem State.withPending_ccycLatch (s : State) (l : List Instr) : (s.withPending l).ccycLatch = s.ccycLatch := (rfl)
@[simp] theorem State.withPending_power (s : State) (l : List Instr) : (s.withPending l).power = s.power := (rfl)
@[simp] theorem State.withPending_boot (s : State) (l : List Instr) : (s.withPending l).boot = s.boot := (rfl)
@[simp] theorem State.withPending_tap (s : State) (l : List Instr) : (s.withPending l).tap = s.tap := (rfl)
@[simp] theorem State.withPending_queues (s : State) (l : List Instr) : (s.withPending l).queues = s.queues := (rfl)
@[simp] theorem State.withPending_preempted (s : State) (l : List Instr) : (s.withPending l).preempted = s.preempted := (rfl)
@[simp] theorem State.withPending_nextId (s : State) (l : List Instr) : (s.withPending l).nextId = s.nextId := (rfl)
@[simp] theorem State.withPending_seqs (s : State) (l : List Instr) : (s.withPending l).seqs = s.seqs := (rfl)
@[simp] theorem State.withPending_sems (s : State) (l : List Instr) : (s.withPending l).sems = s.sems := (rfl)
@[simp] theorem State.withPending_turns (s : State) (l : List Instr) : (s.withPending l).turns = s.turns := (rfl)
@[simp] theorem State.withPending_incsDue (s : State) (l : List Instr) : (s.withPending l).incsDue = s.incsDue := (rfl)
@[simp] theorem State.withPending_cpWaits (s : State) (l : List Instr) : (s.withPending l).cpWaits = s.cpWaits := (rfl)
@[simp] theorem State.withPending_rings (s : State) (l : List Instr) : (s.withPending l).rings = s.rings := (rfl)
@[simp] theorem State.withPending_lag (s : State) (l : List Instr) : (s.withPending l).lag = s.lag := (rfl)
@[simp] theorem State.withPending_lanes (s : State) (l : List Instr) : (s.withPending l).lanes = s.lanes := (rfl)
@[simp] theorem State.withPending_itins (s : State) (l : List Instr) : (s.withPending l).itins = s.itins := (rfl)
@[simp] theorem State.withPending_tiles (s : State) (l : List Instr) : (s.withPending l).tiles = s.tiles := (rfl)
@[simp] theorem State.withPending_releases (s : State) (l : List Instr) : (s.withPending l).releases = s.releases := (rfl)
@[simp] theorem State.withPending_mports (s : State) (l : List Instr) : (s.withPending l).mports = s.mports := (rfl)
@[simp] theorem State.withPending_waiting (s : State) (l : List Instr) : (s.withPending l).waiting = s.waiting := (rfl)
@[simp] theorem State.withPending_outs (s : State) (l : List Instr) : (s.withPending l).outs = s.outs := (rfl)
@[simp] theorem State.withPending_lost (s : State) (l : List Instr) : (s.withPending l).lost = s.lost := (rfl)
@[simp] theorem State.withPending_readings (s : State) (l : List Instr) : (s.withPending l).readings = s.readings := (rfl)
@[simp] theorem State.withPending_records (s : State) (l : List Instr) : (s.withPending l).records = s.records := (rfl)
@[simp] theorem State.withPending_cports (s : State) (l : List Instr) : (s.withPending l).cports = s.cports := (rfl)
@[simp] theorem State.withPending_l1 (s : State) (l : List Instr) : (s.withPending l).l1 = s.l1 := (rfl)
@[simp] theorem State.withPending_l2 (s : State) (l : List Instr) : (s.withPending l).l2 = s.l2 := (rfl)
@[simp] theorem State.withPending_misses (s : State) (l : List Instr) : (s.withPending l).misses = s.misses := (rfl)
@[simp] theorem State.withPending_invals (s : State) (l : List Instr) : (s.withPending l).invals = s.invals := (rfl)
@[simp] theorem State.withPending_remote (s : State) (l : List Instr) : (s.withPending l).remote = s.remote := (rfl)
@[simp] theorem State.withPending_corridor (s : State) (l : List Instr) : (s.withPending l).corridor = s.corridor := (rfl)
@[simp] theorem State.withPending_tables (s : State) (l : List Instr) : (s.withPending l).tables = s.tables := (rfl)
@[simp] theorem State.withPending_porter (s : State) (l : List Instr) : (s.withPending l).porter = s.porter := (rfl)
@[simp] theorem State.withPending_larder (s : State) (l : List Instr) : (s.withPending l).larder = s.larder := (rfl)
@[simp] theorem State.withPending_blocks (s : State) (l : List Instr) : (s.withPending l).blocks = s.blocks := (rfl)
@[simp] theorem State.withPending_hall (s : State) (l : List Instr) : (s.withPending l).hall = s.hall := (rfl)
@[simp] theorem State.withPending_ledger (s : State) (l : List Instr) : (s.withPending l).ledger = s.ledger := (rfl)
@[simp] theorem State.withPending_rel (s : State) (l : List Instr) : (s.withPending l).rel = s.rel := (rfl)
@[simp] theorem State.withPending_tally (s : State) (l : List Instr) : (s.withPending l).tally = s.tally := (rfl)
@[simp] theorem State.withPending_pghs (s : State) (l : List Instr) : (s.withPending l).pghs = s.pghs := (rfl)
@[simp] theorem State.withPending_out (s : State) (l : List Instr) : (s.withPending l).out = s.out := (rfl)
@[simp] theorem State.withPending_free (s : State) (l : List Instr) : (s.withPending l).free = s.free := (rfl)

@[simp] theorem State.setQueue_queue (s : State) (q : Nat) (v : Queue) : (s.setQueue q v).queue q = v := by
  simp [State.queue, State.setQueue]
theorem State.setQueue_queue_other (s : State) (q r : Nat) (v : Queue) (h : r ≠ q) :
    (s.setQueue q v).queue r = s.queue r := by simp [State.queue, State.setQueue, Bank.get_set_other _ h]
@[simp] theorem State.updQueue_queue (s : State) (q : Nat) (f : Queue → Queue) :
    (s.updQueue q f).queue q = f (s.queue q) := by simp [State.updQueue]
@[simp] theorem State.setSem_sem (s : State) (i : Nat) (v : Sem) : (s.setSem i v).sem i = v := by
  simp [State.sem, State.setSem]
theorem State.setSem_sem_other (s : State) (i j : Nat) (v : Sem) (h : j ≠ i) : (s.setSem i v).sem j = s.sem j := by
  simp [State.sem, State.setSem, Bank.get_set_other _ h]
@[simp] theorem State.updSem_sem (s : State) (i : Nat) (f : Sem → Sem) : (s.updSem i f).sem i = f (s.sem i) := by
  simp [State.updSem]
@[simp] theorem State.setRing_ring (s : State) (r : Nat) (v : Ring) : (s.setRing r v).ring r = v := by
  simp [State.ring, State.setRing]
theorem State.setRing_ring_other (s : State) (r k : Nat) (v : Ring) (h : k ≠ r) : (s.setRing r v).ring k = s.ring k := by
  simp [State.ring, State.setRing, Bank.get_set_other _ h]
@[simp] theorem State.updRing_ring (s : State) (r : Nat) (f : Ring → Ring) : (s.updRing r f).ring r = f (s.ring r) := by
  simp [State.updRing]
@[simp] theorem State.setTable_table (s : State) (k : Nat) (v : Table) : (s.setTable k v).table k = v := by
  simp [State.table, State.setTable]
theorem State.setTable_table_other (s : State) (k j : Nat) (v : Table) (h : j ≠ k) :
    (s.setTable k v).table j = s.table j := by simp [State.table, State.setTable, Bank.get_set_other _ h]
@[simp] theorem State.setPgh_pgh (s : State) (p : Nat) (v : Pgh) : (s.setPgh p v).pgh p = v := by
  simp [State.pgh, State.setPgh]
@[simp] theorem State.updMport_mport (s : State) (p : Nat) (f : MPort → MPort) :
    (s.updMport p f).mport p = f (s.mport p) := by simp [State.mport, State.updMport]
@[simp] theorem State.updCport_cport (s : State) (c : Nat) (f : CPort → CPort) :
    (s.updCport c f).cport c = f (s.cport c) := by simp [State.cport, State.updCport]
@[simp] theorem State.updXport_xport (s : State) (x : Nat) (f : XPort → XPort) :
    (s.updXport x f).xport x = f (s.xport x) := by simp [State.xport, State.updXport]
@[simp] theorem State.updLane_lane (s : State) (l : Nat) (f : Lane → Lane) : (s.updLane l f).lane l = f (s.lane l) := by
  simp [State.lane, State.setLane, State.updLane]

end Sys2Proof.Machine
end

