-- ==== Sys2Proof/Laws/Frames.lean ====
section
/-!
SUPPORT. What the shared operations leave alone: none of them touches the queue of waiting commands or the configuration
point, and only the few that bind or retire a table version, and the resets, change the version slots (R295).
-/

namespace Sys2Proof.Machine

theorem eq_pair {α β : Type} (p : α × β) (a : α) (b : β) : (p = (a, b)) ↔ (a = p.1 ∧ b = p.2) := by
  constructor
  · rintro rfl; exact ⟨rfl, rfl⟩
  · rintro ⟨rfl, rfl⟩; rfl

@[simp] theorem ite_fst {α β : Type} (c : Prop) [Decidable c] (a b : α × β) :
    (if c then a else b).1 = if c then a.1 else b.1 := by split <;> rfl

@[simp] theorem stateAfter_next (s t : State) : stateAfter s (.next t) = t := rfl
@[simp] theorem stateAfter_fault (s : State) (r : Fault) : stateAfter s (.fault r) = s := rfl
@[simp] theorem stateAfter_refused (s : State) (r : Refusal) : stateAfter s (.refused r) = s := rfl
@[simp] theorem stateAfter_ite (s : State) (c : Prop) [Decidable c] (a b : Res) :
    stateAfter s (if c then a else b) = if c then stateAfter s a else stateAfter s b := by split <;> rfl
@[simp] theorem stateAfter_whenever (s : State) (c : Bool) (f : State → State) :
    stateAfter s (whenever c s f) = if c then f s else s := by cases c <;> rfl

@[simp] theorem ite_pending (c : Prop) [Decidable c] (a b : State) : (if c then a else b).pending = if c then a.pending else b.pending := by
  split <;> rfl
@[simp] theorem foldl_pending {β : Type} (g : State → β → State) (h : ∀ a x, (g a x).pending = a.pending) (l : List β) (s : State) :
    (l.foldl g s).pending = s.pending := by
  induction l generalizing s with
  | nil => rfl
  | cons x t ih => simp [List.foldl_cons, ih, h]
@[simp] theorem foldlFst_pending {β γ : Type} (g : State × γ → β → State × γ) (h : ∀ a x, (g a x).1.pending = a.1.pending)
    (l : List β) (s : State × γ) : (l.foldl g s).1.pending = s.1.pending := by
  induction l generalizing s with
  | nil => rfl
  | cons x t ih => simp [List.foldl_cons, ih, h]
theorem stateAfter_keeps_pending {s a : State} {r : Res} (h : (stateAfter a r).pending = a.pending) (ha : a.pending = s.pending) :
    (stateAfter s r).pending = s.pending := by
  cases r <;> simp_all

@[simp] theorem ite_cfg (c : Prop) [Decidable c] (a b : State) : (if c then a else b).cfg = if c then a.cfg else b.cfg := by
  split <;> rfl
@[simp] theorem foldl_cfg {β : Type} (g : State → β → State) (h : ∀ a x, (g a x).cfg = a.cfg) (l : List β) (s : State) :
    (l.foldl g s).cfg = s.cfg := by
  induction l generalizing s with
  | nil => rfl
  | cons x t ih => simp [List.foldl_cons, ih, h]
@[simp] theorem foldlFst_cfg {β γ : Type} (g : State × γ → β → State × γ) (h : ∀ a x, (g a x).1.cfg = a.1.cfg)
    (l : List β) (s : State × γ) : (l.foldl g s).1.cfg = s.1.cfg := by
  induction l generalizing s with
  | nil => rfl
  | cons x t ih => simp [List.foldl_cons, ih, h]
theorem stateAfter_keeps_cfg {s a : State} {r : Res} (h : (stateAfter a r).cfg = a.cfg) (ha : a.cfg = s.cfg) :
    (stateAfter s r).cfg = s.cfg := by
  cases r <;> simp_all

@[simp] theorem ite_tables (c : Prop) [Decidable c] (a b : State) : (if c then a else b).tables = if c then a.tables else b.tables := by
  split <;> rfl
@[simp] theorem foldl_tables {β : Type} (g : State → β → State) (h : ∀ a x, (g a x).tables = a.tables) (l : List β) (s : State) :
    (l.foldl g s).tables = s.tables := by
  induction l generalizing s with
  | nil => rfl
  | cons x t ih => simp [List.foldl_cons, ih, h]
@[simp] theorem foldlFst_tables {β γ : Type} (g : State × γ → β → State × γ) (h : ∀ a x, (g a x).1.tables = a.1.tables)
    (l : List β) (s : State × γ) : (l.foldl g s).1.tables = s.1.tables := by
  induction l generalizing s with
  | nil => rfl
  | cons x t ih => simp [List.foldl_cons, ih, h]
theorem stateAfter_keeps_tables {s a : State} {r : Res} (h : (stateAfter a r).tables = a.tables) (ha : a.tables = s.tables) :
    (stateAfter s r).tables = s.tables := by
  cases r <;> simp_all

/-- A fold keeps what each of its steps keeps. -/
theorem kept_foldl {β : Type} (g : State → β → State) (l : List β) (s s0 : State)
    (h : ∀ a x, (g a x).pending = a.pending ∧ (g a x).cfg = a.cfg ∧ (g a x).tables = a.tables)
    (h0 : s.pending = s0.pending ∧ s.cfg = s0.cfg ∧ s.tables = s0.tables) :
    (l.foldl g s).pending = s0.pending ∧ (l.foldl g s).cfg = s0.cfg ∧ (l.foldl g s).tables = s0.tables := by
  rw [← h0.1, ← h0.2.1, ← h0.2.2]
  exact ⟨foldl_pending g (fun a x => (h a x).1) l s, foldl_cfg g (fun a x => (h a x).2.1) l s,
    foldl_tables g (fun a x => (h a x).2.2) l s⟩
theorem kept_foldlFst {β γ : Type} (g : State × γ → β → State × γ) (l : List β) (s : State × γ) (s0 : State)
    (h : ∀ a x, (g a x).1.pending = a.1.pending ∧ (g a x).1.cfg = a.1.cfg ∧ (g a x).1.tables = a.1.tables)
    (h0 : s.1.pending = s0.pending ∧ s.1.cfg = s0.cfg ∧ s.1.tables = s0.tables) :
    (l.foldl g s).1.pending = s0.pending ∧ (l.foldl g s).1.cfg = s0.cfg ∧ (l.foldl g s).1.tables = s0.tables := by
  rw [← h0.1, ← h0.2.1, ← h0.2.2]
  exact ⟨foldlFst_pending g (fun a x => (h a x).1) l s, foldlFst_cfg g (fun a x => (h a x).2.1) l s,
    foldlFst_tables g (fun a x => (h a x).2.2) l s⟩

@[simp] theorem State.tick_keeps (s : State) :
    (s.tick).pending = s.pending ∧ (s.tick).cfg = s.cfg ∧ (s.tick).tables = s.tables := by
  simp [State.tick]
@[simp] theorem State.drive_keeps (s : State) (o : Out) :
    (s.drive o).pending = s.pending ∧ (s.drive o).cfg = s.cfg ∧ (s.drive o).tables = s.tables := by
  simp [State.drive]
@[simp] theorem State.bump_keeps (s : State) :
    (s.bump).pending = s.pending ∧ (s.bump).cfg = s.cfg ∧ (s.bump).tables = s.tables := by
  simp [State.bump]
@[simp] theorem State.setReg_keeps (s : State) (off : Nat) (v : Word) :
    (s.setReg off v).pending = s.pending ∧ (s.setReg off v).cfg = s.cfg ∧ (s.setReg off v).tables = s.tables := by
  simp [State.setReg]
@[simp] theorem State.setBits_keeps (s : State) (off : Nat) (m : Word) :
    (s.setBits off m).pending = s.pending ∧ (s.setBits off m).cfg = s.cfg ∧ (s.setBits off m).tables = s.tables := by
  simp [State.setBits]
@[simp] theorem State.clearBits_keeps (s : State) (off : Nat) (m : Word) :
    (s.clearBits off m).pending = s.pending ∧ (s.clearBits off m).cfg = s.cfg ∧ (s.clearBits off m).tables = s.tables := by
  simp [State.clearBits]
@[simp] theorem State.putBit_keeps (s : State) (off i : Nat) (v : Bool) :
    (s.putBit off i v).pending = s.pending ∧ (s.putBit off i v).cfg = s.cfg ∧ (s.putBit off i v).tables = s.tables := by
  simp [State.putBit]
@[simp] theorem State.putMasked_keeps (s : State) (off : Nat) (m v : Word) :
    (s.putMasked off m v).pending = s.pending ∧ (s.putMasked off m v).cfg = s.cfg ∧ (s.putMasked off m v).tables = s.tables := by
  simp [State.putMasked]
@[simp] theorem State.countReg_keeps (s : State) (off lo len n : Nat) :
    (s.countReg off lo len n).pending = s.pending ∧ (s.countReg off lo len n).cfg = s.cfg ∧ (s.countReg off lo len n).tables = s.tables := by
  simp [State.countReg]
@[simp] theorem State.raiseEvent_keeps (s : State) (off i : Nat) :
    (s.raiseEvent off i).pending = s.pending ∧ (s.raiseEvent off i).cfg = s.cfg ∧ (s.raiseEvent off i).tables = s.tables := by
  simp [State.raiseEvent]
@[simp] theorem State.raisePower_keeps (s : State) (i : Nat) :
    (s.raisePower i).pending = s.pending ∧ (s.raisePower i).cfg = s.cfg ∧ (s.raisePower i).tables = s.tables := by
  simp [State.raisePower]
@[simp] theorem State.raiseQueue_keeps (s : State) (q i : Nat) :
    (s.raiseQueue q i).pending = s.pending ∧ (s.raiseQueue q i).cfg = s.cfg ∧ (s.raiseQueue q i).tables = s.tables := by
  simp [State.raiseQueue]
@[simp] theorem State.setQueue_keeps (s : State) (q : Nat) (v : Queue) :
    (s.setQueue q v).pending = s.pending ∧ (s.setQueue q v).cfg = s.cfg ∧ (s.setQueue q v).tables = s.tables := by
  simp [State.setQueue]
@[simp] theorem State.updQueue_keeps (s : State) (q : Nat) (f : Queue → Queue) :
    (s.updQueue q f).pending = s.pending ∧ (s.updQueue q f).cfg = s.cfg ∧ (s.updQueue q f).tables = s.tables := by
  simp [State.updQueue]
@[simp] theorem State.setSem_keeps (s : State) (i : Nat) (v : Sem) :
    (s.setSem i v).pending = s.pending ∧ (s.setSem i v).cfg = s.cfg ∧ (s.setSem i v).tables = s.tables := by
  simp [State.setSem]
@[simp] theorem State.updSem_keeps (s : State) (i : Nat) (f : Sem → Sem) :
    (s.updSem i f).pending = s.pending ∧ (s.updSem i f).cfg = s.cfg ∧ (s.updSem i f).tables = s.tables := by
  simp [State.updSem]
@[simp] theorem State.setRing_keeps (s : State) (r : Nat) (v : Ring) :
    (s.setRing r v).pending = s.pending ∧ (s.setRing r v).cfg = s.cfg ∧ (s.setRing r v).tables = s.tables := by
  simp [State.setRing]
@[simp] theorem State.updRing_keeps (s : State) (r : Nat) (f : Ring → Ring) :
    (s.updRing r f).pending = s.pending ∧ (s.updRing r f).cfg = s.cfg ∧ (s.updRing r f).tables = s.tables := by
  simp [State.updRing]
@[simp] theorem State.setLane_keeps (s : State) (l : Nat) (v : Lane) :
    (s.setLane l v).pending = s.pending ∧ (s.setLane l v).cfg = s.cfg ∧ (s.setLane l v).tables = s.tables := by
  simp [State.setLane]
@[simp] theorem State.updLane_keeps (s : State) (l : Nat) (f : Lane → Lane) :
    (s.updLane l f).pending = s.pending ∧ (s.updLane l f).cfg = s.cfg ∧ (s.updLane l f).tables = s.tables := by
  simp [State.updLane]
@[simp] theorem State.updMport_keeps (s : State) (p : Nat) (f : MPort → MPort) :
    (s.updMport p f).pending = s.pending ∧ (s.updMport p f).cfg = s.cfg ∧ (s.updMport p f).tables = s.tables := by
  simp [State.updMport]
@[simp] theorem State.updCport_keeps (s : State) (c : Nat) (f : CPort → CPort) :
    (s.updCport c f).pending = s.pending ∧ (s.updCport c f).cfg = s.cfg ∧ (s.updCport c f).tables = s.tables := by
  simp [State.updCport]
@[simp] theorem State.updXport_keeps (s : State) (x : Nat) (f : XPort → XPort) :
    (s.updXport x f).pending = s.pending ∧ (s.updXport x f).cfg = s.cfg ∧ (s.updXport x f).tables = s.tables := by
  simp [State.updXport]
@[simp] theorem State.setPgh_keeps (s : State) (p : Nat) (v : Pgh) :
    (s.setPgh p v).pending = s.pending ∧ (s.setPgh p v).cfg = s.cfg ∧ (s.setPgh p v).tables = s.tables := by
  simp [State.setPgh]
@[simp] theorem State.updItin_keeps (s : State) (stream : Nat) (f : Itin → Itin) :
    (s.updItin stream f).pending = s.pending ∧ (s.updItin stream f).cfg = s.cfg ∧ (s.updItin stream f).tables = s.tables := by
  simp [State.updItin]
@[simp] theorem State.updTile_keeps (s : State) (id : Nat) (f : Tile → Tile) :
    (s.updTile id f).pending = s.pending ∧ (s.updTile id f).cfg = s.cfg ∧ (s.updTile id f).tables = s.tables := by
  simp [State.updTile]
@[simp] theorem State.countOne_keeps (s : State) (u k n : Nat) :
    (s.countOne u k n).pending = s.pending ∧ (s.countOne u k n).cfg = s.cfg ∧ (s.countOne u k n).tables = s.tables := by
  simp [State.countOne]
@[simp] theorem State.count_keeps (s : State) (u ev qual n : Nat) :
    (s.count u ev qual n).pending = s.pending ∧ (s.count u ev qual n).cfg = s.cfg ∧ (s.count u ev qual n).tables = s.tables := by
  simp [State.count]
@[simp] theorem State.trace_keeps (s : State) (type unit : Nat) (q : Option Nat) (payload : Nat) :
    (s.trace type unit q payload).pending = s.pending ∧ (s.trace type unit q payload).cfg = s.cfg ∧ (s.trace type unit q payload).tables = s.tables := by
  simp [State.trace]
@[simp] theorem State.askTally_keeps (s : State) (a : TallyAsk) :
    (s.askTally a).pending = s.pending ∧ (s.askTally a).cfg = s.cfg ∧ (s.askTally a).tables = s.tables := by
  simp [State.askTally]
@[simp] theorem State.recordDone_keeps (s : State) :
    (s.recordDone).pending = s.pending ∧ (s.recordDone).cfg = s.cfg ∧ (s.recordDone).tables = s.tables := by
  simp [State.recordDone]
@[simp] theorem State.takeSnapshot_keeps (s : State) (asks : List TallyAsk) :
    (s.takeSnapshot asks).1.pending = s.pending ∧ (s.takeSnapshot asks).1.cfg = s.cfg ∧ (s.takeSnapshot asks).1.tables = s.tables := by
  simp [State.takeSnapshot]
@[simp] theorem State.traceFree_keeps (s : State) (type payload : Nat) :
    (s.traceFree type payload).pending = s.pending ∧ (s.traceFree type payload).cfg = s.cfg ∧ (s.traceFree type payload).tables = s.tables := by
  simp [State.traceFree]
@[simp] theorem State.tallyEdge_keeps (s : State) :
    (s.tallyEdge).pending = s.pending ∧ (s.tallyEdge).cfg = s.cfg ∧ (s.tallyEdge).tables = s.tables := by
  simp [State.tallyEdge]
@[simp] theorem State.stored_keeps (s : State) (c : Nat) (east : Bool) (unit : Nat) :
    (s.stored c east unit).pending = s.pending ∧ (s.stored c east unit).cfg = s.cfg ∧ (s.stored c east unit).tables = s.tables := by
  simp [State.stored]
@[simp] theorem State.tierWrite_keeps (s : State) (tier row : Nat) (data : BitVec 1024) :
    (s.tierWrite tier row data).pending = s.pending ∧ (s.tierWrite tier row data).cfg = s.cfg ∧ (s.tierWrite tier row data).tables = s.tables := by
  simp [State.tierWrite]
@[simp] theorem State.progress_keeps (s : State) (q : Nat) :
    (s.progress q).pending = s.pending ∧ (s.progress q).cfg = s.cfg ∧ (s.progress q).tables = s.tables := by
  simp [State.progress]
@[simp] theorem State.startCmd_keeps (s : State) (q : Nat) (c : Cmd) :
    (s.startCmd q c).pending = s.pending ∧ (s.startCmd q c).cfg = s.cfg ∧ (s.startCmd q c).tables = s.tables := by
  simp [State.startCmd]
@[simp] theorem State.advanceHead_keeps (s : State) (q : Nat) :
    (s.advanceHead q).pending = s.pending ∧ (s.advanceHead q).cfg = s.cfg ∧ (s.advanceHead q).tables = s.tables := by
  simp [State.advanceHead]
@[simp] theorem State.settle_keeps (s : State) (q : Nat) :
    (s.settle q).pending = s.pending ∧ (s.settle q).cfg = s.cfg ∧ (s.settle q).tables = s.tables := by
  simp [State.settle]
@[simp] theorem State.closeCmd_keeps (s : State) (q : Nat) (idx : BitVec 16) :
    (s.closeCmd q idx).pending = s.pending ∧ (s.closeCmd q idx).cfg = s.cfg ∧ (s.closeCmd q idx).tables = s.tables := by
  simp [State.closeCmd]
@[simp] theorem State.endCmd_keeps (s : State) (q : Nat) (c : Cmd) :
    (s.endCmd q c).pending = s.pending ∧ (s.endCmd q c).cfg = s.cfg ∧ (s.endCmd q c).tables = s.tables := by
  simp [State.endCmd]
@[simp] theorem State.updSnap_keeps (s : State) (q : Nat) (idx : BitVec 16) (u : Nat) (f : UnitSnap → UnitSnap) :
    (s.updSnap q idx u f).pending = s.pending ∧ (s.updSnap q idx u f).cfg = s.cfg ∧ (s.updSnap q idx u f).tables = s.tables := by
  simp [State.updSnap]
@[simp] theorem State.snapUnits_keeps (s : State) (q : Nat) (idx : BitVec 16) :
    (s.snapUnits q idx).pending = s.pending ∧ (s.snapUnits q idx).cfg = s.cfg ∧ (s.snapUnits q idx).tables = s.tables := by
  simp [State.snapUnits]
@[simp] theorem State.streamSnap_keeps (s : State) (q stream u : Nat) (f : UnitSnap → UnitSnap) :
    (s.streamSnap q stream u f).pending = s.pending ∧ (s.streamSnap q stream u f).cfg = s.cfg ∧ (s.streamSnap q stream u f).tables = s.tables := by
  unfold State.streamSnap
  (repeat' split) <;> simp_all
@[simp] theorem State.snapIssued_keeps (s : State) (q stream u n : Nat) :
    (s.snapIssued q stream u n).pending = s.pending ∧ (s.snapIssued q stream u n).cfg = s.cfg ∧ (s.snapIssued q stream u n).tables = s.tables := by
  simp [State.snapIssued]
@[simp] theorem State.snapDone_keeps (s : State) (q stream u n : Nat) :
    (s.snapDone q stream u n).pending = s.pending ∧ (s.snapDone q stream u n).cfg = s.cfg ∧ (s.snapDone q stream u n).tables = s.tables := by
  simp [State.snapDone]
@[simp] theorem State.snapDetail_keeps (s : State) (q stream u : Nat) (d : Word) :
    (s.snapDetail q stream u d).pending = s.pending ∧ (s.snapDetail q stream u d).cfg = s.cfg ∧ (s.snapDetail q stream u d).tables = s.tables := by
  simp [State.snapDetail]
@[simp] theorem State.corPush_keeps (s : State) (toEast : Bool) (cls : Nat) (i : CorItem) :
    (s.corPush toEast cls i).pending = s.pending ∧ (s.corPush toEast cls i).cfg = s.cfg ∧ (s.corPush toEast cls i).tables = s.tables := by
  simp [State.corPush]
@[simp] theorem State.cacheWritten_keeps (s : State) (lane pa len : Nat) :
    (s.cacheWritten lane pa len).pending = s.pending ∧ (s.cacheWritten lane pa len).cfg = s.cfg ∧ (s.cacheWritten lane pa len).tables = s.tables := by
  simp [State.cacheWritten]
@[simp] theorem State.leavesLane_keeps (s : State) (r : Req) :
    (s.leavesLane r).pending = s.pending ∧ (s.leavesLane r).cfg = s.cfg ∧ (s.leavesLane r).tables = s.tables := by
  unfold State.leavesLane
  (repeat' split) <;> simp_all
@[simp] theorem State.sendReq_keeps (s : State) (r : Req) (x0 : ReqPath) :
    (s.sendReq r x0).pending = s.pending ∧ (s.sendReq r x0).cfg = s.cfg ∧ (s.sendReq r x0).tables = s.tables := by
  unfold State.sendReq
  (repeat' split) <;> simp_all
@[simp] theorem State.extraFault_keeps (s : State) (q : Nat) :
    (s.extraFault q).pending = s.pending ∧ (s.extraFault q).cfg = s.cfg ∧ (s.extraFault q).tables = s.tables := by
  unfold State.extraFault
  dsimp only
  (repeat' split) <;> simp_all
@[simp] theorem State.letGo_keeps (s : State) (q : Nat) (r : Req) :
    (s.letGo q r).pending = s.pending ∧ (s.letGo q r).cfg = s.cfg ∧ (s.letGo q r).tables = s.tables := by
  unfold State.letGo
  split <;> simp
@[simp] theorem State.stopLanes_keeps (s : State) (q : Nat) :
    (s.stopLanes q).pending = s.pending ∧ (s.stopLanes q).cfg = s.cfg ∧ (s.stopLanes q).tables = s.tables := by
  simp [State.stopLanes]
@[simp] theorem State.stopWaiters_keeps (s : State) (q : Nat) :
    (s.stopWaiters q).pending = s.pending ∧ (s.stopWaiters q).cfg = s.cfg ∧ (s.stopWaiters q).tables = s.tables := by
  simp [State.stopWaiters]
@[simp] theorem State.letGoParcel_keeps (s : State) (q : Nat) (x : TxParcel) :
    (s.letGoParcel q x).pending = s.pending ∧ (s.letGoParcel q x).cfg = s.cfg ∧ (s.letGoParcel q x).tables = s.tables := by
  simp [State.letGoParcel]
@[simp] theorem State.stopPorter_keeps (s : State) (q : Nat) :
    (s.stopPorter q).pending = s.pending ∧ (s.stopPorter q).cfg = s.cfg ∧ (s.stopPorter q).tables = s.tables := by
  simp [State.stopPorter]
@[simp] theorem State.stopPushes_keeps (s : State) (q : Nat) :
    (s.stopPushes q).pending = s.pending ∧ (s.stopPushes q).cfg = s.cfg ∧ (s.stopPushes q).tables = s.tables := by
  simp [State.stopPushes]
@[simp] theorem State.stopReads_keeps (s : State) (q : Nat) :
    (s.stopReads q).pending = s.pending ∧ (s.stopReads q).cfg = s.cfg ∧ (s.stopReads q).tables = s.tables := by
  simp [State.stopReads]
@[simp] theorem State.stopUnits_keeps (s : State) (q : Nat) :
    (s.stopUnits q).pending = s.pending ∧ (s.stopUnits q).cfg = s.cfg ∧ (s.stopUnits q).tables = s.tables := by
  simp [State.stopUnits]
@[simp] theorem State.ledgerResult_keeps (s : State) (st : Byte) (check off : Nat) :
    (s.ledgerResult st check off).pending = s.pending ∧ (s.ledgerResult st check off).cfg = s.cfg ∧ (s.ledgerResult st check off).tables = s.tables := by
  simp [State.ledgerResult]
@[simp] theorem State.commitStopped_keeps (s : State) (q : Nat) (st : Byte) :
    (s.commitStopped q st).pending = s.pending ∧ (s.commitStopped q st).cfg = s.cfg ∧ (s.commitStopped q st).tables = s.tables := by
  simp [State.commitStopped]
@[simp] theorem State.snapInstr_keeps (s : State) (q : Nat) (idx : BitVec 16) (f : FaultInfo) :
    (s.snapInstr q idx f).pending = s.pending ∧ (s.snapInstr q idx f).cfg = s.cfg ∧ (s.snapInstr q idx f).tables = s.tables := by
  simp [State.snapInstr]
@[simp] theorem State.failCmd_keeps (s : State) (q : Nat) (idx : BitVec 16) (f : FaultInfo) :
    (s.failCmd q idx f).pending = s.pending ∧ (s.failCmd q idx f).cfg = s.cfg ∧ (s.failCmd q idx f).tables = s.tables := by
  unfold State.failCmd
  dsimp only
  (repeat' split) <;> simp_all
@[simp] theorem State.abort_keeps (s : State) (q : Nat) (f : FaultInfo) :
    (s.abort q f).pending = s.pending ∧ (s.abort q f).cfg = s.cfg ∧ (s.abort q f).tables = s.tables := by
  simp [State.abort]
@[simp] theorem State.refuseCmd_keeps (s : State) (q : Nat) (c : Cmd) (st unit : Byte) :
    (s.refuseCmd q c st unit).pending = s.pending ∧ (s.refuseCmd q c st unit).cfg = s.cfg ∧ (s.refuseCmd q c st unit).tables = s.tables := by
  simp [State.refuseCmd]
@[simp] theorem State.noteActs_keeps (s : State) (n : Note) (bad : Bool) :
    (s.noteActs n bad).pending = s.pending ∧ (s.noteActs n bad).cfg = s.cfg ∧ (s.noteActs n bad).tables = s.tables := by
  unfold State.noteActs
  dsimp only
  (repeat' split) <;> simp_all
@[simp] theorem State.recordPart_keeps (s : State) (rid id : Nat) (bad : Bool) :
    (s.recordPart rid id bad).pending = s.pending ∧ (s.recordPart rid id bad).cfg = s.cfg ∧ (s.recordPart rid id bad).tables = s.tables := by
  unfold State.recordPart
  (repeat' split) <;> simp_all
@[simp] theorem State.recordFails_keeps (s : State) (rid id : Nat) (f : FaultInfo) :
    (s.recordFails rid id f).pending = s.pending ∧ (s.recordFails rid id f).cfg = s.cfg ∧ (s.recordFails rid id f).tables = s.tables := by
  unfold State.recordFails
  (repeat' split) <;> simp_all
@[simp] theorem State.sendPart_keeps (s : State) (r : Req) :
    (s.sendPart r).pending = s.pending ∧ (s.sendPart r).cfg = s.cfg ∧ (s.sendPart r).tables = s.tables := by
  unfold State.sendPart
  split <;> simp
@[simp] theorem State.openRecord_keeps (s : State) (n : Note) (chunks : List (Nat × List Byte)) :
    (s.openRecord n chunks).1.pending = s.pending ∧ (s.openRecord n chunks).1.cfg = s.cfg ∧ (s.openRecord n chunks).1.tables = s.tables := by
  simp [State.openRecord]
@[simp] theorem State.writeRecord_keeps (s : State) (n : Note) (w : Writer) (chunks : List (Nat × List Byte)) :
    (s.writeRecord n w chunks).pending = s.pending ∧ (s.writeRecord n w chunks).cfg = s.cfg ∧ (s.writeRecord n w chunks).tables = s.tables := by
  simp [State.writeRecord]
@[simp] theorem State.completionRecord_keeps (s : State) (q : Nat) (c : Cmd) (detail : Nat) :
    (s.completionRecord q c detail).pending = s.pending ∧ (s.completionRecord q c detail).cfg = s.cfg ∧ (s.completionRecord q c detail).tables = s.tables := by
  simp [State.completionRecord]
@[simp] theorem State.finishCmd_keeps (s : State) (q : Nat) (c : Cmd) (detail : Nat) :
    (s.finishCmd q c detail).pending = s.pending ∧ (s.finishCmd q c detail).cfg = s.cfg ∧ (s.finishCmd q c detail).tables = s.tables := by
  simp [State.finishCmd]
@[simp] theorem State.sendSemo_keeps (s : State) (i : Nat) (op : BitVec 2) (cnt : BitVec 20) :
    (s.sendSemo i op cnt).pending = s.pending ∧ (s.sendSemo i op cnt).cfg = s.cfg ∧ (s.sendSemo i op cnt).tables = s.tables := by
  simp [State.sendSemo]
@[simp] theorem State.sendFull_keeps (s : State) (i : Nat) :
    (s.sendFull i).pending = s.pending ∧ (s.sendFull i).cfg = s.cfg ∧ (s.sendFull i).tables = s.tables := by
  simp [State.sendFull]
@[simp] theorem State.sendDue_keeps (s : State) (m : Nat × Option (BitVec 20)) :
    (s.sendDue m).pending = s.pending ∧ (s.sendDue m).cfg = s.cfg ∧ (s.sendDue m).tables = s.tables := by
  unfold State.sendDue
  (repeat' split) <;> simp_all
@[simp] theorem State.flushIncs_keeps (s : State) (p : Nat × Option (BitVec 20) → Bool) :
    (s.flushIncs p).pending = s.pending ∧ (s.flushIncs p).cfg = s.cfg ∧ (s.flushIncs p).tables = s.tables := by
  simp [State.flushIncs]
@[simp] theorem State.flushEarlier_keeps (s : State) (i : Nat) :
    (s.flushEarlier i).pending = s.pending ∧ (s.flushEarlier i).cfg = s.cfg ∧ (s.flushEarlier i).tables = s.tables := by
  simp [State.flushEarlier]
@[simp] theorem State.sendFault_keeps (s : State) (i : Nat) :
    (s.sendFault i).pending = s.pending ∧ (s.sendFault i).cfg = s.cfg ∧ (s.sendFault i).tables = s.tables := by
  simp [State.sendFault]
@[simp] theorem State.freeSlots_keeps (s : State) (r n : Nat) :
    (s.freeSlots r n).pending = s.pending ∧ (s.freeSlots r n).cfg = s.cfg ∧ (s.freeSlots r n).tables = s.tables := by
  simp [State.freeSlots]
@[simp] theorem State.movePaired_keeps (s : State) (i k : Nat) :
    (s.movePaired i k).pending = s.pending ∧ (s.movePaired i k).cfg = s.cfg ∧ (s.movePaired i k).tables = s.tables := by
  simp [State.movePaired]
@[simp] theorem State.takeTurn_keeps (s : State) (key rank : Nat) :
    (s.takeTurn key rank).pending = s.pending ∧ (s.takeTurn key rank).cfg = s.cfg ∧ (s.takeTurn key rank).tables = s.tables := by
  simp [State.takeTurn]
@[simp] theorem State.ownerFault_keeps (s : State) (i : Nat) (st : Byte) :
    (s.ownerFault i st).pending = s.pending ∧ (s.ownerFault i st).cfg = s.cfg ∧ (s.ownerFault i st).tables = s.tables := by
  unfold State.ownerFault
  dsimp only
  (repeat' split) <;> simp_all
@[simp] theorem State.incFails_keeps (s : State) (i : Nat) (x0 : IncSource) :
    (s.incFails i x0).pending = s.pending ∧ (s.incFails i x0).cfg = s.cfg ∧ (s.incFails i x0).tables = s.tables := by
  unfold State.incFails
  (repeat' split) <;> simp_all
@[simp] theorem State.overflowActs_keeps (s : State) (i : Nat) (before : Turn) (src : IncSource) :
    (s.overflowActs i before src).pending = s.pending ∧ (s.overflowActs i before src).cfg = s.cfg ∧ (s.overflowActs i before src).tables = s.tables := by
  unfold State.overflowActs
  dsimp only
  split <;> simp
@[simp] theorem State.semSaturate_keeps (s : State) (i : Nat) (before : Turn) (src : IncSource) :
    (s.semSaturate i before src).pending = s.pending ∧ (s.semSaturate i before src).cfg = s.cfg ∧ (s.semSaturate i before src).tables = s.tables := by
  simp [State.semSaturate]
@[simp] theorem State.semIncrement_keeps (s : State) (i : Nat) (k : BitVec 20) (src : IncSource) :
    (s.semIncrement i k src).pending = s.pending ∧ (s.semIncrement i k src).cfg = s.cfg ∧ (s.semIncrement i k src).tables = s.tables := by
  simp [State.semIncrement]
@[simp] theorem State.semDecrement_keeps (s : State) (i : Nat) (k : BitVec 20) :
    (s.semDecrement i k).pending = s.pending ∧ (s.semDecrement i k).cfg = s.cfg ∧ (s.semDecrement i k).tables = s.tables := by
  simp [State.semDecrement]
@[simp] theorem State.semRemove_keeps (s : State) (i : Nat) (k : BitVec 20) (q : Nat) :
    (s.semRemove i k q).pending = s.pending ∧ (s.semRemove i k q).cfg = s.cfg ∧ (s.semRemove i k q).tables = s.tables := by
  simp [State.semRemove]
@[simp] theorem State.takePoisoned_keeps (s : State) (i : Nat) (q : Nat) (num : Option Nat) :
    (s.takePoisoned i q num).pending = s.pending ∧ (s.takePoisoned i q num).cfg = s.cfg ∧ (s.takePoisoned i q num).tables = s.tables := by
  simp [State.takePoisoned]
@[simp] theorem State.toWaiter_pending (s : State) (i : Nat) (w : SemWaiter) (item : CorItem) (f : State → State) (h : ∀ t, (f t).pending = t.pending) :
    (s.toWaiter i w item f).pending = s.pending := by
  unfold State.toWaiter
  split
  · exact h s
  · split <;> simp
@[simp] theorem State.toWaiter_cfg (s : State) (i : Nat) (w : SemWaiter) (item : CorItem) (f : State → State) (h : ∀ t, (f t).cfg = t.cfg) :
    (s.toWaiter i w item f).cfg = s.cfg := by
  unfold State.toWaiter
  split
  · exact h s
  · split <;> simp
@[simp] theorem State.toWaiter_tables (s : State) (i : Nat) (w : SemWaiter) (item : CorItem) (f : State → State) (h : ∀ t, (f t).tables = t.tables) :
    (s.toWaiter i w item f).tables = s.tables := by
  unfold State.toWaiter
  split
  · exact h s
  · split <;> simp
@[simp] theorem State.dropWaiters_keeps (s : State) (ws : List SemWaiter) :
    (s.dropWaiters ws).pending = s.pending ∧ (s.dropWaiters ws).cfg = s.cfg ∧ (s.dropWaiters ws).tables = s.tables := by
  simp [State.dropWaiters]
@[simp] theorem State.semPoison_keeps (s : State) (i : Nat) (release : Bool) :
    (s.semPoison i release).pending = s.pending ∧ (s.semPoison i release).cfg = s.cfg ∧ (s.semPoison i release).tables = s.tables := by
  simp [State.semPoison]
@[simp] theorem State.semQueue_keeps (s : State) (i : Nat) (w : SemWaiter) :
    (s.semQueue i w).pending = s.pending ∧ (s.semQueue i w).cfg = s.cfg ∧ (s.semQueue i w).tables = s.tables := by
  simp [State.semQueue]
@[simp] theorem State.updSub_keeps (s : State) (id : Nat) (f : SubWin → SubWin) :
    (s.updSub id f).pending = s.pending ∧ (s.updSub id f).cfg = s.cfg ∧ (s.updSub id f).tables = s.tables := by
  simp [State.updSub]
@[simp] theorem State.updBatch_keeps (s : State) (id : Nat) (f : Batch → Batch) :
    (s.updBatch id f).pending = s.pending ∧ (s.updBatch id f).cfg = s.cfg ∧ (s.updBatch id f).tables = s.tables := by
  simp [State.updBatch]
@[simp] theorem State.porterSnap_keeps (s : State) (t : Tile) :
    (s.porterSnap t).pending = s.pending ∧ (s.porterSnap t).cfg = s.cfg ∧ (s.porterSnap t).tables = s.tables := by
  simp [State.porterSnap]
@[simp] theorem State.streamFault_keeps (s : State) (q stream : Nat) (f : FaultInfo) :
    (s.streamFault q stream f).pending = s.pending ∧ (s.streamFault q stream f).cfg = s.cfg ∧ (s.streamFault q stream f).tables = s.tables := by
  unfold State.streamFault
  (repeat' split) <;> simp_all
@[simp] theorem State.outSnap_keeps (s : State) (o : OutParcel) :
    (s.outSnap o).pending = s.pending ∧ (s.outSnap o).cfg = s.cfg ∧ (s.outSnap o).tables = s.tables := by
  unfold State.outSnap
  (repeat' split) <;> simp_all
@[simp] theorem State.outFails_keeps (s : State) (o : OutParcel) (f : FaultInfo) :
    (s.outFails o f).pending = s.pending ∧ (s.outFails o f).cfg = s.cfg ∧ (s.outFails o f).tables = s.tables := by
  simp [State.outFails]
@[simp] theorem State.forgetParcel_keeps (s : State) (x : TxParcel) :
    (s.forgetParcel x).pending = s.pending ∧ (s.forgetParcel x).cfg = s.cfg ∧ (s.forgetParcel x).tables = s.tables := by
  simp [State.forgetParcel]
@[simp] theorem State.parcelFails_keeps (s : State) (x : TxParcel) (f : FaultInfo) :
    (s.parcelFails x f).pending = s.pending ∧ (s.parcelFails x f).cfg = s.cfg ∧ (s.parcelFails x f).tables = s.tables := by
  unfold State.parcelFails
  (repeat' split) <;> simp_all
@[simp] theorem State.enqueueParcel_keeps (s : State) (east : Bool) (x : TxParcel) :
    (s.enqueueParcel east x).pending = s.pending ∧ (s.enqueueParcel east x).cfg = s.cfg ∧ (s.enqueueParcel east x).tables = s.tables := by
  simp [State.enqueueParcel]
@[simp] theorem State.moveParcel_keeps (s : State) (x : TxParcel) :
    (s.moveParcel x).pending = s.pending ∧ (s.moveParcel x).cfg = s.cfg ∧ (s.moveParcel x).tables = s.tables := by
  simp [State.moveParcel]
@[simp] theorem State.reroute_keeps (s : State) :
    (s.reroute).pending = s.pending ∧ (s.reroute).cfg = s.cfg ∧ (s.reroute).tables = s.tables := by
  simp [State.reroute]
@[simp] theorem State.sendResponse_keeps (s : State) (x : Nat) (r : Parcel) :
    (s.sendResponse x r).pending = s.pending ∧ (s.sendResponse x r).cfg = s.cfg ∧ (s.sendResponse x r).tables = s.tables := by
  simp [State.sendResponse]
@[simp] theorem State.respond_keeps (s : State) (x : Nat) (p : Parcel) (ptype status : Byte) :
    (s.respond x p ptype status).pending = s.pending ∧ (s.respond x p ptype status).cfg = s.cfg ∧ (s.respond x p ptype status).tables = s.tables := by
  simp [State.respond]
@[simp] theorem State.nackService_keeps (s : State) (id : Nat) (st : Byte) :
    (s.nackService id st).pending = s.pending ∧ (s.nackService id st).cfg = s.cfg ∧ (s.nackService id st).tables = s.tables := by
  unfold State.nackService
  (repeat' split) <;> simp_all
@[simp] theorem State.nackServe_keeps (s : State) (id : Nat) (st : Byte) :
    (s.nackServe id st).pending = s.pending ∧ (s.nackServe id st).cfg = s.cfg ∧ (s.nackServe id st).tables = s.tables := by
  unfold State.nackServe
  (repeat' split) <;> simp_all
@[simp] theorem State.readFails_keeps (s : State) (id : Nat) (pieces : List (Nat × Nat)) (f : FaultInfo) :
    (s.readFails id pieces f).pending = s.pending ∧ (s.readFails id pieces f).cfg = s.cfg ∧ (s.readFails id pieces f).tables = s.tables := by
  unfold State.readFails
  (repeat' split) <;> simp_all
@[simp] theorem State.reqSnap_keeps (s : State) (r : Req) :
    (s.reqSnap r).pending = s.pending ∧ (s.reqSnap r).cfg = s.cfg ∧ (s.reqSnap r).tables = s.tables := by
  unfold State.reqSnap
  (repeat' split) <;> simp_all
@[simp] theorem State.requestFault_keeps (s : State) (r : Req) (f : FaultInfo) :
    (s.requestFault r f).pending = s.pending ∧ (s.requestFault r f).cfg = s.cfg ∧ (s.requestFault r f).tables = s.tables := by
  unfold State.requestFault
  (repeat' split) <;> simp_all
@[simp] theorem State.requestsFault_keeps (s : State) (rs : List Req) (f : State → FaultInfo) :
    (s.requestsFault rs f).pending = s.pending ∧ (s.requestsFault rs f).cfg = s.cfg ∧ (s.requestsFault rs f).tables = s.tables := by
  simp [State.requestsFault]
@[simp] theorem State.submit_keeps (s : State) (r : Req) :
    (s.submit r).pending = s.pending ∧ (s.submit r).cfg = s.cfg ∧ (s.submit r).tables = s.tables := by
  unfold State.submit
  split <;> simp
@[simp] theorem State.enterPort_keeps (s : State) (r : Req) :
    (s.enterPort r).pending = s.pending ∧ (s.enterPort r).cfg = s.cfg ∧ (s.enterPort r).tables = s.tables := by
  simp [State.enterPort]
@[simp] theorem State.pickSlot_keeps (s : State) (p k : Nat) :
    (s.pickSlot p k).pending = s.pending ∧ (s.pickSlot p k).cfg = s.cfg ∧ (s.pickSlot p k).tables = s.tables := by
  unfold State.pickSlot
  (repeat' split) <;> simp_all
@[simp] theorem State.issueReq_keeps (s : State) (p : Nat) (k : BitVec 2) (r : Req) (tag : BitVec 17) :
    (s.issueReq p k r tag).pending = s.pending ∧ (s.issueReq p k r tag).cfg = s.cfg ∧ (s.issueReq p k r tag).tables = s.tables := by
  simp [State.issueReq]
@[simp] theorem State.loseWrites_keeps (s : State) (l : List LostWrite) :
    (s.loseWrites l).pending = s.pending ∧ (s.loseWrites l).cfg = s.cfg ∧ (s.loseWrites l).tables = s.tables := by
  simp [State.loseWrites]
@[simp] theorem State.failPort_keeps (s : State) (p : Nat) :
    (s.failPort p).pending = s.pending ∧ (s.failPort p).cfg = s.cfg ∧ (s.failPort p).tables = s.tables := by
  simp [State.failPort]
@[simp] theorem State.installL1_keeps (s : State) (g : Nat) (r : Range) :
    (s.installL1 g r).pending = s.pending ∧ (s.installL1 g r).cfg = s.cfg ∧ (s.installL1 g r).tables = s.tables := by
  simp [State.installL1]
@[simp] theorem State.installL2_keeps (s : State) (east : Bool) (r : Range) :
    (s.installL2 east r).pending = s.pending ∧ (s.installL2 east r).cfg = s.cfg ∧ (s.installL2 east r).tables = s.tables := by
  simp [State.installL2]
@[simp] theorem State.lookupL2_keeps (s : State) (east : Bool) (asid : BitVec 16) (page : Nat) :
    (s.lookupL2 east asid page).1.pending = s.pending ∧ (s.lookupL2 east asid page).1.cfg = s.cfg ∧ (s.lookupL2 east asid page).1.tables = s.tables := by
  unfold State.lookupL2
  (repeat' split) <;> simp_all
@[simp] theorem State.lookupLane_keeps (s : State) (lane : Nat) (asid : BitVec 16) (page : Nat) :
    (s.lookupLane lane asid page).1.pending = s.pending ∧ (s.lookupLane lane asid page).1.cfg = s.cfg ∧ (s.lookupLane lane asid page).1.tables = s.tables := by
  unfold State.lookupLane
  dsimp only
  (repeat' split) <;> simp_all [eq_pair]
@[simp] theorem State.waiterFails_keeps (s : State) (w : MissWaiter) (f : FaultInfo) :
    (s.waiterFails w f).pending = s.pending ∧ (s.waiterFails w f).cfg = s.cfg ∧ (s.waiterFails w f).tables = s.tables := by
  unfold State.waiterFails
  (repeat' split) <;> simp_all
@[simp] theorem State.openMiss_keeps (s : State) (east : Bool) (h : MissHolder) (asid : BitVec 16) (page : Nat) (w : MissWaiter) :
    (s.openMiss east h asid page w).1.pending = s.pending ∧ (s.openMiss east h asid page w).1.cfg = s.cfg ∧ (s.openMiss east h asid page w).1.tables = s.tables := by
  unfold State.openMiss
  (repeat' split) <;> simp_all
@[simp] theorem State.dropPage_keeps (s : State) (asid : BitVec 16) (page : Nat) :
    (s.dropPage asid page).pending = s.pending ∧ (s.dropPage asid page).cfg = s.cfg ∧ (s.dropPage asid page).tables = s.tables := by
  simp [State.dropPage]
@[simp] theorem State.invalidate_keeps (s : State) (all : Bool) (asid : BitVec 16) (vstart pages : Nat) :
    (s.invalidate all asid vstart pages).pending = s.pending ∧ (s.invalidate all asid vstart pages).cfg = s.cfg ∧ (s.invalidate all asid vstart pages).tables = s.tables := by
  simp [State.invalidate]
@[simp] theorem State.openReading_keeps (s : State) (who : Reader) :
    (s.openReading who).1.pending = s.pending ∧ (s.openReading who).1.cfg = s.cfg ∧ (s.openReading who).1.tables = s.tables := by
  unfold State.openReading
  (repeat' split) <;> simp_all
@[simp] theorem State.closeReading_keeps (s : State) (who : Reader) :
    (s.closeReading who).pending = s.pending ∧ (s.closeReading who).cfg = s.cfg ∧ (s.closeReading who).tables = s.tables := by
  simp [State.closeReading]
@[simp] theorem State.lookPage_keeps (s : State) (i : Issuer) (acc : BitVec 2) (page : Nat) (who : MissWho) (item : Nat) :
    (s.lookPage i acc page who item).1.pending = s.pending ∧ (s.lookPage i acc page who item).1.cfg = s.cfg ∧ (s.lookPage i acc page who item).1.tables = s.tables := by
  unfold State.lookPage
  dsimp only
  split
  · simp
  · split
    · simp
    · split
      · rename_i t r h
        have k : t.pending = s.pending ∧ t.cfg = s.cfg ∧ t.tables = s.tables := by
          split at h <;> (rw [eq_pair] at h; obtain ⟨rfl, -⟩ := h; simp)
        (repeat' split) <;> exact k
      · rename_i t h
        have k : t.pending = s.pending ∧ t.cfg = s.cfg ∧ t.tables = s.tables := by
          split at h <;> (rw [eq_pair] at h; obtain ⟨rfl, -⟩ := h; simp)
        simpa using k
@[simp] theorem State.readDests_keeps (s : State) (ds : List Dest) (crossed : Bool) :
    (s.readDests ds crossed).pending = s.pending ∧ (s.readDests ds crossed).cfg = s.cfg ∧ (s.readDests ds crossed).tables = s.tables := by
  unfold State.readDests
  refine kept_foldl _ _ _ _ (fun a x => ?_) (by simp)
  dsimp only
  split
  · simp
  · split <;> simp
@[simp] theorem State.piecesAway_keeps (s : State) (id : Nat) (ps : List (Nat × Nat)) :
    (s.piecesAway id ps).pending = s.pending ∧ (s.piecesAway id ps).cfg = s.cfg ∧ (s.piecesAway id ps).tables = s.tables := by
  simp [State.piecesAway]
@[simp] theorem State.fetchPages_keeps (s : State) (r : Reading) (ps : List (Nat × Nat)) (item : Nat → Nat) :
    (s.fetchPages r ps item).1.pending = s.pending ∧ (s.fetchPages r ps item).1.cfg = s.cfg ∧ (s.fetchPages r ps item).1.tables = s.tables := by
  unfold State.fetchPages
  refine kept_foldlFst _ _ _ _ (fun a x => ?_) (by simp)
  split
  · generalize hk : State.lookPage _ _ _ _ _ _ = k
    have h2 : k.1.pending = a.1.pending ∧ k.1.cfg = a.1.cfg ∧ k.1.tables = a.1.tables := by rw [← hk]; simp
    obtain ⟨v, l⟩ := k
    cases l <;> simpa using h2
  · simp
@[simp] theorem State.fetchDests_keeps (s : State) (r : Reading) (va len : Nat) (item : Nat → Nat) :
    (s.fetchDests r va len item).1.pending = s.pending ∧ (s.fetchDests r va len item).1.cfg = s.cfg ∧ (s.fetchDests r va len item).1.tables = s.tables := by
  simp [State.fetchDests]
@[simp] theorem State.askFor_keeps (s : State) (r : Reading) (va len : Nat) (item : Nat → Nat) :
    (s.askFor r va len item).pending = s.pending ∧ (s.askFor r va len item).cfg = s.cfg ∧ (s.askFor r va len item).tables = s.tables := by
  simp [State.askFor]
@[simp] theorem State.needIn_keeps (s : State) (who : Reader) (win : Nat × Nat) (va len : Nat) (item : Nat → Nat) :
    (s.needIn who win va len item).1.pending = s.pending ∧ (s.needIn who win va len item).1.cfg = s.cfg ∧ (s.needIn who win va len item).1.tables = s.tables := by
  unfold State.needIn
  (repeat' split) <;> simp_all [eq_pair]
@[simp] theorem State.needElem_keeps (s : State) (who : Reader) (base len va n : Nat) :
    (s.needElem who base len va n).1.pending = s.pending ∧ (s.needElem who base len va n).1.cfg = s.cfg ∧ (s.needElem who base len va n).1.tables = s.tables := by
  simp [State.needElem]
@[simp] theorem State.needItem_keeps (s : State) (who : Reader) (va len : Nat) (item : Nat → Nat) :
    (s.needItem who va len item).1.pending = s.pending ∧ (s.needItem who va len item).1.cfg = s.cfg ∧ (s.needItem who va len item).1.tables = s.tables := by
  simp [State.needItem]
@[simp] theorem State.need_keeps (s : State) (who : Reader) (va len : Nat) :
    (s.need who va len).1.pending = s.pending ∧ (s.need who va len).1.cfg = s.cfg ∧ (s.need who va len).1.tables = s.tables := by
  simp [State.need]
@[simp] theorem State.forgetRead_keeps (s : State) (who : Reader) (va len : Nat) :
    (s.forgetRead who va len).pending = s.pending ∧ (s.forgetRead who va len).cfg = s.cfg ∧ (s.forgetRead who va len).tables = s.tables := by
  simp [State.forgetRead]
@[simp] theorem State.arriveFetch_keeps (s : State) (id va : Nat) (l : List Byte) :
    (s.arriveFetch id va l).pending = s.pending ∧ (s.arriveFetch id va l).cfg = s.cfg ∧ (s.arriveFetch id va l).tables = s.tables := by
  simp [State.arriveFetch]
@[simp] theorem State.roll_keeps (s : State) (lane : Nat) :
    (s.roll lane).1.pending = s.pending ∧ (s.roll lane).1.cfg = s.cfg ∧ (s.roll lane).1.tables = s.tables := by
  simp [State.roll]
@[simp] theorem State.cast_keeps (s : State) (lane : Nat) (sround : Bool) (ty : Nat) (v : Num) :
    (s.cast lane sround ty v).1.pending = s.pending ∧ (s.cast lane sround ty v).1.cfg = s.cfg ∧ (s.cast lane sround ty v).1.tables = s.tables := by
  simp [State.cast]
@[simp] theorem State.castElem_keeps (s : State) (lane : Nat) (sround : Bool) (from' to' : Nat) (e : Elem) :
    (s.castElem lane sround from' to' e).1.pending = s.pending ∧ (s.castElem lane sround from' to' e).1.cfg = s.cfg ∧ (s.castElem lane sround from' to' e).1.tables = s.tables := by
  simp [State.castElem]
@[simp] theorem State.sumBare_keeps (s : State) (l : List Word) :
    (s.sumBare l).1.pending = s.pending ∧ (s.sumBare l).1.cfg = s.cfg ∧ (s.sumBare l).1.tables = s.tables := by
  simp [State.sumBare]
@[simp] theorem State.sumAny_keeps (s : State) (l : List Word) :
    (s.sumAny l).1.pending = s.pending ∧ (s.sumAny l).1.cfg = s.cfg ∧ (s.sumAny l).1.tables = s.tables := by
  simp [State.sumAny]
@[simp] theorem State.pickAny_keeps (s : State) (l : List Byte) :
    (s.pickAny l).1.pending = s.pending ∧ (s.pickAny l).1.cfg = s.cfg ∧ (s.pickAny l).1.tables = s.tables := by
  simp [State.pickAny]
@[simp] theorem State.plainBytes_keeps (s : State) (t : Tile) (d : BitVec 1024) (from' : Nat) (es : List (List Int × Elem)) :
    (s.plainBytes t d from' es).1.pending = s.pending ∧ (s.plainBytes t d from' es).1.cfg = s.cfg ∧ (s.plainBytes t d from' es).1.tables = s.tables := by
  unfold State.plainBytes
  refine kept_foldlFst _ _ _ _ (fun a x => ?_) (by simp)
  dsimp only
  (repeat' split) <;> simp_all
@[simp] theorem State.accumBytes_keeps (s : State) (t : Tile) (d : BitVec 1024) (from' : Nat) (es : List (List Int × Elem)) :
    (s.accumBytes t d from' es).1.pending = s.pending ∧ (s.accumBytes t d from' es).1.cfg = s.cfg ∧ (s.accumBytes t d from' es).1.tables = s.tables := by
  unfold State.accumBytes
  refine kept_foldlFst _ _ _ _ (fun a x => ?_) (by simp)
  dsimp only
  (repeat' split) <;> simp_all
@[simp] theorem State.moveBytes_keeps (s : State) (t : Tile) :
    (s.moveBytes t).1.pending = s.pending ∧ (s.moveBytes t).1.cfg = s.cfg ∧ (s.moveBytes t).1.tables = s.tables := by
  unfold State.moveBytes
  (repeat' split) <;> simp_all
@[simp] theorem State.wordBytes_keeps (s : State) (t : Tile) (w : Nat → Nat → Word) :
    (s.wordBytes t w).1.pending = s.pending ∧ (s.wordBytes t w).1.cfg = s.cfg ∧ (s.wordBytes t w).1.tables = s.tables := by
  unfold State.wordBytes
  (repeat' split) <;> simp_all
@[simp] theorem State.poolAddends_keeps (s : State) (t : Tile) :
    (s.poolAddends t).1.pending = s.pending ∧ (s.poolAddends t).1.cfg = s.cfg ∧ (s.poolAddends t).1.tables = s.tables := by
  unfold State.poolAddends
  (repeat' split) <;> simp_all
@[simp] theorem State.countLoad_keeps (s : State) (table : Nat) (east : Bool) (f : LoadCount → LoadCount) :
    (s.countLoad table east f).pending = s.pending ∧ (s.countLoad table east f).cfg = s.cfg ∧ (s.countLoad table east f).tables = s.tables := by
  simp [State.countLoad]
@[simp] theorem State.rowMissed_keeps (s : State) (p0 : Probe) (crossed : Bool) :
    (s.rowMissed p0 crossed).pending = s.pending ∧ (s.rowMissed p0 crossed).cfg = s.cfg ∧ (s.rowMissed p0 crossed).tables = s.tables := by
  simp [State.rowMissed]
@[simp] theorem State.askLarder_keeps (s : State) (ps : List Probe) :
    (s.askLarder ps).pending = s.pending ∧ (s.askLarder ps).cfg = s.cfg ∧ (s.askLarder ps).tables = s.tables := by
  unfold State.askLarder
  (repeat' split) <;> simp_all
@[simp] theorem State.fetchRow_keeps (s : State) (ds : List Dest) (d : BitVec 512) (table row mult : Nat) :
    (s.fetchRow ds d table row mult).pending = s.pending ∧ (s.fetchRow ds d table row mult).cfg = s.cfg ∧ (s.fetchRow ds d table row mult).tables = s.tables := by
  unfold State.fetchRow
  dsimp only
  (repeat' split) <;> simp_all
@[simp] theorem State.updBlock_keeps (s : State) (id : Nat) (f : Block → Block) :
    (s.updBlock id f).pending = s.pending ∧ (s.updBlock id f).cfg = s.cfg ∧ (s.updBlock id f).tables = s.tables := by
  simp [State.updBlock]
@[simp] theorem State.deliverTo_keeps (s : State) (data : BitVec 1024) (x0 : Dest) :
    (s.deliverTo data x0).pending = s.pending ∧ (s.deliverTo data x0).cfg = s.cfg ∧ (s.deliverTo data x0).tables = s.tables := by
  unfold State.deliverTo
  (repeat' split) <;> simp_all
@[simp] theorem State.updServe_keeps (s : State) (id : Nat) (f : Serve → Serve) :
    (s.updServe id f).pending = s.pending ∧ (s.updServe id f).cfg = s.cfg ∧ (s.updServe id f).tables = s.tables := by
  simp [State.updServe]
@[simp] theorem State.serveBegin_keeps (s : State) (v : Serve) :
    (s.serveBegin v).pending = s.pending ∧ (s.serveBegin v).cfg = s.cfg ∧ (s.serveBegin v).tables = s.tables := by
  unfold State.serveBegin
  dsimp only
  (repeat' split) <;> simp_all
@[simp] theorem State.serveAsk_keeps (s : State) (v : Serve) (d : BitVec 512) :
    (s.serveAsk v d).pending = s.pending ∧ (s.serveAsk v d).cfg = s.cfg ∧ (s.serveAsk v d).tables = s.tables := by
  simp [State.serveAsk]
@[simp] theorem State.servePart_keeps (s : State) (v : Serve) (d : BitVec 512) (rows : List (List Byte)) :
    (s.servePart v d rows).pending = s.pending ∧ (s.servePart v d rows).cfg = s.cfg ∧ (s.servePart v d rows).tables = s.tables := by
  simp [State.servePart]
@[simp] theorem State.serveOne_keeps (s : State) (east : Bool) :
    (s.serveOne east).pending = s.pending ∧ (s.serveOne east).cfg = s.cfg ∧ (s.serveOne east).tables = s.tables := by
  unfold State.serveOne
  dsimp only
  (repeat' split) <;> simp_all
@[simp] theorem State.payCredits_keeps (s : State) (east : Bool) :
    (s.payCredits east).pending = s.pending ∧ (s.payCredits east).cfg = s.cfg ∧ (s.payCredits east).tables = s.tables := by
  simp [State.payCredits]
@[simp] theorem State.serveAll_keeps (s : State) :
    (s.serveAll).pending = s.pending ∧ (s.serveAll).cfg = s.cfg ∧ (s.serveAll).tables = s.tables := by
  simp [State.serveAll]
@[simp] theorem State.laneAbort_keeps (s : State) (q : Nat) (st : Byte) (num instr va : Nat) :
    (s.laneAbort q st num instr va).pending = s.pending ∧ (s.laneAbort q st num instr va).cfg = s.cfg ∧ (s.laneAbort q st num instr va).tables = s.tables := by
  simp [State.laneAbort]
@[simp] theorem State.dropLines_keeps (s : State) (lane : Nat) (p : CacheLine → Bool) :
    (s.dropLines lane p).pending = s.pending ∧ (s.dropLines lane p).cfg = s.cfg ∧ (s.dropLines lane p).tables = s.tables := by
  simp [State.dropLines]
@[simp] theorem State.dropWingLines_keeps (s : State) (east : Bool) (p : CacheLine → Bool) :
    (s.dropWingLines east p).pending = s.pending ∧ (s.dropWingLines east p).cfg = s.cfg ∧ (s.dropWingLines east p).tables = s.tables := by
  simp [State.dropWingLines]
@[simp] theorem State.acquire_keeps (s : State) (lane q : Nat) :
    (s.acquire lane q).pending = s.pending ∧ (s.acquire lane q).cfg = s.cfg ∧ (s.acquire lane q).tables = s.tables := by
  simp [State.acquire]
@[simp] theorem State.cacheFill_keeps (s : State) (lane q base : Nat) (shared : Bool) (bytes : List (Nat × Byte)) :
    (s.cacheFill lane q base shared bytes).pending = s.pending ∧ (s.cacheFill lane q base shared bytes).cfg = s.cfg ∧ (s.cacheFill lane q base shared bytes).tables = s.tables := by
  simp [State.cacheFill]
@[simp] theorem State.readReq_keeps (s : State) (t : Tile) (holder : Holder) (ring : Option Nat) (pa len : Nat) (dests : List Dest) (tiles : List Nat) :
    (s.readReq t holder ring pa len dests tiles).pending = s.pending ∧ (s.readReq t holder ring pa len dests tiles).cfg = s.cfg ∧ (s.readReq t holder ring pa len dests tiles).tables = s.tables := by
  simp [State.readReq]
@[simp] theorem State.closeReads_keeps (s : State) (lane base : Nat) (needs : List Need) :
    (s.closeReads lane base needs).pending = s.pending ∧ (s.closeReads lane base needs).cfg = s.cfg ∧ (s.closeReads lane base needs).tables = s.tables := by
  unfold State.closeReads
  refine kept_foldl _ _ _ _ (fun a x => ?_) (by simp)
  dsimp only
  (repeat' split) <;> simp_all
@[simp] theorem State.closeReadWindow_keeps (s : State) (lane q : Nat) :
    (s.closeReadWindow lane q).pending = s.pending ∧ (s.closeReadWindow lane q).cfg = s.cfg ∧ (s.closeReadWindow lane q).tables = s.tables := by
  unfold State.closeReadWindow
  (repeat' split) <;> simp_all
@[simp] theorem State.joinReads_keeps (s : State) (lane q : Nat) (n : Need) :
    (s.joinReads lane q n).pending = s.pending ∧ (s.joinReads lane q n).cfg = s.cfg ∧ (s.joinReads lane q n).tables = s.tables := by
  unfold State.joinReads
  dsimp only
  (repeat' split) <;> simp_all
@[simp] theorem State.needUnit_keeps (s : State) (t : Tile) (va len : Nat) (alone : Bool) :
    (s.needUnit t va len alone).pending = s.pending ∧ (s.needUnit t va len alone).cfg = s.cfg ∧ (s.needUnit t va len alone).tables = s.tables := by
  unfold State.needUnit
  dsimp only
  (repeat' split) <;> simp_all
@[simp] theorem State.rowRead_keeps (s : State) (lane : Nat) (ns : List Need) :
    (s.rowRead lane ns).pending = s.pending ∧ (s.rowRead lane ns).cfg = s.cfg ∧ (s.rowRead lane ns).tables = s.tables := by
  unfold State.rowRead
  (repeat' split) <;> simp_all
@[simp] theorem State.needRow_keeps (s : State) (t : Tile) (units : List (Nat × Nat)) :
    (s.needRow t units).pending = s.pending ∧ (s.needRow t units).cfg = s.cfg ∧ (s.needRow t units).tables = s.tables := by
  simp [State.needRow]
@[simp] theorem State.openByte_keeps (s : State) :
    (s.openByte).1.pending = s.pending ∧ (s.openByte).1.cfg = s.cfg ∧ (s.openByte).1.tables = s.tables := by
  simp [State.openByte]
@[simp] theorem State.remoteWrite_keeps (s : State) (q stream : Nat) (final : Bool) (held : Option Nat) (bytes : List (Nat × Byte)) (tiles : List Nat) (record : Option (Nat × Nat) := none) :
    (s.remoteWrite q stream final held bytes tiles record).pending = s.pending ∧ (s.remoteWrite q stream final held bytes tiles record).cfg = s.cfg ∧ (s.remoteWrite q stream final held bytes tiles record).tables = s.tables := by
  unfold State.remoteWrite
  split
  · simp
  · dsimp only
    split
    · split <;> simp
    · refine kept_foldl _ _ _ _ (fun a x => ?_) (by simp)
      generalize hr : List.foldl _ _ _ = r
      have h : r.1.pending = a.pending ∧ r.1.cfg = a.cfg ∧ r.1.tables = a.tables := by
        rw [← hr]
        refine kept_foldlFst _ _ _ _ (fun a x => ?_) (by simp)
        split <;> simp
      split <;> simp [h]
@[simp] theorem State.writeReq_keeps (s : State) (q stream : Nat) (holder : Holder) (op : BitVec 3) (final : Bool) (held : Option Nat) (bytes : List (Nat × Byte)) (tiles : List Nat) (row : Option RowPart := none) :
    (s.writeReq q stream holder op final held bytes tiles row).pending = s.pending ∧ (s.writeReq q stream holder op final held bytes tiles row).cfg = s.cfg ∧ (s.writeReq q stream holder op final held bytes tiles row).tables = s.tables := by
  unfold State.writeReq
  (repeat' split) <;> simp_all
@[simp] theorem State.closeWrites_keeps (s : State) (lane q stream : Nat) (w : WriteWindow) :
    (s.closeWrites lane q stream w).pending = s.pending ∧ (s.closeWrites lane q stream w).cfg = s.cfg ∧ (s.closeWrites lane q stream w).tables = s.tables := by
  simp [State.closeWrites]
@[simp] theorem State.closeWriteWindow_keeps (s : State) (stream : Nat) :
    (s.closeWriteWindow stream).pending = s.pending ∧ (s.closeWriteWindow stream).cfg = s.cfg ∧ (s.closeWriteWindow stream).tables = s.tables := by
  unfold State.closeWriteWindow
  (repeat' split) <;> simp_all
@[simp] theorem State.writeMem_keeps (s : State) (t : Tile) (op : BitVec 3) (bytes : List (Nat × Byte)) :
    (s.writeMem t op bytes).pending = s.pending ∧ (s.writeMem t op bytes).cfg = s.cfg ∧ (s.writeMem t op bytes).tables = s.tables := by
  unfold State.writeMem
  refine kept_foldl _ _ _ _ (fun a x => ?_) (by simp)
  dsimp only
  (repeat' split) <;> simp_all
@[simp] theorem State.resolve_keeps (s : State) (bytes : List (Nat × Byte)) :
    (s.resolve bytes).1.pending = s.pending ∧ (s.resolve bytes).1.cfg = s.cfg ∧ (s.resolve bytes).1.tables = s.tables := by
  simp [State.resolve]
@[simp] theorem State.hallStored_keeps (s : State) (east : Bool) :
    (s.hallStored east).pending = s.pending ∧ (s.hallStored east).cfg = s.cfg ∧ (s.hallStored east).tables = s.tables := by
  simp [State.hallStored]
@[simp] theorem State.writeSlot_keeps (s : State) (t : Tile) (d : BitVec 1024) (h : HeldSlot) (bytes : List (Nat × Byte)) :
    (s.writeSlot t d h bytes).pending = s.pending ∧ (s.writeSlot t d h bytes).cfg = s.cfg ∧ (s.writeSlot t d h bytes).tables = s.tables := by
  simp [State.writeSlot]
@[simp] theorem State.writeTile_keeps (s : State) (t : Tile) (bytes : List (Nat × Byte)) :
    (s.writeTile t bytes).pending = s.pending ∧ (s.writeTile t bytes).cfg = s.cfg ∧ (s.writeTile t bytes).tables = s.tables := by
  unfold State.writeTile
  (repeat' split) <;> simp_all
@[simp] theorem State.poolBag_keeps (s : State) (b : Batch) (w : SubWin) (bag : Nat) :
    (s.poolBag b w bag).1.pending = s.pending ∧ (s.poolBag b w bag).1.cfg = s.cfg ∧ (s.poolBag b w bag).1.tables = s.tables := by
  simp [State.poolBag]
@[simp] theorem State.porterWrites_keeps (s : State) (t : Tile) (op : BitVec 3) (bytes : List (Nat × Byte)) :
    (s.porterWrites t op bytes).pending = s.pending ∧ (s.porterWrites t op bytes).cfg = s.cfg ∧ (s.porterWrites t op bytes).tables = s.tables := by
  simp [State.porterWrites]
@[simp] theorem State.optimise_keeps (s : State) (c d : BitVec 512) (w g : List Word) (a : List Byte) :
    (s.optimise c d w g a).1.pending = s.pending ∧ (s.optimise c d w g a).1.cfg = s.cfg ∧ (s.optimise c d w g a).1.tables = s.tables := by
  simp [State.optimise]
@[simp] theorem State.castCode_keeps (s : State) (lane : Nat) (sround : Bool) (v : Num) (den : Num) :
    (s.castCode lane sround v den).1.pending = s.pending ∧ (s.castCode lane sround v den).1.cfg = s.cfg ∧ (s.castCode lane sround v den).1.tables = s.tables := by
  simp [State.castCode]
@[simp] theorem State.requantise_keeps (s : State) (lane : Nat) (sround : Bool) (w2 : List Word) :
    (s.requantise lane sround w2).1.pending = s.pending ∧ (s.requantise lane sround w2).1.cfg = s.cfg ∧ (s.requantise lane sround w2).1.tables = s.tables := by
  unfold State.requantise
  dsimp only
  (repeat' split) <;> simp_all
@[simp] theorem State.encodeRow_keeps (s : State) (lane : Nat) (sround : Bool) (d : BitVec 512) (w2 : List Word) :
    (s.encodeRow lane sround d w2).1.pending = s.pending ∧ (s.encodeRow lane sround d w2).1.cfg = s.cfg ∧ (s.encodeRow lane sround d w2).1.tables = s.tables := by
  simp [State.encodeRow]
@[simp] theorem State.addends_keeps (s : State) (lane : Nat) (sround : Bool) (c d : BitVec 512) (g : List Word) :
    (s.addends lane sround c d g).1.pending = s.pending ∧ (s.addends lane sround c d g).1.cfg = s.cfg ∧ (s.addends lane sround c d g).1.tables = s.tables := by
  simp [State.addends]
@[simp] theorem State.rowWrites_keeps (s : State) (t : Tile) (op : BitVec 3) (row : Nat) (items : List (Nat × List Byte)) :
    (s.rowWrites t op row items).pending = s.pending ∧ (s.rowWrites t op row items).cfg = s.cfg ∧ (s.rowWrites t op row items).tables = s.tables := by
  unfold State.rowWrites
  dsimp only
  refine kept_foldl _ _ _ _ (fun a x => ?_) (by simp)
  split <;> simp
@[simp] theorem State.updateRow_keeps (s : State) (b : Batch) (c : BitVec 512) (t : Tile) (row : Nat) (g : List Word) :
    (s.updateRow b c t row g).pending = s.pending ∧ (s.updateRow b c t row g).cfg = s.cfg ∧ (s.updateRow b c t row g).tables = s.tables := by
  simp [State.updateRow]
@[simp] theorem State.runUpdateRows_keeps (s : State) (t : Tile) :
    (s.runUpdateRows t).pending = s.pending ∧ (s.runUpdateRows t).cfg = s.cfg ∧ (s.runUpdateRows t).tables = s.tables := by
  unfold State.runUpdateRows
  (repeat' split) <;> simp_all
@[simp] theorem State.runRows_keeps (s : State) (t : Tile) :
    (s.runRows t).pending = s.pending ∧ (s.runRows t).cfg = s.cfg ∧ (s.runRows t).tables = s.tables := by
  unfold State.runRows
  (repeat' split) <;> simp_all
@[simp] theorem State.runBags_keeps (s : State) (t : Tile) :
    (s.runBags t).pending = s.pending ∧ (s.runBags t).cfg = s.cfg ∧ (s.runBags t).tables = s.tables := by
  unfold State.runBags
  (repeat' split) <;> simp_all
@[simp] theorem State.runTile_keeps (s : State) (t : Tile) :
    (s.runTile t).pending = s.pending ∧ (s.runTile t).cfg = s.cfg ∧ (s.runTile t).tables = s.tables := by
  unfold State.runTile
  dsimp only
  (repeat' split) <;> simp_all
@[simp] theorem State.finishTiles_keeps (s : State) :
    (s.finishTiles).pending = s.pending ∧ (s.finishTiles).cfg = s.cfg ∧ (s.finishTiles).tables = s.tables := by
  unfold State.finishTiles
  refine kept_foldl _ _ _ _ (fun a x => ?_) (by simp)
  (repeat' split) <;> simp_all
@[simp] theorem State.retireTiles_keeps (s : State) :
    (s.retireTiles).pending = s.pending ∧ (s.retireTiles).cfg = s.cfg ∧ (s.retireTiles).tables = s.tables := by
  simp [State.retireTiles]
@[simp] theorem State.fillQueue_keeps (s : State) (lane : Nat) :
    (s.fillQueue lane).pending = s.pending ∧ (s.fillQueue lane).cfg = s.cfg ∧ (s.fillQueue lane).tables = s.tables := by
  simp [State.fillQueue]
@[simp] theorem State.pushTile_keeps (s : State) (lane : Nat) (t : Tile) :
    (s.pushTile lane t).pending = s.pending ∧ (s.pushTile lane t).cfg = s.cfg ∧ (s.pushTile lane t).tables = s.tables := by
  simp [State.pushTile]
@[simp] theorem State.feedUpdate_keeps (s : State) (b : Batch) (w : SubWin) (lane : Nat) :
    (s.feedUpdate b w lane).pending = s.pending ∧ (s.feedUpdate b w lane).cfg = s.cfg ∧ (s.feedUpdate b w lane).tables = s.tables := by
  simp [State.feedUpdate]
@[simp] theorem State.feedOne_keeps (s : State) (w : SubWin) :
    (s.feedOne w).pending = s.pending ∧ (s.feedOne w).cfg = s.cfg ∧ (s.feedOne w).tables = s.tables := by
  unfold State.feedOne
  (repeat' split) <;> simp_all
@[simp] theorem State.feed_keeps (s : State) :
    (s.feed).pending = s.pending ∧ (s.feed).cfg = s.cfg ∧ (s.feed).tables = s.tables := by
  unfold State.feed
  refine kept_foldl _ _ _ _ (fun a x => ?_) (by simp)
  refine kept_foldl _ _ _ _ (fun a x => ?_) (by simp)
  split <;> simp
@[simp] theorem State.freeBlocks_keeps (s : State) :
    (s.freeBlocks).pending = s.pending ∧ (s.freeBlocks).cfg = s.cfg ∧ (s.freeBlocks).tables = s.tables := by
  simp [State.freeBlocks]
@[simp] theorem State.sweep_keeps (s : State) :
    (s.sweep).pending = s.pending ∧ (s.sweep).cfg = s.cfg ∧ (s.sweep).tables = s.tables := by
  simp [State.sweep]
@[simp] theorem State.markTiles_keeps (s : State) (among : Tile → Bool) (final : Bool) :
    (s.markTiles among final).pending = s.pending ∧ (s.markTiles among final).cfg = s.cfg ∧ (s.markTiles among final).tables = s.tables := by
  unfold State.markTiles
  dsimp only
  split
  · simp
  · refine kept_foldl _ _ _ _ (fun a x => ?_) (by simp)
    split <;> simp
@[simp] theorem State.mark_keeps (s : State) (stream : Nat) (final : Bool) :
    (s.mark stream final).pending = s.pending ∧ (s.mark stream final).cfg = s.cfg ∧ (s.mark stream final).tables = s.tables := by simp [State.mark]
@[simp] theorem State.walk_keeps (s : State) (t : Tile) :
    (s.walk t).1.pending = s.pending ∧ (s.walk t).1.cfg = s.cfg ∧ (s.walk t).1.tables = s.tables := by
  unfold State.walk
  refine kept_foldlFst _ _ _ _ (fun a x => ?_) (by simp)
  split
  · simp
  · dsimp only
    split
    · simp
    · split
      · simp
      · split
        · simp
        · split
          · rename_i h
            rw [eq_pair, ite_fst] at h
            obtain ⟨rfl, -⟩ := h
            (repeat' split) <;> simp_all
          · rename_i h
            rw [eq_pair, ite_fst] at h
            obtain ⟨rfl, -⟩ := h
            (repeat' split) <;> simp_all
@[simp] theorem State.fetchRows_keeps (s : State) (t : Tile) :
    (s.fetchRows t).pending = s.pending ∧ (s.fetchRows t).cfg = s.cfg ∧ (s.fetchRows t).tables = s.tables := by
  unfold State.fetchRows
  (repeat' split) <;> simp_all
@[simp] theorem State.issueTile_keeps (s : State) (t : Tile) :
    (s.issueTile t).pending = s.pending ∧ (s.issueTile t).cfg = s.cfg ∧ (s.issueTile t).tables = s.tables := by
  unfold State.issueTile
  dsimp only
  (repeat' split) <;> simp_all
@[simp] theorem State.onIns_pending (s : State) (lane op : Nat) (f : State → Itin → BitVec 64 → Res) (h : ∀ t i w, (stateAfter t (f t i w)).pending = t.pending) :
    (stateAfter s (s.onIns lane op f)).pending = s.pending := by
  unfold State.onIns
  split
  · simp
  · split
    · exact stateAfter_keeps_pending (h _ _ _) (by simp)
    · simp
@[simp] theorem State.onIns_cfg (s : State) (lane op : Nat) (f : State → Itin → BitVec 64 → Res) (h : ∀ t i w, (stateAfter t (f t i w)).cfg = t.cfg) :
    (stateAfter s (s.onIns lane op f)).cfg = s.cfg := by
  unfold State.onIns
  split
  · simp
  · split
    · exact stateAfter_keeps_cfg (h _ _ _) (by simp)
    · simp
@[simp] theorem State.onIns_tables (s : State) (lane op : Nat) (f : State → Itin → BitVec 64 → Res) (h : ∀ t i w, (stateAfter t (f t i w)).tables = t.tables) :
    (stateAfter s (s.onIns lane op f)).tables = s.tables := by
  unfold State.onIns
  split
  · simp
  · split
    · exact stateAfter_keeps_tables (h _ _ _) (by simp)
    · simp
@[simp] theorem State.retired_keeps (s : State) (i : Itin) (f : Itin → Itin) :
    (s.retired i f).pending = s.pending ∧ (s.retired i f).cfg = s.cfg ∧ (s.retired i f).tables = s.tables := by
  simp [State.retired]
@[simp] theorem State.blocked_keeps (s : State) (i : Itin) :
    (s.blocked i).pending = s.pending ∧ (s.blocked i).cfg = s.cfg ∧ (s.blocked i).tables = s.tables := by
  simp [State.blocked]
@[simp] theorem State.taking_keeps (s : State) (i : Itin) :
    (s.taking i).pending = s.pending ∧ (s.taking i).cfg = s.cfg ∧ (s.taking i).tables = s.tables := by
  simp [State.taking]
@[simp] theorem State.illegal_keeps (s : State) (i : Itin) (st : Byte) :
    (s.illegal i st).pending = s.pending ∧ (s.illegal i st).cfg = s.cfg ∧ (s.illegal i st).tables = s.tables := by
  simp [State.illegal]
@[simp] theorem State.dropWindows_keeps (s : State) (stream ix : Nat) :
    (s.dropWindows stream ix).pending = s.pending ∧ (s.dropWindows stream ix).cfg = s.cfg ∧ (s.dropWindows stream ix).tables = s.tables := by
  simp [State.dropWindows]
@[simp] theorem State.enqueue_keeps (s : State) (t : Tile) :
    (s.enqueue t).pending = s.pending ∧ (s.enqueue t).cfg = s.cfg ∧ (s.enqueue t).tables = s.tables := by
  simp [State.enqueue]
@[simp] theorem State.transfer_keeps (s : State) (i : Itin) (t : Tile) (bad : Option Byte) (after : Itin → Itin) :
    (stateAfter s (s.transfer i t bad after)).pending = s.pending ∧ (stateAfter s (s.transfer i t bad after)).cfg = s.cfg ∧ (stateAfter s (s.transfer i t bad after)).tables = s.tables := by
  unfold State.transfer
  (repeat' split) <;> simp_all
@[simp] theorem State.claimSlot_keeps (s : State) (i : Itin) (r : Nat) :
    (s.claimSlot i r).pending = s.pending ∧ (s.claimSlot i r).cfg = s.cfg ∧ (s.claimSlot i r).tables = s.tables := by
  simp [State.claimSlot]
@[simp] theorem State.takeSlot_keeps (s : State) (i : Itin) (r : Nat) :
    (s.takeSlot i r).pending = s.pending ∧ (s.takeSlot i r).cfg = s.cfg ∧ (s.takeSlot i r).tables = s.tables := by
  simp [State.takeSlot]
@[simp] theorem State.granted_keeps (s : State) (i : Itin) :
    (s.granted i).pending = s.pending ∧ (s.granted i).cfg = s.cfg ∧ (s.granted i).tables = s.tables := by
  unfold State.granted
  (repeat' split) <;> simp_all
@[simp] theorem State.insTake_keeps (s : State) (i : Itin) (sem : Nat) (k : BitVec 20) :
    (s.insTake i sem k).pending = s.pending ∧ (s.insTake i sem k).cfg = s.cfg ∧ (s.insTake i sem k).tables = s.tables := by
  simp [State.insTake]
@[simp] theorem State.itinIncrement_keeps (s : State) (q num sem : Nat) (k : BitVec 20) :
    (s.itinIncrement q num sem k).pending = s.pending ∧ (s.itinIncrement q num sem k).cfg = s.cfg ∧ (s.itinIncrement q num sem k).tables = s.tables := by
  simp [State.itinIncrement]
@[simp] theorem State.sendIncrement_keeps (s : State) (east : Bool) (q num sem : Nat) (k : BitVec 20) :
    (s.sendIncrement east q num sem k).pending = s.pending ∧ (s.sendIncrement east q num sem k).cfg = s.cfg ∧ (s.sendIncrement east q num sem k).tables = s.tables := by
  simp [State.sendIncrement]
@[simp] theorem State.release_keeps (s : State) (i : Itin) (kind : RelKind) (tiles : List Nat) :
    (s.release i kind tiles).pending = s.pending ∧ (s.release i kind tiles).cfg = s.cfg ∧ (s.release i kind tiles).tables = s.tables := by
  simp [State.release]
@[simp] theorem State.groupTake_keeps (s : State) (i : Itin) (r : Nat) :
    (s.groupTake i r).pending = s.pending ∧ (s.groupTake i r).cfg = s.cfg ∧ (s.groupTake i r).tables = s.tables := by
  simp [State.groupTake]
@[simp] theorem State.watchGroup_keeps (s : State) (g : Nat) :
    (s.watchGroup g).pending = s.pending ∧ (s.watchGroup g).cfg = s.cfg ∧ (s.watchGroup g).tables = s.tables := by
  unfold State.watchGroup
  (repeat' split) <;> simp_all
@[simp] theorem State.watchLaggards_keeps (s : State) :
    (s.watchLaggards).pending = s.pending ∧ (s.watchLaggards).cfg = s.cfg ∧ (s.watchLaggards).tables = s.tables := by
  simp [State.watchLaggards]
@[simp] theorem State.putBack_keeps (s : State) (q : Nat) (p : Nat × Nat × Nat) :
    (s.putBack q p).pending = s.pending ∧ (s.putBack q p).cfg = s.cfg ∧ (s.putBack q p).tables = s.tables := by
  unfold State.putBack
  (repeat' split) <;> simp_all
@[simp] theorem State.placeAside_keeps (s : State) (q : Nat) :
    (s.placeAside q).pending = s.pending ∧ (s.placeAside q).cfg = s.cfg ∧ (s.placeAside q).tables = s.tables := by
  unfold State.placeAside
  (repeat' split) <;> simp_all
@[simp] theorem State.placeAsides_keeps (s : State) :
    (s.placeAsides).pending = s.pending ∧ (s.placeAsides).cfg = s.cfg ∧ (s.placeAsides).tables = s.tables := by
  simp [State.placeAsides]
@[simp] theorem State.laneReadFault_keeps (s : State) (i : Itin) (st : Byte) (va : Nat) :
    (s.laneReadFault i st va).pending = s.pending ∧ (s.laneReadFault i st va).cfg = s.cfg ∧ (s.laneReadFault i st va).tables = s.tables := by
  simp [State.laneReadFault]
@[simp] theorem State.takeDesc_keeps (s : State) (stream va : Nat) :
    (s.takeDesc stream va).pending = s.pending ∧ (s.takeDesc stream va).cfg = s.cfg ∧ (s.takeDesc stream va).tables = s.tables := by
  simp [State.takeDesc]
@[simp] theorem State.judge_keeps (s : State) (u k m : Nat) :
    (s.judge u k m).pending = s.pending ∧ (s.judge u k m).cfg = s.cfg ∧ (s.judge u k m).tables = s.tables := by
  unfold State.judge
  dsimp only
  (repeat' split) <;> simp_all
@[simp] theorem State.judgeAll_keeps (s : State) (n : Nat) :
    (s.judgeAll n).pending = s.pending ∧ (s.judgeAll n).cfg = s.cfg ∧ (s.judgeAll n).tables = s.tables := by
  simp [State.judgeAll]
@[simp] theorem State.runTimers_keeps (s : State) (n : Nat) :
    (s.runTimers n).pending = s.pending ∧ (s.runTimers n).cfg = s.cfg ∧ (s.runTimers n).tables = s.tables := by
  simp [State.runTimers]
@[simp] theorem State.runLaggards_keeps (s : State) (n : Nat) :
    (s.runLaggards n).pending = s.pending ∧ (s.runLaggards n).cfg = s.cfg ∧ (s.runLaggards n).tables = s.tables := by
  unfold State.runLaggards
  refine kept_foldl _ _ _ _ (fun a x => ?_) (by simp)
  (repeat' split) <;> simp_all
@[simp] theorem State.driveTrace_keeps (s : State) (n : Nat) :
    (s.driveTrace n).pending = s.pending ∧ (s.driveTrace n).cfg = s.cfg ∧ (s.driveTrace n).tables = s.tables := by
  simp [State.driveTrace]
@[simp] theorem State.liveCycles_keeps (s : State) (n : Nat) :
    (s.liveCycles n).pending = s.pending ∧ (s.liveCycles n).cfg = s.cfg ∧ (s.liveCycles n).tables = s.tables := by
  simp [State.liveCycles]
@[simp] theorem State.switchCycle_keeps (s : State) :
    (s.switchCycle).pending = s.pending ∧ (s.switchCycle).cfg = s.cfg ∧ (s.switchCycle).tables = s.tables := by
  simp [State.switchCycle]
@[simp] theorem State.runSwitches_keeps  (x0 : Nat) (x1 : Nat) (s : State) :
    (State.runSwitches x0 x1 s).pending = s.pending ∧ (State.runSwitches x0 x1 s).cfg = s.cfg ∧ (State.runSwitches x0 x1 s).tables = s.tables := by
  induction x0 generalizing x1 s with
  | zero => cases x1 <;> simp [State.runSwitches]
  | succ k ih => cases x1 with
    | zero => simp [State.runSwitches]
    | succ n => simp [State.runSwitches, ih]
@[simp] theorem State.runCycles_keeps (s : State) (n : Nat) :
    (s.runCycles n).pending = s.pending ∧ (s.runCycles n).cfg = s.cfg ∧ (s.runCycles n).tables = s.tables := by
  simp [State.runCycles]
@[simp] theorem State.runEdges_keeps  (x0 : Nat) (x1 : Nat) (s : State) :
    (State.runEdges x0 x1 s).pending = s.pending ∧ (State.runEdges x0 x1 s).cfg = s.cfg ∧ (State.runEdges x0 x1 s).tables = s.tables := by
  induction x0 generalizing x1 s with
  | zero => simp [State.runEdges]
  | succ k ih =>
    unfold State.runEdges
    split
    · split <;> simp [ih]
    · simp
@[simp] theorem State.passCycles_keeps (s : State) (n : Nat) :
    (s.passCycles n).pending = s.pending ∧ (s.passCycles n).cfg = s.cfg ∧ (s.passCycles n).tables = s.tables := by
  simp [State.passCycles]
@[simp] theorem State.inTurn_keeps (s : State) (i rank : Nat) (k : BitVec 20) :
    (s.inTurn i rank k).pending = s.pending ∧ (s.inTurn i rank k).cfg = s.cfg ∧ (s.inTurn i rank k).tables = s.tables := by
  simp [State.inTurn]
@[simp] theorem State.incTurn_keeps (s : State) (east : Bool) (i : Nat) (k : BitVec 20) :
    (s.incTurn east i k).pending = s.pending ∧ (s.incTurn east i k).cfg = s.cfg ∧ (s.incTurn east i k).tables = s.tables := by
  simp [State.incTurn]
@[simp] theorem idleCycle_keeps (s : State) :
    (stateAfter s (idleCycle s)).pending = s.pending ∧ (stateAfter s (idleCycle s)).cfg = s.cfg ∧ (stateAfter s (idleCycle s)).tables = s.tables := by
  simp [idleCycle]
@[simp] theorem State.cpReply_keeps (s : State) (err : BitVec 2) (rdata : Word) :
    (s.cpReply err rdata).pending = s.pending ∧ (s.cpReply err rdata).cfg = s.cfg ∧ (s.cpReply err rdata).tables = s.tables := by
  simp [State.cpReply]
@[simp] theorem State.cpFlush_keeps (s : State) :
    (s.cpFlush).pending = s.pending ∧ (s.cpFlush).cfg = s.cfg ∧ (s.cpFlush).tables = s.tables := by
  unfold State.cpFlush
  dsimp only
  refine kept_foldl _ _ _ _ (fun a x => ?_) (by simp)
  split <;> simp
@[simp] theorem State.accessAnswered_keeps (s : State) (tap : Bool) (err : BitVec 2) (v : Word) :
    (s.accessAnswered tap err v).pending = s.pending ∧ (s.accessAnswered tap err v).cfg = s.cfg ∧ (s.accessAnswered tap err v).tables = s.tables := by
  simp [State.accessAnswered]
@[simp] theorem State.cpSend_keeps (s : State) (a : CpAccess) :
    (s.cpSend a).pending = s.pending ∧ (s.cpSend a).cfg = s.cfg ∧ (s.cpSend a).tables = s.tables := by
  simp [State.cpSend]
@[simp] theorem State.cpWriteAt_pending (s : State) (mid : BitVec 8) (off : Nat) (data : Word) (f : State → State) (h : ∀ t, (f t).pending = t.pending) :
    (stateAfter s (s.cpWriteAt mid off data f)).pending = s.pending := by
  unfold State.cpWriteAt
  rw [stateAfter_whenever]
  split
  · split
    · split <;> simp [h]
    · simp
    · simp
  · rfl
@[simp] theorem State.cpWriteAt_cfg (s : State) (mid : BitVec 8) (off : Nat) (data : Word) (f : State → State) (h : ∀ t, (f t).cfg = t.cfg) :
    (stateAfter s (s.cpWriteAt mid off data f)).cfg = s.cfg := by
  unfold State.cpWriteAt
  rw [stateAfter_whenever]
  split
  · split
    · split <;> simp [h]
    · simp
    · simp
  · rfl
@[simp] theorem State.cpWriteAt_tables (s : State) (mid : BitVec 8) (off : Nat) (data : Word) (f : State → State) (h : ∀ t, (f t).tables = t.tables) :
    (stateAfter s (s.cpWriteAt mid off data f)).tables = s.tables := by
  unfold State.cpWriteAt
  rw [stateAfter_whenever]
  split
  · split
    · split <;> simp [h]
    · simp
    · simp
  · rfl
@[simp] theorem State.cpEffect_pending (s : State) (off : Nat) (f : State → State) (h : ∀ t, (f t).pending = t.pending) :
    (stateAfter s (s.cpEffect off f)).pending = s.pending := by
  unfold State.cpEffect
  exact State.cpWriteAt_pending _ _ _ _ _ h
@[simp] theorem State.cpEffect_cfg (s : State) (off : Nat) (f : State → State) (h : ∀ t, (f t).cfg = t.cfg) :
    (stateAfter s (s.cpEffect off f)).cfg = s.cfg := by
  unfold State.cpEffect
  exact State.cpWriteAt_cfg _ _ _ _ _ h
@[simp] theorem State.cpEffect_tables (s : State) (off : Nat) (f : State → State) (h : ∀ t, (f t).tables = t.tables) :
    (stateAfter s (s.cpEffect off f)).tables = s.tables := by
  unfold State.cpEffect
  exact State.cpWriteAt_tables _ _ _ _ _ h
@[simp] theorem State.pghError_keeps (s : State) (e : PghError) (p : Nat) (mid : BitVec 8) :
    (s.pghError e p mid).pending = s.pending ∧ (s.pghError e p mid).cfg = s.cfg ∧ (s.pghError e p mid).tables = s.tables := by
  simp [State.pghError]
@[simp] theorem State.writePghBind_keeps (s : State) (p : Nat) (mid : BitVec 8) (data : Word) :
    (s.writePghBind p mid data).pending = s.pending ∧ (s.writePghBind p mid data).cfg = s.cfg ∧ (s.writePghBind p mid data).tables = s.tables := by
  simp [State.writePghBind]
@[simp] theorem State.pghTurn_keeps (s : State) (p rank : Nat) :
    (s.pghTurn p rank).pending = s.pending ∧ (s.pghTurn p rank).cfg = s.cfg ∧ (s.pghTurn p rank).tables = s.tables := by
  simp [State.pghTurn]
@[simp] theorem State.pghField_pending (s : State) (p rank : Nat) (mid : BitVec 8) (foreign : Bool → Bool) (f : State → Bool → State) (h : ∀ t b, (f t b).pending = t.pending) :
    (s.pghField p rank mid foreign f).pending = s.pending := by
  unfold State.pghField
  split
  · rfl
  · split <;> simp [h]
@[simp] theorem State.pghField_cfg (s : State) (p rank : Nat) (mid : BitVec 8) (foreign : Bool → Bool) (f : State → Bool → State) (h : ∀ t b, (f t b).cfg = t.cfg) :
    (s.pghField p rank mid foreign f).cfg = s.cfg := by
  unfold State.pghField
  split
  · rfl
  · split <;> simp [h]
@[simp] theorem State.pghField_tables (s : State) (p rank : Nat) (mid : BitVec 8) (foreign : Bool → Bool) (f : State → Bool → State) (h : ∀ t b, (f t b).tables = t.tables) :
    (s.pghField p rank mid foreign f).tables = s.tables := by
  unfold State.pghField
  split
  · rfl
  · split <;> simp [h]
@[simp] theorem State.writePghPtr_keeps (s : State) (p : Nat) (towardsA hi : Bool) (mid : BitVec 8) (data : Word) :
    (s.writePghPtr p towardsA hi mid data).pending = s.pending ∧ (s.writePghPtr p towardsA hi mid data).cfg = s.cfg ∧ (s.writePghPtr p towardsA hi mid data).tables = s.tables := by
  simp [State.writePghPtr]
@[simp] theorem State.commitReply_keeps (s : State) (p : Nat) (pa : BitVec 52) :
    (s.commitReply p pa).pending = s.pending ∧ (s.commitReply p pa).cfg = s.cfg ∧ (s.commitReply p pa).tables = s.tables := by
  unfold State.commitReply
  dsimp only
  (repeat' split) <;> simp_all
@[simp] theorem State.flushReply_keeps (s : State) (p : Nat) :
    (s.flushReply p).pending = s.pending ∧ (s.flushReply p).cfg = s.cfg ∧ (s.flushReply p).tables = s.tables := by
  unfold State.flushReply
  (repeat' split) <;> simp_all
@[simp] theorem State.stwReply_keeps (s : State) (p : Nat) (req : BitVec 512) (st : StwStatus) (extra : Nat) :
    (s.stwReply p req st extra).pending = s.pending ∧ (s.stwReply p req st extra).cfg = s.cfg ∧ (s.stwReply p req st extra).tables = s.tables := by
  simp [State.stwReply]
@[simp] theorem State.commitLanded_keeps (s : State) :
    (s.commitLanded).pending = s.pending ∧ (s.commitLanded).cfg = s.cfg ∧ (s.commitLanded).tables = s.tables := by
  simp [State.commitLanded]
@[simp] theorem State.haltSteward_keeps (s : State) :
    (s.haltSteward).pending = s.pending ∧ (s.haltSteward).cfg = s.cfg ∧ (s.haltSteward).tables = s.tables := by
  simp [State.haltSteward]
@[simp] theorem State.writePghAck_keeps (s : State) (p : Nat) (mid : BitVec 8) (data : Word) :
    (s.writePghAck p mid data).pending = s.pending ∧ (s.writePghAck p mid data).cfg = s.cfg ∧ (s.writePghAck p mid data).tables = s.tables := by
  simp [State.writePghAck]
@[simp] theorem State.writePghRing_keeps (s : State) (p : Nat) (mid : BitVec 8) (data : Word) :
    (s.writePghRing p mid data).pending = s.pending ∧ (s.writePghRing p mid data).cfg = s.cfg ∧ (s.writePghRing p mid data).tables = s.tables := by
  simp [State.writePghRing]
@[simp] theorem State.writePghPend_keeps (s : State) (p : Nat) (mid : BitVec 8) (data : Word) :
    (s.writePghPend p mid data).pending = s.pending ∧ (s.writePghPend p mid data).cfg = s.cfg ∧ (s.writePghPend p mid data).tables = s.tables := by
  simp [State.writePghPend]
@[simp] theorem State.writePghMask_keeps (s : State) (p : Nat) (mid : BitVec 8) (data : Word) :
    (s.writePghMask p mid data).pending = s.pending ∧ (s.writePghMask p mid data).cfg = s.cfg ∧ (s.writePghMask p mid data).tables = s.tables := by
  simp [State.writePghMask]
@[simp] theorem State.pghWrite_pending (s : State) (p o : Nat) (mid : BitVec 8) (f : State → State) (h : ∀ t, (f t).pending = t.pending) :
    (stateAfter s (s.pghWrite p o mid f)).pending = s.pending := by
  unfold State.pghWrite
  split
  · rw [stateAfter_whenever]
    split <;> simp [h]
  · simp [h]
@[simp] theorem State.pghWrite_cfg (s : State) (p o : Nat) (mid : BitVec 8) (f : State → State) (h : ∀ t, (f t).cfg = t.cfg) :
    (stateAfter s (s.pghWrite p o mid f)).cfg = s.cfg := by
  unfold State.pghWrite
  split
  · rw [stateAfter_whenever]
    split <;> simp [h]
  · simp [h]
@[simp] theorem State.pghWrite_tables (s : State) (p o : Nat) (mid : BitVec 8) (f : State → State) (h : ∀ t, (f t).tables = t.tables) :
    (stateAfter s (s.pghWrite p o mid f)).tables = s.tables := by
  unfold State.pghWrite
  split
  · rw [stateAfter_whenever]
    split <;> simp [h]
  · simp [h]
@[simp] theorem State.putTarget_keeps (s : State) (t : Nat) :
    (s.putTarget t).pending = s.pending ∧ (s.putTarget t).cfg = s.cfg ∧ (s.putTarget t).tables = s.tables := by
  simp [State.putTarget]
@[simp] theorem State.setPhase_keeps (s : State) (p : PwrPhase) :
    (s.setPhase p).pending = s.pending ∧ (s.setPhase p).cfg = s.cfg ∧ (s.setPhase p).tables = s.tables := by
  simp [State.setPhase]
@[simp] theorem State.beginRamp_keeps (s : State) :
    (s.beginRamp).pending = s.pending ∧ (s.beginRamp).cfg = s.cfg ∧ (s.beginRamp).tables = s.tables := by
  simp [State.beginRamp]
@[simp] theorem State.powerKick_keeps (s : State) :
    (s.powerKick).pending = s.pending ∧ (s.powerKick).cfg = s.cfg ∧ (s.powerKick).tables = s.tables := by
  unfold State.powerKick
  (repeat' split) <;> simp_all
@[simp] theorem State.askTarget_keeps (s : State) (t : Nat) :
    (s.askTarget t).pending = s.pending ∧ (s.askTarget t).cfg = s.cfg ∧ (s.askTarget t).tables = s.tables := by
  simp [State.askTarget]
@[simp] theorem State.answerPower_keeps (s : State) (which : PowerReq → Bool) (st : StwStatus) :
    (s.answerPower which st).pending = s.pending ∧ (s.answerPower which st).cfg = s.cfg ∧ (s.answerPower which st).tables = s.tables := by
  simp [State.answerPower]
@[simp] theorem State.transitionDone_keeps (s : State) :
    (s.transitionDone).pending = s.pending ∧ (s.transitionDone).cfg = s.cfg ∧ (s.transitionDone).tables = s.tables := by
  simp [State.transitionDone]
@[simp] theorem State.handOver_keeps (s : State) :
    (s.handOver).pending = s.pending ∧ (s.handOver).cfg = s.cfg ∧ (s.handOver).tables = s.tables := by
  simp [State.handOver]
@[simp] theorem State.putWakeCyc_keeps (s : State) :
    (s.putWakeCyc).pending = s.pending ∧ (s.putWakeCyc).cfg = s.cfg ∧ (s.putWakeCyc).tables = s.tables := by
  simp [State.putWakeCyc]
@[simp] theorem State.wakeGoes_keeps (s : State) :
    (s.wakeGoes).pending = s.pending ∧ (s.wakeGoes).cfg = s.cfg ∧ (s.wakeGoes).tables = s.tables := by
  unfold State.wakeGoes
  (repeat' split) <;> simp_all
@[simp] theorem State.setWay_keeps (s : State) (key w : Nat) (v : Way) :
    (s.setWay key w v).pending = s.pending ∧ (s.setWay key w v).cfg = s.cfg ∧ (s.setWay key w v).tables = s.tables := by
  simp [State.setWay]
@[simp] theorem State.dropGranule_keeps (s : State) (g : Nat) :
    (s.dropGranule g).pending = s.pending ∧ (s.dropGranule g).cfg = s.cfg ∧ (s.dropGranule g).tables = s.tables := by
  unfold State.dropGranule
  dsimp only
  (repeat' split) <;> simp_all
@[simp] theorem State.writeDrops_keeps (s : State) (g : Nat) :
    (s.writeDrops g).pending = s.pending ∧ (s.writeDrops g).cfg = s.cfg ∧ (s.writeDrops g).tables = s.tables := by
  simp [State.writeDrops]
@[simp] theorem State.spoilInstalls_keeps (s : State) (lo hi : Nat) :
    (s.spoilInstalls lo hi).pending = s.pending ∧ (s.spoilInstalls lo hi).cfg = s.cfg ∧ (s.spoilInstalls lo hi).tables = s.tables := by
  simp [State.spoilInstalls]
@[simp] theorem State.writeWay_keeps (s : State) (east : Bool) (g w : Nat) (heat : BitVec 2) (data : BitVec 1024) :
    (s.writeWay east g w heat data).pending = s.pending ∧ (s.writeWay east g w heat data).cfg = s.cfg ∧ (s.writeWay east g w heat data).tables = s.tables := by
  simp [State.writeWay]
@[simp] theorem State.coolSet_keeps (s : State) (key : Nat) :
    (s.coolSet key).pending = s.pending ∧ (s.coolSet key).cfg = s.cfg ∧ (s.coolSet key).tables = s.tables := by
  simp [State.coolSet]
@[simp] theorem State.promote_keeps (s : State) (g : Nat) (data : BitVec 1024) :
    (s.promote g data).1.pending = s.pending ∧ (s.promote g data).1.cfg = s.cfg ∧ (s.promote g data).1.tables = s.tables := by
  unfold State.promote
  dsimp only
  (repeat' split) <;> simp_all
@[simp] theorem State.preload_keeps (s : State) (g : Nat) (data : BitVec 1024) :
    (s.preload g data).1.pending = s.pending ∧ (s.preload g data).1.cfg = s.cfg ∧ (s.preload g data).1.tables = s.tables := by
  unfold State.preload
  dsimp only
  (repeat' split) <;> simp_all
@[simp] theorem State.estimate_keeps (s : State) (east : Bool) (g table mult : Nat) :
    (s.estimate east g table mult).pending = s.pending ∧ (s.estimate east g table mult).cfg = s.cfg ∧ (s.estimate east g table mult).tables = s.tables := by
  simp [State.estimate]
@[simp] theorem State.probeMisses_keeps (s : State) (p : Probe) :
    (s.probeMisses p).pending = s.pending ∧ (s.probeMisses p).cfg = s.cfg ∧ (s.probeMisses p).tables = s.tables := by
  simp [State.probeMisses]
@[simp] theorem State.probeSees_keeps (s : State) (p : Probe) (d : Option (Option (BitVec 1024))) :
    (s.probeSees p d).pending = s.pending ∧ (s.probeSees p d).cfg = s.cfg ∧ (s.probeSees p d).tables = s.tables := by
  simp [State.probeSees]
@[simp] theorem State.readDirectory_keeps (s : State) (p : Probe) :
    (s.readDirectory p).pending = s.pending ∧ (s.readDirectory p).cfg = s.cfg ∧ (s.readDirectory p).tables = s.tables := by
  simp [State.readDirectory]
@[simp] theorem State.probeHits_keeps (s : State) (p : Probe) (way : Nat) :
    (s.probeHits p way).pending = s.pending ∧ (s.probeHits p way).cfg = s.cfg ∧ (s.probeHits p way).tables = s.tables := by
  simp [State.probeHits]
@[simp] theorem State.dropSet_keeps (s : State) (key : Nat) :
    (s.dropSet key).pending = s.pending ∧ (s.dropSet key).cfg = s.cfg ∧ (s.dropSet key).tables = s.tables := by
  simp [State.dropSet]
@[simp] theorem State.directoryRead_keeps (s : State) (r : TierRead) (row : Option (BitVec 1024)) :
    (s.directoryRead r row).pending = s.pending ∧ (s.directoryRead r row).cfg = s.cfg ∧ (s.directoryRead r row).tables = s.tables := by
  unfold State.directoryRead
  dsimp only
  (repeat' split) <;> simp_all
@[simp] theorem State.wayRead_keeps (s : State) (r : TierRead) (row : Option (BitVec 1024)) :
    (s.wayRead r row).pending = s.pending ∧ (s.wayRead r row).cfg = s.cfg ∧ (s.wayRead r row).tables = s.tables := by
  unfold State.wayRead
  dsimp only
  (repeat' split) <;> simp_all
@[simp] theorem State.mapTierOut_keeps (s : State) (t : Nat) :
    (s.mapTierOut t).pending = s.pending ∧ (s.mapTierOut t).cfg = s.cfg ∧ (s.mapTierOut t).tables = s.tables := by
  simp [State.mapTierOut]
@[simp] theorem State.coolAll_keeps (s : State) :
    (s.coolAll).pending = s.pending ∧ (s.coolAll).cfg = s.cfg ∧ (s.coolAll).tables = s.tables := by
  simp [State.coolAll]
@[simp] theorem State.captureBlock_keeps (s : State) (b : Block) (st : Byte) :
    (s.captureBlock b st).pending = s.pending ∧ (s.captureBlock b st).cfg = s.cfg ∧ (s.captureBlock b st).tables = s.tables := by
  simp [State.captureBlock]
@[simp] theorem State.settleBlocks_keeps (s : State) (q : Nat) :
    (s.settleBlocks q).pending = s.pending ∧ (s.settleBlocks q).cfg = s.cfg ∧ (s.settleBlocks q).tables = s.tables := by
  unfold State.settleBlocks
  (repeat' split) <;> simp_all
@[simp] theorem State.blockFails_keeps (s : State) (b : Block) (st : Byte) :
    (s.blockFails b st).pending = s.pending ∧ (s.blockFails b st).cfg = s.cfg ∧ (s.blockFails b st).tables = s.tables := by
  simp [State.blockFails]
@[simp] theorem State.issueOn_keeps (s : State) (p : Nat) (k : BitVec 2) (op : BitVec 3) (tag : BitVec 17) :
    (stateAfter s (s.issueOn p k op tag)).pending = s.pending ∧ (stateAfter s (s.issueOn p k op tag)).cfg = s.cfg ∧ (stateAfter s (s.issueOn p k op tag)).tables = s.tables := by
  unfold State.issueOn
  (repeat' split) <;> simp_all
@[simp] theorem State.updOut_keeps (s : State) (o : OutReq) (f : OutReq → OutReq) :
    (s.updOut o f).pending = s.pending ∧ (s.updOut o f).cfg = s.cfg ∧ (s.updOut o f).tables = s.tables := by
  simp [State.updOut]
@[simp] theorem State.dropOut_keeps (s : State) (o : OutReq) :
    (s.dropOut o).pending = s.pending ∧ (s.dropOut o).cfg = s.cfg ∧ (s.dropOut o).tables = s.tables := by
  simp [State.dropOut]
@[simp] theorem State.deliverQuarter_keeps (s : State) (dests : List Dest) (base : Nat) (data : BitVec 1024) (whole : Bool) :
    (s.deliverQuarter dests base data whole).pending = s.pending ∧ (s.deliverQuarter dests base data whole).cfg = s.cfg ∧ (s.deliverQuarter dests base data whole).tables = s.tables := by
  unfold State.deliverQuarter
  dsimp only
  split <;> simp
@[simp] theorem State.reqFault_keeps (s : State) (r : Req) (c : Byte) (pa : Nat) :
    (s.reqFault r c pa).1.pending = s.pending ∧ (s.reqFault r c pa).1.cfg = s.cfg ∧ (s.reqFault r c pa).1.tables = s.tables := by
  unfold State.reqFault
  dsimp only
  (repeat' split) <;> simp_all
@[simp] theorem State.blockPoison_keeps (s : State) (b : Block) :
    (s.blockPoison b).pending = s.pending ∧ (s.blockPoison b).cfg = s.cfg ∧ (s.blockPoison b).tables = s.tables := by
  unfold State.blockPoison
  (repeat' split) <;> simp_all
@[simp] theorem State.rejects_keeps (s : State) (r : Req) (st : BitVec 2) (pa : Nat) :
    (s.rejects r st pa).pending = s.pending ∧ (s.rejects r st pa).cfg = s.cfg ∧ (s.rejects r st pa).tables = s.tables := by
  unfold State.rejects
  dsimp only
  (repeat' split) <;> simp_all
@[simp] theorem State.cutOff_keeps (s : State) (r : Req) :
    (s.cutOff r).pending = s.pending ∧ (s.cutOff r).cfg = s.cfg ∧ (s.cutOff r).tables = s.tables := by
  simp [State.cutOff]
@[simp] theorem State.failReq_keeps (s : State) (p : Nat) (r : Req) (st : BitVec 2) (pa : Nat) :
    (s.failReq p r st pa).pending = s.pending ∧ (s.failReq p r st pa).cfg = s.cfg ∧ (s.failReq p r st pa).tables = s.tables := by
  simp [State.failReq]
@[simp] theorem State.returnQuarter_keeps (s : State) (p : Nat) (r : Req) (ofs : BitVec 2) (data : BitVec 1024) :
    (s.returnQuarter p r ofs data).pending = s.pending ∧ (s.returnQuarter p r ofs data).cfg = s.cfg ∧ (s.returnQuarter p r ofs data).tables = s.tables := by
  simp [State.returnQuarter]
@[simp] theorem State.serviceLanded_keeps (s : State) (service id : Nat) :
    (s.serviceLanded service id).pending = s.pending ∧ (s.serviceLanded service id).cfg = s.cfg ∧ (s.serviceLanded service id).tables = s.tables := by
  unfold State.serviceLanded
  (repeat' split) <;> simp_all
@[simp] theorem State.landed_keeps (s : State) (r : Req) :
    (s.landed r).pending = s.pending ∧ (s.landed r).cfg = s.cfg ∧ (s.landed r).tables = s.tables := by
  unfold State.landed
  (repeat' split) <;> simp_all
@[simp] theorem State.writeLanded_keeps (s : State) (p : Nat) (o : OutReq) :
    (s.writeLanded p o).pending = s.pending ∧ (s.writeLanded p o).cfg = s.cfg ∧ (s.writeLanded p o).tables = s.tables := by
  simp [State.writeLanded]
@[simp] theorem State.linkUpSem_keeps (s : State) (i : Nat) (poison : Bool) :
    (s.linkUpSem i poison).pending = s.pending ∧ (s.linkUpSem i poison).cfg = s.cfg ∧ (s.linkUpSem i poison).tables = s.tables := by
  simp [State.linkUpSem]
@[simp] theorem State.dropClient_keeps (s : State) (c : Nat) :
    (s.dropClient c).pending = s.pending ∧ (s.dropClient c).cfg = s.cfg ∧ (s.dropClient c).tables = s.tables := by
  simp [State.dropClient]
@[simp] theorem State.pushFails_keeps (s : State) (q c : Nat) :
    (s.pushFails q c).pending = s.pending ∧ (s.pushFails q c).cfg = s.cfg ∧ (s.pushFails q c).tables = s.tables := by
  simp [State.pushFails]
@[simp] theorem State.clientInc_keeps (s : State) (i : Nat) (k : BitVec 20) :
    (s.clientInc i k).pending = s.pending ∧ (s.clientInc i k).cfg = s.cfg ∧ (s.clientInc i k).tables = s.tables := by
  simp [State.clientInc]
@[simp] theorem State.semiMessage_keeps (s : State) (c : Nat) (op : BitVec 2) (idx : BitVec 6) (cnt : BitVec 20) :
    (s.semiMessage c op idx cnt).pending = s.pending ∧ (s.semiMessage c op idx cnt).cfg = s.cfg ∧ (s.semiMessage c op idx cnt).tables = s.tables := by
  simp [State.semiMessage]
@[simp] theorem State.resetRing_keeps (s : State) (r : Nat) (keep : Bool) :
    (s.resetRing r keep).pending = s.pending ∧ (s.resetRing r keep).cfg = s.cfg ∧ (s.resetRing r keep).tables = s.tables := by
  simp [State.resetRing]
@[simp] theorem State.dropRelease_keeps (s : State) (id : Nat) :
    (s.dropRelease id).pending = s.pending ∧ (s.dropRelease id).cfg = s.cfg ∧ (s.dropRelease id).tables = s.tables := by
  simp [State.dropRelease]
@[simp] theorem State.grantTo_keeps (s : State) (w : SemWaiter) :
    (s.grantTo w).pending = s.pending ∧ (s.grantTo w).cfg = s.cfg ∧ (s.grantTo w).tables = s.tables := by
  unfold State.grantTo
  (repeat' split) <;> simp_all
@[simp] theorem State.grantFront_keeps (s : State) (idx : Nat) (w : SemWaiter) :
    (s.grantFront idx w).pending = s.pending ∧ (s.grantFront idx w).cfg = s.cfg ∧ (s.grantFront idx w).tables = s.tables := by
  simp [State.grantFront]
@[simp] theorem State.writeSemSet_keeps (s : State) (i : Nat) (data : Word) :
    (s.writeSemSet i data).pending = s.pending ∧ (s.writeSemSet i data).cfg = s.cfg ∧ (s.writeSemSet i data).tables = s.tables := by
  simp [State.writeSemSet]
@[simp] theorem State.semSetAt_keeps (s : State) (idx : Nat) (data : Word) :
    (stateAfter s (s.semSetAt idx data)).pending = s.pending ∧ (stateAfter s (s.semSetAt idx data)).cfg = s.cfg ∧ (stateAfter s (s.semSetAt idx data)).tables = s.tables := by
  simp [State.semSetAt]
@[simp] theorem State.prewarmGo_keeps (s : State) (q : Nat) (idx : BitVec 16) :
    (s.prewarmGo q idx).pending = s.pending ∧ (s.prewarmGo q idx).cfg = s.cfg ∧ (s.prewarmGo q idx).tables = s.tables := by
  unfold State.prewarmGo
  split
  · simp
  · dsimp only
    generalize hr : List.foldl _ _ _ = r
    have h : r.1.pending = s.pending ∧ r.1.cfg = s.cfg ∧ r.1.tables = s.tables := by
      rw [← hr]
      refine kept_foldlFst _ _ _ _ (fun a x => ?_) (by simp)
      (repeat' split) <;> simp_all [eq_pair]
    split <;> simp [h]
@[simp] theorem State.invalidatePage_keeps (s : State) (pa : Nat) :
    (s.invalidatePage pa).pending = s.pending ∧ (s.invalidatePage pa).cfg = s.cfg ∧ (s.invalidatePage pa).tables = s.tables := by
  simp [State.invalidatePage]
@[simp] theorem State.invalidateGo_keeps (s : State) (q : Nat) (idx : BitVec 16) :
    (s.invalidateGo q idx).pending = s.pending ∧ (s.invalidateGo q idx).cfg = s.cfg ∧ (s.invalidateGo q idx).tables = s.tables := by
  unfold State.invalidateGo
  split
  · simp
  · dsimp only
    generalize hr : List.foldl _ _ _ = r
    have h : r.1.pending = s.pending ∧ r.1.cfg = s.cfg ∧ r.1.tables = s.tables := by
      rw [← hr]
      refine kept_foldlFst _ _ _ _ (fun a x => ?_) (by simp)
      (repeat' split) <;> simp_all [eq_pair]
    split <;> simp [h]
@[simp] theorem State.missDriven_keeps (s : State) (id : BitVec 9) :
    (s.missDriven id).pending = s.pending ∧ (s.missDriven id).cfg = s.cfg ∧ (s.missDriven id).tables = s.tables := by
  unfold State.missDriven
  (repeat' split) <;> simp_all
@[simp] theorem State.missLeaves_keeps (s : State) (id : BitVec 9) :
    (s.missLeaves id).pending = s.pending ∧ (s.missLeaves id).cfg = s.cfg ∧ (s.missLeaves id).tables = s.tables := by
  simp [State.missLeaves]
@[simp] theorem State.missFails_keeps (s : State) (m : Miss) (id : BitVec 9) (st : Byte) (broke : Bool) (w : MissWaiter) :
    (s.missFails m id st broke w).pending = s.pending ∧ (s.missFails m id st broke w).cfg = s.cfg ∧ (s.missFails m id st broke w).tables = s.tables := by
  unfold State.missFails
  (repeat' split) <;> simp_all
@[simp] theorem State.missResumes_keeps (s : State) (w : MissWaiter) :
    (s.missResumes w).pending = s.pending ∧ (s.missResumes w).cfg = s.cfg ∧ (s.missResumes w).tables = s.tables := by
  unfold State.missResumes
  (repeat' split) <;> simp_all
@[simp] theorem State.missEnds_keeps (s : State) (m : Miss) (id : BitVec 9) (st : Byte) (broke : Bool) :
    (s.missEnds m id st broke).pending = s.pending ∧ (s.missEnds m id st broke).cfg = s.cfg ∧ (s.missEnds m id st broke).tables = s.tables := by
  unfold State.missEnds
  refine kept_foldl _ _ _ _ (fun a x => ?_) (by simp)
  split <;> simp
@[simp] theorem State.missTakes_keeps (s : State) (m : Miss) (id : BitVec 9) (r : Range) (w : MissWaiter) :
    (s.missTakes m id r w).pending = s.pending ∧ (s.missTakes m id r w).cfg = s.cfg ∧ (s.missTakes m id r w).tables = s.tables := by
  unfold State.missTakes
  (repeat' split) <;> simp_all
@[simp] theorem State.missAnswered_keeps (s : State) (id : BitVec 9) (st : BitVec 2) (vstart : BitVec 44) (len : BitVec 28) (pbase : BitVec 40) (perm : BitVec 3) :
    (s.missAnswered id st vstart len pbase perm).pending = s.pending ∧ (s.missAnswered id st vstart len pbase perm).cfg = s.cfg ∧ (s.missAnswered id st vstart len pbase perm).tables = s.tables := by
  unfold State.missAnswered
  (repeat' split) <;> simp_all
@[simp] theorem State.dropAsidLines_keeps (s : State) (all : Bool) (asid : BitVec 16) :
    (s.dropAsidLines all asid).pending = s.pending ∧ (s.dropAsidLines all asid).cfg = s.cfg ∧ (s.dropAsidLines all asid).tables = s.tables := by
  simp [State.dropAsidLines]
@[simp] theorem State.dropRemote_keeps (s : State) (x : Nat) :
    (s.dropRemote x).pending = s.pending ∧ (s.dropRemote x).cfg = s.cfg ∧ (s.dropRemote x).tables = s.tables := by
  simp [State.dropRemote]
@[simp] theorem State.padBytes_keeps (s : State) (n : Nat) :
    (s.padBytes n).1.pending = s.pending ∧ (s.padBytes n).1.cfg = s.cfg ∧ (s.padBytes n).1.tables = s.tables := by
  simp [State.padBytes]
@[simp] theorem State.parcelIssued_keeps (s : State) (t : TxParcel) :
    (s.parcelIssued t).pending = s.pending ∧ (s.parcelIssued t).cfg = s.cfg ∧ (s.parcelIssued t).tables = s.tables := by
  unfold State.parcelIssued
  (repeat' split) <;> simp_all
@[simp] theorem State.giveCredits_keeps (s : State) (x : Nat) (cls : Bool) (n : Nat) :
    (s.giveCredits x cls n).pending = s.pending ∧ (s.giveCredits x cls n).cfg = s.cfg ∧ (s.giveCredits x cls n).tables = s.tables := by
  simp [State.giveCredits]
@[simp] theorem State.arrive_pending (s : State) (x : Nat) (p : Parcel) (ty : Byte) (f : State → State) (h : ∀ t, (f t).pending = t.pending) :
    (stateAfter s (s.arrive x p ty f)).pending = s.pending := by
  unfold State.arrive
  dsimp only
  rw [stateAfter_whenever]
  split <;> (try split) <;> simp [h]
@[simp] theorem State.arrive_cfg (s : State) (x : Nat) (p : Parcel) (ty : Byte) (f : State → State) (h : ∀ t, (f t).cfg = t.cfg) :
    (stateAfter s (s.arrive x p ty f)).cfg = s.cfg := by
  unfold State.arrive
  dsimp only
  rw [stateAfter_whenever]
  split <;> (try split) <;> simp [h]
@[simp] theorem State.arrive_tables (s : State) (x : Nat) (p : Parcel) (ty : Byte) (f : State → State) (h : ∀ t, (f t).tables = t.tables) :
    (stateAfter s (s.arrive x p ty f)).tables = s.tables := by
  unfold State.arrive
  dsimp only
  rw [stateAfter_whenever]
  split <;> (try split) <;> simp [h]
@[simp] theorem State.serveWrite_keeps (s : State) (x : Nat) (p : Parcel) (mute : Bool) :
    (s.serveWrite x p mute).pending = s.pending ∧ (s.serveWrite x p mute).cfg = s.cfg ∧ (s.serveWrite x p mute).tables = s.tables := by
  simp [State.serveWrite]
@[simp] theorem State.serveParcel_keeps (s : State) (h : HeldParcel) :
    (s.serveParcel h).pending = s.pending ∧ (s.serveParcel h).cfg = s.cfg ∧ (s.serveParcel h).tables = s.tables := by
  simp [State.serveParcel]
@[simp] theorem State.accept_keeps (s : State) (h : HeldParcel) :
    (s.accept h).pending = s.pending ∧ (s.accept h).cfg = s.cfg ∧ (s.accept h).tables = s.tables := by
  simp [State.accept]
@[simp] theorem State.serveHeld_keeps (s : State) :
    (s.serveHeld).pending = s.pending ∧ (s.serveHeld).cfg = s.cfg ∧ (s.serveHeld).tables = s.tables := by
  simp [State.serveHeld]
@[simp] theorem State.dropParcel_keeps (s : State) (o : OutParcel) :
    (s.dropParcel o).pending = s.pending ∧ (s.dropParcel o).cfg = s.cfg ∧ (s.dropParcel o).tables = s.tables := by
  simp [State.dropParcel]
@[simp] theorem State.batchProgress_keeps (s : State) (o : OutParcel) :
    (s.batchProgress o).pending = s.pending ∧ (s.batchProgress o).cfg = s.cfg ∧ (s.batchProgress o).tables = s.tables := by
  simp [State.batchProgress]
@[simp] theorem State.refused_keeps (s : State) (o : OutParcel) (st : Byte) :
    (s.refused o st).pending = s.pending ∧ (s.refused o st).cfg = s.cfg ∧ (s.refused o st).tables = s.tables := by
  simp [State.refused]
@[simp] theorem State.nackArrives_keeps (s : State) (o : OutParcel) (p : Parcel) :
    (s.nackArrives o p).pending = s.pending ∧ (s.nackArrives o p).cfg = s.cfg ∧ (s.nackArrives o p).tables = s.tables := by
  simp [State.nackArrives]
@[simp] theorem State.landedArrives_keeps (s : State) (o : OutParcel) :
    (s.landedArrives o).pending = s.pending ∧ (s.landedArrives o).cfg = s.cfg ∧ (s.landedArrives o).tables = s.tables := by
  unfold State.landedArrives
  (repeat' split) <;> simp_all
@[simp] theorem State.replyArrives_keeps (s : State) (o : OutParcel) (p : Parcel) :
    (s.replyArrives o p).pending = s.pending ∧ (s.replyArrives o p).cfg = s.cfg ∧ (s.replyArrives o p).tables = s.tables := by
  unfold State.replyArrives
  (repeat' split) <;> simp_all
@[simp] theorem State.answered_keeps (s : State) (p : Parcel) :
    (s.answered p).pending = s.pending ∧ (s.answered p).cfg = s.cfg ∧ (s.answered p).tables = s.tables := by
  unfold State.answered
  (repeat' split) <;> simp_all
@[simp] theorem State.response_keeps (s : State) (x : Nat) (p : Parcel) :
    (s.response x p).pending = s.pending ∧ (s.response x p).cfg = s.cfg ∧ (s.response x p).tables = s.tables := by
  unfold State.response
  (repeat' split) <;> simp_all
@[simp] theorem State.takeArrives_keeps (s : State) (idx : Nat) (w : SemWaiter) :
    (s.takeArrives idx w).pending = s.pending ∧ (s.takeArrives idx w).cfg = s.cfg ∧ (s.takeArrives idx w).tables = s.tables := by
  simp [State.takeArrives]
@[simp] theorem State.parcelArrives_keeps (s : State) (x : TxParcel) :
    (s.parcelArrives x).pending = s.pending ∧ (s.parcelArrives x).cfg = s.cfg ∧ (s.parcelArrives x).tables = s.tables := by
  simp [State.parcelArrives]
@[simp] theorem State.writeQcfg_keeps (s : State) (q : Nat) (data : Word) :
    (s.writeQcfg q data).pending = s.pending ∧ (s.writeQcfg q data).cfg = s.cfg ∧ (s.writeQcfg q data).tables = s.tables := by
  simp [State.writeQcfg]
@[simp] theorem State.forgetBeyond_keeps (s : State) (q : Nat) :
    (s.forgetBeyond q).pending = s.pending ∧ (s.forgetBeyond q).cfg = s.cfg ∧ (s.forgetBeyond q).tables = s.tables := by
  simp [State.forgetBeyond]
@[simp] theorem State.writeDoorbell_keeps (s : State) (q : Nat) (data : Word) :
    (s.writeDoorbell q data).pending = s.pending ∧ (s.writeDoorbell q data).cfg = s.cfg ∧ (s.writeDoorbell q data).tables = s.tables := by
  simp [State.writeDoorbell]
@[simp] theorem State.takeCommand_keeps (s : State) (q : Nat) (idx : BitVec 16) (data : BitVec 512) :
    (s.takeCommand q idx data).pending = s.pending ∧ (s.takeCommand q idx data).cfg = s.cfg ∧ (s.takeCommand q idx data).tables = s.tables := by
  simp [State.takeCommand]
@[simp] theorem State.readCommand_keeps (s : State) (q : Nat) (idx : BitVec 16) :
    (s.readCommand q idx).pending = s.pending ∧ (s.readCommand q idx).cfg = s.cfg ∧ (s.readCommand q idx).tables = s.tables := by
  unfold State.readCommand
  (repeat' split) <;> simp_all [eq_pair]
@[simp] theorem State.rejoin_keeps (s : State) (q : Nat) :
    (s.rejoin q).pending = s.pending ∧ (s.rejoin q).cfg = s.cfg ∧ (s.rejoin q).tables = s.tables := by
  unfold State.rejoin
  (repeat' split) <;> simp_all
@[simp] theorem State.leaveSuspended_keeps (s : State) (q : Nat) :
    (s.leaveSuspended q).pending = s.pending ∧ (s.leaveSuspended q).cfg = s.cfg ∧ (s.leaveSuspended q).tables = s.tables := by
  simp [State.leaveSuspended]
@[simp] theorem State.beginSuspend_keeps (s : State) (q : Nat) :
    (s.beginSuspend q).pending = s.pending ∧ (s.beginSuspend q).cfg = s.cfg ∧ (s.beginSuspend q).tables = s.tables := by
  simp [State.beginSuspend]
@[simp] theorem State.gateIfQuiet_keeps (s : State) :
    (s.gateIfQuiet).pending = s.pending ∧ (s.gateIfQuiet).cfg = s.cfg ∧ (s.gateIfQuiet).tables = s.tables := by
  simp [State.gateIfQuiet]
@[simp] theorem State.dropWaits_keeps (s : State) (q : Nat) :
    (s.dropWaits q).pending = s.pending ∧ (s.dropWaits q).cfg = s.cfg ∧ (s.dropWaits q).tables = s.tables := by
  simp [State.dropWaits]
@[simp] theorem State.setAside_keeps (s : State) (q : Nat) :
    (s.setAside q).pending = s.pending ∧ (s.setAside q).cfg = s.cfg ∧ (s.setAside q).tables = s.tables := by
  simp [State.setAside]
@[simp] theorem State.preempt_keeps (s : State) (q : Nat) (es : List (Nat × Option Nat)) :
    (s.preempt q es).pending = s.pending ∧ (s.preempt q es).cfg = s.cfg ∧ (s.preempt q es).tables = s.tables := by
  simp [State.preempt]
@[simp] theorem State.actWhen_pending (s : State) (q : Nat) (ok : Bool) (f : State → State) (h : ∀ t, (f t).pending = t.pending) :
    (s.actWhen q ok f).pending = s.pending := by
  unfold State.actWhen
  split <;> (try split) <;> simp [h]
@[simp] theorem State.actWhen_cfg (s : State) (q : Nat) (ok : Bool) (f : State → State) (h : ∀ t, (f t).cfg = t.cfg) :
    (s.actWhen q ok f).cfg = s.cfg := by
  unfold State.actWhen
  split <;> (try split) <;> simp [h]
@[simp] theorem State.actWhen_tables (s : State) (q : Nat) (ok : Bool) (f : State → State) (h : ∀ t, (f t).tables = t.tables) :
    (s.actWhen q ok f).tables = s.tables := by
  unfold State.actWhen
  split <;> (try split) <;> simp [h]
@[simp] theorem State.actSuspend_keeps (s : State) (q : Nat) :
    (s.actSuspend q).pending = s.pending ∧ (s.actSuspend q).cfg = s.cfg ∧ (s.actSuspend q).tables = s.tables := by
  simp [State.actSuspend]
@[simp] theorem State.actResume_keeps (s : State) (q : Nat) :
    (s.actResume q).pending = s.pending ∧ (s.actResume q).cfg = s.cfg ∧ (s.actResume q).tables = s.tables := by
  simp [State.actResume]
@[simp] theorem State.afterFault_keeps (s : State) (q : Nat) :
    (s.afterFault q).pending = s.pending ∧ (s.afterFault q).cfg = s.cfg ∧ (s.afterFault q).tables = s.tables := by
  simp [State.afterFault]
@[simp] theorem State.actReplay_keeps (s : State) (q : Nat) :
    (s.actReplay q).pending = s.pending ∧ (s.actReplay q).cfg = s.cfg ∧ (s.actReplay q).tables = s.tables := by
  simp [State.actReplay]
@[simp] theorem State.actSkip_keeps (s : State) (q : Nat) :
    (s.actSkip q).pending = s.pending ∧ (s.actSkip q).cfg = s.cfg ∧ (s.actSkip q).tables = s.tables := by
  simp [State.actSkip]
@[simp] theorem State.beginRetire_keeps (s : State) (q : Nat) :
    (s.beginRetire q).pending = s.pending ∧ (s.beginRetire q).cfg = s.cfg ∧ (s.beginRetire q).tables = s.tables := by
  simp [State.beginRetire]
@[simp] theorem State.actRetire_keeps (s : State) (q : Nat) :
    (s.actRetire q).pending = s.pending ∧ (s.actRetire q).cfg = s.cfg ∧ (s.actRetire q).tables = s.tables := by
  unfold State.actRetire
  dsimp only
  (repeat' split) <;> simp_all
@[simp] theorem State.actAbort_keeps (s : State) (q : Nat) :
    (s.actAbort q).pending = s.pending ∧ (s.actAbort q).cfg = s.cfg ∧ (s.actAbort q).tables = s.tables := by
  simp [State.actAbort]
@[simp] theorem State.writeAction_keeps (s : State) (q : Nat) (data : Word) :
    (s.writeAction q data).pending = s.pending ∧ (s.writeAction q data).cfg = s.cfg ∧ (s.writeAction q data).tables = s.tables := by
  unfold State.writeAction
  (repeat' split) <;> simp_all
@[simp] theorem State.writeLog_keeps (s : State) (q : Nat) (f : FaultInfo) (l : LogInfo) :
    (s.writeLog q f l).pending = s.pending ∧ (s.writeLog q f l).cfg = s.cfg ∧ (s.writeLog q f l).tables = s.tables := by
  simp [State.writeLog]
@[simp] theorem State.writeFaultRecord_keeps (s : State) (q : Nat) (f : FaultInfo) (p : Stop) :
    (s.writeFaultRecord q f p).pending = s.pending ∧ (s.writeFaultRecord q f p).cfg = s.cfg ∧ (s.writeFaultRecord q f p).tables = s.tables := by
  simp [State.writeFaultRecord]
@[simp] theorem State.stopLogs_keeps (s : State) (q : Nat) (p : Stop) :
    (s.stopLogs q p).pending = s.pending ∧ (s.stopLogs q p).cfg = s.cfg ∧ (s.stopLogs q p).tables = s.tables := by
  unfold State.stopLogs
  (repeat' split) <;> simp_all
@[simp] theorem State.dropSnap_keeps (s : State) (q : Nat) :
    (s.dropSnap q).pending = s.pending ∧ (s.dropSnap q).cfg = s.cfg ∧ (s.dropSnap q).tables = s.tables := by
  simp [State.dropSnap]
@[simp] theorem State.stopEnds_keeps (s : State) (q : Nat) (p : Stop) :
    (s.stopEnds q p).pending = s.pending ∧ (s.stopEnds q p).cfg = s.cfg ∧ (s.stopEnds q p).tables = s.tables := by
  unfold State.stopEnds
  (repeat' split) <;> simp_all
@[simp] theorem State.onGate_pending (s : State) (q : Nat) (isOp : Nat → Bool) (f : State → Cmd → State) (h : ∀ t c, (f t c).pending = t.pending) :
    (stateAfter s (s.onGate q isOp f)).pending = s.pending := by
  unfold State.onGate
  split <;> simp [h]
@[simp] theorem State.onGate_cfg (s : State) (q : Nat) (isOp : Nat → Bool) (f : State → Cmd → State) (h : ∀ t c, (f t c).cfg = t.cfg) :
    (stateAfter s (s.onGate q isOp f)).cfg = s.cfg := by
  unfold State.onGate
  split <;> simp [h]
@[simp] theorem State.onGate_tables (s : State) (q : Nat) (isOp : Nat → Bool) (f : State → Cmd → State) (h : ∀ t c, (f t c).tables = t.tables) :
    (stateAfter s (s.onGate q isOp f)).tables = s.tables := by
  unfold State.onGate
  split <;> simp [h]
@[simp] theorem State.taskFails_keeps (s : State) (q : Nat) (t : Task) (b : TaskBad) :
    (s.taskFails q t b).pending = s.pending ∧ (s.taskFails q t b).cfg = s.cfg ∧ (s.taskFails q t b).tables = s.tables := by
  simp [State.taskFails]
@[simp] theorem State.startLink_keeps (s : State) (q : Nat) (l : BitVec 64) :
    (s.startLink q l).pending = s.pending ∧ (s.startLink q l).cfg = s.cfg ∧ (s.startLink q l).tables = s.tables := by
  simp [State.startLink]
@[simp] theorem State.loadItin_keeps (s : State) (q : Nat) (itins : List (BitVec 256)) (progs : List (List (BitVec 64))) (p : Nat × Nat × Nat) :
    (s.loadItin q itins progs p).pending = s.pending ∧ (s.loadItin q itins progs p).cfg = s.cfg ∧ (s.loadItin q itins progs p).tables = s.tables := by
  simp [State.loadItin]
@[simp] theorem State.startTask_keeps (s : State) (q : Nat) (t : Task) (itins : List (BitVec 256)) (progs : List (List (BitVec 64))) (places : List (Nat × Nat × Nat)) :
    (s.startTask q t itins progs places).pending = s.pending ∧ (s.startTask q t itins progs places).cfg = s.cfg ∧ (s.startTask q t itins progs places).tables = s.tables := by
  simp [State.startTask]
@[simp] theorem State.readPrograms_keeps (s : State) (q : Nat) (idx : BitVec 16) (x0 : List (BitVec 256)) :
    (s.readPrograms q idx x0).1.pending = s.pending ∧ (s.readPrograms q idx x0).1.cfg = s.cfg ∧ (s.readPrograms q idx x0).1.tables = s.tables := by
  induction x0 generalizing s with
  | nil => simp [State.readPrograms]
  | cons e es ih =>
    unfold State.readPrograms
    have h := State.need_keeps s (.command q idx) (ieProg e) (8 * ieNInstr e)
    generalize s.need (.command q idx) (ieProg e) (8 * ieNInstr e) = p at h ⊢
    obtain ⟨t, g⟩ := p
    cases g with
    | bytes l =>
      have k := ih t
      dsimp only at h k ⊢
      generalize t.readPrograms q idx es = w at k ⊢
      obtain ⟨u, o⟩ := w
      cases o <;> simp_all
    | _ => simp_all
@[simp] theorem State.taskReady_keeps (s : State) (q : Nat) (t : Task) (itins : List (BitVec 256)) (rings links : List (BitVec 64)) (progs : List (List (BitVec 64))) :
    (s.taskReady q t itins rings links progs).pending = s.pending ∧ (s.taskReady q t itins rings links progs).cfg = s.cfg ∧ (s.taskReady q t itins rings links progs).tables = s.tables := by
  unfold State.taskReady
  dsimp only
  (repeat' split) <;> simp_all
@[simp] theorem State.readTask_keeps (s : State) (q : Nat) (t : Task) :
    (s.readTask q t).pending = s.pending ∧ (s.readTask q t).cfg = s.cfg ∧ (s.readTask q t).tables = s.tables := by
  unfold State.readTask
  dsimp only
  (repeat' split) <;> simp_all [eq_pair]
@[simp] theorem State.signalEnds_keeps (s : State) (q : Nat) (c : Cmd) :
    (s.signalEnds q c).pending = s.pending ∧ (s.signalEnds q c).cfg = s.cfg ∧ (s.signalEnds q c).tables = s.tables := by
  simp [State.signalEnds]
@[simp] theorem State.fenceEnds_keeps (s : State) (q : Nat) (c : Cmd) :
    (s.fenceEnds q c).pending = s.pending ∧ (s.fenceEnds q c).cfg = s.cfg ∧ (s.fenceEnds q c).tables = s.tables := by
  simp [State.fenceEnds]
@[simp] theorem State.skipped_keeps (s : State) (u q n : Nat) :
    (s.skipped u q n).pending = s.pending ∧ (s.skipped u q n).cfg = s.cfg ∧ (s.skipped u q n).tables = s.tables := by
  simp [State.skipped]
@[simp] theorem State.skipLoads_keeps (s : State) (q n : Nat) :
    (s.skipLoads q n).pending = s.pending ∧ (s.skipLoads q n).cfg = s.cfg ∧ (s.skipLoads q n).tables = s.tables := by
  simp [State.skipLoads]
@[simp] theorem State.rowGranules_keeps (s : State) (q : Nat) (idx : BitVec 16) (va len : Nat) :
    (s.rowGranules q idx va len).1.pending = s.pending ∧ (s.rowGranules q idx va len).1.cfg = s.cfg ∧ (s.rowGranules q idx va len).1.tables = s.tables := by
  unfold State.rowGranules
  have h := State.openReading_keeps s (.preload q idx)
  generalize s.openReading (.preload q idx) = p at h ⊢
  obtain ⟨u, r⟩ := p
  dsimp only at h ⊢
  refine kept_foldlFst _ _ _ _ (fun a x => ?_) h
  split
  · exact ⟨rfl, rfl, rfl⟩
  · rename_i b gs
    generalize hk : State.lookPage _ _ _ _ _ _ = k
    have h2 : k.1.pending = b.pending ∧ k.1.cfg = b.cfg ∧ k.1.tables = b.tables := by rw [← hk]; simp
    obtain ⟨v, l⟩ := k
    cases l <;> simpa using h2
@[simp] theorem State.rowDone_keeps (s : State) (q : Nat) (idx : BitVec 16) (va len : Nat) :
    (s.rowDone q idx va len).pending = s.pending ∧ (s.rowDone q idx va len).cfg = s.cfg ∧ (s.rowDone q idx va len).tables = s.tables := by
  simp [State.rowDone]
@[simp] theorem State.preloadAll_keeps (s : State) (q : Nat) (is : List Install) (l : List Byte) :
    (s.preloadAll q is l).pending = s.pending ∧ (s.preloadAll q is l).cfg = s.cfg ∧ (s.preloadAll q is l).tables = s.tables := by
  simp [State.preloadAll]
@[simp] theorem State.preloadRow_keeps (s : State) (q : Nat) (idx : BitVec 16) (t : Nat) (d : BitVec 512) (row : Nat) :
    (s.preloadRow q idx t d row).1.pending = s.pending ∧ (s.preloadRow q idx t d row).1.cfg = s.cfg ∧ (s.preloadRow q idx t d row).1.tables = s.tables := by
  unfold State.preloadRow
  dsimp only
  (repeat' split) <;> simp_all [eq_pair]
@[simp] theorem State.preloadNext_keeps (s : State) (q : Nat) (c : Cmd) (v : Version) (i : Nat) :
    (s.preloadNext q c v i).1.pending = s.pending ∧ (s.preloadNext q c v i).1.cfg = s.cfg ∧ (s.preloadNext q c v i).1.tables = s.tables := by
  unfold State.preloadNext
  (repeat' split) <;> simp_all [eq_pair]
@[simp] theorem State.preloadGo_keeps (s : State) (q : Nat) (idx : BitVec 16) :
    (s.preloadGo q idx).pending = s.pending ∧ (s.preloadGo q idx).cfg = s.cfg ∧ (s.preloadGo q idx).tables = s.tables := by
  unfold State.preloadGo
  split
  · simp
  · dsimp only
    generalize hr : List.foldl _ _ _ = r
    have h : r.1.pending = s.pending ∧ r.1.cfg = s.cfg ∧ r.1.tables = s.tables := by
      rw [← hr]
      refine kept_foldlFst _ _ _ _ (fun a x => ?_) (by simp)
      obtain ⟨a, i, stop⟩ := a
      dsimp only
      split
      · simp
      · split
        · simp
        · generalize hk : State.preloadNext _ _ _ _ _ = k
          have k2 : k.1.pending = a.pending ∧ k.1.cfg = a.cfg ∧ k.1.tables = a.tables := by rw [← hk]; simp
          obtain ⟨u, b⟩ := k
          cases b <;> simpa using k2
    split <;> simp [h]
@[simp] theorem State.tableFails_keeps (s : State) (q : Nat) (c : Cmd) (va : Nat) :
    (s.tableFails q c va).pending = s.pending ∧ (s.tableFails q c va).cfg = s.cfg ∧ (s.tableFails q c va).tables = s.tables := by
  simp [State.tableFails]
@[simp] theorem State.bindVersion_keeps (s : State) (q : Nat) (c : Cmd) (desc : BitVec 512) (ranges : List (BitVec 128)) :
    (s.bindVersion q c desc ranges).pending = s.pending ∧ (s.bindVersion q c desc ranges).cfg = s.cfg := by
  simp [State.bindVersion]
@[simp] theorem State.bindGo_keeps (s : State) (q : Nat) (c : Cmd) :
    (s.bindGo q c).pending = s.pending ∧ (s.bindGo q c).cfg = s.cfg := by
  unfold State.bindGo
  dsimp only
  (repeat' split) <;> simp_all [eq_pair]
@[simp] theorem State.retireVersion_keeps (s : State) (q : Nat) (c : Cmd) :
    (s.retireVersion q c).pending = s.pending ∧ (s.retireVersion q c).cfg = s.cfg := by
  simp [State.retireVersion]
@[simp] theorem State.writeRwt_keeps (s : State) (mid : BitVec 8) (off : Nat) (data : Word) :
    (s.writeRwt mid off data).pending = s.pending ∧ (s.writeRwt mid off data).cfg = s.cfg ∧ (s.writeRwt mid off data).tables = s.tables := by
  simp [State.writeRwt]
@[simp] theorem State.onLedger_pending (s : State) (q : Nat) (ops : List Nat) (f : State → Cmd → State) (h : ∀ t c, (f t c).pending = t.pending) :
    (stateAfter s (s.onLedger q ops f)).pending = s.pending := by
  unfold State.onLedger
  split
  · rfl
  · refine State.onGate_pending _ _ _ _ (fun t c => ?_)
    split <;> simp [h]
@[simp] theorem State.onLedger_cfg (s : State) (q : Nat) (ops : List Nat) (f : State → Cmd → State) (h : ∀ t c, (f t c).cfg = t.cfg) :
    (stateAfter s (s.onLedger q ops f)).cfg = s.cfg := by
  unfold State.onLedger
  split
  · rfl
  · refine State.onGate_cfg _ _ _ _ (fun t c => ?_)
    split <;> simp [h]
@[simp] theorem State.onLedger_tables (s : State) (q : Nat) (ops : List Nat) (f : State → Cmd → State) (h : ∀ t c, (f t c).tables = t.tables) :
    (stateAfter s (s.onLedger q ops f)).tables = s.tables := by
  unfold State.onLedger
  split
  · rfl
  · refine State.onGate_tables _ _ _ _ (fun t c => ?_)
    split <;> simp [h]
@[simp] theorem State.ledgerFails_keeps (s : State) (idx : BitVec 16) (st : Byte) :
    (s.ledgerFails idx st).pending = s.pending ∧ (s.ledgerFails idx st).cfg = s.cfg ∧ (s.ledgerFails idx st).tables = s.tables := by
  simp [State.ledgerFails]
@[simp] theorem State.commitFails_keeps (s : State) (idx : BitVec 16) (st : Byte) (check off : Nat) :
    (s.commitFails idx st check off).pending = s.pending ∧ (s.commitFails idx st check off).cfg = s.cfg ∧ (s.commitFails idx st check off).tables = s.tables := by
  simp [State.commitFails]
@[simp] theorem State.resetShares_keeps (s : State) (east : Bool) :
    (s.resetShares east).pending = s.pending ∧ (s.resetShares east).cfg = s.cfg ∧ (s.resetShares east).tables = s.tables := by
  simp [State.resetShares]
@[simp] theorem State.applyCommit_keeps (s : State) :
    (s.applyCommit).pending = s.pending ∧ (s.applyCommit).cfg = s.cfg ∧ (s.applyCommit).tables = s.tables := by
  unfold State.applyCommit
  dsimp only
  (repeat' split) <;> simp_all
@[simp] theorem State.readBlock_keeps (s : State) (b : Block) (lo hi : Nat) :
    (s.readBlock b lo hi).pending = s.pending ∧ (s.readBlock b lo hi).cfg = s.cfg ∧ (s.readBlock b lo hi).tables = s.tables := by
  unfold State.readBlock
  (repeat' split) <;> simp_all
@[simp] theorem State.failBatch_keeps (s : State) (b : Batch) (f : FaultInfo) :
    (s.failBatch b f).pending = s.pending ∧ (s.failBatch b f).cfg = s.cfg ∧ (s.failBatch b f).tables = s.tables := by
  simp [State.failBatch]
@[simp] theorem State.startBatch_keeps (s : State) (q : Nat) (c : Cmd) (upd : Bool) :
    (s.startBatch q c upd).pending = s.pending ∧ (s.startBatch q c upd).cfg = s.cfg ∧ (s.startBatch q c upd).tables = s.tables := by
  unfold State.startBatch
  dsimp only
  (repeat' split) <;> simp_all
@[simp] theorem State.lookupOut_keeps (s : State) (b : Batch) (hdr : BitVec 512) :
    (s.lookupOut b hdr).pending = s.pending ∧ (s.lookupOut b hdr).cfg = s.cfg ∧ (s.lookupOut b hdr).tables = s.tables := by
  unfold State.lookupOut
  dsimp only
  (repeat' split) <;> simp_all [eq_pair]
@[simp] theorem State.lookupGo_keeps (s : State) (b : Batch) :
    (s.lookupGo b).pending = s.pending ∧ (s.lookupGo b).cfg = s.cfg ∧ (s.lookupGo b).tables = s.tables := by
  unfold State.lookupGo
  dsimp only
  (repeat' split) <;> simp_all [eq_pair]
@[simp] theorem State.updateGo_keeps (s : State) (b : Batch) :
    (s.updateGo b).pending = s.pending ∧ (s.updateGo b).cfg = s.cfg ∧ (s.updateGo b).tables = s.tables := by
  unfold State.updateGo
  dsimp only
  (repeat' split) <;> simp_all [eq_pair]
@[simp] theorem State.closePairs_keeps (s : State) (ps : List BPair) :
    (s.closePairs ps).1.pending = s.pending ∧ (s.closePairs ps).1.cfg = s.cfg ∧ (s.closePairs ps).1.tables = s.tables := by
  simp [State.closePairs]
@[simp] theorem State.sendLkup_keeps (s : State) (b : Batch) (sub owner : Nat) (rows : List Nat) (last : Bool) :
    (s.sendLkup b sub owner rows last).pending = s.pending ∧ (s.sendLkup b sub owner rows last).cfg = s.cfg ∧ (s.sendLkup b sub owner rows last).tables = s.tables := by
  simp [State.sendLkup]
@[simp] theorem State.askOwners_keeps (s : State) (b : Batch) (sub : Nat) (rows : List PRow) :
    (s.askOwners b sub rows).pending = s.pending ∧ (s.askOwners b sub rows).cfg = s.cfg ∧ (s.askOwners b sub rows).tables = s.tables := by
  simp [State.askOwners]
@[simp] theorem State.keepRemap_keeps (s : State) (b : Batch) (r : Reading) :
    (s.keepRemap b r).pending = s.pending ∧ (s.keepRemap b r).cfg = s.cfg ∧ (s.keepRemap b r).tables = s.tables := by
  simp [State.keepRemap]
@[simp] theorem State.countBuild_keeps (s : State) (b : Batch) (r : Reading) (n : Nat) :
    (s.countBuild b r n).pending = s.pending ∧ (s.countBuild b r n).cfg = s.cfg ∧ (s.countBuild b r n).tables = s.tables := by
  simp [State.countBuild]
@[simp] theorem State.openSub_keeps (s : State) (b : Batch) (w : SubWin) (idx bags done : Nat) :
    (s.openSub b w idx bags done).pending = s.pending ∧ (s.openSub b w idx bags done).cfg = s.cfg ∧ (s.openSub b w idx bags done).tables = s.tables := by
  simp [State.openSub]
@[simp] theorem State.closeBuild_keeps (s : State) (b : Batch) (x : Build) :
    (s.closeBuild b x).pending = s.pending ∧ (s.closeBuild b x).cfg = s.cfg ∧ (s.closeBuild b x).tables = s.tables := by
  simp [State.closeBuild]
@[simp] theorem State.buildReads_keeps (s : State) (b : Batch) (a : Ask) :
    (s.buildReads b a).pending = s.pending ∧ (s.buildReads b a).cfg = s.cfg ∧ (s.buildReads b a).tables = s.tables := by
  simp [State.buildReads]
@[simp] theorem State.endBatch_keeps (s : State) (id : Nat) :
    (s.endBatch id).pending = s.pending ∧ (s.endBatch id).cfg = s.cfg ∧ (s.endBatch id).tables = s.tables := by
  unfold State.endBatch
  dsimp only
  (repeat' split) <;> simp_all
@[simp] theorem State.readGrads_keeps (s : State) (b : Batch) (i : Nat) (x0 : Nat) :
    (s.readGrads b i x0).1.pending = s.pending ∧ (s.readGrads b i x0).1.cfg = s.cfg ∧ (s.readGrads b i x0).1.tables = s.tables := by
  induction x0 generalizing i s with
  | zero => simp [State.readGrads]
  | succ n ih =>
    unfold State.readGrads
    have h := State.need_keeps s (.batch b.id) (gradAt b i).1 (gradAt b i).2
    generalize s.need (.batch b.id) (gradAt b i).1 (gradAt b i).2 = p at h ⊢
    obtain ⟨t, g⟩ := p
    cases g with
    | bytes l =>
      have k := ih t (i + 1)
      dsimp only at h k ⊢
      generalize t.readGrads b (i + 1) n = w at k ⊢
      obtain ⟨u, o⟩ := w
      cases o <;> simp_all
    | _ => simp_all
@[simp] theorem State.combine_keeps (s : State) (b : Batch) (rows : List Nat) (grads : List (List Byte)) (row : Nat) :
    (s.combine b rows grads row).1.pending = s.pending ∧ (s.combine b rows grads row).1.cfg = s.cfg ∧ (s.combine b rows grads row).1.tables = s.tables := by
  simp [State.combine]
@[simp] theorem State.closeUpdate_keeps (s : State) (b : Batch) (rows : List Nat) (grads : List (List Byte)) :
    (s.closeUpdate b rows grads).pending = s.pending ∧ (s.closeUpdate b rows grads).cfg = s.cfg ∧ (s.closeUpdate b rows grads).tables = s.tables := by
  simp [State.closeUpdate]
@[simp] theorem State.takeRequest_keeps (s : State) (p : Nat) (isA : Bool) :
    (s.takeRequest p isA).pending = s.pending ∧ (s.takeRequest p isA).cfg = s.cfg ∧ (s.takeRequest p isA).tables = s.tables := by
  simp [State.takeRequest]
@[simp] theorem State.dropRequest_keeps (s : State) (p : Nat) :
    (s.dropRequest p).pending = s.pending ∧ (s.dropRequest p).cfg = s.cfg ∧ (s.dropRequest p).tables = s.tables := by
  simp [State.dropRequest]
@[simp] theorem State.takeHole_keeps (s : State) (p : Nat) :
    (s.takeHole p).pending = s.pending ∧ (s.takeHole p).cfg = s.cfg ∧ (s.takeHole p).tables = s.tables := by
  unfold State.takeHole
  (repeat' split) <;> simp_all
@[simp] theorem State.serveRequest_pending (s : State) (p : Nat) (mine : Nat → Bool) (f : State → BitVec 512 → State) (h : ∀ t r, (f t r).pending = t.pending) :
    (stateAfter s (s.serveRequest p mine f)).pending = s.pending := by
  unfold State.serveRequest
  rw [stateAfter_whenever]
  split
  · split
    · split <;> simp
    · rename_i r hr
      have k := State.need_keeps s (.hole p) r.start 64
      generalize s.need (.hole p) r.start 64 = x at k ⊢
      obtain ⟨t, g⟩ := x
      cases g <;> dsimp only at k ⊢
      · split
        · simp [k]
        · split
          · simp [h, k]
          · simp [k]
      · exact k.1
      · simp [k]
  · rfl
@[simp] theorem State.serveRequest_cfg (s : State) (p : Nat) (mine : Nat → Bool) (f : State → BitVec 512 → State) (h : ∀ t r, (f t r).cfg = t.cfg) :
    (stateAfter s (s.serveRequest p mine f)).cfg = s.cfg := by
  unfold State.serveRequest
  rw [stateAfter_whenever]
  split
  · split
    · split <;> simp
    · rename_i r hr
      have k := State.need_keeps s (.hole p) r.start 64
      generalize s.need (.hole p) r.start 64 = x at k ⊢
      obtain ⟨t, g⟩ := x
      cases g <;> dsimp only at k ⊢
      · split
        · simp [k]
        · split
          · simp [h, k]
          · simp [k]
      · exact k.2.1
      · simp [k]
  · rfl
@[simp] theorem State.serveRequest_tables (s : State) (p : Nat) (mine : Nat → Bool) (f : State → BitVec 512 → State) (h : ∀ t r, (f t r).tables = t.tables) :
    (stateAfter s (s.serveRequest p mine f)).tables = s.tables := by
  unfold State.serveRequest
  rw [stateAfter_whenever]
  split
  · split
    · split <;> simp
    · rename_i r hr
      have k := State.need_keeps s (.hole p) r.start 64
      generalize s.need (.hole p) r.start 64 = x at k ⊢
      obtain ⟨t, g⟩ := x
      cases g <;> dsimp only at k ⊢
      · split
        · simp [k]
        · split
          · simp [h, k]
          · simp [k]
      · exact k.2.2
      · simp [k]
  · rfl
@[simp] theorem State.moveReport_keeps (s : State) (p : Nat) (req : BitVec 512) :
    (s.moveReport p req).pending = s.pending ∧ (s.moveReport p req).cfg = s.cfg ∧ (s.moveReport p req).tables = s.tables := by
  simp [State.moveReport]
@[simp] theorem State.trackRow_keeps (s : State) (key : Nat) :
    (s.trackRow key).pending = s.pending ∧ (s.trackRow key).cfg = s.cfg ∧ (s.trackRow key).tables = s.tables := by
  simp [State.trackRow]
@[simp] theorem State.useLaneSpare_keeps (s : State) (east : Bool) (k : Nat) :
    (s.useLaneSpare east k).pending = s.pending ∧ (s.useLaneSpare east k).cfg = s.cfg ∧ (s.useLaneSpare east k).tables = s.tables := by
  simp [State.useLaneSpare]
@[simp] theorem State.mapped_keeps (s : State) :
    (s.mapped).pending = s.pending ∧ (s.mapped).cfg = s.cfg ∧ (s.mapped).tables = s.tables := by
  simp [State.mapped]
@[simp] theorem State.noSpare_keeps (s : State) :
    (s.noSpare).pending = s.pending ∧ (s.noSpare).cfg = s.cfg ∧ (s.noSpare).tables = s.tables := by
  simp [State.noSpare]
@[simp] theorem State.dropWay_keeps (s : State) (key w : Nat) :
    (s.dropWay key w).pending = s.pending ∧ (s.dropWay key w).cfg = s.cfg ∧ (s.dropWay key w).tables = s.tables := by
  simp [State.dropWay]
@[simp] theorem State.replaceRow_keeps (s : State) (t row : Nat) :
    (s.replaceRow t row).pending = s.pending ∧ (s.replaceRow t row).cfg = s.cfg ∧ (s.replaceRow t row).tables = s.tables := by
  unfold State.replaceRow
  dsimp only
  (repeat' split) <;> simp_all
@[simp] theorem State.repairRow_keeps (s : State) (t row : Nat) :
    (s.repairRow t row).pending = s.pending ∧ (s.repairRow t row).cfg = s.cfg ∧ (s.repairRow t row).tables = s.tables := by
  simp [State.repairRow]
@[simp] theorem State.dropEntry_keeps (s : State) (c pos : Nat) :
    (s.dropEntry c pos).pending = s.pending ∧ (s.dropEntry c pos).cfg = s.cfg ∧ (s.dropEntry c pos).tables = s.tables := by
  simp [State.dropEntry]
@[simp] theorem State.disableEntry_keeps (s : State) (w : Wing) (unit index : Nat) :
    (s.disableEntry w unit index).pending = s.pending ∧ (s.disableEntry w unit index).cfg = s.cfg ∧ (s.disableEntry w unit index).tables = s.tables := by
  simp [State.disableEntry]
@[simp] theorem State.actLasting_keeps (s : State) (c : Nat) (w : Wing) (unit index : Nat) :
    (s.actLasting c w unit index).pending = s.pending ∧ (s.actLasting c w unit index).cfg = s.cfg ∧ (s.actLasting c w unit index).tables = s.tables := by
  simp [State.actLasting]
@[simp] theorem State.declare_keeps (s : State) (key : Nat) :
    (s.declare key).pending = s.pending ∧ (s.declare key).cfg = s.cfg ∧ (s.declare key).tables = s.tables := by
  simp [State.declare]
@[simp] theorem State.countErrors_keeps (s : State) (c : Nat) (w : Wing) (unit index n : Nat) :
    (s.countErrors c w unit index n).pending = s.pending ∧ (s.countErrors c w unit index n).cfg = s.cfg ∧ (s.countErrors c w unit index n).tables = s.tables := by
  simp [State.countErrors]
@[simp] theorem State.captureError_keeps (s : State) (off0 off1 c : Nat) (w : Wing) (unit : Nat) (index : Word) (syn : Byte) (q : Option Nat) :
    (s.captureError off0 off1 c w unit index syn q).pending = s.pending ∧ (s.captureError off0 off1 c w unit index syn q).cfg = s.cfg ∧ (s.captureError off0 off1 c w unit index syn q).tables = s.tables := by
  simp [State.captureError]
@[simp] theorem State.flipRead_keeps (s : State) (c : Nat) (w : Wing) (unit : Nat) (double : Bool) :
    (s.flipRead c w unit double).pending = s.pending ∧ (s.flipRead c w unit double).cfg = s.cfg ∧ (s.flipRead c w unit double).tables = s.tables := by
  simp [State.flipRead]
@[simp] theorem State.corrected_keeps (s : State) (c : Nat) (w : Wing) (unit : Nat) (index : Word) (syn : Byte) :
    (s.corrected c w unit index syn).pending = s.pending ∧ (s.corrected c w unit index syn).cfg = s.cfg ∧ (s.corrected c w unit index syn).tables = s.tables := by
  simp [State.corrected]
@[simp] theorem State.eccAbort_keeps (s : State) (q : Nat) (unit : Byte) (itin : Option Nat) :
    (s.eccAbort q unit itin).pending = s.pending ∧ (s.eccAbort q unit itin).cfg = s.cfg ∧ (s.eccAbort q unit itin).tables = s.tables := by
  simp [State.eccAbort]
@[simp] theorem State.tagError_keeps (s : State) (tag : BitVec 17) (wr : Bool) :
    (s.tagError tag wr).pending = s.pending ∧ (s.tagError tag wr).cfg = s.cfg ∧ (s.tagError tag wr).tables = s.tables := by
  unfold State.tagError
  (repeat' split) <;> simp_all [eq_pair]
@[simp] theorem State.ueReact_keeps (s : State) (w : Wing) (unit : Nat) (x0 : UeSite) :
    (s.ueReact w unit x0).pending = s.pending ∧ (s.ueReact w unit x0).cfg = s.cfg ∧ (s.ueReact w unit x0).tables = s.tables := by
  unfold State.ueReact
  (repeat' split) <;> simp_all
@[simp] theorem State.freshLane_keeps (s : State) (lane : Nat) :
    (s.freshLane lane).pending = s.pending ∧ (s.freshLane lane).cfg = s.cfg ∧ (s.freshLane lane).tables = s.tables := by
  simp [State.freshLane]
@[simp] theorem State.abortReads_keeps (s : State) (east : Bool) :
    (s.abortReads east).pending = s.pending ∧ (s.abortReads east).cfg = s.cfg ∧ (s.abortReads east).tables = s.tables := by
  simp [State.abortReads]
@[simp] theorem State.writeInject_keeps (s : State) (data : Word) :
    (s.writeInject data).pending = s.pending ∧ (s.writeInject data).cfg = s.cfg ∧ (s.writeInject data).tables = s.tables := by
  simp [State.writeInject]
@[simp] theorem State.writeCeCfg_keeps (s : State) (c : Nat) (data : Word) :
    (s.writeCeCfg c data).pending = s.pending ∧ (s.writeCeCfg c data).cfg = s.cfg ∧ (s.writeCeCfg c data).tables = s.tables := by
  simp [State.writeCeCfg]
@[simp] theorem State.writeTlyCtrl_keeps (s : State) (data : Word) :
    (s.writeTlyCtrl data).pending = s.pending ∧ (s.writeTlyCtrl data).cfg = s.cfg ∧ (s.writeTlyCtrl data).tables = s.tables := by
  simp [State.writeTlyCtrl]
@[simp] theorem State.setRecord_keeps (s : State) (r : TallyRec) :
    (s.setRecord r).pending = s.pending ∧ (s.setRecord r).cfg = s.cfg ∧ (s.setRecord r).tables = s.tables := by
  simp [State.setRecord]
@[simp] theorem State.askCounters_keeps (s : State) (r : TallyRec) :
    (s.askCounters r).pending = s.pending ∧ (s.askCounters r).cfg = s.cfg ∧ (s.askCounters r).tables = s.tables := by
  simp [State.askCounters]
@[simp] theorem State.counterAnswered_keeps (s : State) (snap : Word) (i : Nat) :
    (s.counterAnswered snap i).pending = s.pending ∧ (s.counterAnswered snap i).cfg = s.cfg ∧ (s.counterAnswered snap i).tables = s.tables := by
  unfold State.counterAnswered
  (repeat' split) <;> simp_all
@[simp] theorem State.countersLost_keeps (s : State) :
    (s.countersLost).pending = s.pending ∧ (s.countersLost).cfg = s.cfg ∧ (s.countersLost).tables = s.tables := by
  unfold State.countersLost
  (repeat' split) <;> simp_all
@[simp] theorem State.writeTally_keeps (s : State) (r : TallyRec) :
    (s.writeTally r).pending = s.pending ∧ (s.writeTally r).cfg = s.cfg ∧ (s.writeTally r).tables = s.tables := by
  simp [State.writeTally]
@[simp] theorem State.snapPages_keeps (s : State) (q : Nat) (t : Task) (len : Nat) :
    (s.snapPages q t len).1.pending = s.pending ∧ (s.snapPages q t len).1.cfg = s.cfg ∧ (s.snapPages q t len).1.tables = s.tables := by
  unfold State.snapPages
  have h := State.openReading_keeps s (.command q t.cmd)
  generalize s.openReading (.command q t.cmd) = p at h ⊢
  obtain ⟨u, r⟩ := p
  dsimp only at h ⊢
  refine kept_foldlFst _ _ _ _ (fun a x => ?_) h
  split
  · exact ⟨rfl, rfl, rfl⟩
  · rename_i b gs
    generalize hk : State.lookPage _ _ _ _ _ _ = k
    have h2 : k.1.pending = b.pending ∧ k.1.cfg = b.cfg ∧ k.1.tables = b.tables := by rw [← hk]; simp
    obtain ⟨v, l⟩ := k
    cases l <;> simpa using h2
@[simp] theorem State.sendSnap_keeps (s : State) (q : Nat) (va : Nat) (pages : List (Nat × Nat)) (bytes : List Byte) :
    (s.sendSnap q va pages bytes).pending = s.pending ∧ (s.sendSnap q va pages bytes).cfg = s.cfg ∧ (s.sendSnap q va pages bytes).tables = s.tables := by
  simp [State.sendSnap]
@[simp] theorem State.writeSnap_keeps (s : State) (q : Nat) (t : Task) (r : TallyRec) :
    (s.writeSnap q t r).pending = s.pending ∧ (s.writeSnap q t r).cfg = s.cfg ∧ (s.writeSnap q t r).tables = s.tables := by
  unfold State.writeSnap
  dsimp only
  (repeat' split) <;> simp_all [eq_pair]
@[simp] theorem State.writeTlySel_keeps (s : State) (u k : Nat) (hi : Bool) (data : Word) :
    (s.writeTlySel u k hi data).pending = s.pending ∧ (s.writeTlySel u k hi data).cfg = s.cfg ∧ (s.writeTlySel u k hi data).tables = s.tables := by
  simp [State.writeTlySel]
@[simp] theorem State.writeTlyCnt_keeps (s : State) (u k : Nat) (hi : Bool) (data : Word) :
    (s.writeTlyCnt u k hi data).pending = s.pending ∧ (s.writeTlyCnt u k hi data).cfg = s.cfg ∧ (s.writeTlyCnt u k hi data).tables = s.tables := by
  simp [State.writeTlyCnt]
@[simp] theorem State.latchCcyc_keeps (s : State) :
    (s.latchCcyc).pending = s.pending ∧ (s.latchCcyc).cfg = s.cfg ∧ (s.latchCcyc).tables = s.tables := by
  simp [State.latchCcyc]
@[simp] theorem State.raiseMports_keeps (s : State) :
    (s.raiseMports).pending = s.pending ∧ (s.raiseMports).cfg = s.cfg ∧ (s.raiseMports).tables = s.tables := by
  simp [State.raiseMports]
@[simp] theorem State.raiseCports_keeps (s : State) :
    (s.raiseCports).pending = s.pending ∧ (s.raiseCports).cfg = s.cfg ∧ (s.raiseCports).tables = s.tables := by
  simp [State.raiseCports]
@[simp] theorem State.raiseXports_keeps (s : State) :
    (s.raiseXports).pending = s.pending ∧ (s.raiseXports).cfg = s.cfg ∧ (s.raiseXports).tables = s.tables := by
  simp [State.raiseXports]
@[simp] theorem State.cold_keeps (s : State) :
    (s.cold).pending = s.pending ∧ (s.cold).cfg = s.cfg := by
  simp [State.cold]
@[simp] theorem State.warmed_keeps (s : State) :
    (s.warmed).pending = s.pending ∧ (s.warmed).cfg = s.cfg := by
  simp [State.warmed]
@[simp] theorem State.updStep_keeps (s : State) (n : Nat) (f : JEntry → JEntry) :
    (s.updStep n f).pending = s.pending ∧ (s.updStep n f).cfg = s.cfg ∧ (s.updStep n f).tables = s.tables := by
  simp [State.updStep]
@[simp] theorem State.stepBegins_keeps (s : State) (n : Nat) :
    (s.stepBegins n).pending = s.pending ∧ (s.stepBegins n).cfg = s.cfg ∧ (s.stepBegins n).tables = s.tables := by
  unfold State.stepBegins
  (repeat' split) <;> simp_all
@[simp] theorem State.enterStep_keeps  (x0 : Nat) (x1 : Nat) (s : State) :
    (State.enterStep x0 x1 s).pending = s.pending ∧ (State.enterStep x0 x1 s).cfg = s.cfg ∧ (State.enterStep x0 x1 s).tables = s.tables := by
  induction x0 generalizing x1 s with
  | zero => simp [State.enterStep]
  | succ k ih =>
    unfold State.enterStep
    dsimp only
    (repeat' split) <;> simp [ih]
@[simp] theorem State.enter_keeps (s : State) (n : Nat) :
    (s.enter n).pending = s.pending ∧ (s.enter n).cfg = s.cfg ∧ (s.enter n).tables = s.tables := by
  simp [State.enter]
@[simp] theorem State.beginStart_keeps (s : State) (cause : BitVec 4) :
    (s.beginStart cause).pending = s.pending ∧ (s.beginStart cause).cfg = s.cfg ∧ (s.beginStart cause).tables = s.tables := by
  simp [State.beginStart]
@[simp] theorem State.imageCheck_keeps (s : State) (which kind : Nat) (sigOk : Bool) :
    (s.imageCheck which kind sigOk).1.pending = s.pending ∧ (s.imageCheck which kind sigOk).1.cfg = s.cfg ∧ (s.imageCheck which kind sigOk).1.tables = s.tables := by
  rw [State.imageCheck]
  dsimp only
  split
  · simp
  · have h := State.need_keeps s .image (s.imgAddr which) 64
    generalize s.need .image (s.imgAddr which) 64 = p at h ⊢
    obtain ⟨t, g⟩ := p
    cases g with
    | bytes l =>
      dsimp only at h ⊢
      split
      · exact h
      · generalize hq : State.need _ _ _ _ = q
        have k : q.1.pending = t.pending ∧ q.1.cfg = t.cfg ∧ q.1.tables = t.tables := by rw [← hq]; simp
        obtain ⟨u, g⟩ := q
        cases g <;> simp_all
    | _ => simpa using h
@[simp] theorem State.loadFirmware_keeps (s : State) (b : Bool) (h : BitVec 512) :
    (s.loadFirmware b h).pending = s.pending ∧ (s.loadFirmware b h).cfg = s.cfg ∧ (s.loadFirmware b h).tables = s.tables := by
  simp [State.loadFirmware]
@[simp] theorem State.loadMicrocode_keeps (s : State) (h : BitVec 512) :
    (s.loadMicrocode h).pending = s.pending ∧ (s.loadMicrocode h).cfg = s.cfg ∧ (s.loadMicrocode h).tables = s.tables := by
  simp [State.loadMicrocode]
@[simp] theorem State.structRead_keeps (s : State) :
    (s.structRead).1.pending = s.pending ∧ (s.structRead).1.cfg = s.cfg ∧ (s.structRead).1.tables = s.tables := by
  rw [State.structRead]
  dsimp only
  split
  · simp
  · have h := State.need_keeps s .image (s.imgAddr 3) 64
    generalize s.need .image (s.imgAddr 3) 64 = p at h ⊢
    obtain ⟨t, g⟩ := p
    cases g with
    | bytes l =>
      dsimp only at h ⊢
      split
      · exact h
      · generalize hq : State.need _ _ _ _ = q
        have k : q.1.pending = t.pending ∧ q.1.cfg = t.cfg ∧ q.1.tables = t.tables := by rw [← hq]; simp
        obtain ⟨u, g⟩ := q
        cases g <;> simp_all
    | _ => simpa using h
@[simp] theorem State.structDefaults_keeps (s : State) :
    (s.structDefaults).pending = s.pending ∧ (s.structDefaults).cfg = s.cfg ∧ (s.structDefaults).tables = s.tables := by
  simp [State.structDefaults]
@[simp] theorem State.loadStructure_keeps (s : State) (h : BitVec 512) (es : List (BitVec 64)) :
    (s.loadStructure h es).pending = s.pending ∧ (s.loadStructure h es).cfg = s.cfg ∧ (s.loadStructure h es).tables = s.tables := by
  simp [State.loadStructure]
@[simp] theorem State.spareLanes_keeps (s : State) (failed : List Nat) :
    (s.spareLanes failed).1.pending = s.pending ∧ (s.spareLanes failed).1.cfg = s.cfg ∧ (s.spareLanes failed).1.tables = s.tables := by
  unfold State.spareLanes
  refine kept_foldl _ _ _ _ (fun a x => ?_) (by simp)
  split <;> simp
@[simp] theorem State.spareBanks_keeps (s : State) (m : BitVec 16) :
    (s.spareBanks m).1.pending = s.pending ∧ (s.spareBanks m).1.cfg = s.cfg ∧ (s.spareBanks m).1.tables = s.tables := by
  simp [State.spareBanks]
@[simp] theorem State.mapOut_keeps (s : State) (m : Byte) :
    (s.mapOut m).pending = s.pending ∧ (s.mapOut m).cfg = s.cfg ∧ (s.mapOut m).tables = s.tables := by
  simp [State.mapOut]
@[simp] theorem State.seedLanes_keeps (s : State) (seeds : List Word) :
    (s.seedLanes seeds).pending = s.pending ∧ (s.seedLanes seeds).cfg = s.cfg ∧ (s.seedLanes seeds).tables = s.tables := by
  simp [State.seedLanes]
@[simp] theorem State.stepReads_keeps (s : State) (r : BootReport) :
    (s.stepReads r).1.pending = s.pending ∧ (s.stepReads r).1.cfg = s.cfg ∧ (s.stepReads r).1.tables = s.tables := by
  unfold State.stepReads
  (repeat' split) <;> simp_all [eq_pair]
@[simp] theorem State.runPrimary_keeps (s : State) (n : Nat) (r : BootReport) :
    (s.runPrimary n r).1.pending = s.pending ∧ (s.runPrimary n r).1.cfg = s.cfg ∧ (s.runPrimary n r).1.tables = s.tables := by
  unfold State.runPrimary
  (repeat' split) <;> simp_all [eq_pair]
@[simp] theorem State.runAlternate_keeps (s : State) (n : Nat) (r : BootReport) (code : Byte) :
    (s.runAlternate n r code).1.pending = s.pending ∧ (s.runAlternate n r code).1.cfg = s.cfg ∧ (s.runAlternate n r code).1.tables = s.tables := by
  unfold State.runAlternate
  (repeat' split) <;> simp_all [eq_pair]
@[simp] theorem State.recover_keeps (s : State) :
    (s.recover).pending = s.pending ∧ (s.recover).cfg = s.cfg ∧ (s.recover).tables = s.tables := by
  simp [State.recover]
@[simp] theorem State.restart_keeps (s : State) :
    (s.restart).pending = s.pending ∧ (s.restart).cfg = s.cfg := by
  simp [State.restart]
@[simp] theorem State.becomeReady_keeps (s : State) :
    (s.becomeReady).pending = s.pending ∧ (s.becomeReady).cfg = s.cfg ∧ (s.becomeReady).tables = s.tables := by
  simp [State.becomeReady]
@[simp] theorem State.stepDone_keeps (s : State) (n : Nat) (ok : Bool) (code : Byte) :
    (s.stepDone n ok code).pending = s.pending ∧ (s.stepDone n ok code).cfg = s.cfg := by
  simp [State.stepDone]
@[simp] theorem State.testRows_keeps (s : State) (r : BootReport) :
    (s.testRows r).pending = s.pending ∧ (s.testRows r).cfg = s.cfg ∧ (s.testRows r).tables = s.tables := by
  simp [State.testRows]
@[simp] theorem State.endStep_keeps (s : State) (r : BootReport) (late : Bool) :
    (s.endStep r late).pending = s.pending ∧ (s.endStep r late).cfg = s.cfg := by
  unfold State.endStep
  dsimp only
  generalize hs : (if s.boot.step = 12 then s.testRows r else s) = a
  have ha : a.pending = s.pending ∧ a.cfg = s.cfg := by rw [← hs]; split <;> simp
  split
  · have h := State.runAlternate_keeps a s.boot.step r (a.boot.jrnl.get s.boot.step).code
    generalize a.runAlternate s.boot.step r (a.boot.jrnl.get s.boot.step).code = p at h ⊢
    obtain ⟨t, ok, code⟩ := p
    simp_all
  · have h := State.runPrimary_keeps a s.boot.step r
    generalize a.runPrimary s.boot.step r = p at h ⊢
    obtain ⟨t, ok, code⟩ := p
    dsimp only at h ⊢
    split
    · simp_all
    · split
      · simp_all
      · split
        · generalize hk : State.stepReads _ _ = k
          have kk : k.1.pending = s.pending ∧ k.1.cfg = s.cfg := by rw [← hk]; simp [h, ha]
          obtain ⟨w, b⟩ := k
          cases b
          · simpa using kk
          · have h2 := State.runAlternate_keeps w s.boot.step r code
            dsimp only at kk ⊢
            generalize w.runAlternate s.boot.step r code = p at h2 ⊢
            obtain ⟨z, ok, code⟩ := p
            simp_all
        · simp_all
@[simp] theorem State.markAbsent_keeps (s : State) :
    (s.markAbsent).pending = s.pending ∧ (s.markAbsent).cfg = s.cfg ∧ (s.markAbsent).tables = s.tables := by
  simp [State.markAbsent]
@[simp] theorem State.clearFailed_keeps (s : State) (n : Nat) :
    (s.clearFailed n).pending = s.pending ∧ (s.clearFailed n).cfg = s.cfg ∧ (s.clearFailed n).tables = s.tables := by
  simp [State.clearFailed]
@[simp] theorem State.writeStwCtrl_keeps (s : State) (data : Word) :
    (s.writeStwCtrl data).pending = s.pending ∧ (s.writeStwCtrl data).cfg = s.cfg := by
  simp [State.writeStwCtrl]
@[simp] theorem State.setRet_keeps (s : State) (off : Nat) (v : Word) :
    (s.setRet off v).pending = s.pending ∧ (s.setRet off v).cfg = s.cfg ∧ (s.setRet off v).tables = s.tables := by
  simp [State.setRet]
@[simp] theorem State.writeImgLo_keeps (s : State) (which : Nat) (data : Word) :
    (s.writeImgLo which data).pending = s.pending ∧ (s.writeImgLo which data).cfg = s.cfg ∧ (s.writeImgLo which data).tables = s.tables := by
  simp [State.writeImgLo]
@[simp] theorem State.thermalRespond_keeps (s : State) :
    (s.thermalRespond).pending = s.pending ∧ (s.thermalRespond).cfg = s.cfg ∧ (s.thermalRespond).tables = s.tables := by
  simp [State.thermalRespond]
@[simp] theorem State.ungateLanes_keeps (s : State) :
    (s.ungateLanes).pending = s.pending ∧ (s.ungateLanes).cfg = s.cfg ∧ (s.ungateLanes).tables = s.tables := by
  simp [State.ungateLanes]
@[simp] theorem State.thermalRelease_keeps (s : State) :
    (s.thermalRelease).pending = s.pending ∧ (s.thermalRelease).cfg = s.cfg ∧ (s.thermalRelease).tables = s.tables := by
  simp [State.thermalRelease]
@[simp] theorem State.edgeEvent_keeps (s : State) (i : Nat) :
    (s.edgeEvent i).pending = s.pending ∧ (s.edgeEvent i).cfg = s.cfg ∧ (s.edgeEvent i).tables = s.tables := by
  simp [State.edgeEvent]
@[simp] theorem State.resumeRamp_keeps (s : State) :
    (s.resumeRamp).pending = s.pending ∧ (s.resumeRamp).cfg = s.cfg ∧ (s.resumeRamp).tables = s.tables := by
  unfold State.resumeRamp
  (repeat' split) <;> simp_all
@[simp] theorem State.reachN0_keeps (s : State) :
    (s.reachN0).pending = s.pending ∧ (s.reachN0).cfg = s.cfg ∧ (s.reachN0).tables = s.tables := by
  simp [State.reachN0]
@[simp] theorem State.unitRuns_keeps (s : State) (k : Nat) :
    (s.unitRuns k).pending = s.pending ∧ (s.unitRuns k).cfg = s.cfg ∧ (s.unitRuns k).tables = s.tables := by
  simp [State.unitRuns]
@[simp] theorem State.writePwrCtrl_keeps (s : State) (data : Word) :
    (s.writePwrCtrl data).pending = s.pending ∧ (s.writePwrCtrl data).cfg = s.cfg ∧ (s.writePwrCtrl data).tables = s.tables := by
  simp [State.writePwrCtrl]
@[simp] theorem State.abandonPower_keeps (s : State) (least : Nat) :
    (s.abandonPower least).pending = s.pending ∧ (s.abandonPower least).cfg = s.cfg ∧ (s.abandonPower least).tables = s.tables := by
  simp [State.abandonPower]
@[simp] theorem State.gateAll_keeps (s : State) :
    (s.gateAll).pending = s.pending ∧ (s.gateAll).cfg = s.cfg ∧ (s.gateAll).tables = s.tables := by
  simp [State.gateAll]
@[simp] theorem State.lowerLinks_keeps (s : State) :
    (s.lowerLinks).pending = s.pending ∧ (s.lowerLinks).cfg = s.cfg ∧ (s.lowerLinks).tables = s.tables := by
  simp [State.lowerLinks]
@[simp] theorem State.dropMport_keeps (s : State) (p : Nat) :
    (s.dropMport p).pending = s.pending ∧ (s.dropMport p).cfg = s.cfg ∧ (s.dropMport p).tables = s.tables := by
  simp [State.dropMport]
@[simp] theorem State.wake_keeps (s : State) :
    (s.wake).pending = s.pending ∧ (s.wake).cfg = s.cfg ∧ (s.wake).tables = s.tables := by
  simp [State.wake]
@[simp] theorem State.supplyFailed_keeps (s : State) (stay : Nat) :
    (s.supplyFailed stay).pending = s.pending ∧ (s.supplyFailed stay).cfg = s.cfg ∧ (s.supplyFailed stay).tables = s.tables := by
  simp [State.supplyFailed]
@[simp] theorem State.writeQueueReg_keeps (s : State) (q o : Nat) (data : Word) :
    (s.writeQueueReg q o data).pending = s.pending ∧ (s.writeQueueReg q o data).cfg = s.cfg ∧ (s.writeQueueReg q o data).tables = s.tables := by
  unfold State.writeQueueReg
  (repeat' split) <;> simp_all
@[simp] theorem State.writePghReg_keeps (s : State) (p o : Nat) (mid : BitVec 8) (data : Word) :
    (s.writePghReg p o mid data).pending = s.pending ∧ (s.writePghReg p o mid data).cfg = s.cfg ∧ (s.writePghReg p o mid data).tables = s.tables := by
  unfold State.writePghReg
  (repeat' split) <;> simp_all
@[simp] theorem State.writeTallyReg_keeps (s : State) (off : Nat) (data : Word) :
    (s.writeTallyReg off data).pending = s.pending ∧ (s.writeTallyReg off data).cfg = s.cfg ∧ (s.writeTallyReg off data).tables = s.tables := by
  simp [State.writeTallyReg]
@[simp] theorem State.writeStewardReg_keeps (s : State) (off : Nat) (data : Word) :
    (s.writeStewardReg off data).pending = s.pending ∧ (s.writeStewardReg off data).cfg = s.cfg := by
  unfold State.writeStewardReg
  (repeat' split) <;> simp_all
@[simp] theorem State.writeSpecial_keeps (s : State) (mid : BitVec 8) (off : Nat) (data : Word) :
    (s.writeSpecial mid off data).pending = s.pending ∧ (s.writeSpecial mid off data).cfg = s.cfg := by
  unfold State.writeSpecial
  (repeat' split) <;> simp_all
@[simp] theorem State.cpWrite_keeps (s : State) (mid : BitVec 8) (off : Nat) (data : Word) :
    (s.cpWrite mid off data).pending = s.pending ∧ (s.cpWrite mid off data).cfg = s.cfg := by
  unfold State.cpWrite
  (repeat' split) <;> simp_all
@[simp] theorem State.cpRead_keeps (s : State) (off : Nat) :
    (s.cpRead off).1.pending = s.pending ∧ (s.cpRead off).1.cfg = s.cfg ∧ (s.cpRead off).1.tables = s.tables := by
  simp [State.cpRead]
@[simp] theorem State.accessRegister_keeps (s : State) (a : CpAccess) :
    (s.accessRegister a).1.pending = s.pending ∧ (s.accessRegister a).1.cfg = s.cfg := by
  unfold State.accessRegister
  split <;> simp
@[simp] theorem State.tapAccess_keeps (s : State) (a : CpAccess) :
    (s.tapAccess a).pending = s.pending ∧ (s.tapAccess a).cfg = s.cfg := by
  unfold State.tapAccess
  dsimp only
  (repeat' split) <;> simp_all
@[simp] theorem State.corridorDeliver_keeps (s : State) (i : CorItem) :
    (s.corridorDeliver i).pending = s.pending ∧ (s.corridorDeliver i).cfg = s.cfg := by
  unfold State.corridorDeliver
  (repeat' split) <;> simp_all [eq_pair]
@[simp] theorem State.itemFails_keeps (s : State) (i : CorItem) :
    (s.itemFails i).pending = s.pending ∧ (s.itemFails i).cfg = s.cfg ∧ (s.itemFails i).tables = s.tables := by
  unfold State.itemFails
  (repeat' split) <;> simp_all
@[simp] theorem State.itemsFail_keeps (s : State) (failed : List Nat) (items : List CorItem) :
    (s.itemsFail failed items).pending = s.pending ∧ (s.itemsFail failed items).cfg = s.cfg ∧ (s.itemsFail failed items).tables = s.tables := by
  unfold State.itemsFail
  refine kept_foldlFst _ _ _ _ (fun a x => ?_) (by simp)
  split
  · split <;> simp
  · simp
@[simp] theorem State.failCorridor_keeps (s : State) :
    (s.failCorridor).pending = s.pending ∧ (s.failCorridor).cfg = s.cfg ∧ (s.failCorridor).tables = s.tables := by
  unfold State.failCorridor
  dsimp only
  simp only [State.sweep_keeps, State.countersLost_keeps]
  refine kept_foldl _ _ _ _ (fun a x => ?_) (by simp)
  split
  · simp
  · split <;> simp

end Sys2Proof.Machine
end

