-- ==== Sys2Proof/Laws/Ops.lean ====
section
/-!
SUPPORT. What the shared operations answer: a control-port write, an itinerary's instruction, a queue's command; that the Hall
keeps its canonical form; and what a reading gives.
-/

namespace Sys2Proof.Machine

/-- A write that is performed has its effect, and OK is answered. -/
theorem cpEffect_performs {s : State} {off : Nat} (f : State → State) (h : s.performs off) :
    s.cpEffect off f = .next (f s).respondOk := by
  simp [State.cpEffect, State.cpWriteAt, State.cpTakes, whenever, h.1, h.2.1, h.2.2, State.respondOk, State.drive]

/-- A control port that does not run takes nothing. -/
theorem cpEffect_stopped {s : State} {off : Nat} (f : State → State) (h : s.portRuns = false) : s.cpEffect off f = .next s := by
  simp [State.cpEffect, State.cpWriteAt, State.cpTakes, whenever, h]

/-- A write answered NOTREADY, DECODE or TIMEOUT has no effect (R57, log 112). -/
theorem cpEffect_refused {s : State} {off : Nat} (f : State → State) (hp : s.portRuns = true) (hw : s.cpWaits = [])
    (h : s.cpAnswer (BitVec.ofNat 24 off) ≠ .ok) (hc : s.cpAnswer (BitVec.ofNat 24 off) ≠ .crosses) :
    s.cpEffect off f = .next (s.drive (.cpResponse (cpCode (s.cpAnswer (BitVec.ofNat 24 off))) 0#32)) := by
  cases ha : s.cpAnswer (BitVec.ofNat 24 off) <;>
    simp_all [State.cpEffect, State.cpWriteAt, State.cpTakes, whenever, State.cpReply]

/-- A write to a register of the East wing crosses the Corridor, and its answer is owed (R9, R403). -/
theorem cpWriteAt_crosses {s : State} {off : Nat} (mid : BitVec 8) (data : Word) (f : State → State) (ht : s.cpTakes = true)
    (h : s.cpAnswer (BitVec.ofNat 24 off) = .crosses) :
    s.cpWriteAt mid off data f = .next (s.cpSend { write := some (mid, data), off := off, tap := false }) := by
  simp [State.cpWriteAt, whenever, ht, h]

/-- An instruction that decides no marking runs on the state as it is. -/
theorem onIns_runs {s : State} {lane op : Nat} {i : Itin} (f : State → Itin → BitVec 64 → Res) (h : s.runsIns lane op i)
    (hd : decides op = false) : s.onIns lane op f = f s i i.next := by
  simp [State.onIns, h.1, h.2.1, h.2.2.1, h.2.2.2.1, h.2.2.2.2, hd]

/-- An instruction another than which the lane runs changes nothing. -/
theorem onIns_other {s : State} {lane op : Nat} {i : Itin} (f : State → Itin → BitVec 64 → Res) (hr : s.running lane = some i)
    (h : insOp i.next ≠ op) : s.onIns lane op f = .next s := by
  simp [State.onIns, hr, h]

/-- A lane that runs no itinerary executes nothing. -/
theorem onIns_idle {s : State} {lane op : Nat} (f : State → Itin → BitVec 64 → Res) (hr : s.running lane = none) :
    s.onIns lane op f = .next s := by
  simp [State.onIns, hr]

/-- The command the gate lets through is acted on. -/
theorem onGate_go {s : State} {q : Nat} {isOp : Nat → Bool} {c : Cmd} (f : State → Cmd → State) (h : s.gate q isOp = .go c) :
    s.onGate q isOp f = .next (f s c) := by
  simp [State.onGate, h]

/-- A command that may not start yet changes nothing. -/
theorem onGate_wait {s : State} {q : Nat} {isOp : Nat → Bool} (f : State → Cmd → State) (h : s.gate q isOp = .wait) :
    s.onGate q isOp f = .next s := by
  simp [State.onGate, h]

/-- What the gate asks of the command it lets through. -/
theorem gate_go {s : State} {q : Nat} {isOp : Nat → Bool} {c : Cmd} (h : s.gate q isOp = .go c) :
    s.alive = true ∧ (s.queue q).executing = true ∧ (s.queue q).next isOp = some c ∧ isOp (cmdOp c.bytes) = true ∧
      (s.queue q).mayStart c = true ∧ cmdOk c.bytes s.cfg.sems = true := by
  unfold State.gate at h
  simp only [] at h
  split at h
  · cases h
  · split at h
    · cases h
    · rename_i c' hn
      have hc := List.find?_some hn
      split at h
      · cases h
      · split at h
        · cases h
        · cases h; simp_all

/-- Writing numbers one after another keeps the canonical form. -/
theorem Bank.wf_foldl_set {α β : Type} [Inhabited α] [DecidableEq α] (f : β → Nat) (g : β → α) (l : List β) (b : Bank α)
    (h : b.wf = true) : (l.foldl (fun a x => a.set (f x) (g x)) b).wf = true := by
  induction l generalizing b with
  | nil => exact h
  | cons x l ih => exact ih _ (Bank.wf_set b _ _ h)

/-- Choosing among bytes that alias uses up free values and nothing else (R129). -/
theorem resolve_free (s : State) (bytes : List (Nat × Byte)) : { (s.resolve bytes).1 with free := s.free } = s := by
  unfold State.resolve
  generalize bytes.foldl (fun a b => groupIn b.1 b.2 a) [] = gs
  suffices h : ∀ (gs : List (Nat × List Byte)) (a : State × List (Nat × Byte)), { a.1 with free := s.free } = s →
      { (gs.foldl (fun a g =>
        let (s, b) := a.1.pickAny g.2
        (s, a.2 ++ [(g.1, b)])) a).1 with free := s.free } = s from h gs _ rfl
  intro gs
  induction gs with
  | nil => intro a h; exact h
  | cons g gs ih =>
    intro a h
    rw [List.foldl_cons]
    apply ih
    simp only [State.pickAny]
    split <;> exact h

/-- In reset the Hall lists nothing. -/
theorem reset_hall_wf : State.reset.hall.wf = true := rfl

/-- Storing into a unit an injection may be armed for leaves the Hall as it is. -/
@[simp] theorem stored_hall (s : State) (c : Nat) (east : Bool) (unit : Nat) : (s.stored c east unit).hall = s.hall := by
  unfold State.stored
  simp only []
  split <;> rfl

@[simp] theorem hallStored_hall (s : State) (east : Bool) : (s.hallStored east).hall = s.hall := by
  unfold State.hallStored
  split
  · split
    · exact stored_hall s 1 east _
    · rfl
  · rfl

/-- Counting an occurrence changes the Tally and nothing else (R389-R392). -/
theorem count_tally (s : State) (u ev qual n : Nat) : { s.count u ev qual n with tally := s.tally } = s := by
  unfold State.count
  split
  · rfl
  · generalize List.range 16 = l
    suffices h : ∀ (l : List Nat) (a : State), { a with tally := s.tally } = s → { (l.foldl (fun a k =>
        if a.tlyCounts u k ev qual then a.countOne u k n else a) a) with tally := s.tally } = s from h l s rfl
    intro l
    induction l with
    | nil => intro a h; exact h
    | cons k l ih =>
      intro a h
      rw [List.foldl_cons]
      apply ih
      split
      · exact h
      · exact h

@[simp] theorem count_hall (s : State) (u ev qual n : Nat) : (s.count u ev qual n).hall = s.hall :=
  by
  have h := congrArg State.hall (count_tally s u ev qual n)
  exact h

@[simp] theorem count_regs (s : State) (u ev qual n : Nat) : (s.count u ev qual n).regs = s.regs :=
  by
  have h := congrArg State.regs (count_tally s u ev qual n)
  exact h

/-- A write into a Hall slot, the one operation that writes the Hall, keeps its canonical form. -/
theorem writeSlot_hall_wf {s : State} {t : Tile} {d : BitVec 1024} {h : HeldSlot} (bytes : List (Nat × Byte))
    (hc : s.ringClient h.ring = false) (hw : s.hall.wf = true) : (s.writeSlot t d h bytes).hall.wf = true := by
  unfold State.writeSlot
  generalize hp : (if tdAccum d then (s, if s.ringClient h.ring then bytes else s.hallSums h (tdDtype d) bytes)
    else s.resolve bytes) = p
  have hf : { p.1 with free := s.free } = s := by
    subst hp
    split
    · rfl
    · exact resolve_free s bytes
  have hr : p.1.regs = s.regs := by have h := congrArg State.regs hf; exact h
  have hh : p.1.hall = s.hall := by have h := congrArg State.hall hf; exact h
  have hq (n : Nat) : (p.1.count (unitLane t.lane) 0x0E t.q n).ringClient h.ring = false := by
    rw [← hc]; simp only [State.ringClient, State.flag, State.reg, count_regs, hr]
  obtain ⟨a, l⟩ := p
  have hh : a.hall = s.hall := hh
  simp only [hq, Bool.false_eq_true, ↓reduceIte]
  apply Bank.wf_foldl_set
  simpa only [hallStored_hall, count_hall, hh] using hw

/-- Bytes that have all come, collected. -/
theorem collect_some (l : List Byte) : (l.map some).foldr (fun x a => match x, a with
    | some b, some l => some (b :: l)
    | _, _ => none) (some []) = some l := by
  induction l with
  | nil => rfl
  | cons b l ih => rw [List.map_cons, List.foldr_cons, ih]

/-- Of a stretch that begins at `a` a reading gives its first bytes, once they are the first that have come there. -/
theorem Reading.bytes_own {r : Reading} {a n : Nat} {l : List Byte} {rest : List (Nat × List Byte)} (h : r.got = (a, l) :: rest)
    (hn : n ≤ l.length) : r.bytes a n = some (l.take n) := by
  have hm : (List.range n).map (fun i => r.byte (a + i)) = (l.take n).map some := by
    apply List.ext_getElem (by simp [hn])
    intro i h1 h2
    have hi : i < n := by simpa using h1
    have hl : i < l.length := by omega
    simp [Reading.byte, h, hl]
  rw [Reading.bytes, hm]; exact collect_some _

/-- Bytes beyond the first stretch are those of the others. -/
theorem Reading.bytes_beyond {r : Reading} {a va n : Nat} {l : List Byte} {rest : List (Nat × List Byte)} (h : r.got = (a, l) :: rest)
    (ha : a + l.length ≤ va) : r.bytes va n = ({ r with got := rest } : Reading).bytes va n := by
  have hb (i : Nat) : r.byte (va + i) = ({ r with got := rest } : Reading).byte (va + i) := by
    have hc : (decide (a ≤ va + i) && decide (va + i < a + l.length)) = false := by simp; omega
    simp [Reading.byte, h, hc]
  simp only [Reading.bytes, hb]

@[simp] theorem natBytes_length (n v : Nat) : (natBytes n v).length = n := by
  induction n generalizing v with
  | zero => rfl
  | succ n ih => simp [natBytes, ih]

/-- The number that little-endian bytes spell. -/
theorem leNat_natBytes (n v : Nat) : leNat (natBytes n v) = v % 256 ^ n := by
  induction n generalizing v with
  | zero => simp [natBytes, leNat, Nat.mod_one]
  | succ n ih =>
    have h : leNat (natBytes (n + 1) v) = v % 256 + 256 * leNat (natBytes n (v / 256)) := by simp [natBytes, leNat]
    rw [h, ih, Nat.pow_succ', Nat.mod_mul]

end Sys2Proof.Machine
end

