-- ==== Sys2Proof/Tests/Slice0.lean ====
section
/-!
SUPPORT. Tests on small states: every check of well-formedness refuses an ill-formed command, single steps whose results are
worked out by hand from the spec's rules, and, for the statements of Certificates/Slice0/Obligations.lean, states and operands
that meet the hypotheses of each clause together.
-/

namespace Sys2Proof.Tests

-- One theorem after another: each waits for the kernel, and a thread that waits holds its whole stack.
set_option Elab.async false

open Sys2Proof.Machine

-- The states the tests are about.

/-- A block of NRK3-X in N0, out of reset, its start complete and its Steward running. -/
def live : State := { State.reset with
  pins := { State.reset.pins with poreset := false, pllLocked := true, pmVlvl := 2#2 }
  boot := { State.reset.boot with stwState := 2#4, ready := true, step := 16 }
  power := { State.reset.power with running := 10 } }

def memUp (s : State) (p rc wc : Nat) : State :=
  (s.updMport p (fun _ => { (default : MPort) with linkReq := true, linkAck := true, reqCred := rc, wdCred := wc })).setBits
    offMportLink (oneBit p)

def cliUp (s : State) (c n : Nat) : State :=
  (s.updCport c (fun _ => { (default : CPort) with linkReq := true, linkAck := true, credits := n })).setBits offCportLink
    (oneBit c)

def remUp (s : State) (x n : Nat) : State :=
  (s.updXport x (fun _ => { (default : XPort) with linkReq := true, linkAck := true, cred0 := n, cred1 := n })).setBits
    offXportLink (oneBit x)

/-- Every memory port up, with a credit of each kind. -/
def allUp (s : State) : State := (List.range 16).foldl (fun a p => memUp a p 1 1) s

/-- A range of ASID 1 that covers the lowest 16 pages, identity mapped. -/
def mapped (s : State) : State := { s with l2 := s.l2.set 0 [⟨1#16, 0#44, 16, 0#40, 7#3⟩] }

/-- What has been read for `who`: these stretches. -/
def readFor (who : Reader) (got : List (Nat × List Byte)) (s : State) : State :=
  { s with readings := ⟨95, who, 40, [], got, []⟩ :: s.readings }

theorem readFor_own {who : Reader} {got : List (Nat × List Byte)} {s : State} :
    (readFor who got s).reading who = some ⟨95, who, 40, [], got, []⟩ := by
  simp [readFor, State.reading]

theorem readFor_other {who w : Reader} {got : List (Nat × List Byte)} {s : State} (h : who ≠ w) :
    (readFor who got s).reading w = s.reading w := by
  simp [readFor, State.reading, h]

/-- A stretch, or the beginning of one, that has been read. -/
theorem readFor_bytes {who : Reader} {a n : Nat} {l l2 : List Byte} {rest : List (Nat × List Byte)} {s : State} (h : l.length = n) :
    ((readFor who ((a, l ++ l2) :: rest) s).reading who).bind (fun r => r.bytes a n) = some l := by
  rw [readFor_own, Option.bind_some, Reading.bytes_own (rest := rest) (l := l ++ l2) rfl (by simp [h]), List.take_append_of_le_length (by omega),
    List.take_of_length_le (by omega)]

theorem readFor_all {who : Reader} {a n : Nat} {l : List Byte} {rest : List (Nat × List Byte)} {s : State} (h : l.length = n) :
    ((readFor who ((a, l) :: rest) s).reading who).bind (fun r => r.bytes a n) = some l := by
  simpa using readFor_bytes (who := who) (a := a) (l2 := []) (rest := rest) (s := s) h

theorem readFor_second {who : Reader} {a va n : Nat} {l m : List Byte} {s : State} (h : a + l.length ≤ va) (hm : m.length = n) :
    ((readFor who [(a, l), (va, m)] s).reading who).bind (fun r => r.bytes va n) = some m := by
  rw [readFor_own, Option.bind_some, Reading.bytes_beyond (rest := [(va, m)]) rfl h, Reading.bytes_own (rest := []) rfl (by omega),
    List.take_of_length_le (by omega)]

/-- The bytes of a 64-byte record. -/
def bytesOf (w : BitVec 512) : List Byte := natBytes 64 w.toNat

theorem bytesOf_length (w : BitVec 512) : (bytesOf w).length = 64 := natBytes_length _ _

theorem words512_bytesOf (w : BitVec 512) : words512 (bytesOf w) = w := by
  have h : (256 : Nat) ^ 64 = 2 ^ 512 := by rw [show (256 : Nat) = 2 ^ 8 from rfl, ← Nat.pow_mul]
  rw [words512, bytesOf, leNat_natBytes, h, Nat.mod_eq_of_lt w.isLt, BitVec.ofNat_toNat, BitVec.setWidth_eq]

/-- A record made of fields, each a value and its bit position. -/
def word (n : Nat) (fs : List (Nat × Nat)) : BitVec n := BitVec.ofNat n (fs.foldl (fun a f => a + f.1 * 2 ^ f.2) 0)

def cmdOf (idx : Nat) (started : Bool) (fs : List (Nat × Nat)) : Cmd :=
  ⟨BitVec.ofNat 16 idx, word 512 fs, started, false, false, 0, false, false⟩

/-- Queue `q` enabled with ASID 1 and class 1, in state `st`, with these commands in its ring. -/
def withCmds (s : State) (q : Nat) (st : QState) (cs : List Cmd) : State :=
  (s.setQueue q { (default : Queue) with st := st, tail := BitVec.ofNat 16 cs.length, cmds := cs }).setReg (offQ q qCfg)
    0x83FD0001#32

-- Witnesses: the block as a whole, resets and power.

theorem witness_step : ({ live with pending := [.pllLock, .snap] } : State).pending = .pllLock :: [.snap] := rfl

theorem witness_idle : live.pending = [] ∧ live.alive = true := by decide +kernel

theorem witness_step_next : ({ live with pending := [.pllLock] } : State).pending = .pllLock :: [] ∧
    step { live with pending := [.pllLock] } = .next live := ⟨rfl, rfl⟩

/-- Queue 2 with table 7 at two versions. -/
def tabled : State := live.setTable 7 { slots := [⟨3#32, .superseded, 1#16, 0#512⟩, ⟨4#32, .current, 1#16, 0#512⟩], last := 4#32, retcnt := 0#32 }

theorem witness_versions : (tabled.table 7).sound ∧ (tabled.table 8).sound := by unfold Table.sound; decide +kernel

theorem witness_warmreset : live.power.st ≠ .n3 := by decide +kernel

theorem witness_poreset_release : State.reset.pins.poreset = true := by decide +kernel

def warm : State := { live with pins := { live.pins with warmreset := true } }

theorem witness_warm_release : warm.pins.warmreset = true ∧ warm.pins.poreset = false := by decide +kernel

def unlocked : State := { live with pins := { live.pins with pllLocked := false } }

theorem witness_pll : unlocked.pins.poreset = false ∧ unlocked.pins.pllLocked = false := by decide +kernel

def tapDone : State := { live with tap := { (default : Tap) with done := true, rdata := 5#32 } }

theorem witness_capture : tapDone.power.st ≠ .n3 ∧ tapDone.tap.done = true ∧ tapDone.tap.busy = false ∧ tapDone.tap.err = 0#2 := by
  decide +kernel

/-- A CPACC read of ID_DEVICE. -/
def readDr : BitVec 58 := word 58 [(0x10, 33)]

theorem witness_update : live.portRuns = true ∧ bitAt readDr 57 = false ∧ bits readDr 33 24 ≠ offTlyCcycLo ∧
    live.cpAnswer (BitVec.ofNat 24 (bits readDr 33 24)) = .ok ∧ live.tapAway = false ∧
    bitAt (word 58 [(0x080014, 33)]) 57 = false ∧ bits (word 58 [(0x080014, 33)]) 33 24 ≠ offTlyCcycLo ∧
    live.cpAnswer (BitVec.ofNat 24 (bits (word 58 [(0x080014, 33)]) 33 24)) = .crosses := by decide +kernel

theorem witness_therm_warn : live.alive = true ∧ live.power.st = .n0 ∧ live.pins.thermWarn ≠ true ∧ live.pins.thermCrit = false := by
  decide +kernel

def hot : State := { withCmds live 63 .suspended [] with pins := { live.pins with thermCrit := true } }

theorem witness_therm_fall : hot.alive = true ∧ hot.power.st = .n0 ∧ hot.pins.thermCrit = true := by decide +kernel

theorem witness_therm_queue : (withCmds live 63 .running []).pins.thermCrit = false ∧ 63 < (withCmds live 63 .running []).cfg.queues ∧
    ((withCmds live 63 .running []).queue 63).st = .running := by decide +kernel

/-- The block in a power state and phase, TARGET at `target`. -/
def inPower (st : PwrState) (phase : PwrPhase) (target : Nat) : State :=
  ({ live with power := { live.power with st := st, phase := phase } } : State).putTarget target

theorem witness_vlvl_off : (inPower .n2 .offVolt 3).power.phase = .offVolt := by decide +kernel

theorem witness_vlvl_retention : (inPower .n1 .retentionVolt 2).power.phase = .retentionVolt ∧
    1#2 ≠ (inPower .n1 .retentionVolt 2).pins.pmVreq := by decide +kernel

theorem witness_vlvl_wake : (inPower .n2 .wakeVolt 0).power.phase = .wakeVolt ∧ (inPower .n2 .wakeVolt 0).target = 0 ∧
    0#2 ≠ (inPower .n2 .wakeVolt 0).pins.pmVreq := by decide +kernel

theorem witness_vlvl_wake_n1 : (inPower .n2 .wakeVolt 1).power.phase = .wakeVolt ∧ (inPower .n2 .wakeVolt 1).target ≠ 0 := by decide +kernel

/-- The exit from N2 waits for the voltage, and for the link of port 15 then. -/
def relinking : State :=
  { inPower .n2 .wakeVolt 0 with power := { (inPower .n2 .wakeVolt 0).power with lowered := [.mem 15] } }

theorem witness_vlvl_links : relinking.power.phase = .wakeVolt ∧ LinkPort.mem 15 ∈ relinking.power.lowered ∧
    relinking.linkSettled (.mem 15) = false ∧ (inPower .n2 .wakeVolt 0).power.lowered = [] := by decide +kernel

def ramping (k : Nat) (hold booting : Bool) : State :=
  { inPower .n1 (.ramp k) 0 with
    pins := { live.pins with hold := hold, loadup := true }
    boot := { live.boot with booting := booting } }

theorem witness_ramp_hold : (ramping 0 true false).power.phase = .ramp 0 ∧ (ramping 0 true false).pins.hold = true ∧
    (ramping 0 true false).pins.thermCrit = false := by decide +kernel

theorem witness_ramp_first : (ramping 0 false false).power.phase = .ramp 0 ∧ (ramping 0 false false).alive = true ∧
    (ramping 0 false false).pins.hold = false ∧ (ramping 0 false false).pins.thermCrit = false ∧
    0 + 1 < (ramping 0 false false).cfg.rampUnits := by decide +kernel

theorem witness_ramp_last : (ramping 9 false false).alive = true ∧ (ramping 9 false false).cfg.rampUnits ≤ 9 + 1 ∧
    (ramping 9 false false).boot.booting = false ∧ (ramping 9 false true).boot.booting = true := by decide +kernel

theorem witness_target_refused : ({ live with boot := { live.boot with stwState := 4#4 } } : State).performs offPwrCtrl ∧
    ({ live with boot := { live.boot with stwState := 4#4 } } : State).stwRunning = false ∧ bits 1#32 0 2 ≠ live.target := by
  unfold State.performs; decide +kernel

theorem witness_target_n1 : live.performs offPwrCtrl ∧ live.stwRunning = true ∧ live.ready = true ∧ live.power.st = .n0 ∧
    live.power.phase = .rest ∧ live.target = 0 ∧ bits 3#32 0 2 ≠ 0 := by unfold State.performs; decide +kernel

/-- A RUN waits at queue 5 for N0. -/
def held (st : PwrState) (phase : PwrPhase) (target : Nat) : State :=
  withCmds (inPower st phase target) 5 .running [cmdOf 0 false [(0x01, 0), (0x1000, 64)]]

theorem witness_n1_entry : (inPower .n0 .drainToN1 1).alive = true ∧ (inPower .n0 .drainToN1 1).stwRunning = true ∧
    (inPower .n0 .drainToN1 1).power.phase = .drainToN1 ∧ (inPower .n0 .drainToN1 1).drained = true ∧
    ¬((inPower .n0 .drainToN1 1).autoWake = true ∧ (inPower .n0 .drainToN1 1).workWaits = true) := by decide +kernel

theorem witness_n1_abandoned : (held .n0 .drainToN1 1).alive = true ∧ (held .n0 .drainToN1 1).stwRunning = true ∧
    (held .n0 .drainToN1 1).power.phase = .drainToN1 ∧ (held .n0 .drainToN1 1).drained = true ∧
    (held .n0 .drainToN1 1).autoWake = true ∧ (held .n0 .drainToN1 1).workWaits = true := by decide +kernel

theorem witness_autowake : (held .n1 .rest 1).alive = true ∧ (held .n1 .rest 1).power.st = .n1 ∧ (held .n1 .rest 1).power.phase = .rest ∧
    (held .n1 .rest 1).autoWake = true ∧ (held .n1 .rest 1).workWaits = true ∧ (held .n1 .rest 1).stwRunning = true ∧
    (held .n1 .rest 1).ready = true ∧ (held .n1 .rest 1).target ≠ 0 := by decide +kernel

def toN2 : State := memUp (inPower .n1 .n2Wait 2) 15 1 1

theorem witness_n2_links : toN2.alive = true ∧ toN2.stwRunning = true ∧ toN2.power.st = .n1 ∧ toN2.power.phase = .n2Wait ∧
    toN2.n2Conditions = true ∧ toN2.supplySettled = true ∧ toN2.anyLink = true ∧
    (toN2.mport 15).linkAck = true := by decide +kernel

theorem witness_n2_unlinked : (inPower .n1 .n2Wait 2).n2Conditions = true ∧ (inPower .n1 .n2Wait 2).supplySettled = true ∧
    (inPower .n1 .n2Wait 2).anyLink = false ∧ (inPower .n1 .n2Wait 2).alive = true ∧ (inPower .n1 .n2Wait 2).stwRunning = true ∧
    (inPower .n1 .n2Wait 2).power.st = .n1 ∧ (inPower .n1 .n2Wait 2).power.phase = .n2Wait := by decide +kernel

theorem witness_n2_timeout : (held .n1 .n2Wait 2).alive = true ∧ (held .n1 .n2Wait 2).power.st = .n1 ∧
    (held .n1 .n2Wait 2).power.phase = .n2Wait ∧ (held .n1 .n2Wait 2).n2Conditions = false := by decide +kernel

/-- Port 15's link while LINK_REQ is low. -/
def lowered (phase : PwrPhase) : State :=
  (memUp (inPower .n1 phase 2) 15 3 3).updMport 15 (fun v => { v with linkReq := false })

theorem witness_link_fall : (lowered .rest).alive = true ∧ 15 < (lowered .rest).cfg.mports ∧ ((lowered .rest).mport 15).linkAck = true ∧
    ((lowered .rest).mport 15).linkReq = false ∧ (lowered .rest).power.phase ≠ .linkDrop ∧
    (lowered .linkDrop).alive = true ∧ (lowered .linkDrop).power.phase = .linkDrop ∧ ((lowered .linkDrop).mport 15).linkAck = true ∧
    ((lowered .linkDrop).mport 15).linkReq = false := by decide +kernel

theorem witness_n2_exit : (inPower .n2 .rest 0).inReset = false ∧ (inPower .n2 .rest 0).power.st = .n2 ∧
    (inPower .n2 .rest 0).power.phase = .rest ∧ (inPower .n2 .rest 0).supplySettled = true ∧ (inPower .n2 .rest 0).target ≠ 3 ∧
    (inPower .n2 .rest 3).target = 3 := by decide +kernel

-- Witnesses: boot, the Steward, pigeonholes.

/-- A block whose start is at boot step `n`, which has failed `fails` times in a row. -/
def booting (n fails : Nat) : State :=
  { live with boot := { live.boot with
      ready := false, booting := true, step := n, stwState := if n ≤ 5 then 0#4 else 1#4
      jrnl := live.boot.jrnl.set n { (default : JEntry) with outcome := 3#4, fails := fails } } }

def report (ok : Bool) : BootReport := { (default : BootReport) with ok := ok }

theorem witness_boot_passes : (booting 1 0).atStep 1 (report true) ∧ (booting 2 0).atStep 2 (report true) ∧
    (booting 6 1).atStep 6 (report true) ∧ (report true).ok = true ∧ (booting 16 0).atStep 16 (report true) := by
  unfold State.atStep; decide +kernel

theorem witness_boot_fails : ((booting 1 1).boot.jrnl.get 1).path ≠ 2#2 ∧ (booting 1 1).boot.step = 1 ∧
    (booting 1 1).mayEndStep (report false) = true ∧ (report false).ok = false ∧ (booting 1 1).alive = true ∧
    (booting 1 1).boot.booting = true ∧ 1 ≤ ((booting 1 1).boot.jrnl.get 1).fails := by decide +kernel

theorem witness_boot_restarts : (booting 6 0).mayEndStep (report false) = true ∧ ((booting 6 0).boot.jrnl.get 6).fails = 0 ∧
    ((booting 6 0).boot.jrnl.get 6).path ≠ 2#2 ∧ (booting 6 0).boot.step = 6 := by
  decide +kernel

/-- A report with a seed for every lane. -/
def seeded : BootReport := { report true with tiers := 0xFF#8, seeds := (List.range 64).map (fun i => BitVec.ofNat 32 (i + 1)) }

/-- A step that ends by its primary: the links are up, the tiers serve, and the ramp is over. -/
def passing (n : Nat) : State :=
  let s := if n = 4 then allUp (booting n 0) else if n = 10 then (List.range 4).foldl (fun a x => remUp a x 1) (booting n 0) else booting n 0
  { s.setReg offLdgTiers 0xFF#32 with larder := { s.larder with tiersUp := 0xFF#8 } }

theorem witness_boot_primary : (∀ n ∈ [3, 4, 8, 9, 10, 12, 13, 14, 15], (passing n).atStep n seeded) ∧ seeded.ok = true ∧
    seeded.rows = [] ∧ (passing 3).maskLanes seeded.lanes = [] ∧ (passing 4).unlinked 4 < (passing 4).cfg.mports ∧
    (∀ e, (passing 8).maskBanks seeded.banks e = []) ∧ (passing 12).badTiers seeded.tiers = 0#8 := by
  unfold State.atStep; decide +kernel

/-- A report of one failed lane, one failed bank and one failed tier. -/
def flawed : BootReport := { report false with lanes := 1#64, banks := 1#16, tiers := 0x7F#8 }

theorem witness_boot_alternate : (∀ n ∈ [3, 8, 11, 12], (passing n).mayEndStep flawed = true ∧ (passing n).boot.step = n ∧
      (passing n).policyNow n = 2) ∧ flawed.ok = false ∧ flawed.rows = [] ∧
    ((passing 3).spareLanes ((passing 3).maskLanes flawed.lanes)).2 = true ∧ ((passing 8).spareBanks flawed.banks).2 = true ∧
    ((booting 11 1).updStep 11 (fun e => { e with path := 2#2 })).mayEndStep flawed = true ∧
    (((booting 11 1).updStep 11 (fun e => { e with path := 2#2 })).boot.jrnl.get 11).path = 2#2 ∧
    (passing 12).badTiers flawed.tiers ≠ 0#8 := by decide +kernel

/-- Step `n`, whose image `which` at 0x1000 has been read: these bytes. -/
def imaged (n which : Nat) (got : List Byte) : State :=
  readFor .image [(0x1000, got)]
    { booting n 0 with boot := { (booting n 0).boot with ret := (booting n 0).boot.ret.set (offStwImg which) 0x1000#32, peerMax := 0xFFFF#16 } }

/-- A code image of one block: KIND, version 1, epoch 1, compatible from 0 to 0xFFFF, 64 bytes. -/
def codeImage (kind : Nat) : List Byte :=
  bytesOf (word 512 [(kind, 0), (1, 8), (7, 32), (1, 64), (0xFFFF, 96), (64, 160)]) ++ List.replicate 160 0#8

theorem witness_boot_image : (imaged 5 0 (codeImage 1)).atStep 5 { report true with sigOk := true } ∧
    (imaged 11 2 (codeImage 2)).atStep 11 { report true with sigOk := true } ∧
    ((imaged 5 0 (codeImage 1)).stepReads { report true with sigOk := true }).2 = true ∧
    ((imaged 11 2 (codeImage 2)).stepReads { report true with sigOk := true }).2 = true ∧
    (((imaged 5 0 (codeImage 1)).stepReads { report true with sigOk := true }).1.imageFound 0 1 true).1 = 0#8 ∧
    (((imaged 11 2 (codeImage 2)).stepReads { report true with sigOk := true }).1.imageFound 2 2 true).1 = 0#8 := by
  unfold State.atStep; decide +kernel

/-- A structure image with the one entry that must be there: LDG_ILV with all ports, granule 0 and WSEL 15. -/
def structEntry : BitVec 64 := word 64 [(offLdgIlv, 0), (0x0F00FFFF, 32)]

def structHead : BitVec 512 := word 512 [(0x53545233, 0), (3, 32), (3, 40), (9, 64), (1, 96)]

def structImage : List Byte :=
  natBytes 60 structHead.toNat ++ natBytes 4 (crc32c (natBytes 60 structHead.toNat ++ natBytes 8 structEntry.toNat)).toNat ++
    natBytes 8 structEntry.toNat

def structState : State := ((imaged 7 3 structImage).stepReads (report true)).1

theorem witness_boot_structure : (imaged 7 3 structImage).atStep 7 (report true) ∧
    ((imaged 7 3 structImage).stepReads (report true)).2 = true ∧
    structState.structImageBad structState.structFound.1 structState.structFound.2.1 structState.structFound.2.2 = none := by
  unfold State.atStep; decide +kernel

theorem witness_steward : live.alive = true ∧ live.stwRunning = true ∧ live.performs offStwCtrl ∧
    live.performs (offStwImg (3#2 : BitVec 2).toNat) := by unfold State.performs; decide +kernel

/-- Pigeonhole 15 between the Steward (side A) and the master with identity 3, with a request towards A pending. -/
def asking : State := (allUp live).setPgh 15 { (default : Pgh) with bind := 0x800003FF#32, unreadA := true, baLo := 0x1000#32, pend := 0x10000#32 }

def infoReq : BitVec 512 := word 512 [(1, 0), (0x2000, 64)]
def reportReq : BitVec 512 := word 512 [(2, 0), (0x2000, 64), (0x7000, 128)]
def powerReq : BitVec 512 := word 512 [(3, 0), (0x2000, 64), (1, 128)]

/-- The Steward has read the request of pigeonhole 15. -/
def reads (req : BitVec 512) : State := readFor (.hole 15) [(0x1000, bytesOf req)] asking

theorem witness_takes_next : asking.takesNext 15 true ∧ (asking.pgh 15).pointer true % 64 = 0 ∧
    asking.portTakes false ((asking.pgh 15).pointer true) := by unfold State.takesNext State.portTakes; decide +kernel

theorem serves_of {req : BitVec 512} (h : paDevice (fieldAt req 8 8) = 0) : (reads req).serves 15 req :=
  ⟨(by decide +kernel : asking.alive = true), (by decide +kernel : asking.stwRunning = true), h, _, _, readFor_own,
    Reading.bytes_own (rest := []) (l := bytesOf req) rfl (by simp [bytesOf_length]), by
      rw [List.take_of_length_le (by simp [bytesOf_length]), words512_bytesOf]⟩

theorem witness_serves : (reads infoReq).serves 15 infoReq ∧ (reads reportReq).serves 15 reportReq ∧
    (reads powerReq).serves 15 powerReq :=
  ⟨serves_of (by decide +kernel), serves_of (by decide +kernel), serves_of (by decide +kernel)⟩

theorem witness_info : reqWellFormed infoReq = true ∧ fieldAt infoReq 0 1 = 1 ∧ fieldAt infoReq 16 48 = 0 ∧
    (reads infoReq).recordGoes [((reqReplyPa infoReq).toNat, replyBytes infoReq .done (reads infoReq).infoBytes)] := by
  unfold State.recordGoes; decide +kernel

def dueNow (s : State) : State := { s with larder := { s.larder with due := some ⟨1, 0#48, 24, .empty, []⟩ } }

theorem witness_loadrpt : reqWellFormed reportReq = true ∧ fieldAt reportReq 0 1 = 2 ∧
    fieldAt reportReq 24 40 = 0 ∧ fieldAt reportReq 16 8 % 4096 = 0 ∧ fieldAt reportReq 16 8 < 2 ^ 52 ∧ (reads reportReq).larder.due = none ∧
    (dueNow (reads reportReq)).larder.due ≠ none ∧ (dueNow (reads reportReq)).reading (.hole 15) = (reads reportReq).reading (.hole 15) := by
  decide +kernel

theorem witness_power : reqWellFormed powerReq = true ∧ fieldAt powerReq 0 1 = 3 ∧
    fieldAt powerReq 17 47 = 0 ∧ fieldAt powerReq 16 1 ≤ 3 ∧ (reads powerReq).ready = true ∧
    (reads powerReq).power.st = .n0 ∧ (reads powerReq).power.phase = .rest ∧ (reads powerReq).target = 0 ∧
    fieldAt powerReq 16 1 ≠ 0 := by decide +kernel

/-- An unknown OP, arguments that are not allowed, and a POWER for the state the block is in. -/
def otherReqs : List (BitVec 512) :=
  [word 512 [(9, 0), (0x2000, 64)], word 512 [(1, 0), (0x2000, 64), (1, 128)], word 512 [(2, 0), (0x2000, 64), (0x7001, 128)],
    word 512 [(3, 0), (0x2000, 64), (7, 128)], word 512 [(3, 0), (0x2000, 64)]]

theorem witness_other_requests : (∀ r ∈ otherReqs, (reads r).serves 15 r) ∧ otherReqs.map (fun r => fieldAt r 0 1) = [9, 1, 2, 3, 3] ∧
    otherReqs.map (fun r => (fieldAt r 16 48, fieldAt r 16 8 % 4096, fieldAt r 16 1)) =
      [(0, 0, 0), (1, 1, 1), (0x7001, 1, 1), (7, 7, 7), (0, 0, 0)] ∧
    otherReqs.all reqWellFormed = true ∧ otherReqs.map (fun r => fieldAt r 17 47) = [0, 0, 0x70, 0, 0] ∧
    asking.target = 0 ∧ pwrCode asking.power.st = 0 ∧ asking.power.phase = .rest := by
  have h : otherReqs.all (fun r => paDevice (fieldAt r 8 8) == 0) = true := by decide +kernel
  refine ⟨fun r hr => serves_of (by simpa using List.all_eq_true.mp h r hr), ?_⟩
  decide +kernel

theorem witness_load_report : (dueNow live).alive = true ∧ (dueNow live).stwRunning = true ∧
    (dueNow live).larder.due = some ⟨1, 0#48, 24, .empty, []⟩ ∧ (dueNow live).larder.newAddrs = [] ∧
    paDevice (dueNow live).loadBase = (dueNow live).devid ∧ (dueNow (allUp live)).recordGoes [((dueNow (allUp live)).loadBase,
      loadBytes ⟨1, 0#48, 24, .empty, []⟩)] := by unfold State.recordGoes; decide +kernel

/-- Pigeonhole 15 between identities 3 (side A) and 4 (side B); `full` marks both pointers unread. -/
def talking (full : Bool) : State := live.setPgh 15 { (default : Pgh) with bind := 0x80000403#32, unreadA := full, unreadB := full }

theorem witness_pgh_bind : 15 < 16 ∧ (3#8 : BitVec 8) ≠ 0xFF#8 ∧ live.performs (offPgh 15 0x00) ∧ (live.pgh 15).locked = false ∧
    ¬(bitAt 0x80000403#32 31 = true ∧ (bits 0x80000403#32 0 8 = bits 0x80000403#32 8 8 ∨ bits 0x80000403#32 0 8 = 0xFE ∨
      bits 0x80000403#32 8 8 = 0xFE)) := by unfold State.performs; decide +kernel

theorem witness_pgh_sides : ((talking false).pgh 15).locked = true ∧ ((talking false).pgh 15).side 3#8 = some true ∧
    ((talking false).pgh 15).side 4#8 = some false ∧ (talking false).performs (offPgh 15 0x08) ∧
    (talking false).performs (offPgh 15 0x10) ∧ (((talking false).pghTurn 15 pghRing).pgh 15).unread false = false ∧
    (((talking false).pghTurn 15 pghRing).pgh 15).unread true = false ∧ (talking true).performs (offPgh 15 0x18) ∧
    bitAt 2#32 1 = true ∧ bitAt 2#32 0 = false ∧ bitAt 1#32 1 = false ∧ bitAt 1#32 0 = true ∧
    ((talking true).pghTurn 15 pghAck).boot.replies = [] ∧ (talking false).performs (offPgh 15 0x1C) ∧
    (talking false).performs (offPgh 15 0x20) ∧ (talking false).performs (offPgh 15 0x24) ∧ 0x10000#32 &&& 0x0000FFFF#32 = 0#32 ∧
    1#32 &&& 0xFFFF0000#32 = 0#32 ∧ 0x10000#32 &&& 0x0000FFFF#32 = ((talking false).pgh 15).mask &&& 0x0000FFFF#32 ∧
    1#32 &&& 0xFFFF0000#32 = ((talking false).pgh 15).mask &&& 0xFFFF0000#32 := by
  unfold State.performs; decide +kernel

theorem witness_pgh_refused : ((talking true).pgh 15).locked = true ∧ ((talking true).pgh 15).side 9#8 = none ∧
    ((talking true).pgh 15).side 3#8 = some true ∧ (((talking true).pghTurn 15 pghRing).pgh 15).unread (!true) = true ∧
    (talking true).outOfTurn 2015 pghRing 0#20 = false ∧ (talking true).performs (offPgh 15 0x1C) ∧
    (talking true).performs (offPgh 15 0x18) ∧ (talking true).performs (offPgh 15 0x08) ∧ (talking true).performs (offPgh 15 0x0C) ∧ (talking true).performs (offPgh 15 0x14) ∧
    ((talking true).pgh 15).side 4#8 = some false ∧
    (((talking true).pghTurn 15 pghRing).pgh 15).unread (!false) = true := by
  unfold State.performs; decide +kernel

/-- The Steward has sent a message through pigeonhole 15 that its partner has not acknowledged. -/
def answered : State := asking.setPgh 15 { asking.pgh 15 with unreadB := true }

theorem witness_pgh_steward_refused : (answered.pgh 15).side 0xFF#8 = some true ∧ (answered.pgh 15).locked = true ∧
    ((answered.pghTurn 15 pghRing).pgh 15).unread (!true) = true ∧ answered.alive = true ∧ answered.stwRunning = true := by decide +kernel

/-- R336: a write of the upper half of an unacknowledged pointer is ignored and sets BUSY_ERR, for either side. -/
theorem test_pgh_busy : ∀ x ∈ [(3#8, 0x0C), (4#8, 0x14)],
    let t := stateAfter (talking true) (exec (.registerWrite x.1 (BitVec.ofNat 24 (offPgh 15 x.2)) 5#32) (talking true))
    t.pgh 15 = (talking true).pgh 15 ∧ t.flag offPghEvents 0 = true := by decide +kernel

-- Witnesses: the Tally, reliability, the control port.

theorem witness_tally_requests : live.performs offTlyCtrl ∧ live.tally.record = none ∧ live.flag offTlyCtrl 31 ≠ true ∧
    live.performs offTlyCcycLo := by unfold State.performs; decide +kernel

/-- One request of the Tally is due at ccyc 40. -/
def edgeAt (a : TallyAsk) : State := { live with tally := { live.tally with reqs := [⟨a, some 40⟩], cnt := live.tally.cnt.set 5 9 } }

theorem witness_tally_edge : (edgeAt .clear).alive = true ∧ (edgeAt .clear).tally.record = none ∧ 40#48 ≠ (edgeAt .clear).ccyc ∧
    (edgeAt .clear).tally.reqs = [⟨.clear, some (40#48 : BitVec 48).toNat⟩] ∧
    (edgeAt (.snap true)).tally.reqs = [⟨.snap true, some (40#48 : BitVec 48).toNat⟩] ∧
    (edgeAt (.freeze true)).tally.reqs = [⟨.freeze true, some (40#48 : BitVec 48).toNat⟩] := by decide +kernel

def recording (q : Option Nat) (left : Option (List Nat) := some []) : State := { allUp live with tally := { live.tally with record := some ⟨q, false, left, []⟩ } }

theorem witness_tally_record : (recording none).alive = true ∧ (recording none).tally.record = some ⟨none, false, some [], []⟩ ∧
    (recording none).recordAway = false ∧
    (recording none).countersRead ⟨none, false, some [], []⟩ = true ∧ (recording none).fld offTlyDumpHi 0 20 * 2 ^ 32 + (recording none).fld offTlyDumpLo 6 26 * 64 = 0 ∧
    paDevice 0 = (recording none).devid ∧ (recording none).recordGoes [(0, (recording none).recordBytes ⟨none, false, some [], []⟩)] := by
  unfold State.recordGoes; decide +kernel

theorem witness_snapshot_stopped : (recording (some 63)).alive = true ∧ (recording (some 63)).tally.record = some ⟨some 63, false, some [], []⟩ ∧
    ((recording (some 63)).queue 63).task = none := by decide +kernel

def snapTask : Task := { (default : Task) with phase := .snapshot, snapVa := 0x4000#56 }

/-- The SNAPSHOT task of queue 63 has its record to write. -/
def snapshotting : State :=
  mapped ((withCmds (recording (some 63)) 63 .running [cmdOf 0 true [(0x01, 0), (0x1000, 64)]]).updQueue 63 (fun v =>
    { v with task := some snapTask }))

theorem witness_snapshot : snapshotting.alive = true ∧ (snapshotting.queue 63).task = some snapTask ∧ snapTask.phase = .snapshot ∧
    (snapshotting.queue 63).stopping = false ∧ snapshotting.recordAway = false ∧
    snapshotting.tally.record = some ⟨some 63, false, some [], []⟩ ∧
    snapshotting.countersRead ⟨some 63, false, some [], []⟩ = true := by decide +kernel

/-- A record whose East counters have not been asked for, of TLY_CTRL and of the SNAPSHOT task; the Corridor may have failed. -/
theorem witness_tally_asks : ∀ b, let s : State := { recording none none with corridor := { live.corridor with failed := b } }
    s.alive = true ∧ s.tally.record = some ⟨none, false, none, []⟩ ∧ s.eastCounters ⟨none, false, none, []⟩ ≠ [] ∧
    s.recordAway = false ∧ s.corridor.failed = b := by decide +kernel

/-- The record of the SNAPSHOT task takes in lane 32, of the East wing. -/
def snapAsking : State :=
  { snapshotting.setReg (offTlyUmask 1) 1#32 with tally := { snapshotting.tally with record := some ⟨some 63, false, none, []⟩ } }

theorem witness_snapshot_asks : snapAsking.alive = true ∧ snapAsking.eastCounters ⟨some 63, false, none, []⟩ ≠ [] ∧
    snapAsking.recordAway = false ∧ (snapAsking.queue 63).stopping = false ∧ (snapAsking.queue 63).task = some snapTask ∧
    snapAsking.corridor.failed = false := by decide +kernel

/-- That record lies in page 4, and goes out. -/
def snapshotPages : State := (snapshotting.snapPages 63 snapTask (snapshotting.recordBytes ⟨some 63, false, some [], []⟩).length).1

theorem witness_snapshot_pages :
    (snapshotting.snapPages 63 snapTask (snapshotting.recordBytes ⟨some 63, false, some [], []⟩).length).2 = some [(4, 4)] ∧
    (∀ c ∈ windowsAll (snapChunks 0x4000 [(4, 4)] (snapshotting.recordBytes ⟨some 63, false, some [], []⟩)),
      paDevice c.1 = snapshotting.devid) ∧
    snapshotPages.recordGoes (snapChunks 0x4000 [(4, 4)] (snapshotting.recordBytes ⟨some 63, false, some [], []⟩)) := by
  unfold State.recordGoes; decide +kernel

theorem witness_tally_select : live.performs (offTly 129 (8 * 15)) ∧ live.performs (offTly 129 (8 * 15 + 4)) ∧
    live.unitPresent 129 = true ∧ 15 < 16 ∧ selBad .x 129 15 0x80300000#32 (live.tlySelHi 129 15) = false ∧
    selBad .x 129 15 0x80400000#32 (live.tlySelHi 129 15) = true ∧ selBad .x 129 15 (live.tlySelLo 129 15) 0#32 = false ∧
    selBad .x 129 15 (live.tlySelLo 129 15) 0x400#32 = true := by unfold State.performs; decide +kernel

theorem witness_time_mark : live.alive = true ∧ live.ccyc.toNat % 65536 = 0 := by decide +kernel

theorem witness_corrected : live.alive = true ∧ (5#3 : BitVec 3).toNat < 6 ∧ live.cfg.hasWing (wingEast .east) = true ∧
    (5#3 : BitVec 3).toNat ≠ relLane ∧ live.rel.counts.cells = [] ∧
    windowCount (addEvents 1 (live.rel.counts.get (relKey 5 .east 0 0))) < live.relThresh 5 ∧ live.flag offLastCe0 31 = false := by decide +kernel

theorem witness_uncorrectable : live.alive = true ∧ live.cfg.hasWing (wingEast .east) = true ∧ 1535 < live.cfg.sems ∧
    live.ueSiteOk (.larderWay (2 ^ 19 - 1) 30) = true ∧ live.ueSiteOk (.larderDir 0) = true ∧ live.ueSiteOk (.semaphore 1535) = true ∧
    live.ueSiteOk (.ringPos 1023) = true ∧ tabled.ueSiteOk (.versionStore 7 4#32) = true ∧ tabled.cfg.twoWings = true ∧
    (withCmds live 5 .running []).ueSiteOk (.hall 5 true none 1#56 1#52) = true ∧ (withCmds live 5 .running []).mayFail 5 ∧
    (withCmds live 5 .running []).ueSiteOk (.laneStore 5 2) = true ∧ (3#3 : BitVec 3).toNat = ueClass (.larderDir 0) := by
  unfold State.mayFail; decide +kernel

/-- Lane 63 is to be replaced and tag bank 7 of the East wing has drained; `spare` allows the spares. -/
def failing (spare : Bool) : State :=
  { live.setReg offLdgSpare (if spare then 0x7F#32 else 0#32) with
    rel := { live.rel with lanesWait := [63], tagBanks := live.rel.tagBanks.set 15 .draining } }

theorem witness_lane_spare : (failing false).alive = true ∧ (failing false).stwRunning = true ∧
    (failing false).rel.lanesWait.contains 63 = true ∧ (failing false).pins.hold = false ∧ (failing false).power.phase = .rest ∧
    (failing false).itins = [] ∧ (failing false).tiles = [] ∧ ((failing false).lane 63).rwins = [] ∧
    (failing false).freeLaneSpare (laneEast 63) ((failing false).spareLaneMask (laneEast 63)) = none ∧
    (failing true).freeLaneSpare (laneEast 63) ((failing true).spareLaneMask (laneEast 63)) = some 0 := by decide +kernel

theorem witness_tag_spare : 7 < (failing true).cfg.tagBanks ∧ (failing true).rel.tagBanks.get 15 = .draining ∧
    (failing true).outs = [] ∧ (failing true).freeTagSpare (wingEast .east) = true ∧
    (failing false).freeTagSpare (wingEast .east) = false := by decide +kernel

theorem witness_rel_writes : live.performs offRelInject ∧ (5#3 : BitVec 3).toNat < 6 ∧
    live.performs (offCeCfg (5#3 : BitVec 3).toNat) := by unfold State.performs; decide +kernel

theorem witness_register_refused : live.portRuns = true ∧ (0x150000 ≤ (0x150000#24).toNat ∨ (0x150000#24).toNat % 4 ≠ 0) ∧
    (0x150000 ≤ (0x02#24).toNat ∨ (0x02#24).toNat % 4 ≠ 0) ∧ (0x14FFFC#24).toNat < 0x150000 ∧ (0x01000C#24).toNat % 4 = 0 ∧
    (booting 1 0).blockAnswers ((0x01000C#24).toNat / 0x10000) = false := by decide +kernel

theorem witness_register_write : live.cpAnswer 0x080000#24 = .ok ∧ live.offPresent 0x080000 = true ∧ isRwt 0x080000 = false ∧
    rwMask 0x080000 = some 0x1F#32 ∧ live.cpAnswer 0x040000#24 = .ok ∧ live.offPresent 0x040000 = true ∧ isRwt 0x040000 = false ∧
    rwMask 0x040000 = none ∧ w1cMask 0x040000 = some 0xF#32 := by decide +kernel

theorem witness_timeout : ({ live with corridor := { live.corridor with failed := true } } : State).portRuns = true ∧
    ({ live with corridor := { live.corridor with failed := true } } : State).cpAnswer 0x080014#24 = .timeout := by decide +kernel

/-- An East register; the port owes one answer, or eight. -/
theorem witness_access_crosses : live.cpAnswer 0x080014#24 = .crosses ∧ live.cpWaits = [] ∧
    ({ live with cpWaits := [none] } : State).portRuns = true ∧ ({ live with cpWaits := [none] } : State).cpWaits.length < 8 ∧
    ({ live with cpWaits := [none] } : State).cpAnswer 0x080014#24 = .crosses ∧
    ({ live with cpWaits := List.replicate 8 none } : State).portRuns = true ∧
    8 ≤ ({ live with cpWaits := List.replicate 8 none } : State).cpWaits.length := by decide +kernel

-- Witnesses: memory ports.

def linking : State := live.updMport 15 (fun v => { v with linkReq := true })

theorem witness_mem_link : linking.alive = true ∧ 15 < linking.cfg.mports ∧ (linking.mport 15).linkReq = true ∧
    (linking.mport 15).linkAck = false ∧ (linking.mport 15).absent = false ∧ ((memUp live 15 255 511).mport 15).linkAck = true := by
  decide +kernel

theorem witness_no_link_wait : linking.noLinkWait := by unfold State.noLinkWait; exact fun _ h => by cases h

/-- An exit from N2 waits for the link of `p` alone. -/
def lastLink (p : LinkPort) (target : Nat) (s : State) : State :=
  ({ s with power := { s.power with st := .n1, phase := .linkUp [p] } } : State).putTarget target

theorem witness_mem_link_last : (lastLink (.mem 15) 0 linking).alive = true ∧ ((lastLink (.mem 15) 0 linking).mport 15).linkReq = true ∧
    ((lastLink (.mem 15) 0 linking).mport 15).linkAck = false ∧ ((lastLink (.mem 15) 0 linking).mport 15).absent = false ∧
    (lastLink (.mem 15) 0 linking).power.phase = .linkUp [.mem 15] ∧ (lastLink (.mem 15) 0 linking).target = 0 ∧
    (lastLink (.mem 15) 1 linking).power.phase = .linkUp [.mem 15] ∧ (lastLink (.mem 15) 1 linking).target ≠ 0 := by decide +kernel

/-- A request of queue 5 at memory port 1, from lane 0. -/
def reqOf (op : BitVec 3) (slot : Option Nat) : Req :=
  { (default : Req) with id := 50, port := 1, op := op, pa := 0x1000, len := 64, asid := 1#16, prio := 1#2,
                         cat := if op = 0#3 then .read else .write, q := some 5, holder := .lane 0, stream := 40, slot := slot,
                         bytes := if op = 0#3 then [] else (List.range 64).map (fun i => (0x1000 + i, 7#8)) }

def waitingReq (op : BitVec 3) (slot : Option Nat) (rc : Nat) : State :=
  { memUp live 1 rc 1 with waiting := [reqOf op slot], nextId := 60 }

theorem witness_arbitration : (waitingReq 0#3 none 1).alive = true ∧ (waitingReq 0#3 none 1).mportUp 1 = true ∧
    (waitingReq 0#3 none 1).waiting.any (fun r => r.port == 1 && r.slot.isSome) = false ∧
    ((waitingReq 0#3 none 1).mport 1).reqCred = 1 ∧ ((waitingReq 0#3 none 0).mport 1).reqCred = 0 ∧
    ((waitingReq 0#3 none 1).pickOne 1).map (fun p => p.1) = some 50 := by decide +kernel

theorem witness_issue_read : (waitingReq 0#3 (some 0) 1).pickedReq 1 0#2 0#3 = some (reqOf 0#3 (some 0)) ∧
    (waitingReq 0#3 (some 0) 1).mayIssue 1 (reqOf 0#3 (some 0)) 0xFFFF#17 = true := by decide +kernel

theorem witness_issue_write : (waitingReq 2#3 (some 3) 1).pickedReq 1 3#2 2#3 = some (reqOf 2#3 (some 3)) ∧
    (waitingReq 2#3 (some 3) 1).mayIssue 1 (reqOf 2#3 (some 3)) 0x1FFF#17 = true ∧
    (waitingReq 1#3 (some 0) 1).mayIssue 1 (reqOf 1#3 (some 0)) 0#17 = true ∧
    (waitingReq 3#3 (some 0) 1).mayIssue 1 (reqOf 3#3 (some 0)) 0#17 = true ∧
    (waitingReq 4#3 (some 0) 1).mayIssue 1 (reqOf 4#3 (some 0)) 0#17 = true := by decide +kernel

def outReq (op : BitVec 3) : OutReq :=
  ⟨{ reqOf op none with id := if op = 0#3 then 50 else 51 }, 7#17, 0#16, false, [], [], false, false, false⟩

/-- A read and a write outstanding at port 1. -/
def outstanding : State := { memUp live 1 1 1 with outs := [outReq 0#3, outReq 1#3], nextId := 60 }

theorem witness_beat : outstanding.alive = true ∧ outstanding.mportUp 1 = true ∧ outstanding.outOn 1 true 7#17 = some (outReq 1#3) ∧
    (outReq 1#3).req.quarters.contains 0#2 = true ∧ (outReq 1#3).beats.contains 0#2 = false ∧ 0 < (outstanding.mport 1).wdCred := by
  decide +kernel

theorem witness_response : outstanding.outOn 1 false 7#17 = some (outReq 0#3) ∧ (outReq 0#3).seq = 0#16 ∧ (outReq 0#3).quarters = [] ∧
    (outReq 0#3).req.quarters = [0#2] ∧ mportEast 1 = (outReq 0#3).req.east ∧ (outReq 0#3).req.dests = [] ∧
    outstanding.noLaneWork := by unfold State.noLaneWork; decide +kernel

/-- A read at port 1 for the East wing. -/
def crossRead : State :=
  { outstanding with outs := [{ outReq 0#3 with req := { reqOf 0#3 none with east := true }, tag := 0x10007#17 }] }

theorem witness_response_east : (crossRead.outOn 1 false 0x10007#17).map (fun o => (o.req.quarters, o.req.east, o.quarters, o.seq)) =
    some ([0#2], true, [], 0#16) ∧ mportEast 1 ≠ true ∧ crossRead.corridor.failed = false := by decide +kernel

theorem witness_landed : outstanding.outOn 1 true 7#17 = some (outReq 1#3) ∧ (outReq 1#3).acked = false ∧
    outstanding.probed (outReq 1#3).req = [] ∧ (outReq 1#3).req.service = none ∧ outstanding.noLaneWork := by
  unfold State.noLaneWork; decide +kernel

/-- The write outstanding at port 1 is the last piece of record 70. -/
def recorded (n : Note) : State :=
  { outstanding with
    outs := [{ outReq 1#3 with req := { reqOf 1#3 none with id := 51, record := some 70 } }], records := [⟨70, n, [51], false⟩] }

theorem witness_record_landed : ∀ n ∈ [Note.done 5 true (some 0#16), .load, .tally, .snap 63 [(4, 4)], .reply 15 0x2000#52],
    ((recorded n).outOn 1 true 7#17).map (fun o => (o.seq, o.acked, o.req.east, o.req.record)) = some (0#16, false, mportEast 1, some 70) ∧
    (recorded n).probed (reqOf 1#3 none) = [] ∧ (recorded n).records.find? (fun y => y.id == 70) = some ⟨70, n, [51], false⟩ ∧
    (recorded n).boot.replies = [] ∧ (recorded n).noLaneWork := by unfold State.noLaneWork; decide +kernel

/-- The record's queue has a MARKER in progress, a SNAPSHOT task stands, and pigeonhole 15 is the Steward's. -/
theorem witness_record_follows :
    ((withCmds (recorded (.done 5 true (some 0#16))) 5 .running [cmdOf 0 true [(0x31, 0)]]).queue 5).cmd 0#16 = some (cmdOf 0 true [(0x31, 0)]) ∧
    (snapshotting.queue 63).task = some snapTask ∧ (asking.pgh 15).stwSide = some true ∧ (asking.pgh 15).unread (!true) = false := by
  decide +kernel

/-- All tiers serve, and window 0 takes the lowest 2^46 bytes. -/
def larderOn (s : State) : State :=
  ((({ s with larder := { s.larder with tiersUp := 0xFF#8 } } : State).setReg offLdgTiers 0xFF#32).setReg (offLrdBase 0)
    0x80000000#32).setReg (offLrdLim 0) 0xFFFF#32

/-- The West write at port 8, of the East wing, has come to nothing; so has the West read. -/
def crossFails (op : BitVec 3) : State :=
  { memUp live 8 1 1 with outs := [{ outReq op with req := { reqOf op none with port := 8 } }] }

theorem witness_rejected : (crossFails 1#3).alive = true ∧ (crossFails 1#3).mportUp 8 = true ∧
    ((crossFails 1#3).outOn 8 true 7#17).map (fun o => (o.seq, o.acked, o.req.east, o.probed)) = some (0#16, false, false, false) ∧
    ((crossFails 1#3).outOn 8 true 7#17).all (fun o => (crossFails 1#3).probed o.req == []) = true ∧
    ((crossFails 0#3).outOn 8 false 7#17).map (fun o => (o.seq, o.quarters, o.req.quarters, o.req.east)) =
      some (0#16, [], [0#2], false) ∧ mportEast 8 = true ∧ (crossFails 0#3).corridor.failed = false := by decide +kernel

/-- The granule of the windowed write stands in way 4 of its set. -/
def heldWrite : State :=
  let s := larderOn outstanding
  { s with larder := { s.larder with
      dir := s.larder.dir.set (setKey (s.homeEast (0x20 * 128)) (larderSet 0x20)) ((default : Bank Way).set 4 ⟨true, 3#2, larderTag 0x20⟩) } }

theorem witness_write_invalidates : heldWrite.writeOn 1 7#17 = some (outReq 1#3) ∧ (outReq 1#3).probed = false ∧
    0x20 ∈ heldWrite.probed (outReq 1#3).req ∧ (outReq 1#3).acked = false ∧
    heldWrite.findWay (setKey (heldWrite.homeEast (0x20 * 128)) (larderSet 0x20)) (larderTag 0x20) = some 4 := by decide +kernel

theorem witness_probe_write : (larderOn outstanding).outOn 1 true 7#17 = some (outReq 1#3) ∧ (outReq 1#3).probed = false ∧
    (larderOn outstanding).probed (outReq 1#3).req ≠ [] ∧ (outReq 1#3).acked = false := by decide +kernel

theorem witness_watchdog : outstanding.outOn 1 false 8#17 = none ∧
    outstanding.outs.any (fun o => o.req.port == 1 && !o.dead) = true := by decide +kernel

-- Witnesses: client ports and semaphores.

/-- Client 31 between the fall and the rise of its link, with semaphore 1535 (its index 47) at 9. -/
def clientDown : State :=
  (live.updCport 31 (fun v => { v with linkReq := true, poisonDue := true })).updSem 1535 (fun v => { v with count := 9#20 })

theorem witness_client_link : clientDown.alive = true ∧ 31 < clientDown.cfg.cports ∧ (clientDown.cport 31).linkReq = true ∧
    (clientDown.cport 31).linkAck = false ∧ clientDown.power.phase = .rest ∧ (clientDown.sem (48 * 31 + 47)).count ≠ 0#20 ∧ (clientDown.cport 31).poisonDue = true := by
  decide +kernel

def fillOf : Fill := ⟨31, 9, 2, 40, 33, [(0x100, 1#8), (0x300, 2#8)], [0, 0x200], false⟩

/-- Client 31 with a fill at the front, one that awaits its acknowledgement, and queue 40 of the East wing Running. -/
def filling (lowered : Bool) (n : Nat) : State :=
  ((withCmds (cliUp live 31 n) 40 .running [cmdOf 0 true [(0x01, 0), (0x1000, 64)]]).setReg (offLdgQwing 1) 0x100#32).updCport 31
    (fun v => { v with linkReq := !lowered, fills := [fillOf], await := [{ fillOf with ring := 8, beats := [] }] })

theorem witness_client_lowered : ((filling true 1).cport 31).linkAck = true ∧ ((filling true 1).cport 31).linkReq = false ∧
    (filling true 1).power.phase ≠ .linkDrop ∧ (filling true 1).alive = true := by decide +kernel

theorem witness_client_falls : ((filling false 1).cport 31).linkAck = true ∧ ((filling false 1).cport 31).linkReq = true ∧
    (filling false 1).noLaneWork ∧ (filling false 1).mayFail fillOf.q := by
  unfold State.noLaneWork State.mayFail; decide +kernel

theorem witness_push : (filling false 64).cportUp 31 = true ∧ ((filling false 64).cport 31).fills = [fillOf] ∧
    fillOf.beats = 0 :: [0x200] ∧ 0 < ((filling false 64).cport 31).credits := by decide +kernel

theorem witness_push_landed : ((filling false 1).cport 31).await.find? (fun f => f.ring == (8#10 : BitVec 10).toNat &&
    f.slot == (2#6 : BitVec 6).toNat) = some { fillOf with ring := 8, beats := [] } ∧
    (filling false 1).qEast 40 = cportEast 31 ∧ (filling false 1).noLaneWork ∧ (filling false 1).mayFail 40 := by
  unfold State.noLaneWork State.mayFail; decide +kernel

/-- A fill of queue 40, of the East wing, at client 3 of the West; the Corridor may have failed. -/
def fillAway (failed : Bool) : State :=
  { ((withCmds (cliUp live 3 1) 40 .running [cmdOf 0 true [(0x01, 0), (0x1000, 64)]]).setReg (offLdgQwing 1) 0x100#32).updCport 3
      (fun v => { v with linkReq := true, await := [{ fillOf with port := 3 }] }) with
    corridor := { live.corridor with failed := failed } }

theorem witness_push_crosses : ∀ b, (fillAway b).cportUp 3 = true ∧ ((fillAway b).cport 3).await.find? (fun f =>
      f.ring == (9#10 : BitVec 10).toNat && f.slot == (2#6 : BitVec 6).toNat) = some { fillOf with port := 3 } ∧
    (fillAway b).qEast 40 ≠ cportEast 3 ∧ (fillAway b).corridor.failed = b ∧ (fillAway b).noLaneWork ∧ (fillAway b).mayFail 40 := by
  unfold State.noLaneWork State.mayFail; decide +kernel

/-- Client 31's semaphore 1535 at `n`, owned by queue 40. -/
def counted (n : Nat) (poisoned : Bool) : State :=
  (filling false 1).updSem 1535 (fun v => { v with count := BitVec.ofNat 20 n, poisoned := poisoned, owned := true, owner := 40#6 })

/-- An INC of 5 comes while its semaphore's turn is. -/
theorem witness_in_turn : (counted 5 false).outOfTurn 1535 rankInc 5#20 = false ∧ (counted 5 false).outOfTurn 1535 rankDec 5#20 = false ∧
    (counted 0xFFFFB false).outOfTurn 1535 rankInc 5#20 = false ∧ ((counted 5 false).turns.get 1535).overflowed = false ∧
    ((counted 0xFFFFB false).turns.get 1535).overflowed = false := by decide +kernel

theorem witness_client_counts : (counted 5 false).alive = true ∧ 31 < (counted 5 false).cfg.cports ∧ (counted 5 false).cportUp 31 = true ∧
    (47#6 : BitVec 6).toNat < 48 ∧ (5#20 : BitVec 20) ≠ 0#20 ∧ 1535 = 48 * 31 + (47#6 : BitVec 6).toNat ∧
    ((counted 5 false).sem 1535).poisoned = false ∧ ((counted 0xFFFFA false).sem 1535).count.toNat + (5#20 : BitVec 20).toNat < 2 ^ 20 ∧
    2 ^ 20 ≤ ((counted 0xFFFFB false).sem 1535).count.toNat + (5#20 : BitVec 20).toNat ∧
    (5#20 : BitVec 20).toNat ≤ ((counted 5 false).sem 1535).count.toNat ∧
    ((counted 4 false).sem 1535).count.toNat < (5#20 : BitVec 20).toNat ∧ ((counted 5 false).sem 1535).owned = true ∧
    (counted 5 false).mayFail ((counted 5 false).sem 1535).owner.toNat ∧ ((counted 5 true).sem 1535).poisoned = true ∧
    47 < (48#6 : BitVec 6).toNat ∧ 1 < (2#2 : BitVec 2).toNat := by unfold State.mayFail; decide +kernel

/-- The owner of a West semaphore is Running. -/
def ownedWest : State := (withCmds live 40 .running []).updSem 767 (fun v => { v with owned := true, owner := 40#6 })

theorem witness_sem_set : live.performs (offSemSet 767) ∧ 767 < live.cfg.sems ∧
    live.semSetRefused 767 (0x03F00005#32 ||| 0x40000000#32) = false ∧ ownedWest.performs (offSemSet 767) ∧
    ownedWest.semSetRefused 767 (0x03F00005#32 ||| 0x40000000#32) = true := by unfold State.performs; decide +kernel

-- Witnesses: translation.

def missFor (east : Bool) (who : MissWho) (q : Nat) (sent crossed : Bool) : Miss :=
  ⟨east, 9#8, 1#16, 3#44, accWrite, false, sent, if crossed then [(2, 2)] else [], [⟨who, q, accWrite⟩], .pool⟩

/-- A tile of queue 40 in lane 63 that reads and writes nothing yet. -/
def idleTile : Tile := { (default : Tile) with id := 33, stream := 77, lane := 63, q := 40, kind := .move }

def missing (m : Miss) : State := { filling false 1 with misses := [m], tiles := [idleTile], readings := [⟨95, .command 40 0#16, 40, [], [], []⟩] }

theorem witness_miss_request : ∀ east, (missing (missFor east (.tile 33) 40 false false)).alive = true ∧
    (missing (missFor east (.tile 33) 40 false false)).misses.find? (fun m => m.east == bitAt (if east then 0x1FF#9 else 0xFF#9) 8 && !m.sent) =
      some (missFor east (.tile 33) 40 false false) ∧ bitAt (if east then 0x1FF#9 else 0xFF#9) 8 = east ∧ live.cfg.hasWing east = true ∧
    (missing (missFor east (.tile 33) 40 false false)).corridor.failed = false ∧
    ∀ x ∈ (missing (missFor east (.tile 33) 40 false false)).misses, x.sent = false := by decide +kernel

theorem witness_miss_answer : ∀ east, (missing (missFor east (.tile 33) 40 true false)).missOf (if east then 0x109#9 else 9#9) =
      some (missFor east (.tile 33) 40 true false) ∧
    (missing (missFor east (.tile 33) 40 true false)).missCrossing (if east then 0x109#9 else 9#9) = false ∧
    answerFits 3#44 0#44 3#28 0x100#40 = true ∧ bitAt 7#3 accWrite.toNat = true ∧
    (missing (missFor east (.tile 33) 40 true false)).missOf (if east then 0x108#9 else 8#9) = none ∧
    (missing (missFor east (.tile 33) 40 true false)).tile 33 = some idleTile ∧
    (missing (missFor east (.tile 33) 40 true true)).missOf (if east then 0x109#9 else 9#9) = some (missFor east (.tile 33) 40 true true) ∧
    (missFor east (.tile 33) 40 true true).stale 0#2 3#44 0#28 = true ∧ (missFor east (.tile 33) 40 true false).stale 0#2 3#44 0#28 = false := by
  decide +kernel

/-- A reading waits for page 3. -/
def readMiss (east : Bool) : Miss := missFor east (.reader 95 0x3000 0x3000 64) 40 true false

theorem witness_miss_fails : ∀ east, (missing (readMiss east)).missOf (if east then 0x109#9 else 9#9) = some (readMiss east) ∧
    (missing (readMiss east)).missCrossing (if east then 0x109#9 else 9#9) = false ∧ (missing (readMiss east)).mayFail 40 ∧
    (missing (readMiss east)).readings.find? (fun y => y.id == 95) = some ⟨95, .command 40 0#16, 40, [], [], []⟩ ∧
    (readMiss east).stale 1#2 0#44 0#28 = false := by
  unfold State.mayFail; decide +kernel

theorem witness_invalidation : (mapped live).alive = true ∧ (mapped live).invals.length < 16 ∧ (∀ v ∈ (mapped live).invals, v.id ≠ 15#4) := by decide +kernel

def invalidating : State := { mapped live with invals := [⟨15#4, false, 1#16, 0#44, 3#28, [50], [33]⟩] }

theorem witness_invalidation_done : invalidating.invals.find? (fun v => v.id == 15#4) =
    some ⟨15#4, false, 1#16, 0#44, 3#28, [50], [33]⟩ ∧ (∀ x ∈ [33], invalidating.tile x = none) ∧
    (∀ x ∈ invalidating.liveReqs, x.id ∉ [50] ∧ ∀ y ∈ x.tiles, y ∉ [33]) := by decide +kernel

-- Witnesses: remote ports and the Corridor.

theorem witness_remote_link : live.xportAlive 3 = true ∧
    ((live.updXport 3 (fun v => { v with linkReq := true })).xport 3).linkReq = true ∧
    ((live.updXport 3 (fun v => { v with linkReq := true })).xport 3).linkAck = false ∧ ((remUp live 3 255).xport 3).linkAck = true := by
  decide +kernel

theorem witness_remote_link_last : (lastLink (.remote 3) 0 (live.updXport 3 (fun v => { v with linkReq := true }))).xportAlive 3 = true ∧
    (lastLink (.remote 3) 0 (live.updXport 3 (fun v => { v with linkReq := true }))).power.phase = .linkUp [.remote 3] ∧
    ((lastLink (.remote 3) 0 (live.updXport 3 (fun v => { v with linkReq := true }))).xport 3).linkReq = true ∧
    ((lastLink (.remote 3) 0 (live.updXport 3 (fun v => { v with linkReq := true }))).xport 3).linkAck = false ∧
    (lastLink (.remote 3) 0 live).target = 0 ∧ (lastLink (.remote 3) 1 live).target ≠ 0 := by decide +kernel

theorem witness_remote_lowered : ((remUp live 3 2).updXport 3 (fun v => { v with linkReq := false })).xportAlive 3 = true ∧
    (((remUp live 3 2).updXport 3 (fun v => { v with linkReq := false })).xport 3).linkAck = true ∧
    (((remUp live 3 2).updXport 3 (fun v => { v with linkReq := false })).xport 3).linkReq = false ∧
    ((remUp live 3 2).updXport 3 (fun v => { v with linkReq := false })).power.phase ≠ .linkDrop := by decide +kernel

/-- A table descriptor of 100 rows of 64 one-byte elements. -/
def smallTable : BitVec 512 := word 512 [(64, 48), (64, 128), (100, 192)]

/-- A parcel from device 1 to this one. -/
def parcelOf (ptype : Byte) : Parcel :=
  { (default : Parcel) with
    ptype := ptype, src := 1#8, pseq := 5#32, cls := decide (ptype = 2#8 ∨ ptype = 5#8 ∨ ptype = 6#8) }

/-- The parcel with flits that pass their CRC. -/
def sealed (p : Parcel) : Parcel :=
  let p := { p with pad := List.replicate (parcelPad p) 0#8 }
  { p with crcs := (List.range (parcelFlits p)).map (fun i => crc32c (flitFront p p.pad i)) }

theorem parcelBad_sealed {s : State} {p : Parcel} (h : s.parcelMalformed p = false) : s.parcelBad (sealed p) = false := by
  have h1 : parcelCrcOk (sealed p) = true := by
    simp only [parcelCrcOk, sealed, parcelPad, parcelFlits, List.length_replicate, BEq.rfl, Bool.true_and]
    exact BEq.rfl
  have h2 : s.parcelMalformed (sealed p) = s.parcelMalformed p := rfl
  rw [State.parcelBad, h1, h2, h]; rfl

/-- An LKUP_REQ for row `row` of table 3 at epoch 4. -/
def lookupParcel (row : Nat) : Parcel :=
  { parcelOf 0x01#8 with table := 3#16, epoch := 4#32, count := 1#16, ebytes := 8#16, payload := natBytes 8 row }

/-- An RWRITE of 16 bytes to address 0x1FF0 under ASID 9. -/
def writeParcel (ptype : Byte) : Parcel :=
  { parcelOf ptype with table := 9#16, count := 1#16, ebytes := 16#16, addr := 0x1FF0#64, payload := List.replicate 16 6#8 }

/-- Remote ports 0 and 1 and every memory port up, table 3 at epoch 4. -/
def served (n : Nat) : State :=
  (mapped (allUp (remUp (remUp live 0 n) 1 n))).setTable 3
    { slots := [⟨4#32, .current, 1#16, smallTable⟩], last := 4#32, retcnt := 0#32 }

theorem witness_lookup_arrives : ∀ row ∈ [99, 100], (served 1).xportAlive 1 = true ∧ (served 1).flag offXportLink 1 = true ∧
    (sealed (lookupParcel row)).ptype = 0x01#8 ∧ (served 1).parcelMalformed (lookupParcel row) = false ∧ (served 1).power.st = .n0 ∧
    (served 1).noLaneWork ∧ (served 1).replyFull (xportEast 1) = false ∧ (served 1).reachable (lookupParcel row).src.toNat = true ∧
    xportEast ((served 1).xroute (lookupParcel row).src.toNat) = xportEast 1 := by unfold State.noLaneWork; decide +kernel

/-- Row 100 is out of range, and a device without table 3 has no epoch 4. -/
theorem witness_lookup_refused : ((served 1).table (bits (lookupParcel 100).table 0 12)).version 4#32 = some ⟨4#32, .current, 1#16, smallTable⟩ ∧
    reqEntry (lookupParcel 100) 0 < 2 ^ 40 ∧ 0 < (lookupParcel 100).count.toNat ∧ (lookupParcel 100).count = 1#16 ∧
    tbNLocal smallTable ≤ reqEntry (lookupParcel 100) 0 ∧
    (((served 1).setTable 3 default).table (bits (lookupParcel 99).table 0 12)).version 4#32 = none := by decide +kernel

theorem witness_lookup_served :
    ((served 1).table (bits (lookupParcel 99).table 0 12)).version 4#32 = some ⟨4#32, .current, 1#16, smallTable⟩ ∧
    tbLarder smallTable = false ∧ (lookupParcel 99).count = 1#16 ∧ reqEntry (lookupParcel 99) 0 < 2 ^ 40 ∧
    reqEntry (lookupParcel 99) 0 < tbNLocal smallTable ∧ 6336 = tbRowVa smallTable (reqEntry (lookupParcel 99) 0) ∧
    0 < tbRowBytes smallTable ∧ 6336 % 512 + tbRowBytes smallTable ≤ 512 ∧ (served 1).misses = [] ∧
    (served 1).findL2 (xportEast 1) 1#16 (6336 / 4096) = some ⟨1#16, 0#44, 16, 0#40, 7#3⟩ ∧
    (⟨1#16, 0#44, 16, 0#40, 7#3⟩ : Range).allows accRead = true ∧
    6336 = (⟨1#16, 0#44, 16, 0#40, 7#3⟩ : Range).ppage (6336 / 4096) * 4096 + 6336 % 4096 ∧ paDevice 6336 = (served 1).devid ∧
    (served 1).portTakes (xportEast 1) 6336 := by unfold State.portTakes; decide +kernel

theorem witness_write_served : (served 1).parcelMalformed (writeParcel 0x03#8) = false ∧ (served 1).parcelMalformed (writeParcel 0x04#8) = false ∧
    paDevice (writeParcel 0x03#8).addr.toNat = (served 1).devid ∧ (writeParcel 0x03#8).payload ≠ [] ∧
    (served 1).mportUp ((served 1).portFor (writeParcel 0x03#8).addr.toNat) = true ∧
    mportEast ((served 1).portFor (writeParcel 0x03#8).addr.toNat) = xportEast 1 ∧ knownType (parcelOf 0x07#8).ptype = false := by
  decide +kernel

def txOf (cls : Bool) (flits : Nat) : TxParcel :=
  { (default : TxParcel) with port := 1, cls := cls, parcel := parcelOf 0x05#8, flits := flits }

/-- A parcel of `flits` flits waits at port 1, which holds `n` credits of each class. -/
def sending (cls : Bool) (flits n : Nat) : State := (served n).updXport 1 (fun v => { v with tx := [txOf cls flits] })

theorem witness_send : (sending true 3 2).nextParcel 1 true = some (txOf true 3) ∧ 2 = min (txOf true 3).flits ((sending true 3 2).xport 1).cred1 ∧
    (sending false 2 2).nextParcel 1 false = some (txOf false 2) ∧ 2 = min (txOf false 2).flits ((sending false 2 2).xport 1).cred0 := by
  decide +kernel

def outParcel (q : Nat) (ptype : Byte) (sw : Option Nat) : OutParcel :=
  ⟨80, 1#6, 5#32, 1, q, if ptype = 0x01#8 then lookupParcel 99 else writeParcel ptype, 40, [], sw, [], none⟩

/-- Queue `q` awaits the answer to a write parcel. -/
def awaiting (q : Nat) : State :=
  let s := (withCmds (served 1) q .running [cmdOf 0 true [(0x10, 0)]]).setReg (offLdgQwing 1) 0x100#32
  { s with remote := { s.remote with outs := [outParcel q 0x03#8 none] } }

def rowAway : SubWin := { (default : SubWin) with id := 70, batch := 71, rows := [⟨1, 99, 1, none⟩] }

/-- Queue 5 awaits the answer to the LKUP_REQ of a sub-window. -/
def looking : State :=
  let s := withCmds (served 1) 5 .running [cmdOf 0 true [(0x10, 0)]]
  { s with
    remote := { s.remote with outs := [outParcel 5 0x01#8 (some 70)] }
    porter := ⟨[{ (default : Batch) with id := 71, q := 5, desc := smallTable, stream := 40 }], [rowAway], []⟩ }

def landedParcel : Parcel := parcelOf 0x05#8
def replyParcel : Parcel :=
  { parcelOf 0x02#8 with table := 3#16, epoch := 4#32, count := 1#16, ebytes := 64#16, payload := List.replicate 64 6#8 }
def nackParcel : Parcel := { parcelOf 0x06#8 with status := stAccessKey }

theorem witness_answers : (awaiting 5).xportAlive 1 = true ∧ (awaiting 5).flag offXportLink 1 = true ∧
    (∀ p ∈ [landedParcel, nackParcel], (awaiting 5).parcelMalformed p = false ∧ p.cls = true ∧
      (awaiting 5).outFor p = some (outParcel 5 0x03#8 none) ∧ (served 1).outFor p = none) ∧
    (awaiting 5).outEast (outParcel 5 0x03#8 none) = xportEast 1 ∧ (awaiting 5).noLaneWork ∧ (awaiting 5).mayFail 5 ∧
    (awaiting 5).porter.batches = [] ∧
    (awaiting 5).remote.outs.find? (fun y => y.dst == 1#6 && y.pseq == 5#32) = some (outParcel 5 0x03#8 none) := by
  unfold State.noLaneWork State.mayFail; decide +kernel

theorem witness_answers_cross : (awaiting 40).outFor landedParcel = some (outParcel 40 0x03#8 none) ∧
    (awaiting 40).outEast (outParcel 40 0x03#8 none) ≠ xportEast 1 ∧ (awaiting 40).corridor.failed = false := by decide +kernel

theorem witness_remote_falls : ((awaiting 5).xport 1).linkAck = true ∧ ((awaiting 5).xport 1).linkReq = true ∧
    (awaiting 5).remote.outs = [outParcel 5 0x03#8 none] ∧ (outParcel 5 0x03#8 none).port = 1 := by decide +kernel

/-- A bad word of the lookup store, read for a command whose batch is known. -/
theorem witness_bad_lookup_word : looking.ueSiteOk (.hall 5 true (some 0#16) 1#56 1#52) = true ∧ looking.mayFail 5 := by
  unfold State.mayFail; decide +kernel

theorem witness_reply : looking.parcelMalformed replyParcel = false ∧ replyParcel.ptype = 0x02#8 ∧ replyParcel.cls = true ∧
    looking.outFor replyParcel = some (outParcel 5 0x01#8 (some 70)) ∧
    looking.outEast (outParcel 5 0x01#8 (some 70)) = xportEast 1 ∧ looking.subWin 70 = some rowAway ∧
    (looking.batch 71).map (fun b => b.desc) = some smallTable ∧ bits replyParcel.table 12 4 = 0 ∧
    tbRowBytes smallTable ≤ 8192 ∧ replyParcel.ebytes.toNat = tbRowBytes smallTable ∧
    replyParcel.count.toNat = min (rowsPerReply (tbRowBytes smallTable)) ((lookupParcel 99).count.toNat - 0) ∧
    0 < (lookupParcel 99).count.toNat := by decide +kernel

/-- An item waits in a class of the Corridor towards the East: `got` of its flits have arrived, and the next has failed
`replays` times. -/
def crossing (cls : Nat) (i : CorItem) (got replays : Nat) : State :=
  let s := memUp (filling false 1) 8 1 1
  { s with
    corridor := { s.corridor with
      toEast := s.corridor.toEast.set cls [i], got := s.corridor.got.set (cls + 4) got
      replays := s.corridor.replays.set (cls + 4) replays }
    misses := [readMiss true], readings := [⟨95, .command 40 0#16, 40, [], [], []⟩]
    cpWaits := [none], tally := { s.tally with record := some ⟨none, false, some [512], []⟩ } }

def eastReq : Req := { reqOf 0#3 none with port := 8, q := some 40 }

theorem witness_corridor : ∀ x ∈ [(2#2, CorItem.inbound 1 40 landedParcel), (3#2, .request eastReq), (3#2, .fill fillOf), (1#2, .semTake 1535 ⟨.itin 63 0, 40, 1#20⟩),
      (1#2, .semInc (.itin 40 0 1) 1535 5#20), (0#2, .command 40 0#16), (0#2, .missAnswer 0x109#9 1#2 0#44 0#28 0#40 0#3),
      (0#2, .access ⟨some (3#8, 5#32), 0x0C1004, true⟩), (0#2, .accessDone false 5#32), (0#2, .tallyAnswer 0#32 512),
      (3#2, .rejected eastReq 1#2 0x1000)],
    (crossing x.1.toNat x.2 (x.2.flits - 1) 7).alive = true ∧ (crossing x.1.toNat x.2 (x.2.flits - 1) 7).corridor.failed = false ∧
    ((crossing x.1.toNat x.2 (x.2.flits - 1) 7).corridor.lane true).get x.1.toNat = [x.2] ∧
    (crossing x.1.toNat x.2 (x.2.flits - 1) 7).corridor.turn true = some x.1.toNat ∧
    x.2.flits ≤ (crossing x.1.toNat x.2 (x.2.flits - 1) 7).corridor.got.get (corKey true x.1.toNat) + 1 ∧
    (crossing x.1.toNat x.2 (x.2.flits - 1) 7).corridor.replays.get (corKey true x.1.toNat) < 8 ∧
    8 ≤ (crossing x.1.toNat x.2 (x.2.flits - 1) 8).corridor.replays.get (corKey true x.1.toNat) ∧
    (crossing x.1.toNat x.2 (x.2.flits - 1) 8).corItems = [x.2] ∧ (crossing x.1.toNat x.2 (x.2.flits - 1) 8).mayFail 40 := by
  unfold State.mayFail; decide +kernel

/-- The first of a fill's flits crosses; with an item of the control class it waits. -/
theorem witness_corridor_turn : (crossing 3 (.fill fillOf) 0 0).corridor.turn true = some (3#2 : BitVec 2).toNat ∧
    (crossing 3 (.fill fillOf) 0 0).corridor.got.get (corKey true 3) + 1 < (CorItem.fill fillOf).flits ∧
    ({ (crossing 3 (.fill fillOf) 0 0).corridor with
      toEast := (crossing 3 (.fill fillOf) 0 0).corridor.toEast.set 0 [.command 40 0#16] } : Corridor).lane true ≠ .empty ∧
    (({ (crossing 3 (.fill fillOf) 0 0).corridor with
      toEast := (crossing 3 (.fill fillOf) 0 0).corridor.toEast.set 0 [.command 40 0#16] } : Corridor).lane true).get corControl ≠ [] ∧
    ((crossing 1 (.semInc (.itin 40 0 1) 1535 5#20) 0 0).corridor.lane true).get corSemaphore ≠ [] := by decide +kernel

theorem witness_corridor_arrivals : (crossing 3 (.request eastReq) 0 0).mportUp 8 = true ∧
    (crossing 3 (.request eastReq) 0 0).banksOut eastReq.east ≠ (crossing 3 (.request eastReq) 0 0).cfg.tagBanks ∧
    (CorItem.request eastReq).queue = some 40 ∧ eastReq.q = some 40 ∧ eastReq.record = none ∧ eastReq.service = none ∧ eastReq.fetches = false ∧
    (CorItem.fill fillOf).queue = some 40 ∧ rspStatus 1#2 ≠ stEcc ∧ ({ crossing 3 (.rejected eastReq 1#2 0x1000) 0 0 with readings := [] } : State).noLaneWork ∧
    (crossing 3 (.rejected eastReq 1#2 0x1000) 0 0).porter.batches = [] ∧ (crossing 3 (.rejected eastReq 1#2 0x1000) 0 0).mayFail 40 ∧
    (crossing 0 (.accessDone false 5#32) 0 0).cpWaits = none :: [] ∧ ([] : List (Option (BitVec 2 × Word))).all Option.isSome = true ∧
    (crossing 0 (.tallyAnswer 0#32 512) 0 0).tally.snapSeq = 0#32 ∧
    (crossing 0 (.tallyAnswer 0#32 512) 0 0).tally.record = some ⟨none, false, some [512], []⟩ ∧
    ((crossing 1 (.semTake 1535 ⟨.itin 63 0, 40, 1#20⟩) 0 0).sem 1535).poisoned = false ∧
    (crossing 1 (.semInc (.itin 40 0 1) 1535 5#20) 0 0).outOfTurn 1535 rankInc 5#20 = false ∧
    ((crossing 1 (.semInc (.itin 40 0 1) 1535 5#20) 0 0).turns.get 1535).overflowed = false ∧
    ((crossing 1 (.semInc (.itin 40 0 1) 1535 5#20) 0 0).sem 1535).poisoned = false ∧
    ((crossing 1 (.semInc (.itin 40 0 1) 1535 5#20) 0 0).sem 1535).count.toNat + (5#20 : BitVec 20).toNat < 2 ^ 20 ∧
    (crossing 0 (.missAnswer 0x109#9 1#2 0#44 0#28 0#40 0#3) 0 0).missOf 0x109#9 = some (readMiss true) ∧
    (crossing 0 (.missAsk 0x109#9) 0 0).missOf 0x109#9 = some (readMiss true) ∧ (readMiss true).stale 1#2 0#44 0#28 = false := by
  unfold State.noLaneWork State.mayFail; decide +kernel

-- Witnesses: the Larder.

theorem witness_tiers : live.alive = true ∧ 7 < live.cfg.tiers ∧ bitAt live.larder.tiersOut 7 = false ∧ bitAt live.larder.tiersUp 7 = false ∧
    bitAt (larderOn live).larder.tiersUp 7 = true := by decide +kernel

/-- The data way of granule 0x29 read at tier 3, for the 16 bytes at 0x1480. -/
def tierRead : TierRead := ⟨77#1024, 3, 5, 3 * 2 ^ 17, 4, 0x29, [.tile 33 0x1480 0x1480 16], false⟩

/-- Two probes of one row; the first has asked for the directory row of its set. -/
def dirProbe (granule : Nat) (seen : Option (Option (BitVec 1024))) : Probe :=
  ⟨false, granule, [.tile 33 (granule * 128) (granule * 128) 16], 0, 3, 1, false, seen⟩

def dirRead : TierRead := ⟨77#1024, 3, 5, 3 * 2 ^ 17, 0, 0x29, [.tile 33 (0x29 * 128) (0x29 * 128) 16], true⟩

def dirReading : State :=
  let s := larderOn (allUp live)
  { s with larder := { s.larder with reads := [dirRead], probes := [dirProbe 0x29 (some none), dirProbe 0x2A none] } }

theorem witness_dir_read : dirReading.larder.reads.find? (fun r => r.tier == 3 && r.row % 8 == (5#3 : BitVec 3).toNat) = some dirRead ∧
    dirRead.dir = true ∧ dirReading.larder.probes.find? (fun p => p.east == tierEast dirRead.tier && p.granule == dirRead.granule &&
      p.dests == dirRead.dests && p.seen == some none) = some (dirProbe 0x29 (some none)) ∧
    dirProbe 0x2A none ∈ dirReading.larder.probes ∧ dirProbe 0x2A none ≠ dirProbe 0x29 (some none) ∧
    (dirProbe 0x2A none).key = (dirProbe 0x29 (some none)).key ∧ (dirProbe 0x2A none).missed = false := by decide +kernel

/-- A tile that reads the 16 bytes at 0x1480 and 0x1000. -/
def rowTile : Tile :=
  { idleTile with q := 5, lane := 0, stage := .issued, want := [(0x1480, 16), (0x1000, 16)], cover := [⟨false, 1, 1, 0, 16⟩], rdVa := 0x1480 }

/-- A read of tier 3 is under way; `tiles` are the tiles there are. -/
def tierReading (tiles : List Tile) : State :=
  let s := larderOn (allUp (withCmds live 5 .running [cmdOf 0 true [(0x01, 0), (0x1000, 64)]]))
  { s with larder := { s.larder with reads := [tierRead] }, tiles := tiles }

theorem witness_tier_read : (tierReading [rowTile]).larder.reads.find? (fun r => r.tier == 3 && r.row % 8 == (5#3 : BitVec 3).toNat) =
    some tierRead ∧ tierRead.dir = false ∧ (tierReading []).destReq tierRead.dests (0x29 * 128) (0x29 * 128 + 128) = none ∧
    (tierReading [rowTile]).tiles = [rowTile] ∧ rowTile.id = 33 ∧ rowTile.written = false ∧ (tierReading [rowTile]).qEast 5 = tierEast 3 ∧
    (tierReading [rowTile]).itins = [] ∧ (tierReading [rowTile]).porter.subs = [] ∧ (tierReading [rowTile]).blocks = [] ∧
    (tierReading [rowTile]).remote.serves = [] ∧ (tierReading [rowTile]).remote.owed = .empty ∧
    rowTile.want.filter (fun x => !(x.1 == 0x1480 && x.2 == 16)) ≠ [] ∧ (tierReading [rowTile]).tile 33 = some rowTile ∧
    (tierReading [rowTile]).portTakes (tierEast 3) 0x1480 ∧ bitAt (tierReading [rowTile]).larder.tiersUp 3 = true ∧
    (tierReading [rowTile]).larder.reads.filter (fun r => r.tier == 3) = [tierRead] ∧
    (tierReading [rowTile]).mayFail 5 := by
  unfold State.mayFail State.portTakes; decide +kernel

/-- The row as it stood; and with two of its bits flipped. -/
theorem witness_row_flips : rowFlips 77#1024 77#1024 (Config.checkBits 77#1024) ≤ 1 ∧
    rowFlips 77#1024 78#1024 (Config.checkBits 77#1024) = 2 := by
  have h : Config.checkBits 77#1024 ^^^ Config.checkBits 77#1024 = 0#128 := BitVec.xor_self
  unfold rowFlips; rw [h]; decide +kernel

/-- These probes wait, and granule 9 stands in way 4 of its set with HEAT 3 when `held`. -/
def probing (ps : List Probe) (held up : Bool) : State :=
  let s := if up then larderOn (allUp live) else allUp live
  { s with
    tiles := [rowTile]
    larder := { s.larder with
      probes := ps
      dir := if held then s.larder.dir.set (setKey false (larderSet 9)) ((default : Bank Way).set 4 ⟨true, 3#2, larderTag 9⟩)
        else s.larder.dir } }

/-- The directory row of granule 9's set as `probing` has it. -/
def heldRow : BitVec 1024 := dirData ((probing [] true true).larder.dir.get (setKey false (larderSet 9)))

theorem witness_probe_asks : (probing [dirProbe 9 none] true true).larder.probes.find?
      (fun p => p.east == wingEast .west && !p.missed && p.seen != some none) = some (dirProbe 9 none) ∧
    (probing [dirProbe 9 none] true true).setUp (wingEast .west) (larderSet 9) = true ∧ (dirProbe 9 none).seen = none := by decide +kernel

theorem witness_probe_hit : (probing [dirProbe 9 (some (some heldRow))] true true).larder.probes.find?
      (fun p => p.east == wingEast .west && !p.missed && p.seen != some none) = some (dirProbe 9 (some (some heldRow))) ∧
    (probing [dirProbe 9 (some (some heldRow))] true true).setUp (wingEast .west) (larderSet 9) = true ∧
    (probing [dirProbe 9 (some (some heldRow))] true true).seenWay (setKey (wingEast .west) (larderSet 9)) heldRow (larderTag 9) = some 4 ∧
    (probing [dirProbe 9 (some (some heldRow))] true true).larder.probes.filter
      (fun x => x.key == (dirProbe 9 (some (some heldRow))).key) = [dirProbe 9 (some (some heldRow))] := by decide +kernel

theorem witness_probe_miss : ∀ up, ∀ p, p = dirProbe 9 (some (some 0#1024)) → ∀ s, s = probing [p, dirProbe 10 none] false up →
    s.larder.probes.find? (fun p => p.east == wingEast .west && !p.missed && p.seen != some none) = some p ∧
    s.seenWay (setKey (wingEast .west) (larderSet 9)) 0#1024 (larderTag 9) = none ∧ dirProbe 10 none ∈ s.larder.probes ∧
    dirProbe 10 none ≠ p ∧ (dirProbe 10 none).key = p.key ∧ (dirProbe 10 none).missed = false ∧
    s.setUp (wingEast .west) (larderSet 9) = up := by
  rintro up p rfl s rfl; revert up; decide +kernel

/-- The last probe of a row misses: the row is read from memory. -/
theorem witness_probe_read : (probing [dirProbe 9 none] false false).larder.probes.find?
      (fun p => p.east == wingEast .west && !p.missed && p.seen != some none) = some (dirProbe 9 none) ∧
    (probing [dirProbe 9 none] false false).larder.probes.filter (fun x => x.key == (dirProbe 9 none).key) = [dirProbe 9 none] ∧
    (probing [dirProbe 9 none] false false).setUp (wingEast .west) (larderSet 9) = false ∧
    ((probing [dirProbe 9 none] false false).tile 33).map (fun u => (probing [dirProbe 9 none] false false).qEast u.q) = some (wingEast .west) ∧
    (probing [dirProbe 9 none] false false).portTakes (wingEast .west) 1152 := by unfold State.portTakes; decide +kernel

def installOf (dropped : Bool) : Install := ⟨60, false, 9, 3, dropped, none⟩

/-- An install of granule 9 is under way, its granule has been read or, with no reading, not; its set has a way of HEAT 0. -/
def installing (dropped hasRead : Bool) : State :=
  let s := larderOn live
  let t : State := { s with larder := { s.larder with
      installs := [installOf dropped]
      dir := s.larder.dir.set (setKey false (larderSet 9)) ((default : Bank Way).set 30 ⟨true, 0#2, 5#26⟩) } }
  if hasRead then readFor (.promotion 60) [(1152, List.replicate 128 7#8)] t else t

theorem witness_install_read : (installing false true).installRead (installOf false) =
    some (some (BitVec.ofNat 1024 (leNat (List.replicate 128 7#8)))) := by decide +kernel

theorem witness_install : ∀ x ∈ [(false, true), (true, true), (false, false)],
    (installing x.1 x.2).larder.installs.find? (fun i => i.east == wingEast .west && i.preload.isNone && ((installing x.1 x.2).installRead i).isSome) =
      some (installOf x.1) ∧
    (installing x.1 x.2).stwRunning = true ∧ (installing x.1 x.2).homeEast (9 * 128) = false ∧ (installing x.1 x.2).installable 9 = true ∧
    (installing x.1 x.2).findWay (setKey false (larderSet 9)) (larderTag 9) = none ∧
    ((installing x.1 x.2).usableWays (setKey false (larderSet 9))).any
      (fun j => ((installing x.1 x.2).way (setKey false (larderSet 9)) j).heat == 0#2) = true ∧
    (installing x.1 x.2).victim (setKey false (larderSet 9)) = some 0 ∧ (installOf true).dropped = true ∧
    (installing false false).installRead (installOf false) = some none := by decide +kernel

/-- Granule 9 waits for promotion in the East wing. -/
def promoting : State := { allUp live with larder := { live.larder with promoE := [(9, 3)] } }

theorem witness_promotion : promoting.alive = true ∧ promoting.stwRunning = true ∧
    (if wingEast .east then promoting.larder.promoE else []) = [(9, 3)] ∧ 128 * 9 < 2 ^ 52 ∧ promoting.readings = [] ∧
    promoting.portTakes false (128 * 9) := by unfold State.portTakes; decide +kernel

theorem witness_window : (installing false true).alive = true ∧ (installing false true).stwRunning = true ∧
    (dueNow live).larder.due ≠ none := by decide +kernel

-- Witnesses: queues.

/-- Queue 5 with rings of 16 entries and a completion ring of 16, EN 0, Idle, its commands these. -/
def queued (st : QState) (cs : List Cmd) : State := mapped (withCmds (served 1) 5 st cs)

/-- The block with queue 5 disabled and its ring sizes legal (`n`) or not. -/
def disabled (n : Nat) : State :=
  (live.setReg (offQ 5 qCringHi) (BitVec.ofNat 32 (n * 2 ^ 24))).setReg (offQ 5 qCrecHi) 0x40000000#32

theorem witness_enable : (disabled 4).performs (offQ 5 qCfg) ∧ (disabled 4).qEn 5 = false ∧ (disabled 4).enRefused 5 = false ∧
    (disabled 3).enRefused 5 = true ∧ bitAt 0x83FD0001#32 31 = true ∧ (queued .idle []).performs (offQ 5 qCfg) ∧
    (queued .idle []).qEn 5 = true := by unfold State.performs; decide +kernel

def ringing : State := (queued .idle []).setReg (offQ 5 qCringHi) 0x04000000#32

theorem witness_doorbell : ringing.performs (offQ 5 qDoorbell) ∧ bits 15#32 0 16 < ringing.qRingN 5 ∧ ringing.qEn 5 = true ∧
    ringing.thermalStop = false ∧ ringing.qRingN 5 ≤ bits 16#32 0 16 := by unfold State.performs; decide +kernel

/-- Queue 5 Running with TAIL at 3 and nothing read ahead. -/
def unread : State := (ringing.updQueue 5 (fun v => { v with st := .running, tail := 3 }))

theorem witness_prefetch : unread.alive = true ∧ (unread.queue 5).executing = true ∧
    (unread.queue 5).cmds.find? (unread.readStands 5) = none ∧ (unread.queue 5).ahead < 8 ∧
    (unread.queue 5).cmds.length < unread.published 5 ∧
    0#16 = BitVec.ofNat 16 (((unread.queue 5).head.toNat + (unread.queue 5).cmds.length) % unread.qRingN 5) ∧
    (unread.cmdVa 5 0#16).toNat = 0 ∧ unread.readings = [] ∧ unread.misses = [] ∧
    unread.findL2 (unread.qEast 5) (unread.qAsid 5) 0 = some ⟨1#16, 0#44, 16, 0#40, 7#3⟩ ∧
    (⟨1#16, 0#44, 16, 0#40, 7#3⟩ : Range).allows accRead = true ∧ paDevice 0 = unread.devid ∧ unread.portTakes false 0 := by
  unfold State.portTakes; decide +kernel

/-- The first command of queue 5 or of queue 40 of the East wing has been asked for and has been read. -/
def fetched (q : Nat) : State :=
  readFor (.command q 0#16) [(0, bytesOf (word 512 [(0x3F, 0)]))] ((unread.updQueue q (fun v =>
    { v with st := .running, cmds := [⟨0#16, 0#512, false, false, false, 0, false, true⟩] })).setReg (offLdgQwing 1) 0x100#32)

theorem witness_command_read : ∀ q ∈ [5, 40], (fetched q).alive = true ∧ ((fetched q).queue q).executing = true ∧
    ((fetched q).queue q).cmds.find? ((fetched q).readStands q) = some ⟨0#16, 0#512, false, false, false, 0, false, true⟩ ∧
    ((fetched q).cmdVa q 0#16).toNat = 0 ∧ (fetched q).corridor.failed = false ∧ (fetched q).qEast q = decide (q = 40) := by
  decide +kernel

theorem witness_command_bytes (q : Nat) : ((fetched q).reading (.command q 0#16)).bind (fun r => r.bytes 0 64) =
    some (bytesOf (word 512 [(0x3F, 0)])) := readFor_all (bytesOf_length _)

/-- The read of queue 5's next command is outstanding at port 1. -/
def fetching : State :=
  { fetched 5 with
    outs := [{ outReq 0#3 with req := { reqOf 0#3 none with holder := .frontEnd, dests := [.fetch 95 0 0x1000 64 0] } }] }

theorem witness_command_read_fails : fetching.mportAlive 1 = true ∧ fetching.mportUp 1 = true ∧
    (fetching.outOn 1 false 7#17).map (fun o => (o.seq, o.quarters, o.req.quarters)) = some (0#16, [], [0#2]) ∧
    (fetching.outOn 1 false 7#17).all (fun o => o.req.record.isNone && o.req.service.isNone) = true ∧
    (fetching.outOn 1 false 7#17).map (fun o => o.req.dests) = some [.fetch 95 0 0x1000 64 0] ∧
    (fetching.readings.find? (fun y => y.id == 95)).map (fun x => x.who) = some (.command 5 0#16) ∧ fetching.mayFail 5 := by
  unfold State.mayFail State.mportAlive; decide +kernel

-- Witnesses: actions, suspensions, timeouts, stops.

def runCmd : List (Nat × Nat) := [(0x01, 0), (3, 8), (0x1000, 64)]

/-- Queue 5 with a RUN in flight and a NOP behind it. -/
def inFlight (st : QState) : State := (queued st [cmdOf 0 true runCmd, cmdOf 1 false [(0x3F, 0)]]).setReg (offQ 5 qCringHi) 0x04000000#32

/-- Queue 5 Faulted at its first command, read or not. -/
def faulted : State := (inFlight .faulted).updQueue 5 (fun v =>
  { v with cmds := v.cmds.map (fun c => if c.idx == 0#16 then { c with failed := true, started := false } else { c with started := false }) })

theorem witness_actions : (inFlight .running).performs (offQ 5 qAction) ∧ ((inFlight .running).queue 5).st = .running ∧
    ((inFlight .suspended).queue 5).st = .suspended ∧ ((inFlight .suspended).queue 5).stop = none ∧
    ((inFlight .suspended).queue 5).suspPre = false ∧ ((inFlight .suspended).queue 5).suspTherm = false ∧
    ((inFlight .suspended).queue 5).suspending = false ∧ ((inFlight .suspended).asides 5) = [] ∧
    (∀ c ∈ ((inFlight .suspended).queue 5).cmds, c.started = true → c.done = false → cmdOp c.bytes ≠ 0x03) := by
  unfold State.performs; decide +kernel

theorem witness_actions_refused : faulted.performs (offQ 5 qAction) ∧ (faulted.queue 5).st = .faulted ∧
    (faulted.queue 5).head ≠ (faulted.queue 5).tail ∧ (inFlight .running).mayFail 5 ∧
    (faulted.queue 5).cmds = ⟨0#16, word 512 runCmd, false, false, true, 0, false, false⟩ :: [cmdOf 1 false [(0x3F, 0)]] ∧
    (∀ x ∈ [cmdOf 1 false [(0x3F, 0)]], x.failed = false) ∧
    ([cmdOf 1 false [(0x3F, 0)]] : List Cmd).head?.all (fun x => !x.done) = true := by
  unfold State.performs State.mayFail; decide +kernel

def preemptedState : State :=
  { (inFlight .suspended).updQueue 5 (fun v => { v with suspPre := true }) with preempted := [(9, 5)] }

theorem witness_resume_held : preemptedState.performs (offQ 5 qAction) ∧ (preemptedState.queue 5).st = .suspended ∧
    (preemptedState.queue 5).suspPre = true := by unfold State.performs; decide +kernel

/-- Queue 5 on its way to suspension. -/
def suspending (sw pre : Bool) : State :=
  (inFlight .running).updQueue 5 (fun v => { v with suspending := true, suspSw := sw, suspPre := pre })

theorem witness_suspension : (suspending true false).alive = true ∧ ((suspending true false).queue 5).suspending = true ∧
    ((suspending true false).queue 5).stop = none ∧ (suspending true false).atBoundary 5 = true ∧
    (suspending true false).thermalStop = false ∧ (∀ p, p ≠ 5 → (suspending true false).asides p = []) := by
  refine ⟨by decide +kernel, by decide +kernel, by decide +kernel, by decide +kernel, by decide +kernel, fun p _ => ?_⟩
  rfl

/-- Queue 9, of class 0, whose task has started, holds queue 5 back; so does queue 10 when `two`. -/
def holding (two : Bool) : State :=
  { suspending false true with preempted := (9, 5) :: if two then [(10, 5)] else [] }

theorem witness_preempt_release : (holding false).alive = true ∧ (holding false).preempted = (9, 5) :: [] ∧
    ((holding false).queue 9).taskStarted = true ∧ ((holding false).queue 5).suspending = true ∧
    ([] : List (Nat × Nat)).all (fun p => p.2 != 5) = true ∧ (holding true).preempted = (9, 5) :: [(10, 5)] ∧
    [(10, 5)].any (fun p : Nat × Nat => p.2 == 5) = true := by decide +kernel

theorem witness_progress_timeout : (inFlight .running).timerStands 5 = false ∧ ((inFlight .running).queue 5).tmo < 31 := by decide +kernel

def timeout : FaultInfo := (inFlight .running).fault stQueueTimeout 0x6#8

/-- The same fault with an entry for the translation fault log. -/
def denial : FaultInfo := { timeout with log := some ⟨accRead, some false, false, 3#44, 1#16, 9#9, 0#48⟩ }

/-- Queue 5 stops for a fault, or for a RETIRE; nothing of it is in flight any more. -/
def stopping (f : Option FaultInfo) : State := ((inFlight (if f.isSome then .running else .retiring))).updQueue 5 (fun v =>
  { v with stop := some ⟨f, if f.isSome then some 0#16 else none, f.isNone, 0, false⟩ })

theorem windowsOf_one {n : Nat} {b : List Byte} (h : 0 < b.length) (hn : n % 512 + b.length ≤ 512) : windowsOf n b = [(n, b)] := by
  have h1 : (511 + (b.length + n)) / 512 - n / 512 = 1 := by omega
  have h2 : max n (n / 512 * 512) = n := by omega
  have h3 : b.take ((n / 512 + 1) * 512 - n) = b := List.take_of_length_le (by omega)
  simp [windowsOf, h1, List.range_one, h2, h3]

theorem witness_stop : ∀ f ∈ [timeout, denial], ((stopping (some f)).queue 5).stop = some ⟨some f, some 0#16, false, 0, false⟩ ∧
    (stopping (some f)).alive = true ∧ (stopping (some f)).stopped 5 = true ∧ (stopping (some f)).logAway 5 = false ∧
    paDevice ((stopping (some f)).frecBase 5) = (stopping (some f)).devid ∧ timeout.log = none ∧ denial.log.isSome = true ∧
    (stopping (some f)).fld offFlogHi 0 20 * 2 ^ 32 + ((stopping (some f)).reg offFlogLo).toNat = 0 ∧
    ((stopping (some f)).reg offFlogWp).toNat = 0 ∧ (stopping (some f)).stwRunning = true := by decide +kernel

theorem witness_stop_port : ∀ f ∈ [timeout, denial], (stopping (some f)).mportUp ((stopping (some f)).portFor 0) = true ∧
    mportEast ((stopping (some f)).portFor 0) = false := by decide +kernel

theorem witness_stop_records (f : FaultInfo) (hf : f ∈ [timeout, denial]) (b : List Byte) (h : b.length = 32 ∨ b.length = 256) :
    (stopping (some f)).recordGoes [(0, b)] := by
  have hw : windowsAll [(0, b)] = [(0, b)] := by
    simp [windowsAll, windowsOf_one (show 0 < b.length by omega) (show 0 % 512 + b.length ≤ 512 by omega)]
  unfold State.recordGoes
  rw [hw]
  intro w hw'
  rw [List.mem_singleton.mp hw']
  exact witness_stop_port f hf

theorem witness_fault_record : (stopping (some timeout)).frecBase 5 = 0 ∧
    ((stopping (some timeout)).faultBytes 5 timeout ⟨some timeout, some 0#16, false, 0, false⟩).length = 256 := by decide +kernel

theorem witness_retire_stop : ((stopping none).queue 5).stop = some ⟨none, none, true, 0, false⟩ ∧ (stopping none).stopped 5 = true ∧
    (stopping none).logAway 5 = false ∧ ∀ j, (stopping none).asides j = [] := by
  refine ⟨by decide +kernel, by decide +kernel, by decide +kernel, fun j => ?_⟩
  rfl

def retiring : State := (inFlight .retiring).updSem 40 (fun v => { v with count := 3#20, owned := true, owner := 5#6 })

theorem witness_retire : retiring.alive = true ∧ (retiring.queue 5).st = .retiring ∧ (retiring.queue 5).stop = none ∧
    (retiring.sem 40).owned = true ∧ (retiring.sem 40).owner.toNat = 5 := by decide +kernel

-- Witnesses: the commands of a queue.

def heldTask : Task := ⟨0#16, 0x1000#56, .waiting, 0#512, [], [], 0#56, 7⟩
def runningTask : Task := { heldTask with phase := .running }

/-- Queue 5 with the command next, and with a task when there is one. -/
def nextCmd (fs : List (Nat × Nat)) : State := queued .running [cmdOf 0 false fs]
def begun (fs : List (Nat × Nat)) : State := queued .running [cmdOf 0 true fs]
def tasked (t : Task) : State := (begun runCmd).updQueue 5 (fun v => { v with task := some t })

theorem witness_run : (nextCmd runCmd).mayWork = true ∧ (nextCmd runCmd).gate 5 (fun op => op == 0x01) = .go (cmdOf 0 false runCmd) := by
  decide +kernel

/-- The header of a task with one itinerary, whose program of one HALT stands at 0x2000. -/
def hdrOf : BitVec 512 := word 512 [(3, 0), (1, 8)]
def entryOf : BitVec 256 := word 256 [(0x2000, 0), (1, 64), (0x77, 128), (0x3000, 192)]
def haltWord : BitVec 64 := 0x0200000000000000#64

/-- A record, or one that breaks every rule. -/
def orBad (good : Bool) (h : BitVec 512) : BitVec 512 := if good then h else 0#512

/-- That task has been read, or one with a bad header. -/
def taskRead (good : Bool) : State :=
  readFor (.command 5 0#16) [(0x1000, bytesOf (orBad good hdrOf) ++ natBytes 32 entryOf.toNat), (0x2000, natBytes 8 haltWord.toNat)] (tasked heldTask)

theorem witness_task_reads : ∀ h, (taskRead h).alive = true ∧ ((taskRead h).queue 5).executing = true ∧
    ((taskRead h).queue 5).task = some heldTask ∧ heldTask.unstarted = true ∧ (taskRead h).mayWork = true ∧
    taskHdrOk 0#512 = false := by decide +kernel

theorem witness_task_bytes (h : Bool) :
    ((taskRead h).reading (.command 5 0#16)).bind (fun r => r.bytes 0x1000 64) = some (bytesOf (orBad h hdrOf)) ∧
    ((taskRead h).reading (.command 5 0#16)).bind (fun r => r.bytes 0x1000 96) = some (bytesOf (orBad h hdrOf) ++ natBytes 32 entryOf.toNat) ∧
    ((taskRead h).reading (.command 5 0#16)).bind (fun r => r.bytes 0x2000 8) = some (natBytes 8 haltWord.toNat) :=
  ⟨readFor_bytes (bytesOf_length _), readFor_all (by simp [bytesOf_length]), readFor_second (by simp [bytesOf_length]) (natBytes_length _ _)⟩

theorem witness_task_entries : taskHdrOk hdrOf = true ∧ taskLen hdrOf = 96 ∧
    words256 (((bytesOf hdrOf ++ natBytes 32 entryOf.toNat).drop 64).take (32 * taskNItin hdrOf)) = [entryOf] ∧
    taskNRings hdrOf = 0 ∧ taskNLinks hdrOf = 0 ∧ taskEntriesOk 1536 [entryOf] [] [] = true ∧
    ieProg entryOf = 0x2000 ∧ 8 * ieNInstr entryOf = 8 ∧ words64 (natBytes 8 haltWord.toNat) = [haltWord] := by decide +kernel

/-- The block with the header copied. -/
def readHdr : State := (taskRead true).updQueue 5 (fun v => { v with task := some { heldTask with hdr := hdrOf } })

theorem witness_task_starts : readHdr.programsBad 0x1000 [entryOf] [] [] [[haltWord]] = none ∧
    readHdr.taskBad 5 0x1000 hdrOf [entryOf] [] [] = none ∧ readHdr.heldBack [] = false ∧
    readHdr.placesFor (readHdr.qEast 5) (fun _ => false) ([entryOf].zipIdx.map (fun e => (e.2, iePin e.1))) = some [(0, 0, 0)] := by
  decide +kernel

/-- The same task with ring 5, whose shape a commit is to change. -/
def ringHdr : BitVec 512 := word 512 [(3, 0), (1, 8), (1, 16)]

def ringTask : State :=
  readFor (.command 5 0#16) [(0x1000, bytesOf ringHdr ++ (natBytes 32 entryOf.toNat ++ natBytes 8 5)), (0x2000, natBytes 8 haltWord.toNat)]
    { tasked heldTask with ledger := { (default : Ledger) with st := .committing, staged := [(offRing 5 0, 1#32)] } }

theorem witness_held_back : ringTask.alive = true ∧ (ringTask.queue 5).executing = true ∧ (ringTask.queue 5).task = some heldTask ∧
    ringTask.mayWork = true ∧ taskHdrOk ringHdr = true ∧ taskLen ringHdr = 104 ∧
    words256 (((bytesOf ringHdr ++ (natBytes 32 entryOf.toNat ++ natBytes 8 5)).drop 64).take (32 * taskNItin ringHdr)) = [entryOf] ∧
    words64 (((bytesOf ringHdr ++ (natBytes 32 entryOf.toNat ++ natBytes 8 5)).drop (ringOff ringHdr 0)).take (8 * taskNRings ringHdr)) = [5#64] ∧
    taskNLinks ringHdr = 0 ∧ taskEntriesOk 1536 [entryOf] [5#64] [] = true ∧
    (ringTask.updQueue 5 (fun v => { v with task := some { heldTask with hdr := ringHdr } })).heldBack [5#64] = true := by decide +kernel

/-- A program that is no program, and a SNAPSHOT task of a queue that may not use the Tally. -/
theorem witness_task_fails : (readHdr.programsBad 0x1000 [entryOf] [] [] [[0#64]]).isSome = true ∧
    (readHdr.taskBad 5 0x1000 (hdrOf ||| 0x100000000#512) [entryOf] [] []).isSome = true := by decide +kernel

theorem witness_task_over : (tasked runningTask).alive = true ∧ ((tasked runningTask).queue 5).task = some runningTask ∧
    ((tasked runningTask).queue 5).cmd 0#16 = some (cmdOf 0 true runCmd) ∧ ((tasked runningTask).queue 5).st = .running ∧
    ((tasked runningTask).queue 5).stop = none ∧ (tasked runningTask).taskOver 5 = true := by decide +kernel

def prewarmCmd : List (Nat × Nat) := [(0x20, 0), (3, 8), (0, 64), (0x3000, 128), (4096, 192)]
def fenceCmd : List (Nat × Nat) := [(0x04, 0), (3, 8)]
def markerCmd : List (Nat × Nat) := [(0x05, 0), (2, 8), (0xBEEF, 64)]
def nopCmd : List (Nat × Nat) := [(0x3F, 0)]
def signalCmd : List (Nat × Nat) := [(0x02, 0), (3, 8), (40, 64), (5, 96)]
def waitCmd : List (Nat × Nat) := [(0x03, 0), (3, 8), (40, 64), (5, 96)]

theorem witness_small_commands : (nextCmd fenceCmd).gate 5 (fun op => op == 0x04) = .go (cmdOf 0 false fenceCmd) ∧
    (nextCmd markerCmd).gate 5 (fun op => op == 0x05) = .go (cmdOf 0 false markerCmd) ∧
    (nextCmd nopCmd).gate 5 (fun op => op == 0x3F || !opKnown op) = .go (cmdOf 0 false nopCmd) ∧
    (nextCmd [(0x2A, 0)]).gate 5 (fun op => op == 0x3F || !opKnown op) = .refuse (cmdOf 0 false [(0x2A, 0)]) stDescInvalid 0x0#8 := by
  decide +kernel

/-- A FENCE of queue 5 behind a PREWARM in flight, reached and not. -/
def fencing (started : Bool) : State := queued .running [cmdOf 0 true prewarmCmd, cmdOf 1 started fenceCmd]

theorem witness_fence : ((nextCmd fenceCmd).queue 5).begun 0x04 = none ∧ ((nextCmd fenceCmd).queue 5).allDone 0#16 = true ∧
    ((fencing false).queue 5).begun 0x04 = none ∧ (fencing false).gate 5 (fun op => op == 0x04) = .go (cmdOf 1 false fenceCmd) ∧
    ((fencing false).queue 5).allDone 1#16 = false ∧ ((fencing true).queue 5).begun 0x04 = some (cmdOf 1 true fenceCmd) ∧
    (fencing true).alive = true ∧ ((fencing true).queue 5).executing = true ∧ ((fencing true).queue 5).allDone 1#16 = false := by
  decide +kernel

def signalFar : List (Nat × Nat) := [(0x02, 0), (3, 8), (1535, 64), (5, 96)]

theorem witness_signal_crosses : ((nextCmd signalFar).queue 5).begun 0x02 = none ∧
    (nextCmd signalFar).gate 5 (fun op => op == 0x02) = .go (cmdOf 0 false signalFar) ∧
    semEast (cmdSem (cmdOf 0 false signalFar).bytes) ≠ (nextCmd signalFar).qEast 5 ∧ (nextCmd signalFar).corridor.failed = false ∧
    (nextCmd signalCmd).outOfTurn 40 rankInc 5#20 = false ∧ ((nextCmd signalCmd).turns.get 40).overflowed = false := by decide +kernel

theorem witness_signal : ((nextCmd signalCmd).queue 5).begun 0x02 = none ∧
    (nextCmd signalCmd).gate 5 (fun op => op == 0x02) = .go (cmdOf 0 false signalCmd) ∧ 40 = cmdSem (cmdOf 0 false signalCmd).bytes ∧
    5#20 = BitVec.ofNat 20 (cmdSemCount (cmdOf 0 false signalCmd).bytes) ∧ semEast 40 = (nextCmd signalCmd).qEast 5 ∧
    ((nextCmd signalCmd).sem 40).poisoned = false ∧ ((nextCmd signalCmd).sem 40).count.toNat + (5#20 : BitVec 20).toNat < 2 ^ 20 ∧
    (nextCmd signalCmd).signalAway 5 = false ∧ ((begun signalCmd).queue 5).begun 0x02 = some (cmdOf 0 true signalCmd) ∧
    (begun signalCmd).alive = true ∧ ((begun signalCmd).queue 5).st = .running ∧ ((begun signalCmd).queue 5).stop = none ∧
    (begun signalCmd).signalAway 5 = false := by decide +kernel

/-- Queue 5 with a WAIT next, its semaphore at `n`. -/
def waitsFor (n : Nat) : State := (nextCmd waitCmd).updSem 40 (fun v => { v with count := BitVec.ofNat 20 n })

theorem witness_wait : (waitsFor 5).gate 5 (fun op => op == 0x03) = .go (cmdOf 0 false waitCmd) ∧ 40 = cmdSem (cmdOf 0 false waitCmd).bytes ∧
    5#20 = BitVec.ofNat 20 (cmdSemCount (cmdOf 0 false waitCmd).bytes) ∧ semEast 40 = (waitsFor 5).qEast 5 ∧
    ((waitsFor 5).sem 40).poisoned = false ∧ (waitsFor 5).semGrantsNow 40 5#20 = true ∧
    (waitsFor 4).gate 5 (fun op => op == 0x03) = .go (cmdOf 0 false waitCmd) ∧ (waitsFor 4).semGrantsNow 40 5#20 = false ∧
    (((waitsFor 4).queue 5).cmds.map (fun x => x.idx)).Nodup := by decide +kernel

-- Witnesses: table versions.

/-- TABLE_BIND of epoch 5 of table 3, with the descriptor at 0x1000; TABLE_RETIRE of epoch 4. -/
def bindCmd : List (Nat × Nat) := [(0x12, 0), (3, 8), (0x1000, 64), (3, 128), (5, 160)]
def retireCmd : List (Nat × Nat) := [(0x13, 0), (3, 8), (3, 128), (4, 160)]

/-- A table of 100 rows of 64 fp32 elements on this device alone. -/
def goodTable : BitVec 512 := word 512 [(3, 0), (9, 8), (1, 24), (64, 48), (0x8000, 64), (256, 128), (100, 192), (100, 256)]

/-- The descriptor of a TABLE_BIND in progress has been read. -/
def binding (good : Bool) : State := readFor (.command 5 0#16) [(0x1000, bytesOf (orBad good goodTable))] (begun bindCmd)

theorem witness_bind : ((nextCmd bindCmd).queue 5).begun 0x12 = none ∧
    (nextCmd bindCmd).gate 5 (fun op => op == 0x12) = .go (cmdOf 0 false bindCmd) ∧ (nextCmd bindCmd).readings = [] := by decide +kernel

theorem witness_bind_read : ∀ d, ((binding d).queue 5).begun 0x12 = some (cmdOf 0 true bindCmd) ∧
    (binding d).alive = true ∧ ((binding d).queue 5).executing = true ∧ cmdBatchPtr (cmdOf 0 true bindCmd).bytes = 0x1000 ∧
    tableFieldsOk 0#512 = false ∧ tableFieldsOk goodTable = true ∧
    tableLayoutOk goodTable = true ∧ tbRange goodTable = false ∧
    ((binding d).reading (.command 5 0#16)).map (fun r => r.bytes (tbRangePtr goodTable) 0) = some (some []) ∧ rangeTableOk (words128 []) = true ∧
    cmdEpoch (cmdOf 0 true bindCmd).bytes ≠ 0#32 ∧ ((binding d).table 3).last.toNat < (cmdEpoch (cmdOf 0 true bindCmd).bytes).toNat ∧
    ((binding d).table 3).slots.length < 4 := by decide +kernel

theorem witness_bind_bytes (d : Bool) : ((binding d).reading (.command 5 0#16)).bind (fun r => r.bytes 0x1000 64) =
    some (bytesOf (orBad d goodTable)) := readFor_all (bytesOf_length _)

/-- A batch of queue 9 bound to epoch 4 of table 3. -/
def boundBatch : Batch := { (default : Batch) with id := 71, q := 9, table := 3, epoch := 4#32 }

theorem witness_table_retire : (nextCmd retireCmd).gate 5 (fun op => op == 0x13) = .go (cmdOf 0 false retireCmd) ∧
    ((nextCmd retireCmd).table 3).slots.find? (fun v => v.epoch == 4#32 && v.st != .retiring) = some ⟨4#32, .current, 1#16, smallTable⟩ ∧
    (nextCmd retireCmd).boundTo 3 4#32 = 0 ∧
    ({ nextCmd retireCmd with porter := ⟨[boundBatch], [], []⟩ } : State).boundTo 3 4#32 ≠ 0 ∧
    ((begun retireCmd).queue 5).begun 0x13 = some (cmdOf 0 true retireCmd) ∧ (begun retireCmd).alive = true ∧
    ((begun retireCmd).queue 5).st = .running ∧ ((begun retireCmd).queue 5).stop = none ∧ (begun retireCmd).boundTo 3 4#32 = 0 := by decide +kernel

/-- LOOKUP of two indices in one bag of table 3, and UPDATE of two rows by RULE 0, their headers at 0x1000. -/
def lookupCmd : List (Nat × Nat) := [(0x10, 0), (3, 8), (0x1000, 64), (3, 128), (2, 160), (1, 192)]
def updateCmd : List (Nat × Nat) := [(0x11, 0), (3, 8), (0x1000, 64), (3, 128), (2, 160), (0x3F800000, 224)]

def lookupHdr : BitVec 512 := word 512 [(3, 0), (0x1100, 64), (0x1200, 128), (0x1300, 256)]
def updateHdr : BitVec 512 := word 512 [(3, 0), (9, 8), (0x1100, 64), (0x1200, 128), (256, 192)]

/-- A plain tensor of `n` by `m` elements of type `t`, `size` bytes each, at `base`. -/
def tensor (t size base n m : Nat) : BitVec 1024 :=
  word 1024 [(3, 0), (t, 8), (2, 16), (base, 64), (n, 256), (size, 320), (m, 384), (n * size, 448)]

/-- Queue 5 starts a LOOKUP or UPDATE of the table of 64 fp32 elements at epoch 4. -/
def batching (fs : List (Nat × Nat)) : State :=
  (nextCmd fs).setTable 3 { slots := [⟨4#32, .current, 1#16, goodTable⟩], last := 4#32, retcnt := 0#32 }

def lookupBatch : Batch := ((batching lookupCmd).startBatch 5 (cmdOf 0 false lookupCmd) false).porter.batches.headD default
def updateBatch : Batch := ((batching updateCmd).startBatch 5 (cmdOf 0 false updateCmd) true).porter.batches.headD default

theorem witness_batch_starts : (batching lookupCmd).mayWork = true ∧ (batching lookupCmd).unreadBatch 5 false = none ∧
    (batching lookupCmd).gate 5 (fun op => op == 0x10) = .go (cmdOf 0 false lookupCmd) ∧
    ((batching lookupCmd).table 3).current = some ⟨4#32, .current, 1#16, goodTable⟩ ∧
    (batching updateCmd).mayWork = true ∧ (batching updateCmd).unreadBatch 5 true = none ∧
    (batching updateCmd).gate 5 (fun op => op == 0x11) = .go (cmdOf 0 false updateCmd) := by decide +kernel

/-- A LOOKUP or an UPDATE has begun, and its header at 0x1000 and the output descriptor at 0x1300 have been read. -/
def batchRead (upd good : Bool) : State :=
  readFor (.command 5 0#16) [(0x1000, bytesOf (orBad good (if upd then updateHdr else lookupHdr)))]
    (readFor (.batch (if upd then updateBatch else lookupBatch).id) [(0x1300, natBytes 128 (tensor 9 4 0x5000 64 1).toNat)]
      (if upd then (batching updateCmd).startBatch 5 (cmdOf 0 false updateCmd) true
        else (batching lookupCmd).startBatch 5 (cmdOf 0 false lookupCmd) false))

theorem witness_lookup : ∀ h, (batchRead false h).unreadBatch 5 false = some lookupBatch ∧
    (batchRead false h).alive = true ∧ ((batchRead false h).queue 5).executing = true ∧
    lookupBatch.cmd = 0#16 ∧ cmdBatchPtr ((batchRead false h).batchCmd lookupBatch) = 0x1000 ∧ lbOut lookupHdr = 0x1300 ∧ lookupHdrOk 0#512 = false ∧ lookupHdrOk lookupHdr = true ∧
    outputCheck (BitVec.ofNat 1024 (leNat (natBytes 128 (tensor 9 4 0x5000 64 1).toNat))) = none := by decide +kernel

theorem witness_batch_bytes (upd h : Bool) :
    ((batchRead upd h).reading (.command 5 0#16)).bind (fun r => r.bytes 0x1000 64) = some (bytesOf (orBad h (if upd then updateHdr else lookupHdr))) ∧
    ((batchRead upd h).reading (.batch (if upd then updateBatch else lookupBatch).id)).bind (fun r => r.bytes 0x1300 128) =
      some (natBytes 128 (tensor 9 4 0x5000 64 1).toNat) :=
  ⟨readFor_all (bytesOf_length _), by rw [batchRead, readFor_other (by simp)]; exact readFor_all (natBytes_length _ _)⟩

theorem witness_update_command : ∀ h, (batchRead true h).unreadBatch 5 true = some updateBatch ∧
    (batchRead true h).alive = true ∧ ((batchRead true h).queue 5).executing = true ∧
    updateBatch.cmd = 0#16 ∧ cmdBatchPtr ((batchRead true h).batchCmd updateBatch) = 0x1000 ∧ updateHdrOk 0#512 (tbDim updateBatch.desc) = false ∧
    updateHdrOk updateHdr (tbDim updateBatch.desc) = true ∧
    updateRuleOk ((batchRead true h).batchCmd updateBatch) updateBatch.desc = true := by
  decide +kernel

-- Witnesses: background commands.

def prewarmFar : List (Nat × Nat) := [(0x20, 0), (3, 8), (0, 64), (0x90000, 128), (4096, 192)]
def preloadCmd : List (Nat × Nat) := [(0x14, 0), (3, 8), (0, 64), (3, 128), (1, 160), (0x1000, 192)]
def invalidateCmd : List (Nat × Nat) := [(0x14, 0), (3, 8), (1, 64), (0x8000, 192), (4096, 256)]

theorem witness_prewarm : (nextCmd prewarmCmd).gate 5 (fun op => op == 0x20) = .go (cmdOf 0 false prewarmCmd) ∧
    (((nextCmd prewarmCmd).queue 5).cmds.map (fun x => x.idx)).Nodup ∧ (cmdOf 0 false prewarmCmd).pages = 0 ∧
    ((nextCmd prewarmCmd).queue 5).cmds.find? (fun c => c.started && !c.done && cmdOp c.bytes == 0x20 &&
      decide (c.pages < cmdPreLen c.bytes / 4096)) = none ∧ cmdPreLen (cmdOf 0 false prewarmCmd).bytes = 4096 ∧
    (nextCmd prewarmCmd).findL2 ((nextCmd prewarmCmd).qEast 5) ((nextCmd prewarmCmd).qAsid 5) 3 = some ⟨1#16, 0#44, 16, 0#40, 7#3⟩ ∧
    (nextCmd prewarmCmd).commandWaits (.prewarm 5 0#16) = false ∧
    (nextCmd prewarmFar).findL2 ((nextCmd prewarmFar).qEast 5) ((nextCmd prewarmFar).qAsid 5) 0x90 = none ∧
    (nextCmd prewarmFar).missShare ((nextCmd prewarmFar).qEast 5) .prewarm = some .prewarm ∧
    (nextCmd prewarmFar).misses = [] := by decide +kernel

/-- A table of 100 rows of 64 one-byte elements that the Larder holds. -/
def cachedTable : BitVec 512 := word 512 [(3, 0), (1, 16), (1, 24), (64, 48), (0x8000, 64), (128, 128), (100, 192), (100, 256)]

def caching : State :=
  (larderOn (nextCmd preloadCmd)).setTable 3 { slots := [⟨4#32, .current, 1#16, cachedTable⟩], last := 4#32, retcnt := 0#32 }

def bypassing : State := { nextCmd preloadCmd with boot := { (nextCmd preloadCmd).boot with bypass := true } }

theorem witness_preload_bypassed : bypassing.larderBypass = true ∧ bypassing.preloadVersion (cmdOf 0 false preloadCmd) = none ∧
    bypassing.gate 5 (fun op => op == 0x14) = .go (cmdOf 0 false preloadCmd) ∧ (bypassing.queue 5).nextCtl 0 = true ∧
    (bypassing.queue 5).begunCtl 0 = none ∧ ((bypassing.queue 5).cmds.map (fun x => x.idx)).Nodup := by decide +kernel

/-- A PRELOAD in progress has read its list at 0x1000, row 7 with it, and has an install of the row's granule. -/
def preloading : State :=
  let s := caching.updQueue 5 (fun v => { v with cmds := [cmdOf 0 true preloadCmd] })
  readFor (.preload 5 0#16) [(0x1000, natBytes 8 7), (0x8380, List.replicate 128 6#8)]
    { s with larder := { s.larder with installs := [⟨60, false, 0x107, 3, false, some (5, 0#16)⟩] } }

theorem witness_preload_bytes : (preloading.reading (.preload 5 0#16)).bind (fun r => r.bytes 0x1000 8) = some (natBytes 8 7) ∧
    (preloading.reading (.preload 5 0#16)).bind (fun r => r.bytes 0x8380 128) = some (List.replicate 128 6#8) :=
  ⟨readFor_all (natBytes_length _ _), readFor_second (by simp) (by simp)⟩

theorem witness_preload : preloading.alive = true ∧ (preloading.queue 5).begunCtl 0 = some (cmdOf 0 true preloadCmd) ∧
    (preloading.queue 5).cmd 0#16 = some (cmdOf 0 true preloadCmd) ∧ (preloading.queue 5).stop = none ∧
    (cmdOf 0 true preloadCmd).pages = 0 ∧ cmdPreN (cmdOf 0 true preloadCmd).bytes = 1 ∧
    preloading.preloadVersion (cmdOf 0 true preloadCmd) = some ⟨4#32, .current, 1#16, cachedTable⟩ ∧
    cmdCtlAddr (cmdOf 0 true preloadCmd).bytes = 0x1000 ∧
    leNat (natBytes 8 7) < tbNLocal cachedTable ∧ tbRowVa cachedTable 7 / 128 * 128 = 0x8380 ∧
    (tbRowVa cachedTable 7 + tbRowBytes cachedTable + 127) / 128 * 128 - 0x8380 = 128 ∧
    preloading.preloads 5 0#16 = [⟨60, false, 0x107, 3, false, some (5, 0#16)⟩] ∧
    preloading.installable 0x107 = true ∧
    preloading.findWay (setKey (preloading.homeEast (0x107 * 128)) (larderSet 0x107)) (larderTag 0x107) = none ∧
    preloading.victim (setKey (preloading.homeEast (0x107 * 128)) (larderSet 0x107)) = some 0 ∧
    (preloading.way (setKey (preloading.homeEast (0x107 * 128)) (larderSet 0x107)) 0).valid = false := by decide +kernel

/-- The Larder holds granule 0x105, which a queue's INVALIDATE names. -/
def invalidates : State :=
  let s := larderOn (nextCmd invalidateCmd)
  { s with larder := { s.larder with
      dir := s.larder.dir.set (setKey false (larderSet 0x105)) ((default : Bank Way).set 4 ⟨true, 3#2, larderTag 0x105⟩) } }

theorem witness_invalidate : invalidates.gate 5 (fun op => op == 0x14) = .go (cmdOf 0 false invalidateCmd) ∧
    (invalidates.queue 5).nextCtl 1 = true ∧ (invalidates.queue 5).begunCtl 1 = none ∧ (cmdOf 0 false invalidateCmd).pages = 0 ∧
    ((invalidates.queue 5).cmds.map (fun x => x.idx)).Nodup ∧ cmdCtlLen (cmdOf 0 false invalidateCmd).bytes = 4096 ∧
    invalidates.findL2 (invalidates.qEast 5) (invalidates.qAsid 5) 8 = some ⟨1#16, 0#44, 16, 0#40, 7#3⟩ ∧
    (⟨1#16, 0#44, 16, 0#40, 7#3⟩ : Range).allows accRead = true ∧
    0x8000 = (⟨1#16, 0#44, 16, 0#40, 7#3⟩ : Range).ppage 8 * 4096 ∧ paDevice 0x8000 = invalidates.devid ∧
    invalidates.windowed 0x8000 = true := by decide +kernel

theorem witness_invalidate_ways (key a b : Nat) : (invalidates.way key a).valid = true → (invalidates.way key b).valid = true →
    a = b := by
  have h : ∀ k w, (invalidates.way k w).valid = true → w = 4 := by
    intro k w
    have e : invalidates.way k w = ((larderOn (nextCmd invalidateCmd)).larder.dir.set (setKey false (larderSet 0x105))
        ((default : Bank Way).set 4 ⟨true, 3#2, larderTag 0x105⟩) |>.get k).get w := rfl
    rw [e, Bank.get_set]
    split
    · rw [Bank.get_set]
      split
      · exact fun _ => ‹_›
      · intro h
        exact absurd h (by simp [Bank.get]; rfl)
    · intro h
      exact absurd h (by simp [Bank.get]; rfl)
  exact fun ha hb => (h key a ha).trans (h key b hb).symm

/-- Queue 5 runs a task whose itineraries have halted; a background command stands behind its RUN. -/
def behindRun (fs : List (Nat × Nat)) : State :=
  (queued .running [cmdOf 0 true runCmd, cmdOf 1 false fs]).updQueue 5 (fun v => { v with task := some runningTask })

theorem witness_background : (behindRun preloadCmd).alive = true ∧ ((behindRun preloadCmd).queue 5).executing = true ∧
    ((behindRun preloadCmd).queue 5).task = some runningTask ∧ 
    ((behindRun preloadCmd).queue 5).cmds.find? (fun x => !x.started && !x.done) = some (cmdOf 1 false preloadCmd) ∧
    cmdBackground (cmdOf 1 false preloadCmd).bytes = true ∧ cmdOk (cmdOf 1 false preloadCmd).bytes (behindRun preloadCmd).cfg.sems = true ∧
    ((((behindRun preloadCmd).queue 5).cmds.dropWhile (fun x => x.idx != runningTask.cmd)).takeWhile
      (fun x => x.idx != (cmdOf 1 false preloadCmd).idx)).drop 1 = [] ∧ (behindRun preloadCmd).itins = [] ∧
    ((behindRun prewarmCmd).queue 5).cmds.find? (fun x => !x.started && !x.done) = some (cmdOf 1 false prewarmCmd) ∧
    (behindRun prewarmCmd).findL2 ((behindRun prewarmCmd).qEast 5) ((behindRun prewarmCmd).qAsid 5) 3 = some ⟨1#16, 0#44, 16, 0#40, 7#3⟩ ∧
    (behindRun prewarmCmd).commandWaits (.prewarm 5 1#16) = false := by decide +kernel

-- Witnesses: the Ledger.

def ledgerCmd (op : Nat) : List (Nat × Nat) := [(0x30, 0), (3, 8), (op, 64), (77, 96)]

/-- The Ledger with these writes staged; Q0 has a LEDGER command next, or in flight. -/
def ledgering (op : Nat) (started : Bool) (st : LedgerState) (staged : List (Nat × Word)) : State :=
  { mapped (withCmds live 0 .running [cmdOf 0 started (ledgerCmd op)]) with
    ledger := { (default : Ledger) with st := st, staged := staged } }

theorem witness_ledger_commands : (ledgering 0 false .closed []).gate 0 (fun op => op == 0x30) = .go (cmdOf 0 false (ledgerCmd 0)) ∧
    ((ledgering 0 false .closed []).queue 0).nextLedger [0] = true ∧
    (ledgering 2 false .opened []).gate 0 (fun op => op == 0x30) = .go (cmdOf 0 false (ledgerCmd 2)) ∧
    ((ledgering 2 false .opened []).queue 0).nextLedger [2] = true ∧
    (ledgering 1 false .opened []).gate 0 (fun op => op == 0x30) = .go (cmdOf 0 false (ledgerCmd 1)) ∧
    ((ledgering 1 false .opened []).queue 0).nextLedger [1] = true ∧ ((ledgering 1 false .opened []).queue 0).stop = none := by
  decide +kernel

theorem witness_commit : (ledgering 1 false .opened [(offLdgQwing 0, 0x2#32)]).commitCheck = none ∧
    (ledgering 1 false .opened []).commitCheck = none ∧
    (ledgering 1 false .opened [(offRing 0 0, 0x80000000#32)]).commitCheck = some (3, offRing 0 0) ∧
    (ledgering 1 false .closed []).ledger.st ≠ .committing ∧ (((ledgering 1 false .opened []).queue 0).cmds.map (fun x => x.idx)).Nodup ∧
    (∀ x ∈ (ledgering 1 false .opened []).remote.ports.cells, x.2.tx = []) ∧ cmdOp (cmdOf 0 true (ledgerCmd 1)).bytes = 0x30 := by decide +kernel

theorem witness_commit_applies : (ledgering 1 true .committing [(offLdgQwing 0, 0x2#32)]).alive = true ∧
    (ledgering 1 true .committing [(offLdgQwing 0, 0x2#32)]).quiescent = true ∧
    (ledgering 1 true .committing [(offLdgQwing 0, 0x2#32)]).windowsChange = false ∧
    ([(offLdgQwing 0, 0x2#32)].map (fun e : Nat × Word => e.1)).Nodup ∧ (∀ e ∈ [(offLdgQwing 0, 0x2#32)], isRwt e.1 = true) ∧
    ((ledgering 1 true .committing [(offLdgQwing 0, 0x2#32)]).queue 0).cmd 0#16 = some (cmdOf 0 true (ledgerCmd 1)) ∧
    (ledgering 1 true .committing [(offLrdBase 0, 0x80000000#32)]).quiescent = true ∧
    (ledgering 1 true .committing [(offLrdBase 0, 0x80000000#32)]).windowsChange = true ∧ 0 < live.cfg.tiers := by decide +kernel

/-- The windows' change is under way. -/
def clearing : State :=
  let s := ledgering 1 true .committing [(offLrdBase 0, 0x80000000#32)]
  { s with ledger := { s.ledger with clearing := true }, larder := { s.larder with clearing := true } }

theorem witness_clearing : clearing.larder.clearing = true ∧ clearing.ledger.st = .committing ∧ clearing.ledger.clearing = true ∧
    (∀ e ∈ clearing.ledger.staged, isRwt e.1 = true) ∧ (clearing.queue 0).cmd clearing.ledger.cmd = some (cmdOf 0 true (ledgerCmd 1)) ∧
    (clearing.ledger.staged.map (fun e => e.1)).Nodup := by decide +kernel

theorem witness_not_quiescent : (ledgering 1 true .committing [(offLdgQwing 0, 0x1#32)]).quiescent = false ∧
    (ledgering 1 true .committing [(offLdgQwing 0, 0x1#32)]).mayFail 0 := by unfold State.mayFail; decide +kernel

theorem witness_staged_write : isRwt (0x100100#24 : BitVec 24).toNat = true ∧
    (ledgering 1 true .opened []).performs (0x100100#24 : BitVec 24).toNat ∧ ({ ledgering 1 true .opened [] with cfg := .s } : State).performs 0x060004 ∧
    (ledgering 1 true .opened []).offPresent (0x100100#24 : BitVec 24).toNat = true ∧
    ({ ledgering 1 true .opened [] with cfg := .s } : State).offPresent 0x060004 = false ∧ isRwt 0x060004 = true ∧
    (ledgering 1 true .opened []).isStaged (0x100100#24 : BitVec 24).toNat = false ∧
    (ledgering 1 true .opened [(0x100100, 5#32)]).isStaged (0x100100#24 : BitVec 24).toNat = true := by
  unfold State.performs; decide +kernel

-- Witnesses: itinerary instructions.

def ins (op : Nat) (fs : List (Nat × Nat)) : BitVec 64 := word 64 ((op, 56) :: fs)

/-- Itinerary 2 of queue 5, in slot 0 of lane 20, about to execute `w`. -/
def itinOf (w : BitVec 64) : Itin :=
  { (default : Itin) with stream := 500, q := 5, num := 2, lane := 20, place := .resident, status := .ready, chosen := true, prog := [w] }

/-- The lane runs that itinerary. -/
def atItin (i : Itin) : State :=
  { tasked { runningTask with links := [] } with itins := [i] }.updLane 20 (fun v => { v with run := some 500 })

def atIns (op : Nat) (fs : List (Nat × Nat)) : State := atItin (itinOf (ins op fs))

theorem witness_own_instructions : ∀ op ∈ [0x01, 0x04, 0x05, 0x10, 0x11, 0x14, 0x15, 0x1A, 0x38, 0x3C, 0x02],
    (atIns op []).runsIns 20 op (itinOf (ins op [])) := by unfold State.runsIns; decide +kernel

theorem witness_aradd_range : -(2 ^ 55) ≤ ((itinOf (ins 0x15 [])).ar.get (insLcs (ins 0x15 []))).toInt + signedOf 32 (bits (ins 0x15 []) 0 32) ∧
    (({ itinOf (ins 0x15 [(1, 0)]) with ar := (Bank.empty : Bank (BitVec 56)).set 0 0x7FFFFFFFFFFFFF#56 } : Itin).ar.get 0).toInt + 1 ≥ 2 ^ 55 := by
  decide +kernel

/-- An index vector of 100 elements at 0x6000. -/
def indexTensor : BitVec 1024 := word 1024 [(3, 0), (4, 8), (1, 16), (0x6000, 64), (100, 256), (4, 320)]

def bindItin : Itin := { itinOf (ins 0x18 [(1, 54), (3, 50)]) with descs := (Bank.empty : Bank (Option (BitVec 1024))).set 3 (some indexTensor) }

theorem witness_ixbind : (atItin bindItin).runsIns 20 0x18 bindItin ∧ bindItin.desc (bits bindItin.next 50 4) = some indexTensor ∧
    tdNdim indexTensor = 1 ∧ tdSlot indexTensor = false ∧ tdDtype indexTensor = 0x4 := by unfold State.runsIns; decide +kernel

/-- The cursor of stream 1 at position 7, with its first window there or not. -/
def cursor (there : Bool) : Cursor := ⟨true, indexTensor, 0, 7#32, if there then [(0x6000, List.replicate 512 9#8)] else [], []⟩

def getItin (there : Bool) : Itin :=
  { itinOf (ins 0x19 [(1, 54), (2, 51)]) with ix := (Bank.empty : Bank Cursor).set 1 (cursor there) }

theorem witness_ixget : (atItin (getItin true)).runsIns 20 0x19 (getItin true) ∧ (atItin (getItin true)).noTilesOf (getItin true) ∧
    ((getItin true).ix.get (insIx (getItin true).next)).bound = true ∧
    ((getItin true).ix.get (insIx (getItin true).next)).takeElems 1 = some [0x09090909#32] ∧
    (atItin (getItin false)).runsIns 20 0x19 (getItin false) ∧
    ((getItin false).ix.get (insIx (getItin false).next)).takeElems 1 = none := by
  unfold State.runsIns State.noTilesOf; decide +kernel

def haltItin (held : Bool) : Itin := { itinOf (ins 0x02 []) with heldW := if held then some ⟨40, 1⟩ else none }

theorem witness_halt : (atItin (haltItin false)).runsIns 20 0x02 (haltItin false) ∧ (haltItin false).heldW = none ∧
    (haltItin false).heldR = none ∧ (haltItin false).wwin = none ∧ (atItin (haltItin false)).tiles = [] ∧
    (atItin (haltItin false)).porter.subs = [] ∧ (atItin (haltItin false)).remote.serves = [] ∧
    (atItin (haltItin false)).remote.owed = .empty ∧ (atItin (haltItin false)).itins = [haltItin false] ∧ (∀ q, (atItin (haltItin false)).asides q = []) ∧
    (atItin (haltItin true)).runsIns 20 0x02 (haltItin true) ∧ (atItin (haltItin true)).noTilesOf (haltItin true) ∧
    (haltItin true).heldW ≠ none := by
  unfold State.runsIns State.noTilesOf
  refine ⟨by decide +kernel, by decide +kernel, by decide +kernel, by decide +kernel, by decide +kernel, by decide +kernel,
    by decide +kernel, by decide +kernel, by decide +kernel, fun q => ?_,
    by decide +kernel, by decide +kernel, by decide +kernel⟩
  unfold State.asides
  have h : (atItin (haltItin false)).itins = [haltItin false] := rfl
  rw [h]
  have h' : (haltItin false).place = .resident := rfl
  simp [h']

-- Witnesses: slots and rings.

/-- Ring 40, of 5 slots of 512 bytes in the West Hall at unit 400, valid. -/
def ringed (s : State) : State := ((s.setReg (offRing 40 0) 0x80090005#32).setReg (offRing 40 4) (BitVec.ofNat 32 (400 * 65536)))

def claimItin (held : Option HeldSlot) : Itin := { itinOf (ins 0x20 [(40, 46)]) with heldW := held }
def takeItin : Itin := itinOf (ins 0x22 [(40, 46)])

/-- The task of queue 5 governs ring 40 by semaphores 30 and 31. -/
def linked (s : State) : State :=
  s.updQueue 5 (fun v => { v with task := some { runningTask with rings := [40#64], links := [word 64 [(30, 0), (31, 16), (40, 32)]] } })

def withSems (n : Nat) (s : State) : State :=
  (s.updSem 30 (fun v => { v with count := BitVec.ofNat 20 n })).updSem 31 (fun v => { v with count := BitVec.ofNat 20 n })

theorem witness_claim : (ringed (atItin (claimItin none))).runsIns 20 0x20 (claimItin none) ∧ 40 = insRing (claimItin none).next ∧
    (ringed (atItin (claimItin none))).noTilesOf (claimItin none) ∧ (claimItin none).heldW = none ∧
    (ringed (atItin (claimItin none))).hallFits 40 ((ringed (atItin (claimItin none))).ring 40).claimp = true ∧
    (ringed (atItin (claimItin none))).linkOf 5 40 = none ∧ (ringed (atItin (claimItin none))).claimable 40 = true ∧
    (ringed (atItin (claimItin none))).slotRings 40 = [40] := by unfold State.runsIns State.noTilesOf; decide +kernel

theorem witness_claim_linked : (withSems 1 (linked (ringed (atItin (claimItin none))))).linkOf 5 40 = some (30, 31) ∧
    ((withSems 1 (linked (ringed (atItin (claimItin none))))).slotRings 40).length ≤ 1 ∧ semEast 31 = laneEast 20 ∧
    (withSems 1 (linked (ringed (atItin (claimItin none))))).runsIns 20 0x20 (claimItin none) ∧
    ((withSems 1 (linked (ringed (atItin (claimItin none))))).sem 31).poisoned = false ∧
    (withSems 1 (linked (ringed (atItin (claimItin none))))).semGrantsNow 31 1#20 = true := by unfold State.runsIns; decide +kernel

/-- Group 2 has client rings 40, its leader, and 41; the task governs both. -/
def grouped (s : State) : State :=
  ((((s.setReg (offRing 40 0) 0xC0098205#32).setReg (offRing 41 0) 0xC1098205#32).setReg (offMg 2 0) 0x89000028#32).updQueue 5
    (fun v => { v with task := some { runningTask with
      rings := [40#64, 41#64], links := [word 64 [(30, 0), (31, 16), (40, 32)], word 64 [(78, 0), (79, 16), (41, 32)]] } })).updSem 79
    (fun v => { v with count := 1#20 })

theorem witness_claim_group : (withSems 1 (grouped (atItin (claimItin none)))).slotRings 40 = [40, 41] ∧
    (withSems 1 (grouped (atItin (claimItin none)))).linkOf 5 40 = some (30, 31) ∧
    (withSems 1 (grouped (atItin (claimItin none)))).groupFree 5 40 = true ∧
    (withSems 1 (grouped (atItin (claimItin none)))).hallFits 40 0 = true ∧
    (withSems 1 (grouped (atItin (claimItin none)))).runsIns 20 0x20 (claimItin none) ∧
    (∀ k ∈ (withSems 1 (grouped (atItin (claimItin none)))).groupSems 5 40, semEast k = laneEast 20) ∧
    (withSems 0 (grouped (atItin (claimItin none)))).runsIns 20 0x20 (claimItin none) ∧
    (withSems 0 (grouped (atItin (claimItin none)))).linkOf 5 40 = some (30, 31) ∧
    (withSems 0 (grouped (atItin (claimItin none)))).slotRings 40 = [40, 41] ∧
    (∀ k ∈ (withSems 0 (grouped (atItin (claimItin none)))).groupSems 5 40, semEast k = laneEast 20) ∧
    (withSems 0 (grouped (atItin (claimItin none)))).groupFree 5 40 = false := by unfold State.runsIns; decide +kernel

theorem witness_claim_group_sound (n k : Nat) : ((withSems n (grouped (atItin (claimItin none)))).sem k).poisoned = false := by
  have h (s : State) (h : ∀ j, (s.sem j).poisoned = false) (i : Nat) (c : BitVec 20) (j : Nat) :
      ((s.updSem i (fun v => { v with count := c })).sem j).poisoned = false := by
    simp only [State.updSem, State.setSem, State.sem, Bank.get_set]
    split
    · exact h i
    · exact h j
  exact h _ (h _ (h _ (fun _ => rfl) _ _) _ _) _ _ k

/-- A ring whose slots lie beyond the Hall. -/
def beyond (i : Itin) : State := (atItin i).setReg (offRing 40 4) 0xFFFF0000#32 |>.setReg (offRing 40 0) 0x80140040#32

theorem witness_beyond : (beyond (claimItin none)).runsIns 20 0x20 (claimItin none) ∧
    (beyond (claimItin none)).hallFits (insRing (claimItin none).next) ((beyond (claimItin none)).ring (insRing (claimItin none).next)).claimp = false ∧
    (beyond takeItin).runsIns 20 0x22 takeItin ∧ takeItin.heldR = none ∧
    (beyond takeItin).hallFits (insRing takeItin.next) ((beyond takeItin).ring (insRing takeItin.next)).takep = false := by
  unfold State.runsIns; decide +kernel

/-- Ring 40 with one published slot. -/
def published (s : State) : State := (ringed s).updRing 40 (fun v => { v with avail := 1, occ := 1 })

theorem witness_take : (published (atItin takeItin)).runsIns 20 0x22 takeItin ∧ 40 = insRing takeItin.next ∧
    (published (atItin takeItin)).hallFits 40 ((published (atItin takeItin)).ring 40).takep = true ∧
    (published (atItin takeItin)).linkOf 5 40 = none ∧ 0 < ((published (atItin takeItin)).ring 40).avail ∧
    (withSems 1 (linked (published (atItin takeItin)))).linkOf 5 40 = some (30, 31) ∧ semEast 30 = laneEast 20 ∧
    (withSems 1 (linked (published (atItin takeItin)))).semGrantsNow 30 1#20 = true ∧
    (withSems 0 (linked (published (atItin takeItin)))).semGrantsNow 30 1#20 = false ∧
    (withSems 0 (linked (published (atItin takeItin)))).runsIns 20 0x22 takeItin := by unfold State.runsIns; decide +kernel

def publishItin : Itin := { itinOf (ins 0x21 [(40, 46)]) with heldW := some ⟨40, 0⟩ }
def freeItin : Itin := { itinOf (ins 0x23 [(40, 46)]) with heldR := some ⟨40, 0⟩ }

theorem witness_give_up : (ringed (atItin publishItin)).runsIns 20 0x21 publishItin ∧ publishItin.heldW = some ⟨40, 0⟩ ∧
    40 = insRing publishItin.next ∧ (ringed (atItin publishItin)).slotRings 40 = [40] ∧
    (ringed (atItin publishItin)).noTilesOf publishItin ∧ (ringed (atItin freeItin)).runsIns 20 0x23 freeItin ∧
    freeItin.heldR = some ⟨40, 0⟩ ∧ 40 = insRing freeItin.next := by unfold State.runsIns State.noTilesOf; decide +kernel

def relOf (k : RelKind) : Release := ⟨88, 5, 2, false, k, []⟩

/-- The release waits for nothing any more. -/
def releasing (k : RelKind) : State := { published (tasked runningTask) with releases := [relOf k] }

theorem witness_releases : (releasing (.slotPublish 40 0 (some 30))).alive = true ∧
    (releasing (.slotPublish 40 0 (some 30))).releases.find? (fun r => r.id == 88) = some (relOf (.slotPublish 40 0 (some 30))) ∧
    (relOf (.slotPublish 40 0 (some 30))).tiles.all ((releasing (.slotPublish 40 0 (some 30))).landedFor 40) = true ∧
    (releasing (.slotPublish 40 0 (some 30))).firstPublish 88 40 = true ∧ semEast 30 = false ∧
    ((releasing (.slotPublish 40 0 (some 30))).sem 30).poisoned = false ∧
    (releasing (.slotPublish 40 0 (some 30))).outOfTurn 30 rankInc 1#20 = false ∧
    ((releasing (.slotPublish 40 0 (some 30))).turns.get 30).overflowed = false ∧
    (releasing (.slotFree 40 (some 31))).firstFree 88 40 = true ∧
    (releasing (.slotFree 40 (some 31))).outOfTurn 31 rankInc 1#20 = false ∧
    ((releasing (.slotFree 40 (some 31))).turns.get 31).overflowed = false ∧
    ((releasing (.slotPublish 40 0 (some 30))).sem 30).count.toNat + 1 < 2 ^ 20 ∧
    (∀ c ∈ (releasing (.slotPublish 40 0 (some 30))).rings.cells, c.2.pair ≠ some 30) ∧
    (releasing (.slotFree 40 (some 31))).releases.find? (fun r => r.id == 88) = some (relOf (.slotFree 40 (some 31))) ∧
    (relOf (.slotFree 40 (some 31))).tiles.all (releasing (.slotFree 40 (some 31))).slotRead = true ∧ semEast 31 = false := by
  decide +kernel

/-- The CLAIM of group 2's leader is blocked by ring 40, which has no free slot. -/
def lagging : State :=
  let s := withSems 0 (grouped (atItin { claimItin none with status := .taking, chosen := false }))
  { s.setReg (offMg 2 0) 0x89000028#32 with lag := s.lag.set 2 (some 100) }

theorem witness_laggard : lagging.alive = true ∧ lagging.watchLaggards.lag.get 2 = some 100 ∧
    lagging.watchLaggards.claimBlocked 2 = some { claimItin none with status := .taking, chosen := false } ∧ lagging.tally.reqs = [] ∧ 0 < lagging.fld (offMg 2 0) 24 5 ∧
    (lagging.queue 5).st = .running ∧ (lagging.queue 5).stop = none ∧ (ringed live).ringValid 40 = true ∧
    ((ringed live).ring 40).hist = false := by decide +kernel

-- Witnesses: WAIT and SIGNAL of an itinerary.

def waitItin (sem : Nat) : Itin := itinOf (ins 0x28 [(sem, 45), (5, 0)])
def signalItin : Itin := itinOf (ins 0x29 [(30, 45), (5, 0)])

theorem witness_itin_wait : (withSems 5 (atItin (waitItin 30))).runsIns 20 0x28 (waitItin 30) ∧ 30 = insSem (waitItin 30).next ∧
    5#20 = insCount20 (waitItin 30).next ∧ semEast 30 = laneEast 20 ∧ (withSems 5 (atItin (waitItin 30))).semGrantsNow 30 5#20 = true ∧
    (withSems 4 (atItin (waitItin 30))).semGrantsNow 30 5#20 = false ∧ (withSems 4 (atItin (waitItin 30))).runsIns 20 0x28 (waitItin 30) ∧
    ((atItin (waitItin 30)).updSem 30 (fun v => { v with poisoned := true })).runsIns 20 0x28 (waitItin 30) ∧
    (((atItin (waitItin 30)).updSem 30 (fun v => { v with poisoned := true })).sem 30).poisoned = true ∧
    (atItin (waitItin 1535)).runsIns 20 0x28 (waitItin 1535) ∧ semEast 1535 ≠ laneEast 20 ∧
    (atItin (waitItin 1535)).corridor.failed = false ∧ (atItin (waitItin 30)).noTilesOf (waitItin 30) := by
  unfold State.runsIns State.noTilesOf; decide +kernel

theorem witness_itin_signal : (atItin signalItin).runsIns 20 0x29 signalItin ∧ (atItin signalItin).noTilesOf signalItin ∧
    (releasing (.signal 30 5#20)).releases.find? (fun r => r.id == 88) = some (relOf (.signal 30 5#20)) ∧
    ((releasing (.signal 30 5#20)).sem 30).count.toNat + (5#20 : BitVec 20).toNat < 2 ^ 20 ∧ semEast 30 = (relOf (.signal 30 5#20)).east ∧
    (releasing (.signal 30 5#20)).outOfTurn 30 rankInc 5#20 = false ∧ ((releasing (.signal 30 5#20)).turns.get 30).overflowed = false ∧
    (releasing (.signal 1535 5#20)).releases.find? (fun r => r.id == 88) = some (relOf (.signal 1535 5#20)) ∧
    semEast 1535 ≠ (relOf (.signal 1535 5#20)).east ∧ (releasing (.signal 1535 5#20)).corridor.failed = false := by
  unfold State.noTilesOf State.runsIns; decide +kernel

/-- Semaphore 30, at `n`, has a waiter for 5. -/
def waited (n : Nat) (w : SemWho) (s : State) : State :=
  (s.updSem 30 (fun v => { v with count := BitVec.ofNat 20 n, waiters := [⟨w, 5, 5#20⟩] }))

theorem witness_grant : (waited 5 (.itin 20 0) (atItin { waitItin 30 with status := .taking, chosen := false })).alive = true ∧
    ((waited 5 (.itin 20 0) (atItin { waitItin 30 with status := .taking, chosen := false })).sem 30).waiters = ⟨.itin 20 0, 5, 5#20⟩ :: [] ∧
    (5#20 : BitVec 20).toNat ≤ ((waited 5 (.itin 20 0) (atItin { waitItin 30 with status := .taking, chosen := false })).sem 30).count.toNat ∧
    (waited 5 (.itin 20 0) (atItin { waitItin 30 with status := .taking, chosen := false })).resident 20 0 = some { waitItin 30 with status := .taking, chosen := false } ∧
    insOp (waitItin 30).next = 0x28 ∧
    ((waited 5 (.command 5) (begun waitCmd)).queue 5).cmds.find? (fun c => c.started && !c.done && cmdOp c.bytes == 0x03) =
      some (cmdOf 0 true waitCmd) ∧
    ((waited 5 (.command 5) (begun waitCmd)).sem 30).waiters = ⟨.command 5, 5, 5#20⟩ :: [] ∧
    (waited 5 (.command 5) (begun waitCmd)).takenBy 30 ⟨.command 5, 5, 5#20⟩ = [30] ∧
    (waited 5 (.command 5) (begun waitCmd)).waiterEast ⟨.command 5, 5, 5#20⟩ = semEast 30 ∧
    (waited 5 (.itin 63 0) live).waiterEast ⟨.itin 63 0, 5, 5#20⟩ ≠ semEast 30 ∧ (waited 5 (.itin 63 0) live).corridor.failed = false := by
  decide +kernel

/-- A CLAIM of group 2's leader waits on the FREE_SEM of both members, which now count 1. -/
def groupWaits : State :=
  let s := withSems 1 (grouped (atItin { claimItin none with status := .taking, chosen := false }))
  [31, 79].foldl (fun a k => a.updSem k (fun v => { v with waiters := [⟨.group 20 0 40, 5, 1#20⟩] })) s

theorem witness_grant_group : groupWaits.alive = true ∧ groupWaits.grantable 31 = some ⟨.group 20 0 40, 5, 1#20⟩ ∧
    groupWaits.takenBy 31 ⟨.group 20 0 40, 5, 1#20⟩ = [31, 79] ∧ [31, 79].Nodup ∧
    ∀ j ∈ [31, 31, 79], semEast j = groupWaits.waiterEast ⟨.group 20 0 40, 5, 1#20⟩ := by decide +kernel

-- Witnesses: transfers.

/-- Descriptor 1 is read, descriptor 2 written: 64 by 4 elements of type fp32. -/
def descs2 : Bank (Option (BitVec 1024)) :=
  ((Bank.empty : Bank (Option (BitVec 1024))).set 1 (some (tensor 9 4 0x4000 64 4))).set 2 (some (tensor 9 4 0x5000 64 4))

def tileFields : List (Nat × Nat) := [(1, 52), (2, 48), (63, 16), (3, 0)]
def moving (op : Nat) : Itin := { itinOf (ins op tileFields) with descs := descs2 }

def moveTile : Tile := (atItin (moving 0x30)).newTile (moving 0x30) .move (some 1) (some 2) 0 0 64 4
def xpandTile : Tile := (atItin (moving 0x32)).newTile (moving 0x32) .xpand (some 1) (some 2) 0 0 64 4
def reduceTile : Tile :=
  { (atItin (moving 0x33)).newTile (moving 0x33) .reduce (some 1) none 0 0 64 4 with wgts := ((moving 0x33).weights (moving 0x33).next 4).getD [] }

theorem witness_move : (atItin (moving 0x30)).runsIns 20 0x30 (moving 0x30) ∧ (atItin (moving 0x30)).noTilesOf (moving 0x30) ∧
    moveTile = (atItin (moving 0x30)).newTile (moving 0x30) .move (some (insRd (moving 0x30).next)) (some (insWd (moving 0x30).next))
      (insRar (moving 0x30).next) (insWar (moving 0x30).next) (insT0 (moving 0x30).next) (insT1 (moving 0x30).next) ∧
    (atItin (moving 0x30)).mayHandOver (moving 0x30) moveTile ∧ (atItin (moving 0x32)).runsIns 20 0x32 (moving 0x32) ∧
    bitAt (moving 0x32).sel 0 = false ∧ (atItin (moving 0x32)).mayHandOver (moving 0x32) xpandTile := by
  unfold State.runsIns State.noTilesOf State.mayHandOver; decide +kernel

theorem witness_reduce : (atItin (moving 0x33)).runsIns 20 0x33 (moving 0x33) ∧ (moving 0x33).poolBad (insT0 (moving 0x33).next) = false ∧
    bitAt (moving 0x33).sel 0 = false ∧ insWgt (moving 0x33).next = false ∧
    (moving 0x33).weights (moving 0x33).next (insT1 (moving 0x33).next) = some reduceTile.wgts ∧
    (atItin (moving 0x33)).mayHandOver (moving 0x33) reduceTile := by unfold State.runsIns State.mayHandOver; decide +kernel

/-- GATHER of `n` rows by index stream 1, pooling or not. -/
def gathering (n : Nat) (pool : Bool) : Itin :=
  { itinOf (ins 0x31 ([(1, 52), (63, 16), (1, 40), (n, 0)] ++ if pool then [(1, 39)] else [(2, 48)])) with
    descs := descs2, ix := (Bank.empty : Bank Cursor).set 1 (cursor true) }

def gatherTile (pool : Bool) : Tile :=
  { (atItin (gathering 2 pool)).newTile (gathering 2 pool) (if pool then .pool else .gather) (some 1) (if pool then none else some 2)
      0 0 64 0 with
    rows := [0x09090909, 0x09090909], wgts := ((gathering 2 pool).weights (gathering 2 pool).next 2).getD [] }

theorem witness_gather : ∀ pool : Bool, (atItin (gathering 2 pool)).runsIns 20 0x31 (gathering 2 pool) ∧
    2 = (gathering 2 pool).rowsOf (gathering 2 pool).next ∧ ((gathering 2 pool).ix.get (insGix (gathering 2 pool).next)).bound = true ∧
    tdDtype ((gathering 2 pool).ix.get (insGix (gathering 2 pool).next)).desc = 0x4 ∧ insWgt (gathering 2 pool).next = false ∧
    (gathering 2 pool).poolBad (insT0 (gathering 2 pool).next) = false ∧ bitAt (gathering 2 pool).sel 0 = false ∧
    ((gathering 2 pool).ix.get (insGix (gathering 2 pool).next)).takeElems 2 = some [0x09090909#32, 0x09090909#32] ∧
    (gathering 2 pool).weights (gathering 2 pool).next 2 = some (gatherTile pool).wgts ∧
    (atItin (gathering 2 pool)).mayHandOver (gathering 2 pool) (gatherTile pool) ∧
    (gathering 0 pool).rowsOf (gathering 0 pool).next = 0 ∧ (gathering 0 pool).descsRead = true := by
  unfold State.runsIns State.mayHandOver; decide +kernel

/-- The accumulator is 64 wide; the itinerary executes POOLOUT or DRAIN. -/
def pooling (op : Nat) : Itin := { itinOf (ins op [(2, 48)]) with descs := descs2, accW := some 64 }
def pooloutTile : Tile :=
  { (atItin (pooling 0x34)).newTile (pooling 0x34) .poolout none (some 2) 0 0 64 1 with mean := false, keep := false }

theorem witness_poolout : (atItin (pooling 0x34)).runsIns 20 0x34 (pooling 0x34) ∧ (pooling 0x34).accW = some 64 ∧
    (atItin (pooling 0x34)).mayHandOver (pooling 0x34) pooloutTile ∧ (atItin (itinOf (ins 0x2C []))).runsIns 20 0x2C (itinOf (ins 0x2C [])) ∧
    (atItin (itinOf (ins 0x2C []))).tiles = [] ∧ (atItin (itinOf (ins 0x2C []))).porter.subs = [] := by
  unfold State.runsIns State.mayHandOver; decide +kernel

-- Witnesses: lane events.

def blockedItin : Itin := { itinOf (ins 0x22 [(40, 46)]) with status := .blocked }

theorem witness_retry : (published (atItin blockedItin)).laneOn 20 = true ∧ (published (atItin blockedItin)).queueRuns 5 = true ∧
    (published (atItin blockedItin)).resident 20 0 = some blockedItin ∧ (published (atItin blockedItin)).itin 500 = some blockedItin ∧
    (published (atItin blockedItin)).unblocked blockedItin = true := by decide +kernel

def namesItin : Itin := { itinOf (ins 0x30 tileFields) with dtb := 0x3000#56 }

/-- Descriptor 1 has come, or 128 bytes of zeros. -/
def named (good : Bool) : State :=
  readFor (.desc 500) [(0x3080, if good then natBytes 128 (tensor 9 4 0x4000 64 4).toNat else List.replicate 128 0#8)] (atItin namesItin)

theorem witness_descriptor : ∀ good, (named good).laneOn 20 = true ∧ (named good).queueRuns 5 = true ∧
    (named good).resident 20 0 = some namesItin ∧ (named good).itin 500 = some namesItin ∧
    ((insDescs namesItin.next).filter (fun x => x.1 == 1)) ≠ [] ∧ namesItin.desc 1 = none ∧ 0x3080 = namesItin.dtb.toNat + 128 * 1 ∧
    ((named good).need (.desc 500) 0x3080 128).2 =
      .bytes (if good then natBytes 128 (tensor 9 4 0x4000 64 4).toNat else List.replicate 128 0#8) := by decide +kernel

theorem witness_descriptor_check :
    tdReadCheck (BitVec.ofNat 1024 (leNat (natBytes 128 (tensor 9 4 0x4000 64 4).toNat)))
      (((insDescs namesItin.next).filter (fun x => x.1 == 1)).any (fun x => x.2)) = none ∧
    (tdReadCheck (BitVec.ofNat 1024 (leNat (List.replicate 128 0#8)))
      (((insDescs namesItin.next).filter (fun x => x.1 == 1)).any (fun x => x.2))).isSome = true := by decide +kernel

/-- The reading that the itinerary of `s` opens for its descriptors. -/
def opened (s : State) : State × Reading := s.openReading (.desc 500)

theorem witness_descriptor_asked : (atItin namesItin).reading (.desc 500) = none ∧
    ((opened (atItin namesItin)).1.lookPage ((opened (atItin namesItin)).1.issuer (opened (atItin namesItin)).2) accRead (0x3080 / 4096)
      (.reader (opened (atItin namesItin)).2.id 0x3080 0x3080 128) 0x3080).2 = .found 3 ∧
    (atItin namesItin).portTakes (laneEast 20) (3 * 4096 + 0x3080 % 4096) := by unfold State.portTakes; decide +kernel

theorem witness_index_window : ((getItin false).ix.get 1).bound = true ∧ ((getItin false).ix.get 1).nextWindow ((getItin false).needs 1) = some 0x6000 ∧
    alignBad ((getItin false).ix.get 1).desc ((getItin false).ix.get 1).delta = false ∧
    ((opened (atItin (getItin false))).1.lookPage ((opened (atItin (getItin false))).1.issuer (opened (atItin (getItin false))).2) accRead
      (0x6000 / 4096) (.reader (opened (atItin (getItin false))).2.id 0x6000 0x6000 512) 0x6000).2 = .found 6 ∧
    (atItin (getItin false)).portTakes ((atItin (getItin false)).qEast 5) 0x6000 ∧
    (atItin (getItin false)).resident 20 0 = some (getItin false) := by unfold State.portTakes; decide +kernel

/-- An issued tile of the itinerary whose marking is undecided. -/
def undecided : Tile := { idleTile with stream := 500, lane := 20, q := 5, num := 2, stage := .issued }

theorem witness_marking : decides (insOp (haltItin false).next) = true ∧
    ({ atItin (haltItin false) with tiles := [undecided] } : State).resident 20 0 = some (haltItin false) ∧
    ({ atItin (haltItin false) with tiles := [undecided] } : State).waiting.all (fun r => r.heldFor.isNone) = true ∧
    (atItin (haltItin false)).remote.ports.cells.all (fun c => c.2.tx.all (fun x => x.heldFor.isNone)) = true := by decide +kernel

/-- The lane ran another itinerary last, which is gone; that of slot 0 is ready. -/
def switching : State := (atItin (haltItin false)).updLane 20 (fun v => { v with run := some 777, ran := 9 })

theorem witness_switch : switching.laneOn 20 = true ∧ (switching.running 20).filter switching.itinReady = none ∧
    switching.choose 20 (switching.readySlots 20) = some (haltItin false) ∧ switching.itin 500 = some (haltItin false) := by decide +kernel

/-- A MOVE waits in the lane's tile queue; its read side lies at `va`. -/
def queuedTile (va : Nat) : Tile := { moveTile with id := 33, t0 := 4, t1 := 1, rd := some (tensor 9 4 va 64 4) }
def issuing (va : Nat) : State :=
  let s := atItin (itinOf (ins 0x01 []))
  ({ s with tiles := [queuedTile va] } : State).updLane 20 (fun v => { v with tileq := [33] })

theorem witness_issue_queue (va : Nat) : (issuing va).fillQueue 20 = issuing va := rfl

theorem witness_issue : (issuing 0x4000).laneOn 20 = true ∧ (issuing 0x4000).nextTile 20 none = some (queuedTile 0x4000) ∧
    (issuing 0x4000).tileMayIssue (queuedTile 0x4000) = true ∧ (issuing 0x4000).tileCheck (queuedTile 0x4000) = none ∧
    (queuedTile 0x4000).kind ≠ .xpand ∧ ((issuing 0x4000).walk (queuedTile 0x4000)).2 = .covered ∧
    ((issuing 0x90000).walk (queuedTile 0x90000)).2 = .waiting ∧ (issuing 0x90000).tileCheck (queuedTile 0x90000) = none ∧
    0 < ((issuing 0x90000).walk (queuedTile 0x90000)).1.tileMisses 33 := by decide +kernel

theorem witness_issue_covered : (((issuing 0x4000).walk (queuedTile 0x4000)).1.tile 33).any (fun y => y.lane == 20 &&
    (y.readUnits.find? (fun v => paDevice (y.phys false v.1) != live.devid)).isNone) = true ∧
    ((issuing 0x4000).walk (queuedTile 0x4000)).1.porter.subs = [] ∧ ((issuing 0x4000).walk (queuedTile 0x4000)).1.remote.serves = [] ∧
    ((issuing 0x4000).walk (queuedTile 0x4000)).1.remote.owed = .empty ∧
    ((issuing 0x4000).walk (queuedTile 0x4000)).1.devid = live.devid := by decide +kernel

def needOf : Need := ⟨33, 0x4010, 0x4010, 16, false⟩

/-- The lane's read window holds one unit of tile 33. -/
def reading : State := (issuing 0x4000).updLane 20 (fun v => { v with rwins := [⟨5, 0x4000, [needOf]⟩] })

theorem witness_read_window : (reading.lane 20).rwins.find? (fun w => w.q == 5) = some ⟨5, 0x4000, [needOf]⟩ ∧ 0x4000 ≤ needOf.pa ∧
    reading.tile needOf.tile = some (queuedTile 0x4000) ∧ reading.portTakes (reading.qEast 5) needOf.pa := by
  unfold State.portTakes; decide +kernel

def finalTile : Tile := { undecided with written := true, final := some true }
def windowItin : Itin := { itinOf (ins 0x01 []) with wwin := some ⟨0x5000, 1#3, [⟨33, 0x5013, 0xAB#8⟩]⟩ }
def writing : State := { atItin windowItin with tiles := [finalTile] }

theorem witness_write_window : writing.alive = true ∧ writing.itin 500 = some windowItin ∧ writing.tiles = [finalTile] ∧ finalTile.id = 33 ∧
    isWriteOp 1#3 = true ∧ writing.lost = [] ∧ finalTile.final = some true ∧ paDevice 0x5013 = writing.devid ∧ writing.portTakes (writing.qEast 5) (0x5013 / 16 * 16) ∧
    (∀ j ∈ writing.itins, j.place ≠ .ended) := by unfold State.portTakes; decide +kernel

-- Witnesses: blocks.

/-- The bytes of a RAW block of one row and two fp32 elements, 1.5 and -3, BSCALE 2, with its check value. -/
def rawBytes : List Byte :=
  ([49, 1, 1, 0, 2, 0, 0, 9, 8, 0, 0, 0, 0, 0, 0, 64, 0, 0, 0, 0, 0, 0, 0, 0, 0, 0, 0, 0, 0xCF, 0x5B, 0x43, 0x73,
    0, 0, 192, 63, 0, 0, 64, 192] : List Nat).map (BitVec.ofNat 8)

def xTile : Tile := { undecided with kind := .xpand, t0 := 2, t1 := 1, cover := [⟨false, 4, 4, 0, 16⟩], rd := some (tensor 9 4 0x4000 64 4) }

def blockOf (bytes : List Byte) (st : BlockStage) : Block :=
  { (default : Block) with id := 60, tile := 33, q := 5, itin := 2, va := 0x4000#56, resv := 512, stage := st
                           data := bytes.zipIdx.foldl (fun a x => a.set x.2 x.1) .empty }

/-- The West Expander has one block, of the XPAND of tile 33. -/
def expanding (b : Block) : State := { atItin (itinOf (ins 0x01 [])) with tiles := [xTile], blocks := [b] }

theorem witness_block_start : (expanding (blockOf [] .accepted)).expanderOn (wingEast .west) = true ∧
    (expanding (blockOf [] .accepted)).tile 33 = some xTile ∧
    (expanding (blockOf [] .accepted)).nextBlock (wingEast .west) = some (blockOf [] .accepted) ∧
    (expanding (blockOf [] .accepted)).unitsUsed (wingEast .west) < (expanding (blockOf [] .accepted)).bufferUnits ∧
    (expanding (blockOf [] .accepted)).portTakes ((expanding (blockOf [] .accepted)).qEast 5) (xTile.phys false 0x4000) := by
  unfold State.portTakes; decide +kernel

/-- What the next check of the Expander finds: this block of this tile, the oldest of its queue. -/
def checksNext (s : State) (b : Block) (x : Tile) : Prop :=
  s.expanderOn (wingEast .west) = true ∧ s.tile b.tile = some x ∧ s.nextCheck (wingEast .west) = some (b, x) ∧
    s.blocks.find? (fun c => c.q == b.q && c.stage != .checked && !c.dropped) = some b ∧ s.mayFail b.q

/-- The block is sound, has a wrong check value, or has been reached by an error; one of no bytes has a wrong header. -/
def brokenBlock : Block := blockOf (rawBytes.take 36 ++ [1#8, 2#8, 3#8, 4#8]) .header

theorem witness_block_check : checksNext (expanding (blockOf rawBytes .header)) (blockOf rawBytes .header) xTile ∧
    (blockOf rawBytes .header).formOk = true ∧ (blockOf rawBytes .header).sizeOk xTile = true ∧
    32 + (blockOf rawBytes .header).pbytes ≤ 512 ∧ (blockOf rawBytes .header).crcOk = true ∧ (blockOf rawBytes .header).poison = false ∧
    checksNext (expanding (blockOf [] .header)) (blockOf [] .header) xTile ∧ (blockOf [] .header).formOk = false ∧
    checksNext (expanding brokenBlock) brokenBlock xTile ∧ brokenBlock.formOk = true ∧ brokenBlock.sizeOk xTile = true ∧
    brokenBlock.crcOk = false ∧
    checksNext (expanding { blockOf rawBytes .header with poison := true }) { blockOf rawBytes .header with poison := true } xTile ∧
    ({ blockOf rawBytes .header with poison := true } : Block).crcOk = true := by
  unfold checksNext State.mayFail; decide +kernel

/-- A tile of another size, and one whose block of 200 elements needs a second unit. -/
theorem witness_block_size : ∀ b, b = blockOf rawBytes .header → ∀ x, x = ({ xTile with t0 := 3 } : Tile) →
    checksNext { expanding b with tiles := [x] } b x ∧ b.formOk = true ∧ b.sizeOk x = false := by
  rintro b rfl x rfl; unfold checksNext State.mayFail; decide +kernel

def longBlock : Block :=
  { blockOf (([49, 1, 1, 0, 200, 0, 0, 9, 32, 3, 0, 0, 0, 0, 0, 64] : List Nat).map (BitVec.ofNat 8)) .header with resv := 1024, units := 1 }

def longState : State := { (expanding longBlock).setReg offLdgIlv 0x0F00FFFF#32 with tiles := [{ xTile with t0 := 200 }] }

theorem witness_block_long : longState.nextCheck (wingEast .west) = some (longBlock, { xTile with t0 := 200 }) ∧ longBlock.formOk = true ∧
    longBlock.sizeOk { xTile with t0 := 200 } = true ∧ 512 < 32 + longBlock.pbytes ∧ 64 + longBlock.pbytes = 864 ∧
    ∀ o < 864, longState.portTakes (longState.qEast 5) (({ xTile with t0 := 200 } : Tile).phys false (longBlock.va.toNat + o)) := by
  unfold State.portTakes; decide +kernel

/-- A block that fails behind one that has not been read. -/
def twoBlocks : State := { expanding brokenBlock with blocks := [{ blockOf [] .accepted with id := 59 }, brokenBlock] }

theorem witness_block_later : twoBlocks.nextCheck (wingEast .west) = some (brokenBlock, xTile) ∧
    twoBlocks.blocks.find? (fun c => c.q == brokenBlock.q && c.stage != .checked && !c.dropped) = some { blockOf [] .accepted with id := 59 } ∧
    (twoBlocks.blocks.map (fun c => c.id)).Nodup := by decide +kernel

theorem witness_block_expand : (expanding (blockOf rawBytes .checked)).expBlocks (wingEast .west) = blockOf rawBytes .checked :: [] ∧
    ((expanding (blockOf rawBytes .checked)).tiles.filter ((expanding (blockOf rawBytes .checked)).inOutputStage (wingEast .west))).length < 4 ∧
    (blockOf rawBytes .checked).dropped = false ∧ (blockOf rawBytes .checked).poison = false := by decide +kernel

/-- An error has reached the block since it was checked. -/
def poisoned : Block := { blockOf rawBytes .checked with poison := true }

theorem witness_block_poisoned : (expanding poisoned).expBlocks (wingEast .west) = poisoned :: [] ∧ poisoned.dropped = false ∧
    ((expanding poisoned).tiles.filter ((expanding poisoned).inOutputStage (wingEast .west))).length < 4 ∧ (expanding poisoned).mayFail 5 ∧
    (expanding poisoned).blocks.find? (fun c => c.q == poisoned.q && !c.dropped) = some poisoned ∧
    (expanding poisoned).tile 33 = some xTile := by unfold State.mayFail; decide +kernel

-- Witnesses: sub-windows.

/-- A LOOKUP of two indices in one bag that waits to build; `at` says how many bags are built already. -/
def batchAt (atBag : Nat) : Batch :=
  { (default : Batch) with id := 71, q := 5, cmd := 0#16, table := 3, epoch := 4#32, desc := goodTable, hdr := lookupHdr
                           out := tensor 9 4 0x5000 64 1, total := 2, bags := 1, atBag := atBag, atIdx := 2 * atBag, built := atBag, stream := 72 }

def porting (b : Batch) (subs : List SubWin) : State :=
  { batching lookupCmd with porter := ⟨[b], subs, []⟩, queues := (begun lookupCmd).queues }

/-- The sub-window of two rows: index 7 once, index 8 once. -/
def closedBuild : Build := ⟨[2], [⟨0, 7, 1, none⟩, ⟨0, 8, 1, none⟩], [⟨0, 0, 1, []⟩, ⟨0, 1, 1, []⟩], 2, 2⟩

/-- The batch has read this of its arrays: the indices at 0x1100, the bag length at 0x1200. -/
def building (got : List (Nat × List Byte)) : State := readFor (.batch 71) got (porting (batchAt 0) [])

def arrays (row : Nat) : List (Nat × List Byte) := [(0x1100, natBytes 8 7 ++ natBytes 8 row), (0x1200, natBytes 4 2)]

theorem witness_build : ∀ got ∈ [arrays 8, arrays 500, []], (building got).buildable (wingEast .west) 71 = some (batchAt 0) ∧
    (building got).corridor.failed = false ∧ (building got).mayFail 5 := by unfold State.mayFail; decide +kernel

theorem witness_build_opens (got : List (Nat × List Byte)) :
    (building got).openReading (.batch 71) = (building got, ⟨95, .batch 71, 40, [], got, []⟩) := by
  rw [State.openReading, building, readFor_own]

theorem witness_build_ends : (building (arrays 8)).buildAll (batchAt 0) ⟨95, .batch 71, 40, [], arrays 8, []⟩ = .closed closedBuild 2 ∧
    (building (arrays 500)).buildAll (batchAt 0) ⟨95, .batch 71, 40, [], arrays 500, []⟩ = .fails stIndexRange 0x3#8 0x1108 0 1 ∧
    (building []).buildAll (batchAt 0) ⟨95, .batch 71, 40, [], [], []⟩ = .asks ((batchAt 0).bagAsk 0) 0 := by decide +kernel

def subOf (pooled : Bool) : SubWin :=
  { (default : SubWin) with id := 90, batch := 71, rows := [⟨0, 7, 1, some [1#8]⟩], bagN := [2], pooled := pooled, given := if pooled then 1 else 0 }

theorem witness_sub_window : (porting (batchAt 1) [subOf false]).subWin 90 = some (subOf false) ∧
    (subOf false).rows.all (fun r => r.data.isSome) = true ∧ (porting (batchAt 1) [subOf true]).subWin 90 = some (subOf true) ∧
    (porting (batchAt 1) [subOf true]).subDone (subOf true) = true ∧ (porting (batchAt 1) [subOf true]).batch 71 = some (batchAt 1) ∧
    (batchAt 1).bags ≤ (batchAt 1).atBag ∧ (batchAt 0).atBag < (batchAt 0).bags ∧
    ((porting (batchAt 1) [subOf true]).queue 5).cmd 0#16 = some (cmdOf 0 true lookupCmd) := by decide +kernel

/-- An UPDATE of two rows by RULE 0 that waits for its sub-window. -/
def updBatch : Batch :=
  { (default : Batch) with id := 71, q := 5, cmd := 0#16, isUpdate := true, table := 3, epoch := 4#32, desc := goodTable
                           hdr := updateHdr, total := 2, stream := 72 }

/-- The batch has read its entries at 0x1100, and its gradients, of zeros, at 0x1200. -/
def updating (row : Nat) : State :=
  readFor (.batch 71) [(0x1100, natBytes 8 7 ++ natBytes 8 row), (0x1200, List.replicate 512 0#8)]
    { batching updateCmd with porter := ⟨[updBatch], [], []⟩, queues := (begun updateCmd).queues }

def updReading (row : Nat) : Reading :=
  ⟨95, .batch 71, 40, [], [(0x1100, natBytes 8 7 ++ natBytes 8 row), (0x1200, List.replicate 512 0#8)], []⟩

theorem witness_update_window : ∀ row ∈ [8, 500], (updating row).buildable (wingEast .west) 71 = some updBatch ∧
    2 = min (updateSpan (updating row).cfg updBatch.desc) (updBatch.total - updBatch.atIdx) ∧ (updating row).mayFail 5 ∧
    updBatch.entries (updReading 8) 2 = .rows [7, 8] ∧ updBatch.entries (updReading 500) 2 = .fails stIndexRange 0x1108 := by
  unfold State.mayFail; decide +kernel

theorem witness_update_opens (row : Nat) : (updating row).openReading (.batch 71) = (updating row, updReading row) := by
  rw [State.openReading, updating, readFor_own]; rfl

theorem witness_update_grads : ((updating 8).readGrads updBatch updBatch.atIdx 2).2 = some [List.replicate 256 0#8, List.replicate 256 0#8] := by
  decide +kernel

theorem witness_rule0 : cmdRule (word 512 updateCmd) = 0 := by decide +kernel

-- Well-formedness: an ill-formed command for each check.

theorem test_wf_refuses_numbers : ∀ c ∈ [Instr.readWindowClose 64 0, .readWindowClose 0 64, .writeWindowClose 64 0, .laneSwitch 64,
    .suspend 64, .portArbitration 16, .larderWriteInvalidate 16 0, .memLinkAckRise 16, .pushBeat 32, .clientLinkDown 32,
    .remoteLinkDown 4, .ltnReadyRise 8, .semaphoreGrant 1536, .semSetSetown 1536 0#32, .ringHistory 1024, .laggardTimeout 64,
    .pghBind 64 0#8 0#32, .info 64, .tileIssue 0 (some 8), .instructionRetry 0 8, .descriptorRead 0 0 16,
    .indexWindowFetch 0 0 4, .tlySelWrite 130 0 false 0#32, .tlySelWrite 0 16 false 0#32, .linkDropTimeout (.mem 16),
    .linkDropTimeout (.client 32), .linkDropTimeout (.remote 4)], c.wf = false := by decide +kernel

theorem test_wf_refuses_lengths : ∀ c ∈ [Instr.rwrite 0 { (default : Parcel) with payload := List.replicate 8193 0#8 },
    .lkupReq 0 { (default : Parcel) with payload := List.replicate 8193 0#8 }, .taskStart 64, .tableBind 64, .larderCtlPreload 64,
    .bootStepEnd { (default : BootReport) with seeds := List.replicate 65 0#32 }], c.wf = false := by decide +kernel

theorem test_wf_admits : ∀ c ∈ [Instr.readWindowClose 63 63, .portArbitration 15, .pushBeat 31, .remoteLinkDown 3, .ltnReadyRise 7,
    .semaphoreGrant 1535, .ringHistory 1023, .pghBind 63 0#8 0#32, .tlySelWrite 129 15 true 0#32, .rwrite 3 default,
    .tileIssue 63 (some 7), .linkDropTimeout (.mem 15)], c.wf = true := by decide +kernel

-- The worked examples of the spec.

/-- The words of the strided slice (chapter 6): `org rd.1, 64*lc0`, `loop lc0, 4`, `move d0+ar0 -> d1+ar2, 256x64`, `endl lc0`. -/
theorem test_program_words : insOp 0x3C18004000000000#64 = 0x3C ∧ bits 0x3C18004000000000#64 52 3 = 1 ∧
    bitAt 0x3C18004000000000#64 51 = true ∧ bits 0x3C18004000000000#64 32 16 = 64 ∧ bitAt 0x3C98004000000000#64 55 = true ∧
    insOp 0x0400030000000004#64 = 0x04 ∧ insImm32 0x0400030000000004#64 = 4#32 ∧ insTarget 0x0400030000000004#64 = 6 ∧
    insOp 0x3001080000FF003F#64 = 0x30 ∧ insRd 0x3001080000FF003F#64 = 0 ∧ insWd 0x3001080000FF003F#64 = 1 ∧
    insWar 0x3001080000FF003F#64 = 2 ∧ insT0 0x3001080000FF003F#64 = 256 ∧ insT1 0x3001080000FF003F#64 = 64 ∧
    insOp 0x0500020000000000#64 = 0x05 ∧ insTarget 0x0500020000000000#64 = 4 := by decide +kernel

/-- ENDL of that program: lc0 at 2 of 4 goes back to the body at 4, at 3 it goes on. -/
theorem test_endl : ∀ p ∈ [(2#32, 4), (3#32, 1)],
    ((stateAfter live (exec (.endl 20) (atItin { itinOf 0x0500020000000000#64 with
      lc := (Bank.empty : Bank Word).set 0 p.1, lim := (Bank.empty : Bank Word).set 0 4#32 }))).itins.map (fun i => i.pc)) = [p.2] := by
  decide +kernel

/-- The shared-scale block of chapter 5: code 0x4C is 6.0, with scale byte 0x7A it is 0x3E40 as bf16. -/
theorem test_shared_scale : (convert 0x8 .nearest (decodeElem 0x5 0x4C)).1 = 0x40C0 ∧
    (convert 0x8 .nearest (scaleE8 0x7A (decodeElem 0x5 0x4C))).1 = 0x3E40 := by decide +kernel

/-- The adds of chapter 8: at 256 the bf16 spacing is 2, and 257 goes to the even 256; 256 + 2 is 258, 0x4381. -/
theorem test_bf16_adds : (convert 0x8 .nearest (.ofInt 257)).1 = 0x4380 ∧ (convert 0x8 .nearest (.ofInt 258)).1 = 0x4381 ∧
    addWord 0x43800000#32 0x3F800000#32 = 0x43808000#32 := by decide +kernel

/-- Parcels of chapter 3: 1,024 and 176 entries, replies of 64 and 48 rows of 128 bytes. -/
theorem test_parcel_flits : (([8 * 1024, 8 * 176, 64 * 128, 48 * 128] : List Nat).map (fun n =>
    parcelFlits { (default : Parcel) with payload := List.replicate n 0#8 })) = [54, 10, 54, 41] ∧ rowsPerReply 128 = 64 := by
  decide +kernel

/-- Time-to-empty of rings 40, 41 and 52 in chapter 7. -/
theorem test_time_to_empty : ∀ p ∈ [(2, 12, 170), (10, 64, 160), (1, 2, 512)],
    (live.updRing 40 (fun v => { v with occ := p.1, frees := List.replicate p.2.1 0#48 })).emptyTime 40 = p.2.2 := by decide +kernel

/-- RING_CFG and RING_ARB_W of chapter 15: port 9, 16 KiB slots, eight of them. -/
theorem test_ring_cfg : (live.setReg (offRing 60 0) 0xC90E0008#32).ringClient 60 = true ∧ offRing 60 0 = 0x061780 ∧
    (live.setReg (offRing 60 0) 0xC90E0008#32).ringPort 60 = 9 ∧ (live.setReg (offRing 60 0) 0xC90E0008#32).slotBytes 60 = 16384 ∧
    (live.setReg (offRing 60 0) 0xC90E0008#32).nslot 60 = 8 := by decide +kernel

/-- Staging the three writes of that example. -/
theorem test_staging : ((stateAfter live (exec (.rwtStagedWrite 0x10#8 0x061780#24 0xC90E0008#32) (ledgering 1 true .opened []))).ledger.staged) =
    [(0x061780, 0xC90E0008#32)] ∧ isRwt 0x061784 = true ∧ isRwt 0x060000 = true ∧ isRwt 0x0A0100 = true ∧ isRwt 0x100110 = false := by decide +kernel

/-- The identification registers of the NRK3-M of chapter 18. -/
theorem test_identification : ([0x00, 0x08, 0x0C, 0x14, 0x18].map (idRegister .m 0#6)) =
    [0x02030002#32, 0x20204109#32, 0x30404300#32, 0x10500050#32, 0x68208540#32] ∧
    (ConfigPoint.m.queues, ConfigPoint.m.cports, ConfigPoint.m.mports, ConfigPoint.m.sems, ConfigPoint.m.twoWings) =
      (32, 16, 8, 768, false) ∧ offQ 31 0 = 0x011F80 := by decide +kernel

/-- The XPAND of chapter 9: RESV, and the block at block row 2 and block column 5. -/
theorem test_xpand_reservation :
    let d : BitVec 1024 := word 1024 [(3, 0), (8, 8), (2, 16), (8, 256), (33280, 320), (8, 384), (266240, 448)]
    let t : Tile := { (default : Tile) with kind := .xpand, orgR := [5, 2, 0, 0, 0, 0], t0 := 128, t1 := 128 }
    t.resv d = 33280 ∧ t.blockVa d = 698880 := by decide +kernel

/-- CRC-32C of the nine digits is the catalogued check value of R239's parameters. -/
theorem test_crc32c : crc32c ([49, 50, 51, 52, 53, 54, 55, 56, 57] : List Byte) = 0xE3069283#32 := by decide +kernel

/-- 2 x 1.5 and 2 x -3 (R246): the elements of the RAW block. -/
theorem test_raw_block : (blockOf rawBytes .checked).y 0 0 = 0x40400000#32 ∧ (blockOf rawBytes .checked).y 0 1 = 0xC0C00000#32 := by
  decide +kernel

/-- Binding a pigeonhole as in chapter 13: 0x8000_FF10 binds and locks; a second write changes nothing. -/
theorem test_pigeonhole_bind : ((stateAfter live (exec (.pghBind 2 0x10#8 0x8000FF10#32) live)).pgh 2).bind = 0x8000FF10#32 ∧
    offPgh 2 0 = 0x0E1080 ∧ ((stateAfter live (exec (.pghBind 2 0x10#8 0x80000102#32)
      (stateAfter live (exec (.pghBind 2 0x10#8 0x8000FF10#32) live)))).pgh 2).bind = 0x8000FF10#32 := by decide +kernel

/-- R203, R206: an INC to 2^20 - 1 stands, one more saturates and sets OVF. -/
theorem test_semaphore_saturates : ∀ p ∈ [(0xFFFFA, false), (0xFFFFB, true)],
    let t := (stateAfter live (exec (.semiInc 31 0#2 47#6 5#20) (counted p.1 false)))
    ((t.sem 1535).count, (t.sem 1535).ovf) = (0xFFFFF#20, p.2) := by decide +kernel

/-- R91: a doorbell at the ring's size is refused with DB_ERR. -/
theorem test_doorbell : (stateAfter live (exec (.qctlDoorbell 5 15#32) ringing)).flag (offQ 5 qEvents) 2 = false ∧
    ((stateAfter live (exec (.qctlDoorbell 5 15#32) ringing)).queue 5).st = .running ∧
    (stateAfter live (exec (.qctlDoorbell 5 16#32) ringing)).flag (offQ 5 qEvents) 2 = true := by decide +kernel

/-- R15, a command that waits is run first in, first out, and an empty queue lets a cycle pass (log 7). -/
theorem test_step_order : (stateAfter live (step { live with pending := [.semSetSetown 3 0x03F00005#32, .nopInstruction 0] })).pending =
    [.nopInstruction 0] ∧ (stateAfter live (step live)).ccyc = 1#48 := by decide +kernel

theorem witness_warm_reset : live.power.st ≠ .n3 ∧ ((counted 5 false).sem 1535).count = 5#20 ∧
    ((stateAfter live (exec .warmresetNAssert (counted 5 false))).sem 1535).count = 0#20 := by decide +kernel

/-- Descriptors of binary32 elements, plain and ACCUM. -/
def plainTd : BitVec 1024 := tensor 9 4 0 64 1
def accumTd : BitVec 1024 := plainTd ||| BitVec.ofNat 1024 (2 ^ 32)

/-- The bytes of the element at offset 8 of a slot. -/
def elementAt (v : Word) : List (Nat × Byte) := (List.range 4).map (fun j => (8 + j, (natBytes 4 v.toNat).getD j 0))

theorem witness_hall_write : live.ringClient 40 = false ∧ (([(5, 1#8), (3, 0#8)] : List (Nat × Byte)).map (fun b => b.1)).Nodup ∧
    tdAccum plainTd = false ∧ tdAccum accumTd = true ∧ tdDtype accumTd = 0x9 ∧ live.flag offRelInject 31 = false ∧
    ((ringed live).writeSlot default plainTd ⟨40, 1⟩ [(5, 1#8), (3, 0#8)]).hall.get ((ringed live).hallAddr 40 1 5) = 1#8 := by
  decide +kernel

/-- An ACCUM write of 1.0 into an element of a slot that holds 2.0 leaves 3.0 there (R128). -/
theorem test_hall_accum :
    let s := (ringed live).writeSlot default plainTd ⟨40, 1⟩ (elementAt 0x40000000#32)
    let t := s.writeSlot default accumTd ⟨40, 1⟩ (elementAt 0x3F800000#32)
    (List.range 4).map (fun j => t.hall.get (t.hallAddr 40 1 (8 + j))) = [0#8, 0#8, 0x40#8, 0x40#8] := by decide +kernel
end Sys2Proof.Tests
end

section
/-!
PROOFS. What a command's meaning leaves alone, command by command: the waiting commands, the configuration point and, but
for the commands that bind or retire a version or reach a reset, the table versions. From it: a step takes one command (O3).
-/

namespace Sys2Proof.Machine

/-- An outcome leaves the waiting commands and the configuration point as they were. -/
def QueueKept (s : State) (r : Res) : Prop :=
  (stateAfter s r).pending = s.pending ∧ (stateAfter s r).cfg = s.cfg

/-- An outcome leaves the waiting commands, the configuration point and the table versions as they were. -/
def Kept (s : State) (r : Res) : Prop :=
  (stateAfter s r).pending = s.pending ∧ (stateAfter s r).cfg = s.cfg ∧ (stateAfter s r).tables = s.tables

theorem Kept.queue {s : State} {r : Res} (h : Kept s r) : QueueKept s r := ⟨h.1, h.2.1⟩

theorem kept_whenever {s : State} {c : Bool} {f : State → State}
    (h : (f s).pending = s.pending ∧ (f s).cfg = s.cfg ∧ (f s).tables = s.tables) : Kept s (whenever c s f) := by
  cases c
  · exact ⟨rfl, rfl, rfl⟩
  · exact h

theorem queueKept_whenever {s : State} {c : Bool} {f : State → State}
    (h : (f s).pending = s.pending ∧ (f s).cfg = s.cfg) : QueueKept s (whenever c s f) := by
  cases c
  · exact ⟨rfl, rfl⟩
  · exact h

theorem kept_onIns {s : State} {lane op : Nat} {f : State → Itin → BitVec 64 → Res} (h : ∀ t i w, Kept t (f t i w)) :
    Kept s (s.onIns lane op f) :=
  ⟨State.onIns_pending _ _ _ _ fun t i w => (h t i w).1, State.onIns_cfg _ _ _ _ fun t i w => (h t i w).2.1,
    State.onIns_tables _ _ _ _ fun t i w => (h t i w).2.2⟩

theorem kept_onGate {s : State} {q : Nat} {isOp : Nat → Bool} {f : State → Cmd → State}
    (h : ∀ t c, (f t c).pending = t.pending ∧ (f t c).cfg = t.cfg ∧ (f t c).tables = t.tables) :
    Kept s (s.onGate q isOp f) :=
  ⟨State.onGate_pending _ _ _ _ fun t c => (h t c).1, State.onGate_cfg _ _ _ _ fun t c => (h t c).2.1,
    State.onGate_tables _ _ _ _ fun t c => (h t c).2.2⟩

theorem queueKept_onGate {s : State} {q : Nat} {isOp : Nat → Bool} {f : State → Cmd → State}
    (h : ∀ t c, (f t c).pending = t.pending ∧ (f t c).cfg = t.cfg) : QueueKept s (s.onGate q isOp f) :=
  ⟨State.onGate_pending _ _ _ _ fun t c => (h t c).1, State.onGate_cfg _ _ _ _ fun t c => (h t c).2⟩

theorem kept_onLedger {s : State} {q : Nat} {ops : List Nat} {f : State → Cmd → State}
    (h : ∀ t c, (f t c).pending = t.pending ∧ (f t c).cfg = t.cfg ∧ (f t c).tables = t.tables) :
    Kept s (s.onLedger q ops f) :=
  ⟨State.onLedger_pending _ _ _ _ fun t c => (h t c).1, State.onLedger_cfg _ _ _ _ fun t c => (h t c).2.1,
    State.onLedger_tables _ _ _ _ fun t c => (h t c).2.2⟩

-- The commands of Machine/Tiles.

@[simp] theorem execLaneSwitch_keeps (lane : Nat) (s : State) : Kept s (execLaneSwitch lane s) := by
  unfold Kept execLaneSwitch
  dsimp only
  split <;> simp

@[simp] theorem execInstructionRetry_keeps (lane slot : Nat) (s : State) : Kept s (execInstructionRetry lane slot s) := by
  unfold Kept execInstructionRetry
  split <;> simp

@[simp] theorem execFinalMarking_keeps (lane slot : Nat) (s : State) : Kept s (execFinalMarking lane slot s) := by
  unfold Kept execFinalMarking
  split <;> simp

@[simp] theorem execDescriptorRead_keeps (lane slot d : Nat) (s : State) : Kept s (execDescriptorRead lane slot d s) := by
  unfold Kept execDescriptorRead
  dsimp only
  (repeat' split) <;> simp_all [eq_pair]

@[simp] theorem execIndexWindowFetch_keeps (lane slot ix : Nat) (s : State) :
    Kept s (execIndexWindowFetch lane slot ix s) := by
  unfold Kept execIndexWindowFetch
  dsimp only
  (repeat' split) <;> simp_all [eq_pair]

@[simp] theorem execTileIssue_keeps (lane : Nat) (hold : Option Nat) (s : State) : Kept s (execTileIssue lane hold s) := by
  unfold Kept execTileIssue
  dsimp only
  (repeat' split) <;> simp_all [eq_pair]

@[simp] theorem execReadWindowClose_keeps (lane q : Nat) (s : State) : Kept s (execReadWindowClose lane q s) := by
  simp [Kept, execReadWindowClose]

@[simp] theorem execWriteWindowClose_keeps (lane stream : Nat) (s : State) :
    Kept s (execWriteWindowClose lane stream s) := by
  unfold Kept execWriteWindowClose
  split <;> simp

-- The commands of Machine/Pigeonholes.

@[simp] theorem execPghBind_keeps (p : Nat) (mid : BitVec 8) (data : Word) (s : State) :
    Kept s (execPghBind p mid data s) := by
  simp [Kept, execPghBind]

@[simp] theorem execPghPtrLoCommit_keeps (p : Nat) (towardsA : Bool) (mid : BitVec 8) (data : Word) (s : State) :
    Kept s (execPghPtrLoCommit p towardsA mid data s) := by
  simp [Kept, execPghPtrLoCommit]

@[simp] theorem execPghAck_keeps (p : Nat) (mid : BitVec 8) (data : Word) (s : State) :
    Kept s (execPghAck p mid data s) := by
  simp [Kept, execPghAck]

@[simp] theorem execPghRing_keeps (p : Nat) (mid : BitVec 8) (data : Word) (s : State) :
    Kept s (execPghRing p mid data s) := by
  simp [Kept, execPghRing]

@[simp] theorem execPghPendClear_keeps (p : Nat) (mid : BitVec 8) (data : Word) (s : State) :
    Kept s (execPghPendClear p mid data s) := by
  simp [Kept, execPghPendClear]

@[simp] theorem execPghMaskWrite_keeps (p : Nat) (mid : BitVec 8) (data : Word) (s : State) :
    Kept s (execPghMaskWrite p mid data s) := by
  simp [Kept, execPghMaskWrite]

-- The commands of Machine/Larder.

@[simp] theorem execLarderProbe_keeps (w : Wing) (s : State) : Kept s (execLarderProbe w s) := by
  unfold execLarderProbe
  dsimp only
  split
  · simp [Kept]
  · refine kept_whenever ?_
    split
    · split <;> simp
    all_goals simp

@[simp] theorem execTierReadData_keeps (t : Nat) (k : BitVec 3) (data : BitVec 1024) (chk : BitVec 128) (s : State) :
    Kept s (execTierReadData t k data chk s) := by
  unfold Kept execTierReadData
  split <;> simp

@[simp] theorem execPromotionInstall_keeps (w : Wing) (s : State) : Kept s (execPromotionInstall w s) := by
  unfold Kept execPromotionInstall
  dsimp only
  split <;> simp

@[simp] theorem execLarderInstall_keeps (w : Wing) (s : State) : Kept s (execLarderInstall w s) := by
  unfold execLarderInstall
  dsimp only
  split
  · simp [Kept]
  · refine kept_whenever ?_
    split
    · split
      · simp
      · split <;> simp
    · simp

@[simp] theorem execLtnReadyRise_keeps (t : Nat) (s : State) : Kept s (execLtnReadyRise t s) := by
  simp [Kept, execLtnReadyRise]

@[simp] theorem execLtnReadyTimeout_keeps (t : Nat) (s : State) : Kept s (execLtnReadyTimeout t s) := by
  simp [Kept, execLtnReadyTimeout]

@[simp] theorem execLtnReadyFall_keeps (t : Nat) (s : State) : Kept s (execLtnReadyFall t s) := by
  simp [Kept, execLtnReadyFall]

@[simp] theorem execLoadWindowClose_keeps (s : State) : Kept s (execLoadWindowClose s) := by
  simp [Kept, execLoadWindowClose]

-- The commands of Machine/MemPorts.

@[simp] theorem execMemLinkAckRise_keeps (p : Nat) (s : State) : Kept s (execMemLinkAckRise p s) := by
  simp [Kept, execMemLinkAckRise]

@[simp] theorem execMemLinkAbsent_keeps (p : Nat) (s : State) : Kept s (execMemLinkAbsent p s) := by
  simp [Kept, execMemLinkAbsent]

@[simp] theorem execMemCreditReturn_keeps (p : Nat) (rc : BitVec 3) (wc : BitVec 2) (s : State) :
    Kept s (execMemCreditReturn p rc wc s) := by
  simp [Kept, execMemCreditReturn]

@[simp] theorem execPortArbitration_keeps (p : Nat) (s : State) : Kept s (execPortArbitration p s) := by
  simp [Kept, execPortArbitration]

@[simp] theorem execRead_keeps (p : Nat) (k : BitVec 2) (tag : BitVec 17) (s : State) : Kept s (execRead p k tag s) := by
  simp [Kept, execRead]

@[simp] theorem execWrite_keeps (p : Nat) (k : BitVec 2) (tag : BitVec 17) (s : State) : Kept s (execWrite p k tag s) := by
  simp [Kept, execWrite]

@[simp] theorem execWriteFinal_keeps (p : Nat) (k : BitVec 2) (tag : BitVec 17) (s : State) :
    Kept s (execWriteFinal p k tag s) := by
  simp [Kept, execWriteFinal]

@[simp] theorem execAtomicAddFp32_keeps (p : Nat) (k : BitVec 2) (tag : BitVec 17) (s : State) :
    Kept s (execAtomicAddFp32 p k tag s) := by
  simp [Kept, execAtomicAddFp32]

@[simp] theorem execAtomicAddBf16_keeps (p : Nat) (k : BitVec 2) (tag : BitVec 17) (s : State) :
    Kept s (execAtomicAddBf16 p k tag s) := by
  simp [Kept, execAtomicAddBf16]

@[simp] theorem execWriteDataBeat_keeps (p : Nat) (j : BitVec 1) (tag : BitVec 17) (ofs : BitVec 2) (s : State) :
    Kept s (execWriteDataBeat p j tag ofs s) := by
  unfold Kept execWriteDataBeat
  split <;> simp

@[simp] theorem execReadResponseBeat_keeps (p : Nat) (tag : BitVec 17) (ofs st : BitVec 2) (seq : BitVec 16) (data : BitVec 1024)
    (s : State) : Kept s (execReadResponseBeat p tag ofs st seq data s) := by
  refine kept_whenever ?_
  dsimp only
  split
  · simp
  · (repeat' split) <;> simp

@[simp] theorem execLandedAck_keeps (p : Nat) (tag : BitVec 17) (st : BitVec 2) (seq : BitVec 16) (s : State) :
    Kept s (execLandedAck p tag st seq s) := by
  refine kept_whenever ?_
  split
  · simp
  · (repeat' split) <;> simp

@[simp] theorem execLarderWriteInvalidate_keeps (p : Nat) (tag : BitVec 17) (s : State) :
    Kept s (execLarderWriteInvalidate p tag s) := by
  unfold Kept execLarderWriteInvalidate
  split <;> simp

@[simp] theorem execMemPortWatchdog_keeps (p : Nat) (s : State) : Kept s (execMemPortWatchdog p s) := by
  simp [Kept, execMemPortWatchdog]

-- The commands of Machine/Expander.

@[simp] theorem execExpanderBlockStart_keeps (w : Wing) (s : State) : Kept s (execExpanderBlockStart w s) := by
  unfold Kept execExpanderBlockStart
  dsimp only
  split <;> simp

@[simp] theorem execBlockCheck_keeps (w : Wing) (s : State) : Kept s (execBlockCheck w s) := by
  unfold Kept execBlockCheck
  dsimp only
  (repeat' split) <;> simp

@[simp] theorem execBlockExpand_keeps (w : Wing) (s : State) : Kept s (execBlockExpand w s) := by
  unfold Kept execBlockExpand
  dsimp only
  split <;> simp

-- The commands of Machine/Remote.

@[simp] theorem execRemoteLinkUp_keeps (x : Nat) (c0 c1 : BitVec 8) (s : State) : Kept s (execRemoteLinkUp x c0 c1 s) := by
  simp [Kept, execRemoteLinkUp]

@[simp] theorem execRemoteLinkAbsent_keeps (x : Nat) (s : State) : Kept s (execRemoteLinkAbsent x s) := by
  simp [Kept, execRemoteLinkAbsent]

@[simp] theorem execRemoteLinkDown_keeps (x : Nat) (s : State) : Kept s (execRemoteLinkDown x s) := by
  simp [Kept, execRemoteLinkDown]

@[simp] theorem execRemoteCreditReturn_keeps (x : Nat) (cls : Bool) (s : State) :
    Kept s (execRemoteCreditReturn x cls s) := by
  simp [Kept, execRemoteCreditReturn]

@[simp] theorem execParcelSend_keeps (x : Nat) (cls : Bool) (s : State) : Kept s (execParcelSend x cls s) := by
  unfold Kept execParcelSend
  split <;> simp

@[simp] theorem execLkupReq_keeps (x : Nat) (p : Parcel) (s : State) : Kept s (execLkupReq x p s) := by
  simp [Kept, execLkupReq]

@[simp] theorem execRwrite_keeps (x : Nat) (p : Parcel) (s : State) : Kept s (execRwrite x p s) := by
  simp [Kept, execRwrite]

@[simp] theorem execRwriteFinal_keeps (x : Nat) (p : Parcel) (s : State) : Kept s (execRwriteFinal x p s) := by
  simp [Kept, execRwriteFinal]

@[simp] theorem execLkupRsp_keeps (x : Nat) (p : Parcel) (s : State) : Kept s (execLkupRsp x p s) := by
  simp [Kept, execLkupRsp]

@[simp] theorem execRwLanded_keeps (x : Nat) (p : Parcel) (s : State) : Kept s (execRwLanded x p s) := by
  simp [Kept, execRwLanded]

@[simp] theorem execNack_keeps (x : Nat) (p : Parcel) (s : State) : Kept s (execNack x p s) := by
  simp [Kept, execNack]

@[simp] theorem execParcelTimeout_keeps (dst : BitVec 6) (pseq : Word) (s : State) :
    Kept s (execParcelTimeout dst pseq s) := by
  unfold Kept execParcelTimeout
  split <;> simp

-- The commands of Machine/Semaphores.

@[simp] theorem execSemaphoreGrant_keeps (idx : Nat) (s : State) : Kept s (execSemaphoreGrant idx s) := by
  unfold Kept execSemaphoreGrant
  split <;> simp

@[simp] theorem execSemSetClrflags_keeps (idx : Nat) (data : Word) (s : State) : Kept s (execSemSetClrflags idx data s) := by
  simp [Kept, execSemSetClrflags]

@[simp] theorem execSemSetSetcnt_keeps (idx : Nat) (data : Word) (s : State) : Kept s (execSemSetSetcnt idx data s) := by
  simp [Kept, execSemSetSetcnt]

@[simp] theorem execSemSetSetown_keeps (idx : Nat) (data : Word) (s : State) : Kept s (execSemSetSetown idx data s) := by
  simp [Kept, execSemSetSetown]

@[simp] theorem execSemSetRelease_keeps (idx : Nat) (data : Word) (s : State) : Kept s (execSemSetRelease idx data s) := by
  simp [Kept, execSemSetRelease]

-- The commands of Machine/Translate.

@[simp] theorem execMissRequest_keeps (id : BitVec 9) (s : State) : Kept s (execMissRequest id s) := by
  unfold Kept execMissRequest
  dsimp only
  split <;> simp

@[simp] theorem execMissResponse_keeps (id : BitVec 9) (st : BitVec 2) (vstart : BitVec 44) (len : BitVec 28) (pbase : BitVec 40)
    (perm : BitVec 3) (s : State) :
    Kept s (execMissResponse id st vstart len pbase perm s) := by
  simp [Kept, execMissResponse]

@[simp] theorem execMissTimeout_keeps (id : BitVec 9) (s : State) : Kept s (execMissTimeout id s) := by
  unfold Kept execMissTimeout
  split <;> simp

@[simp] theorem execInvalidationAccept_keeps (id : BitVec 4) (all : Bool) (asid : BitVec 16) (va : BitVec 44)
    (len : BitVec 28) (s : State) :
    Kept s (execInvalidationAccept id all asid va len s) := by
  simp [Kept, execInvalidationAccept]

@[simp] theorem execInvalidationComplete_keeps (id : BitVec 4) (s : State) : Kept s (execInvalidationComplete id s) := by
  unfold Kept execInvalidationComplete
  split <;> simp

-- The commands of Machine/QueueCtl.

@[simp] theorem execQctlCfgEn_keeps (q : Nat) (data : Word) (s : State) : Kept s (execQctlCfgEn q data s) := by
  simp [Kept, execQctlCfgEn]

@[simp] theorem execQctlDoorbell_keeps (q : Nat) (data : Word) (s : State) : Kept s (execQctlDoorbell q data s) := by
  simp [Kept, execQctlDoorbell]

@[simp] theorem execCommandPrefetch_keeps (q : Nat) (s : State) : Kept s (execCommandPrefetch q s) := by
  unfold execCommandPrefetch
  refine kept_whenever ?_
  (repeat' split) <;> simp

@[simp] theorem execSuspensionComplete_keeps (q : Nat) (s : State) : Kept s (execSuspensionComplete q s) := by
  simp [Kept, execSuspensionComplete]

@[simp] theorem execPreemptRelease_keeps (q : Nat) (s : State) : Kept s (execPreemptRelease q s) := by
  unfold Kept execPreemptRelease
  split <;> simp

@[simp] theorem execSuspend_keeps (q : Nat) (s : State) : Kept s (execSuspend q s) := by
  simp [Kept, execSuspend]

@[simp] theorem execResume_keeps (q : Nat) (s : State) : Kept s (execResume q s) := by
  simp [Kept, execResume]

@[simp] theorem execReplay_keeps (q : Nat) (s : State) : Kept s (execReplay q s) := by
  simp [Kept, execReplay]

@[simp] theorem execSkip_keeps (q : Nat) (s : State) : Kept s (execSkip q s) := by
  simp [Kept, execSkip]

@[simp] theorem execRetire_keeps (q : Nat) (s : State) : Kept s (execRetire q s) := by
  simp [Kept, execRetire]

@[simp] theorem execAbort_keeps (q : Nat) (s : State) : Kept s (execAbort q s) := by
  simp [Kept, execAbort]

@[simp] theorem execProgressTimeout_keeps (q : Nat) (s : State) : Kept s (execProgressTimeout q s) := by
  simp [Kept, execProgressTimeout]

@[simp] theorem execStopComplete_keeps (q : Nat) (s : State) : Kept s (execStopComplete q s) := by
  unfold Kept execStopComplete
  split <;> simp

@[simp] theorem execRetireComplete_keeps (q : Nat) (s : State) : Kept s (execRetireComplete q s) := by
  simp [Kept, execRetireComplete]

-- The commands of Machine/Rings.

@[simp] theorem execSlotPublished_keeps (rel : Nat) (s : State) : Kept s (execSlotPublished rel s) := by
  unfold Kept execSlotPublished
  (repeat' split) <;> simp

@[simp] theorem execSlotReleased_keeps (rel : Nat) (s : State) : Kept s (execSlotReleased rel s) := by
  unfold Kept execSlotReleased
  (repeat' split) <;> simp

@[simp] theorem execSignalRelease_keeps (rel : Nat) (s : State) : Kept s (execSignalRelease rel s) := by
  unfold Kept execSignalRelease
  (repeat' split) <;> simp

@[simp] theorem execLaggardTimeout_keeps (g : Nat) (s : State) : Kept s (execLaggardTimeout g s) := by
  unfold Kept execLaggardTimeout
  dsimp only
  split <;> simp

@[simp] theorem execTteRecompute_keeps (s : State) : Kept s (execTteRecompute s) := by
  simp [Kept, execTteRecompute]

@[simp] theorem execRingHistory_keeps (r : Nat) (s : State) : Kept s (execRingHistory r s) := by
  simp [Kept, execRingHistory]

-- The commands of Machine/Commands.

@[simp] theorem execRun_keeps (q : Nat) (s : State) : Kept s (execRun q s) := by
  simp [Kept, execRun]

@[simp] theorem execTaskStart_keeps (q : Nat) (s : State) : Kept s (execTaskStart q s) := by
  unfold Kept execTaskStart
  dsimp only
  split <;> simp

@[simp] theorem execTaskComplete_keeps (q : Nat) (s : State) : Kept s (execTaskComplete q s) := by
  unfold Kept execTaskComplete
  dsimp only
  (repeat' split) <;> simp

@[simp] theorem execSignalCommand_keeps (q : Nat) (s : State) : Kept s (execSignalCommand q s) := by
  unfold Kept execSignalCommand
  split <;> simp

@[simp] theorem execWaitCommand_keeps (q : Nat) (s : State) : Kept s (execWaitCommand q s) := by
  simp [Kept, execWaitCommand]

@[simp] theorem execFence_keeps (q : Nat) (s : State) : Kept s (execFence q s) := by
  unfold Kept execFence
  split <;> simp

@[simp] theorem execMarker_keeps (q : Nat) (s : State) : Kept s (execMarker q s) := by
  simp [Kept, execMarker]

@[simp] theorem execNopCommand_keeps (q : Nat) (s : State) : Kept s (execNopCommand q s) := by
  simp [Kept, execNopCommand]

@[simp] theorem execPrewarm_keeps (q : Nat) (s : State) : Kept s (execPrewarm q s) := by
  unfold Kept execPrewarm
  split <;> simp

@[simp] theorem execLarderCtlInvalidate_keeps (q : Nat) (s : State) : Kept s (execLarderCtlInvalidate q s) := by
  unfold Kept execLarderCtlInvalidate
  dsimp only
  split <;> simp

@[simp] theorem execLarderCtlPreload_keeps (q : Nat) (s : State) : Kept s (execLarderCtlPreload q s) := by
  unfold Kept execLarderCtlPreload
  dsimp only
  split <;> simp

@[simp] theorem execBackgroundStartAfterRun_keeps (q : Nat) (s : State) : Kept s (execBackgroundStartAfterRun q s) := by
  unfold Kept execBackgroundStartAfterRun
  dsimp only
  split <;> simp

-- The commands of Machine/LedgerFam.

@[simp] theorem execRwtStagedWrite_keeps (mid : BitVec 8) (addr : BitVec 24) (data : Word) (s : State) :
    Kept s (execRwtStagedWrite mid addr data s) := by
  simp [Kept, execRwtStagedWrite]

@[simp] theorem execLedgerBegin_keeps (q : Nat) (s : State) : Kept s (execLedgerBegin q s) := by
  simp [Kept, execLedgerBegin]

@[simp] theorem execLedgerRollback_keeps (q : Nat) (s : State) : Kept s (execLedgerRollback q s) := by
  simp [Kept, execLedgerRollback]

@[simp] theorem execLedgerCommit_keeps (q : Nat) (s : State) : Kept s (execLedgerCommit q s) := by
  refine kept_onLedger fun t c => ?_
  (repeat' split) <;> simp

@[simp] theorem execCommitQuiesced_keeps (s : State) : Kept s (execCommitQuiesced s) := by
  simp [Kept, execCommitQuiesced]

@[simp] theorem execLarderWindowClearDone_keeps (s : State) : Kept s (execLarderWindowClearDone s) := by
  simp [Kept, execLarderWindowClearDone]

@[simp] theorem execCommitQuiescenceTimeout_keeps (s : State) : Kept s (execCommitQuiescenceTimeout s) := by
  simp [Kept, execCommitQuiescenceTimeout]

-- The commands of Machine/Tables.

theorem execTableBind_keeps (q : Nat) (s : State) : QueueKept s (execTableBind q s) := by
  unfold execTableBind
  split
  · exact queueKept_whenever (by simp)
  · exact queueKept_onGate (by simp)

theorem execTableRetire_keeps (q : Nat) (s : State) : QueueKept s (execTableRetire q s) := by
  refine queueKept_onGate fun t c => ?_
  dsimp only
  split <;> simp

theorem execVersionRetired_keeps (q : Nat) (s : State) : QueueKept s (execVersionRetired q s) := by
  unfold execVersionRetired
  split
  · exact queueKept_whenever (by simp)
  · exact ⟨rfl, rfl⟩

-- The commands of Machine/Porter.

@[simp] theorem execLookup_keeps (q : Nat) (s : State) : Kept s (execLookup q s) := by
  unfold execLookup
  split
  · exact kept_whenever (by simp)
  · refine kept_onGate fun t c => ?_
    dsimp only
    (repeat' split) <;> simp

@[simp] theorem execUpdate_keeps (q : Nat) (s : State) : Kept s (execUpdate q s) := by
  unfold execUpdate
  split
  · exact kept_whenever (by simp)
  · refine kept_onGate fun t c => ?_
    dsimp only
    (repeat' split) <;> simp

@[simp] theorem execSubWindowBuild_keeps (w : Wing) (batch : Nat) (s : State) : Kept s (execSubWindowBuild w batch s) := by
  unfold Kept execSubWindowBuild
  dsimp only
  (repeat' split) <;> simp

@[simp] theorem execSubWindowPool_keeps (w : Wing) (sw : Nat) (s : State) : Kept s (execSubWindowPool w sw s) := by
  unfold Kept execSubWindowPool
  split <;> simp

@[simp] theorem execSubWindowFree_keeps (w : Wing) (sw : Nat) (s : State) : Kept s (execSubWindowFree w sw s) := by
  unfold Kept execSubWindowFree
  split <;> simp

-- The commands of Machine/Steward.

@[simp] theorem execInfo_keeps (p : Nat) (s : State) : Kept s (execInfo p s) := by
  simp [Kept, execInfo]

@[simp] theorem execLoadrpt_keeps (p : Nat) (s : State) : Kept s (execLoadrpt p s) := by
  simp [Kept, execLoadrpt]

@[simp] theorem execPower_keeps (p : Nat) (s : State) : Kept s (execPower p s) := by
  simp [Kept, execPower]

@[simp] theorem execLoadReport_keeps (s : State) : Kept s (execLoadReport s) := by
  unfold Kept execLoadReport
  split <;> simp

@[simp] theorem execStewardWatchdog_keeps (s : State) : Kept s (execStewardWatchdog s) := by
  simp [Kept, execStewardWatchdog]

@[simp] theorem execStewardHeartbeat_keeps (s : State) : Kept s (execStewardHeartbeat s) := by
  simp [Kept, execStewardHeartbeat]

-- The commands of Machine/Reliability.

@[simp] theorem execCorrectedError_keeps (cls : BitVec 3) (w : Wing) (unit : BitVec 10) (index : Word) (syn : Byte) (s : State) :
    Kept s (execCorrectedError cls w unit index syn s) := by
  simp [Kept, execCorrectedError]

@[simp] theorem execUncorrectableError_keeps (cls : BitVec 3) (w : Wing) (unit : BitVec 10) (index : Word) (syn : Byte)
    (site : UeSite) (s : State) :
    Kept s (execUncorrectableError cls w unit index syn site s) := by
  simp [Kept, execUncorrectableError]

@[simp] theorem execCeSubWindowRoll_keeps (cls : BitVec 3) (s : State) : Kept s (execCeSubWindowRoll cls s) := by
  simp [Kept, execCeSubWindowRoll]

@[simp] theorem execLaneSpareSwap_keeps (lane : Nat) (s : State) : Kept s (execLaneSpareSwap lane s) := by
  unfold execLaneSpareSwap
  refine kept_whenever ?_
  dsimp only
  split <;> simp

@[simp] theorem execTagBankSwap_keeps (w : Wing) (bank : Nat) (s : State) : Kept s (execTagBankSwap w bank s) := by
  simp [Kept, execTagBankSwap]

@[simp] theorem execRelInjectArm_keeps (data : Word) (s : State) : Kept s (execRelInjectArm data s) := by
  simp [Kept, execRelInjectArm]

@[simp] theorem execRelCeCfgWrite_keeps (cls : BitVec 3) (data : Word) (s : State) :
    Kept s (execRelCeCfgWrite cls data s) := by
  simp [Kept, execRelCeCfgWrite]

-- The commands of Machine/Boot.

theorem execPoresetNAssert_keeps (s : State) : QueueKept s (execPoresetNAssert s) := by
  simp [QueueKept, execPoresetNAssert]

theorem execPoresetNRelease_keeps (devid : BitVec 6) (mfr : BitVec 11) (s : State) :
    QueueKept s (execPoresetNRelease devid mfr s) :=
  queueKept_whenever (by simp)

@[simp] theorem execPllLock_keeps (s : State) : Kept s (execPllLock s) := by
  simp [Kept, execPllLock]

theorem execWarmresetNAssert_keeps (s : State) : QueueKept s (execWarmresetNAssert s) :=
  queueKept_whenever (by simp)

theorem execWarmresetNRelease_keeps (s : State) : QueueKept s (execWarmresetNRelease s) := by
  refine queueKept_whenever ?_
  dsimp only
  split <;> simp

theorem execBootStepEnd_keeps (rep : BootReport) (s : State) : QueueKept s (execBootStepEnd rep s) := by
  refine queueKept_whenever ?_
  have h := State.stepReads_keeps s rep
  split <;> simp_all

theorem execBootStepTimeout_keeps (rep : BootReport) (s : State) : QueueKept s (execBootStepTimeout rep s) := by
  refine queueKept_whenever ?_
  split <;> simp

theorem execReboot_keeps (s : State) : QueueKept s (execReboot s) := by
  simp [QueueKept, execReboot]

theorem execJrnlRetry_keeps (s : State) : QueueKept s (execJrnlRetry s) := by
  simp [QueueKept, execJrnlRetry]

@[simp] theorem execStwImgLoWrite_keeps (which : BitVec 2) (data : Word) (s : State) :
    Kept s (execStwImgLoWrite which data s) := by
  simp [Kept, execStwImgLoWrite]

-- The commands of Machine/ClientPorts.

@[simp] theorem execClientLinkUp_keeps (c : Nat) (crd : BitVec 7) (s : State) : Kept s (execClientLinkUp c crd s) := by
  simp [Kept, execClientLinkUp]

@[simp] theorem execClientLinkDown_keeps (c : Nat) (s : State) : Kept s (execClientLinkDown c s) := by
  simp [Kept, execClientLinkDown]

@[simp] theorem execPushCreditReturn_keeps (c : Nat) (n : BitVec 2) (s : State) : Kept s (execPushCreditReturn c n s) := by
  simp [Kept, execPushCreditReturn]

@[simp] theorem execPushBeat_keeps (c : Nat) (s : State) : Kept s (execPushBeat c s) := by
  unfold Kept execPushBeat
  (repeat' split) <;> simp

@[simp] theorem execPushLanded_keeps (c : Nat) (ring : BitVec 10) (slot : BitVec 6) (err : Bool) (s : State) :
    Kept s (execPushLanded c ring slot err s) := by
  unfold Kept execPushLanded
  split <;> simp

@[simp] theorem execSemiInc_keeps (c : Nat) (op : BitVec 2) (idx : BitVec 6) (cnt : BitVec 20) (s : State) :
    Kept s (execSemiInc c op idx cnt s) := by
  simp [Kept, execSemiInc]

@[simp] theorem execSemiDec_keeps (c : Nat) (op : BitVec 2) (idx : BitVec 6) (cnt : BitVec 20) (s : State) :
    Kept s (execSemiDec c op idx cnt s) := by
  simp [Kept, execSemiDec]

@[simp] theorem execStallReport_keeps (c : Nat) (kind : Bool) (id : BitVec 10) (s : State) :
    Kept s (execStallReport c kind id s) := by
  simp [Kept, execStallReport]

-- The commands of Machine/Power.

@[simp] theorem execThermWarnEdge_keeps (level : Bool) (s : State) : Kept s (execThermWarnEdge level s) := by
  simp [Kept, execThermWarnEdge]

@[simp] theorem execThermCritRise_keeps (s : State) : Kept s (execThermCritRise s) := by
  simp [Kept, execThermCritRise]

@[simp] theorem execThermCritFall_keeps (s : State) : Kept s (execThermCritFall s) := by
  simp [Kept, execThermCritFall]

@[simp] theorem execPmLoadupHoldFall_keeps (s : State) : Kept s (execPmLoadupHoldFall s) := by
  simp [Kept, execPmLoadupHoldFall]

@[simp] theorem execRampUnitEnable_keeps (hold : Bool) (s : State) : Kept s (execRampUnitEnable hold s) := by
  unfold Kept execRampUnitEnable
  split <;> simp

@[simp] theorem execPwrCtrlTarget_keeps (data : Word) (s : State) : Kept s (execPwrCtrlTarget data s) := by
  simp [Kept, execPwrCtrlTarget]

@[simp] theorem execN1Entry_keeps (s : State) : Kept s (execN1Entry s) := by
  simp [Kept, execN1Entry]

@[simp] theorem execAutowake_keeps (s : State) : Kept s (execAutowake s) := by
  simp [Kept, execAutowake]

@[simp] theorem execN2Entry_keeps (s : State) : Kept s (execN2Entry s) := by
  simp [Kept, execN2Entry]

@[simp] theorem execN2EntryTimeout_keeps (s : State) : Kept s (execN2EntryTimeout s) := by
  simp [Kept, execN2EntryTimeout]

@[simp] theorem execMemLinkAckFall_keeps (p : Nat) (s : State) : Kept s (execMemLinkAckFall p s) := by
  simp [Kept, execMemLinkAckFall]

@[simp] theorem execLinkDropTimeout_keeps (port : LinkPort) (s : State) : Kept s (execLinkDropTimeout port s) := by
  unfold Kept execLinkDropTimeout
  split <;> simp

@[simp] theorem execN2Exit_keeps (s : State) : Kept s (execN2Exit s) := by
  simp [Kept, execN2Exit]

@[simp] theorem execN3Entry_keeps (s : State) : Kept s (execN3Entry s) := by
  simp [Kept, execN3Entry]

@[simp] theorem execPmVlvlMatch_keeps (s : State) : Kept s (execPmVlvlMatch s) := by
  unfold Kept execPmVlvlMatch
  dsimp only
  split <;> simp

@[simp] theorem execPmVlvlTimeout_keeps (lvl : BitVec 2) (s : State) : Kept s (execPmVlvlTimeout lvl s) := by
  refine kept_whenever ?_
  dsimp only
  split <;> simp

-- The commands of Machine/TallyFam.

@[simp] theorem execSnap_keeps (s : State) : Kept s (execSnap s) := by
  simp [Kept, execSnap]

@[simp] theorem execClear_keeps (s : State) : Kept s (execClear s) := by
  simp [Kept, execClear]

@[simp] theorem execFreeze_keeps (on : Bool) (s : State) : Kept s (execFreeze on s) := by
  simp [Kept, execFreeze]

@[simp] theorem execTallyEdge_keeps (s : State) : Kept s (execTallyEdge s) := by
  unfold Kept execTallyEdge
  split <;> simp

@[simp] theorem execTallyRecord_keeps (s : State) : Kept s (execTallyRecord s) := by
  unfold Kept execTallyRecord
  split <;> simp

@[simp] theorem execSnapshotTask_keeps (q : Nat) (s : State) : Kept s (execSnapshotTask q s) := by
  unfold Kept execSnapshotTask
  split <;> simp

@[simp] theorem execTlySelWrite_keeps (u k : Nat) (hi : Bool) (data : Word) (s : State) :
    Kept s (execTlySelWrite u k hi data s) := by
  simp [Kept, execTlySelWrite]

@[simp] theorem execTlyCcycLoRead_keeps (s : State) : Kept s (execTlyCcycLoRead s) := by
  refine kept_whenever ?_
  split <;> simp

@[simp] theorem execTraceTimeMark_keeps (stall : Bool) (s : State) : Kept s (execTraceTimeMark stall s) := by
  simp [Kept, execTraceTimeMark]

-- The commands of Machine/Control.

theorem execRegisterWrite_keeps (mid : BitVec 8) (addr : BitVec 24) (data : Word) (s : State) :
    QueueKept s (execRegisterWrite mid addr data s) := by
  simp [QueueKept, execRegisterWrite]

@[simp] theorem execControlPortTimeout_keeps (mid : BitVec 8) (isWrite : Bool) (addr : BitVec 24) (data : Word) (s : State) :
    Kept s (execControlPortTimeout mid isWrite addr data s) := by
  simp [Kept, execControlPortTimeout]

@[simp] theorem execTapIdcode_keeps (code : Byte) (s : State) : Kept s (execTapIdcode code s) := by
  simp [Kept, execTapIdcode]

theorem execCpaccUpdateDr_keeps (dr : BitVec 58) (lock : Bool) (s : State) : QueueKept s (execCpaccUpdateDr dr lock s) := by
  refine queueKept_whenever ?_
  (repeat' split) <;> simp

@[simp] theorem execCpaccCaptureDr_keeps (lock : Bool) (s : State) : Kept s (execCpaccCaptureDr lock s) := by
  simp [Kept, execCpaccCaptureDr]

-- The commands of Machine/Crossing.

theorem execCorridorFlitArrival_keeps (toEast : Bool) (cls : BitVec 2) (s : State) :
    QueueKept s (execCorridorFlitArrival toEast cls s) := by
  unfold execCorridorFlitArrival
  split
  · exact ⟨rfl, rfl⟩
  · refine queueKept_whenever ?_
    dsimp only
    split <;> simp

@[simp] theorem execCorridorReplay_keeps (toEast : Bool) (cls : BitVec 2) (s : State) :
    Kept s (execCorridorReplay toEast cls s) := by
  simp [Kept, execCorridorReplay]

-- The commands of Machine/Itinerary.

@[simp] theorem execNopInstruction_keeps (lane : Nat) (s : State) : Kept s (execNopInstruction lane s) := by
  simp [Kept, execNopInstruction]

@[simp] theorem execHalt_keeps (lane : Nat) (s : State) : Kept s (execHalt lane s) := by
  simp [Kept, execHalt]

@[simp] theorem execLoop_keeps (lane : Nat) (s : State) : Kept s (execLoop lane s) := by
  simp [Kept, execLoop]

@[simp] theorem execEndl_keeps (lane : Nat) (s : State) : Kept s (execEndl lane s) := by
  simp [Kept, execEndl]

@[simp] theorem execLcset_keeps (lane : Nat) (s : State) : Kept s (execLcset lane s) := by
  simp [Kept, execLcset]

@[simp] theorem execLcadd_keeps (lane : Nat) (s : State) : Kept s (execLcadd lane s) := by
  simp [Kept, execLcadd]

@[simp] theorem execArset_keeps (lane : Nat) (s : State) : Kept s (execArset lane s) := by
  simp [Kept, execArset]

@[simp] theorem execAradd_keeps (lane : Nat) (s : State) : Kept s (execAradd lane s) := by
  simp [Kept, execAradd]

@[simp] theorem execIxbind_keeps (lane : Nat) (s : State) : Kept s (execIxbind lane s) := by
  refine kept_onIns fun t i w => ?_
  (repeat' split) <;> simp [Kept]

@[simp] theorem execIxget_keeps (lane : Nat) (s : State) : Kept s (execIxget lane s) := by
  refine kept_onIns fun t i w => ?_
  dsimp only
  (repeat' split) <;> simp [Kept]

@[simp] theorem execIxseek_keeps (lane : Nat) (s : State) : Kept s (execIxseek lane s) := by
  simp [Kept, execIxseek]

@[simp] theorem execClaim_keeps (lane : Nat) (s : State) : Kept s (execClaim lane s) := by
  refine kept_onIns fun t i w => ?_
  dsimp only
  (repeat' split) <;> simp [Kept]

@[simp] theorem execPublish_keeps (lane : Nat) (s : State) : Kept s (execPublish lane s) := by
  refine kept_onIns fun t i w => ?_
  (repeat' split) <;> simp [Kept]

@[simp] theorem execTake_keeps (lane : Nat) (s : State) : Kept s (execTake lane s) := by
  refine kept_onIns fun t i w => ?_
  dsimp only
  (repeat' split) <;> simp [Kept]

@[simp] theorem execFree_keeps (lane : Nat) (s : State) : Kept s (execFree lane s) := by
  refine kept_onIns fun t i w => ?_
  (repeat' split) <;> simp [Kept]

@[simp] theorem execWaitInstruction_keeps (lane : Nat) (s : State) : Kept s (execWaitInstruction lane s) := by
  simp [Kept, execWaitInstruction]

@[simp] theorem execSignalInstruction_keeps (lane : Nat) (s : State) : Kept s (execSignalInstruction lane s) := by
  simp [Kept, execSignalInstruction]

@[simp] theorem execDrain_keeps (lane : Nat) (s : State) : Kept s (execDrain lane s) := by
  simp [Kept, execDrain]

@[simp] theorem execXform_keeps (lane : Nat) (s : State) : Kept s (execXform lane s) := by
  simp [Kept, execXform]

@[simp] theorem execOrg_keeps (lane : Nat) (s : State) : Kept s (execOrg lane s) := by
  simp [Kept, execOrg]

@[simp] theorem execMove_keeps (lane : Nat) (s : State) : Kept s (execMove lane s) := by
  simp [Kept, execMove]

@[simp] theorem execXpand_keeps (lane : Nat) (s : State) : Kept s (execXpand lane s) := by
  simp [Kept, execXpand]

@[simp] theorem execGather_keeps (lane : Nat) (s : State) : Kept s (execGather lane s) := by
  refine kept_onIns fun t i w => ?_
  unfold Kept
  split
  · simp
  · dsimp only
    split
    · split <;> simp
    · simp
    · simp

@[simp] theorem execReduce_keeps (lane : Nat) (s : State) : Kept s (execReduce lane s) := by
  refine kept_onIns fun t i w => ?_
  unfold Kept
  split
  · simp
  · dsimp only
    split <;> simp

@[simp] theorem execPoolout_keeps (lane : Nat) (s : State) : Kept s (execPoolout lane s) := by
  simp [Kept, execPoolout]

-- The commands of Machine/Optimiser.

@[simp] theorem execUpdateSubWindow_keeps (w : Wing) (batch : Nat) (s : State) : Kept s (execUpdateSubWindow w batch s) := by
  unfold Kept execUpdateSubWindow
  dsimp only
  (repeat' split) <;> simp_all [eq_pair]

/-- No command touches the waiting commands or the configuration point: the named ones may bind, retire or reset table
versions, the others leave those alone as well. -/
theorem exec_keeps (c : Instr) (s : State) : QueueKept s (exec c s) := by
  cases c with
  | tableBind q => exact execTableBind_keeps q s
  | tableRetire q => exact execTableRetire_keeps q s
  | versionRetired q => exact execVersionRetired_keeps q s
  | poresetNAssert => exact execPoresetNAssert_keeps s
  | poresetNRelease devid mfr => exact execPoresetNRelease_keeps devid mfr s
  | warmresetNAssert => exact execWarmresetNAssert_keeps s
  | warmresetNRelease => exact execWarmresetNRelease_keeps s
  | bootStepEnd rep => exact execBootStepEnd_keeps rep s
  | bootStepTimeout rep => exact execBootStepTimeout_keeps rep s
  | reboot => exact execReboot_keeps s
  | jrnlRetry => exact execJrnlRetry_keeps s
  | registerWrite mid addr data => exact execRegisterWrite_keeps mid addr data s
  | cpaccUpdateDr dr lock => exact execCpaccUpdateDr_keeps dr lock s
  | corridorFlitArrival toEast cls => exact execCorridorFlitArrival_keeps toEast cls s
  | _ => exact Kept.queue (by simp [exec])

/-- Settles O3: the command at the front runs on the rest of the queue, and no command's meaning touches the waiting
commands or the configuration point. -/
theorem stepTakesOneCommand : Obligations.StepTakesOneCommand := by
  unfold Obligations.StepTakesOneCommand
  intro s t c rest hq ht
  obtain ⟨hp, hc⟩ := exec_keeps c (s.withPending rest)
  simp only [step, hq] at ht
  rw [ht] at hp hc
  exact ⟨hp, hc⟩

end Sys2Proof.Machine
end

section
/-!
PROOFS. What the control-port registers read after they are written.
-/

namespace Sys2Proof.Machine

/-- What a register reads after a register is written. -/
theorem State.setReg_reg (s : State) (off o : Nat) (v : Word) : (s.setReg off v).reg o = if o = off then v else s.reg o := by
  by_cases h : o = off
  · subst h
    by_cases hv : v = regReset o <;> simp [State.reg, State.setReg, hv]
  · simp [State.reg, State.setReg, h, Bank.get_set_other _ h]

@[simp] theorem State.setReg_reg_same (s : State) (off : Nat) (v : Word) : (s.setReg off v).reg off = v := by
  simp [State.setReg_reg]

theorem State.setReg_reg_other (s : State) {off o : Nat} (v : Word) (h : o ≠ off) : (s.setReg off v).reg o = s.reg o := by
  simp [State.setReg_reg, h]

/-- A register's word stands in `regs`. -/
theorem State.reg_of_regs {s t : State} {off : Nat} (h : t.regs.get off = s.regs.get off) : t.reg off = s.reg off := by
  simp [State.reg, h]

/-- What a register reads after a masked write of it. -/
@[simp] theorem State.putMasked_reg_same (s : State) (off : Nat) (m v : Word) :
    (s.putMasked off m v).reg off = (s.reg off &&& ~~~m) ||| (v &&& m) := by
  simp [State.putMasked]

theorem State.putMasked_regsBut (s : State) (off : Nat) (m v : Word) : s.regsBut (s.putMasked off m v) [off] := by
  intro o ho
  exact State.setReg_reg_other _ _ (by simpa using ho)

/-- An event that is raised is set, and the others of its register stay. -/
theorem State.raiseEvent_flag (s : State) (off i j : Nat) (hj : j < 32) :
    (s.raiseEvent off i).flag off j = (s.flag off j || decide (i = j)) := by
  simp only [State.flag, State.raiseEvent, State.setBits, State.setReg_reg_same, bitAt, oneBit, BitVec.getLsbD_or,
    BitVec.getLsbD_ofNat, Nat.testBit_two_pow, hj, decide_true, Bool.true_and]

@[simp] theorem State.raiseEvent_flag_same (s : State) (off i : Nat) (hi : i < 32) : (s.raiseEvent off i).flag off i = true := by
  simp [State.raiseEvent_flag, hi]

theorem State.raiseEvent_regsBut (s : State) (off i : Nat) : s.regsBut (s.raiseEvent off i) [off] := by
  intro o ho
  exact State.setReg_reg_other _ _ (by simpa using ho)

end Sys2Proof.Machine
end

section
/-!
PROOFS. What leaves the repair state (`rel`) and REL_EVENTS as they are: a fault and all that it stops, and the placing of
itineraries; the passing of cycles leaves the repair state.
-/

namespace Sys2Proof.Machine

@[simp] theorem ite_rel (c : Prop) [Decidable c] (a b : State) : (if c then a else b).rel = if c then a.rel else b.rel := by
  split <;> rfl

@[simp] theorem ite_regs_get (c : Prop) [Decidable c] (a b : State) (o : Nat) :
    (if c then a else b).regs.get o = if c then a.regs.get o else b.regs.get o := by
  split <;> rfl

@[simp] theorem foldl_rel {β : Type} (g : State → β → State) (h : ∀ a x, (g a x).rel = a.rel) (l : List β) (s : State) :
    (l.foldl g s).rel = s.rel := by
  induction l generalizing s with
  | nil => rfl
  | cons x t ih => simp [List.foldl_cons, ih, h]

@[simp] theorem foldl_relEvents {β : Type} (g : State → β → State)
    (h : ∀ a x, (g a x).regs.get offRelEvents = a.regs.get offRelEvents) (l : List β) (s : State) :
    (l.foldl g s).regs.get offRelEvents = s.regs.get offRelEvents := by
  induction l generalizing s with
  | nil => rfl
  | cons x t ih => simp [List.foldl_cons, ih, h]

@[simp] theorem offQ_qEvents_ne_relEvents (q : Nat) : offQ q qEvents ≠ offRelEvents := by
  simp only [offQ, qEvents, offRelEvents]
  omega

@[simp] theorem offLdgResult_ne_relEvents : offLdgResult ≠ offRelEvents := by decide

@[simp] theorem offLdgEvents_ne_relEvents : offLdgEvents ≠ offRelEvents := by decide

@[simp] theorem offXltEvents_ne_relEvents : offXltEvents ≠ offRelEvents := by decide

@[simp] theorem offLoadEvents_ne_relEvents : offLoadEvents ≠ offRelEvents := by decide

@[simp] theorem offTlyStatus_ne_relEvents : offTlyStatus ≠ offRelEvents := by decide

@[simp] theorem offTlyTraceDrop_ne_relEvents : offTlyTraceDrop ≠ offRelEvents := by decide

@[simp] theorem State.setReg_relEvents (s : State) {off : Nat} (v : Word) (h : off ≠ offRelEvents) :
    (s.setReg off v).regs.get offRelEvents = s.regs.get offRelEvents :=
  Bank.get_set_other _ h.symm _

@[simp] theorem State.raiseEvent_rel (s : State) (off i : Nat) : (s.raiseEvent off i).rel = s.rel := (rfl)

@[simp] theorem State.countReg_rel (s : State) (off lo len n : Nat) : (s.countReg off lo len n).rel = s.rel := (rfl)

@[simp] theorem State.raiseEvent_relEvents (s : State) {off : Nat} (i : Nat) (h : off ≠ offRelEvents) :
    (s.raiseEvent off i).regs.get offRelEvents = s.regs.get offRelEvents := by
  simp [State.raiseEvent, State.setBits, h]

@[simp] theorem State.countReg_relEvents (s : State) {off : Nat} (lo len n : Nat) (h : off ≠ offRelEvents) :
    (s.countReg off lo len n).regs.get offRelEvents = s.regs.get offRelEvents := by
  simp [State.countReg, h]

@[simp] theorem State.raiseQueue_relKept (s : State) (q i : Nat) :
    (s.raiseQueue q i).rel = s.rel ∧ (s.raiseQueue q i).regs.get offRelEvents = s.regs.get offRelEvents := by
  simp [State.raiseQueue]

@[simp] theorem State.countOne_relKept (s : State) (u k n : Nat) :
    (s.countOne u k n).rel = s.rel ∧ (s.countOne u k n).regs.get offRelEvents = s.regs.get offRelEvents := by
  simp [State.countOne]

@[simp] theorem State.count_relKept (s : State) (u ev qual n : Nat) :
    (s.count u ev qual n).rel = s.rel ∧ (s.count u ev qual n).regs.get offRelEvents = s.regs.get offRelEvents := by
  simp [State.count]

@[simp] theorem State.trace_relKept (s : State) (type unit : Nat) (q : Option Nat) (payload : Nat) :
    (s.trace type unit q payload).rel = s.rel ∧
      (s.trace type unit q payload).regs.get offRelEvents = s.regs.get offRelEvents := by
  simp [State.trace]

@[simp] theorem State.askTally_relKept (s : State) (a : TallyAsk) :
    (s.askTally a).rel = s.rel ∧ (s.askTally a).regs.get offRelEvents = s.regs.get offRelEvents := by
  simp [State.askTally]

@[simp] theorem State.recordDone_relKept (s : State) :
    (s.recordDone).rel = s.rel ∧ (s.recordDone).regs.get offRelEvents = s.regs.get offRelEvents := by
  simp [State.recordDone]

@[simp] theorem State.takeSnapshot_relKept (s : State) (asks : List TallyAsk) :
    (s.takeSnapshot asks).1.rel = s.rel ∧ (s.takeSnapshot asks).1.regs.get offRelEvents = s.regs.get offRelEvents := by
  simp [State.takeSnapshot]

@[simp] theorem State.traceFree_relKept (s : State) (type payload : Nat) :
    (s.traceFree type payload).rel = s.rel ∧ (s.traceFree type payload).regs.get offRelEvents = s.regs.get offRelEvents := by
  simp [State.traceFree]

@[simp] theorem State.tallyEdge_relKept (s : State) :
    (s.tallyEdge).rel = s.rel ∧ (s.tallyEdge).regs.get offRelEvents = s.regs.get offRelEvents := by
  simp [State.tallyEdge]

@[simp] theorem State.progress_relKept (s : State) (q : Nat) :
    (s.progress q).rel = s.rel ∧ (s.progress q).regs.get offRelEvents = s.regs.get offRelEvents := by
  simp [State.progress]

@[simp] theorem State.advanceHead_relKept (s : State) (q : Nat) :
    (s.advanceHead q).rel = s.rel ∧ (s.advanceHead q).regs.get offRelEvents = s.regs.get offRelEvents := by
  simp [State.advanceHead]

@[simp] theorem State.settle_relKept (s : State) (q : Nat) :
    (s.settle q).rel = s.rel ∧ (s.settle q).regs.get offRelEvents = s.regs.get offRelEvents := by
  simp [State.settle]

@[simp] theorem State.closeCmd_relKept (s : State) (q : Nat) (idx : BitVec 16) :
    (s.closeCmd q idx).rel = s.rel ∧ (s.closeCmd q idx).regs.get offRelEvents = s.regs.get offRelEvents := by
  simp [State.closeCmd]

@[simp] theorem State.endCmd_relKept (s : State) (q : Nat) (c : Cmd) :
    (s.endCmd q c).rel = s.rel ∧ (s.endCmd q c).regs.get offRelEvents = s.regs.get offRelEvents := by
  simp [State.endCmd]

@[simp] theorem State.updSnap_relKept (s : State) (q : Nat) (idx : BitVec 16) (u : Nat) (f : UnitSnap → UnitSnap) :
    (s.updSnap q idx u f).rel = s.rel ∧ (s.updSnap q idx u f).regs.get offRelEvents = s.regs.get offRelEvents := by
  simp [State.updSnap]

@[simp] theorem State.snapUnits_relKept (s : State) (q : Nat) (idx : BitVec 16) :
    (s.snapUnits q idx).rel = s.rel ∧ (s.snapUnits q idx).regs.get offRelEvents = s.regs.get offRelEvents := by
  simp [State.snapUnits]

@[simp] theorem State.streamSnap_relKept (s : State) (q stream u : Nat) (f : UnitSnap → UnitSnap) :
    (s.streamSnap q stream u f).rel = s.rel ∧ (s.streamSnap q stream u f).regs.get offRelEvents = s.regs.get offRelEvents := by
  unfold State.streamSnap
  (repeat' split) <;> simp_all

@[simp] theorem State.snapDetail_relKept (s : State) (q stream u : Nat) (d : Word) :
    (s.snapDetail q stream u d).rel = s.rel ∧ (s.snapDetail q stream u d).regs.get offRelEvents = s.regs.get offRelEvents := by
  simp [State.snapDetail]

@[simp] theorem State.corPush_relKept (s : State) (toEast : Bool) (cls : Nat) (i : CorItem) :
    (s.corPush toEast cls i).rel = s.rel ∧ (s.corPush toEast cls i).regs.get offRelEvents = s.regs.get offRelEvents := by
  simp [State.corPush]

@[simp] theorem State.cacheWritten_relKept (s : State) (lane pa len : Nat) :
    (s.cacheWritten lane pa len).rel = s.rel ∧
      (s.cacheWritten lane pa len).regs.get offRelEvents = s.regs.get offRelEvents := by
  simp [State.cacheWritten]

@[simp] theorem State.leavesLane_relKept (s : State) (r : Req) :
    (s.leavesLane r).rel = s.rel ∧ (s.leavesLane r).regs.get offRelEvents = s.regs.get offRelEvents := by
  unfold State.leavesLane
  (repeat' split) <;> simp_all

@[simp] theorem State.sendReq_relKept (s : State) (r : Req) (x0 : ReqPath) :
    (s.sendReq r x0).rel = s.rel ∧ (s.sendReq r x0).regs.get offRelEvents = s.regs.get offRelEvents := by
  unfold State.sendReq
  (repeat' split) <;> simp_all

@[simp] theorem State.extraFault_relKept (s : State) (q : Nat) :
    (s.extraFault q).rel = s.rel ∧ (s.extraFault q).regs.get offRelEvents = s.regs.get offRelEvents := by
  unfold State.extraFault
  dsimp only
  (repeat' split) <;> simp_all

@[simp] theorem State.letGo_relKept (s : State) (q : Nat) (r : Req) :
    (s.letGo q r).rel = s.rel ∧ (s.letGo q r).regs.get offRelEvents = s.regs.get offRelEvents := by
  unfold State.letGo
  split <;> simp

@[simp] theorem State.stopLanes_relKept (s : State) (q : Nat) :
    (s.stopLanes q).rel = s.rel ∧ (s.stopLanes q).regs.get offRelEvents = s.regs.get offRelEvents := by
  simp [State.stopLanes]

@[simp] theorem State.stopWaiters_relKept (s : State) (q : Nat) :
    (s.stopWaiters q).rel = s.rel ∧ (s.stopWaiters q).regs.get offRelEvents = s.regs.get offRelEvents := by
  simp [State.stopWaiters]

@[simp] theorem State.letGoParcel_relKept (s : State) (q : Nat) (x : TxParcel) :
    (s.letGoParcel q x).rel = s.rel ∧ (s.letGoParcel q x).regs.get offRelEvents = s.regs.get offRelEvents := by
  simp [State.letGoParcel]

@[simp] theorem State.stopPorter_relKept (s : State) (q : Nat) :
    (s.stopPorter q).rel = s.rel ∧ (s.stopPorter q).regs.get offRelEvents = s.regs.get offRelEvents := by
  simp [State.stopPorter]

@[simp] theorem State.stopPushes_relKept (s : State) (q : Nat) :
    (s.stopPushes q).rel = s.rel ∧ (s.stopPushes q).regs.get offRelEvents = s.regs.get offRelEvents := by
  simp [State.stopPushes]

@[simp] theorem State.stopReads_relKept (s : State) (q : Nat) :
    (s.stopReads q).rel = s.rel ∧ (s.stopReads q).regs.get offRelEvents = s.regs.get offRelEvents := by
  simp [State.stopReads]

@[simp] theorem State.stopUnits_relKept (s : State) (q : Nat) :
    (s.stopUnits q).rel = s.rel ∧ (s.stopUnits q).regs.get offRelEvents = s.regs.get offRelEvents := by
  simp [State.stopUnits]

@[simp] theorem State.ledgerResult_relKept (s : State) (st : Byte) (check off : Nat) :
    (s.ledgerResult st check off).rel = s.rel ∧
      (s.ledgerResult st check off).regs.get offRelEvents = s.regs.get offRelEvents := by
  simp [State.ledgerResult]

@[simp] theorem State.commitStopped_relKept (s : State) (q : Nat) (st : Byte) :
    (s.commitStopped q st).rel = s.rel ∧ (s.commitStopped q st).regs.get offRelEvents = s.regs.get offRelEvents := by
  simp [State.commitStopped]

@[simp] theorem State.snapInstr_relKept (s : State) (q : Nat) (idx : BitVec 16) (f : FaultInfo) :
    (s.snapInstr q idx f).rel = s.rel ∧ (s.snapInstr q idx f).regs.get offRelEvents = s.regs.get offRelEvents := by
  simp [State.snapInstr]

@[simp] theorem State.failCmd_relKept (s : State) (q : Nat) (idx : BitVec 16) (f : FaultInfo) :
    (s.failCmd q idx f).rel = s.rel ∧ (s.failCmd q idx f).regs.get offRelEvents = s.regs.get offRelEvents := by
  unfold State.failCmd
  dsimp only
  (repeat' split) <;> simp_all

@[simp] theorem State.abort_relKept (s : State) (q : Nat) (f : FaultInfo) :
    (s.abort q f).rel = s.rel ∧ (s.abort q f).regs.get offRelEvents = s.regs.get offRelEvents := by
  simp [State.abort]

@[simp] theorem State.noteActs_relKept (s : State) (n : Note) (bad : Bool) :
    (s.noteActs n bad).rel = s.rel ∧ (s.noteActs n bad).regs.get offRelEvents = s.regs.get offRelEvents := by
  unfold State.noteActs
  dsimp only
  (repeat' split) <;> simp_all

@[simp] theorem State.recordPart_relKept (s : State) (rid id : Nat) (bad : Bool) :
    (s.recordPart rid id bad).rel = s.rel ∧ (s.recordPart rid id bad).regs.get offRelEvents = s.regs.get offRelEvents := by
  unfold State.recordPart
  (repeat' split) <;> simp_all

@[simp] theorem State.recordFails_relKept (s : State) (rid id : Nat) (f : FaultInfo) :
    (s.recordFails rid id f).rel = s.rel ∧ (s.recordFails rid id f).regs.get offRelEvents = s.regs.get offRelEvents := by
  unfold State.recordFails
  (repeat' split) <;> simp_all

@[simp] theorem State.sendSemo_rel (s : State) (i : Nat) (op : BitVec 2) (cnt : BitVec 20) :
    (s.sendSemo i op cnt).rel = s.rel := by
  simp [State.sendSemo]

@[simp] theorem State.sendFull_rel (s : State) (i : Nat) :
    (s.sendFull i).rel = s.rel := by
  simp [State.sendFull]

@[simp] theorem State.sendDue_rel (s : State) (m : Nat × Option (BitVec 20)) :
    (s.sendDue m).rel = s.rel := by
  unfold State.sendDue
  (repeat' split) <;> simp_all

@[simp] theorem State.flushIncs_rel (s : State) (p : Nat × Option (BitVec 20) → Bool) :
    (s.flushIncs p).rel = s.rel := by
  simp [State.flushIncs]

@[simp] theorem State.porterSnap_relKept (s : State) (t : Tile) :
    (s.porterSnap t).rel = s.rel ∧ (s.porterSnap t).regs.get offRelEvents = s.regs.get offRelEvents := by
  simp [State.porterSnap]

@[simp] theorem State.streamFault_relKept (s : State) (q stream : Nat) (f : FaultInfo) :
    (s.streamFault q stream f).rel = s.rel ∧ (s.streamFault q stream f).regs.get offRelEvents = s.regs.get offRelEvents := by
  unfold State.streamFault
  (repeat' split) <;> simp_all

@[simp] theorem State.outSnap_relKept (s : State) (o : OutParcel) :
    (s.outSnap o).rel = s.rel ∧ (s.outSnap o).regs.get offRelEvents = s.regs.get offRelEvents := by
  unfold State.outSnap
  (repeat' split) <;> simp_all

@[simp] theorem State.outFails_relKept (s : State) (o : OutParcel) (f : FaultInfo) :
    (s.outFails o f).rel = s.rel ∧ (s.outFails o f).regs.get offRelEvents = s.regs.get offRelEvents := by
  simp [State.outFails]

@[simp] theorem State.forgetParcel_relKept (s : State) (x : TxParcel) :
    (s.forgetParcel x).rel = s.rel ∧ (s.forgetParcel x).regs.get offRelEvents = s.regs.get offRelEvents := by
  simp [State.forgetParcel]

@[simp] theorem State.parcelFails_relKept (s : State) (x : TxParcel) (f : FaultInfo) :
    (s.parcelFails x f).rel = s.rel ∧ (s.parcelFails x f).regs.get offRelEvents = s.regs.get offRelEvents := by
  unfold State.parcelFails
  (repeat' split) <;> simp_all

@[simp] theorem State.enqueueParcel_relKept (s : State) (east : Bool) (x : TxParcel) :
    (s.enqueueParcel east x).rel = s.rel ∧ (s.enqueueParcel east x).regs.get offRelEvents = s.regs.get offRelEvents := by
  simp [State.enqueueParcel]

@[simp] theorem State.sendResponse_relKept (s : State) (x : Nat) (r : Parcel) :
    (s.sendResponse x r).rel = s.rel ∧ (s.sendResponse x r).regs.get offRelEvents = s.regs.get offRelEvents := by
  simp [State.sendResponse]

@[simp] theorem State.respond_relKept (s : State) (x : Nat) (p : Parcel) (ptype status : Byte) :
    (s.respond x p ptype status).rel = s.rel ∧
      (s.respond x p ptype status).regs.get offRelEvents = s.regs.get offRelEvents := by
  simp [State.respond]

@[simp] theorem State.nackService_relKept (s : State) (id : Nat) (st : Byte) :
    (s.nackService id st).rel = s.rel ∧ (s.nackService id st).regs.get offRelEvents = s.regs.get offRelEvents := by
  unfold State.nackService
  (repeat' split) <;> simp_all

@[simp] theorem State.nackServe_relKept (s : State) (id : Nat) (st : Byte) :
    (s.nackServe id st).rel = s.rel ∧ (s.nackServe id st).regs.get offRelEvents = s.regs.get offRelEvents := by
  unfold State.nackServe
  (repeat' split) <;> simp_all

@[simp] theorem State.readFails_relKept (s : State) (id : Nat) (pieces : List (Nat × Nat)) (f : FaultInfo) :
    (s.readFails id pieces f).rel = s.rel ∧ (s.readFails id pieces f).regs.get offRelEvents = s.regs.get offRelEvents := by
  unfold State.readFails
  (repeat' split) <;> simp_all

@[simp] theorem State.reqSnap_relKept (s : State) (r : Req) :
    (s.reqSnap r).rel = s.rel ∧ (s.reqSnap r).regs.get offRelEvents = s.regs.get offRelEvents := by
  unfold State.reqSnap
  (repeat' split) <;> simp_all

@[simp] theorem State.requestFault_relKept (s : State) (r : Req) (f : FaultInfo) :
    (s.requestFault r f).rel = s.rel ∧ (s.requestFault r f).regs.get offRelEvents = s.regs.get offRelEvents := by
  unfold State.requestFault
  (repeat' split) <;> simp_all

@[simp] theorem State.requestsFault_relKept (s : State) (rs : List Req) (f : State → FaultInfo) :
    (s.requestsFault rs f).rel = s.rel ∧ (s.requestsFault rs f).regs.get offRelEvents = s.regs.get offRelEvents := by
  simp [State.requestsFault]

@[simp] theorem State.fillQueue_relKept (s : State) (lane : Nat) :
    (s.fillQueue lane).rel = s.rel ∧ (s.fillQueue lane).regs.get offRelEvents = s.regs.get offRelEvents := by
  simp [State.fillQueue]

@[simp] theorem State.watchGroup_rel (s : State) (g : Nat) :
    (s.watchGroup g).rel = s.rel := by
  unfold State.watchGroup
  (repeat' split) <;> simp_all

@[simp] theorem State.watchLaggards_rel (s : State) :
    (s.watchLaggards).rel = s.rel := by
  simp [State.watchLaggards]

@[simp] theorem State.putBack_relKept (s : State) (q : Nat) (p : Nat × Nat × Nat) :
    (s.putBack q p).rel = s.rel ∧ (s.putBack q p).regs.get offRelEvents = s.regs.get offRelEvents := by
  unfold State.putBack
  (repeat' split) <;> simp_all

@[simp] theorem State.placeAside_relKept (s : State) (q : Nat) :
    (s.placeAside q).rel = s.rel ∧ (s.placeAside q).regs.get offRelEvents = s.regs.get offRelEvents := by
  unfold State.placeAside
  (repeat' split) <;> simp_all

@[simp] theorem State.placeAsides_relKept (s : State) :
    (s.placeAsides).rel = s.rel ∧ (s.placeAsides).regs.get offRelEvents = s.regs.get offRelEvents := by
  simp [State.placeAsides]

@[simp] theorem State.judge_rel (s : State) (u k m : Nat) :
    (s.judge u k m).rel = s.rel := by
  unfold State.judge
  dsimp only
  (repeat' split) <;> simp_all

@[simp] theorem State.judgeAll_rel (s : State) (n : Nat) :
    (s.judgeAll n).rel = s.rel := by
  simp [State.judgeAll]

@[simp] theorem State.runTimers_rel (s : State) (n : Nat) :
    (s.runTimers n).rel = s.rel := by
  simp [State.runTimers]

@[simp] theorem State.runLaggards_rel (s : State) (n : Nat) :
    (s.runLaggards n).rel = s.rel := by
  unfold State.runLaggards
  refine foldl_rel _ (fun a x => ?_) _ _
  (repeat' split) <;> simp

@[simp] theorem State.driveTrace_rel (s : State) (n : Nat) :
    (s.driveTrace n).rel = s.rel := by
  simp [State.driveTrace]

@[simp] theorem State.liveCycles_rel (s : State) (n : Nat) :
    (s.liveCycles n).rel = s.rel := by
  simp [State.liveCycles]

@[simp] theorem State.switchCycle_rel (s : State) :
    (s.switchCycle).rel = s.rel := by
  simp [State.switchCycle]

@[simp] theorem State.runSwitches_rel  (x0 : Nat) (x1 : Nat) (s : State) :
    (State.runSwitches x0 x1 s).rel = s.rel := by
  induction x0 generalizing x1 s with
  | zero => cases x1 <;> simp [State.runSwitches]
  | succ k ih => cases x1 with
    | zero => simp [State.runSwitches]
    | succ n => simp [State.runSwitches, ih]

@[simp] theorem State.runCycles_rel (s : State) (n : Nat) :
    (s.runCycles n).rel = s.rel := by
  simp [State.runCycles]

@[simp] theorem State.runEdges_rel  (x0 : Nat) (x1 : Nat) (s : State) :
    (State.runEdges x0 x1 s).rel = s.rel := by
  induction x0 generalizing x1 s with
  | zero => simp [State.runEdges]
  | succ k ih =>
    unfold State.runEdges
    split
    · split <;> simp [ih]
    · simp

@[simp] theorem State.passCycles_rel (s : State) (n : Nat) :
    (s.passCycles n).rel = s.rel := by
  simp [State.passCycles]

@[simp] theorem State.abortReads_relKept (s : State) (east : Bool) :
    (s.abortReads east).rel = s.rel ∧ (s.abortReads east).regs.get offRelEvents = s.regs.get offRelEvents := by
  simp [State.abortReads]

end Sys2Proof.Machine
end

section
/-!
PROOFS. Spares take the numbers (O26).
-/

namespace Sys2Proof.Machine

theorem whenever_pos {c : Bool} (hc : c = true) (s : State) (f : State → State) : whenever c s f = .next (f s) := by
  simp [whenever, hc]

/-- With no itinerary none is aside, so none is put back. -/
theorem placeAsides_of_no_itins {s : State} (h : s.itins = []) : s.placeAsides = s := by
  have hq (q : Nat) : s.placeAside q = s := by simp [State.placeAside, State.asides, h]
  unfold State.placeAsides
  generalize List.range s.cfg.queues = l
  induction l with
  | nil => rfl
  | cons q l ih => rw [List.foldl_cons, hq, ih]

theorem placeAsides_flag (s : State) (i : Nat) : s.placeAsides.flag offRelEvents i = s.flag offRelEvents i := by
  unfold State.flag
  rw [State.reg_of_regs (State.placeAsides_relKept s).2]

theorem mapped_flag (s : State) : s.mapped.flag offRelEvents 3 = true :=
  State.raiseEvent_flag_same _ _ _ (by decide)

/-- The Steward may swap a lane that waits to be replaced: no supply hold or ramp is on, and it holds nothing (R383). -/
structure State.LaneMaySwap (s : State) (lane : Nat) : Prop where
  alive : s.alive = true
  steward : s.stwRunning = true
  waits : s.rel.lanesWait.contains lane = true
  hold : s.pins.hold = false
  rest : s.power.phase = .rest
  itins : s.itins = []
  tiles : s.tiles = []
  rwins : (s.lane lane).rwins = []

theorem State.LaneMaySwap.guard {s : State} {lane : Nat} (h : s.LaneMaySwap lane) :
    (s.alive && s.stwRunning && s.rel.lanesWait.contains lane && !s.pins.hold && s.power.phase == .rest &&
      !s.itins.any (fun i => i.place == .resident && i.lane == lane) && !s.tiles.any (fun t => t.lane == lane) &&
      !s.itins.any (fun i => i.lane == lane && i.wwin.isSome) && (s.lane lane).rwins.isEmpty) = true := by
  simp only [h.alive, h.steward, h.waits, h.hold, h.rest, h.itins, h.tiles, h.rwins]
  rfl

/-- With no spare free, the lane leaves service. -/
theorem laneSpareSwap_none {s : State} {lane : Nat} (h : s.LaneMaySwap lane)
    (hf : s.freeLaneSpare (laneEast lane) (s.spareLaneMask (laneEast lane)) = none) :
    exec (.laneSpareSwap lane) s = .next ({ s with rel := { s.rel with
      lanesWait := s.rel.lanesWait.filter (fun l => l != lane)
      lanesOut := s.rel.lanesOut ||| BitVec.ofNat 64 (2 ^ lane) } } : State).noSpare.mapped := by
  simp only [exec, execLaneSpareSwap]
  rw [whenever_pos h.guard]
  split
  next k hk => exact absurd (hf.symm.trans hk) (by simp)
  next => exact congrArg Host.Outcome.next (placeAsides_of_no_itins h.itins)

/-- With spare `k` free, that spare takes the lane's number. -/
theorem laneSpareSwap_some {s : State} {lane k : Nat} (h : s.LaneMaySwap lane)
    (hf : s.freeLaneSpare (laneEast lane) (s.spareLaneMask (laneEast lane)) = some k) :
    ∃ u : State, exec (.laneSpareSwap lane) s = .next u.mapped.placeAsides ∧ u.rel.lanesOut = s.rel.lanesOut ∧
      u.rel.laneSpares = s.rel.laneSpares.set (wingNo (laneEast lane))
        (s.rel.laneSpares.get (wingNo (laneEast lane)) ||| BitVec.ofNat 2 (2 ^ k)) := by
  simp only [exec, execLaneSpareSwap]
  rw [whenever_pos h.guard]
  split
  next j hj =>
    obtain rfl : k = j := Option.some.inj (hf.symm.trans hj)
    exact ⟨_, rfl, by simp [State.freshLane, State.useLaneSpare], by simp [State.freshLane, State.useLaneSpare]⟩
  next hn => exact absurd (hf.symm.trans hn) (by simp)

/-- A drained tag bank leaves service for a spare bank, or with none free on its own; no read holds a tag (R384). -/
theorem tagBankSwap_runs {s : State} {w : Wing} {bank : Nat} (ha : s.alive = true) (hw : s.stwRunning = true)
    (hb : bank < s.cfg.tagBanks) (hd : s.rel.tagBanks.get (bank + if wingEast w then 8 else 0) = .draining)
    (ho : s.outs = []) :
    exec (.tagBankSwap w bank) s = .next (if s.freeTagSpare (wingEast w) then
        ({ s with rel := { s.rel with
          tagSpare := s.rel.tagSpare.set (wingNo (wingEast w)) true
          tagBanks := s.rel.tagBanks.set (bank + if wingEast w then 8 else 0) .inUse } } : State).mapped
      else (({ s with rel := { s.rel with
        tagBanks := s.rel.tagBanks.set (bank + if wingEast w then 8 else 0) .outOfUse } } : State).noSpare.mapped).abortReads
          (wingEast w)) := by
  simp only [exec, execTagBankSwap]
  exact whenever_pos (by simp [ha, hw, hb, hd, ho]) _ _

theorem abortReads_flag (s : State) (east : Bool) (i : Nat) :
    (s.abortReads east).flag offRelEvents i = s.flag offRelEvents i := by
  unfold State.flag
  rw [State.reg_of_regs (State.abortReads_relKept s east).2]

/-- Whether or not a spare bank is free, the swap sets MAPPED and the bank's new state. -/
theorem tagBankSwap_maps {s t : State} {w : Wing} {bank : Nat} (ha : s.alive = true) (hw : s.stwRunning = true)
    (hb : bank < s.cfg.tagBanks) (hd : s.rel.tagBanks.get (bank + if wingEast w then 8 else 0) = .draining)
    (ho : s.outs = []) (ht : exec (.tagBankSwap w bank) s = .next t) : t.flag offRelEvents 3 = true ∧
      t.rel.tagBanks.get (bank + if wingEast w then 8 else 0) =
        (if s.freeTagSpare (wingEast w) then BankState.inUse else .outOfUse) ∧
      (s.freeTagSpare (wingEast w) = true → t.rel.tagSpare.get (wingNo (wingEast w)) = true) := by
  rw [tagBankSwap_runs ha hw hb hd ho, Host.Outcome.next.injEq] at ht
  subst ht
  split
  next hf => exact ⟨mapped_flag _, by simp [State.mapped], fun _ => by simp [State.mapped]⟩
  next hf =>
    exact ⟨by rw [abortReads_flag, mapped_flag], by simp [State.mapped, State.noSpare], fun h => absurd h hf⟩

/-- What a bank reads once the entries that fail a test of their number are gone. -/
theorem Bank.find_filter {α : Type} (p : Nat → Bool) (i : Nat) (l : List (Nat × α)) :
    Bank.find i (l.filter (fun c => p c.1)) = if p i then Bank.find i l else none := by
  induction l with
  | nil => simp [Bank.find]
  | cons c l ih =>
    obtain ⟨j, v⟩ := c
    by_cases hj : j = i
    · subst hj
      by_cases hp : p j <;> simp [Bank.find, hp, ih]
    · by_cases hp : p j <;> simp [Bank.find, hp, hj, ih]

theorem writeCeCfg_counts (s : State) (c : Nat) (data : Word) (k : Nat) :
    (s.writeCeCfg c data).rel.counts.get k = if k / relClassSize = c then [] else s.rel.counts.get k := by
  simp only [State.writeCeCfg, Bank.get, Bank.find_filter (fun i => i / relClassSize != c)]
  by_cases hk : k / relClassSize = c
  · simp [hk]
    rfl
  · simp [hk, State.putMasked]

theorem writeCeCfg_reg (s : State) (c : Nat) (data : Word) : (s.writeCeCfg c data).reg (offCeCfg c) =
    (s.reg (offCeCfg c) &&& 0xFF0000E0#32) ||| (data &&& 0x00FFFF1F#32) := by
  have h : ~~~0x00FFFF1F#32 = 0xFF0000E0#32 := by decide
  rw [← h]
  exact State.putMasked_reg_same s (offCeCfg c) 0x00FFFF1F#32 data

/-- What is written of REL_INJECT: a unit that the block lacks is not named (R3, R386). -/
theorem writeInject_reg (s : State) (data m d : Word) (hm : m = if s.cfg.twoWings then 0xFFFF0000#32 else 0xF7FF0000#32)
    (hd : d = if s.cfg.unitAbsent (bits data 28 3) (bits data 16 10) then data &&& 0xFC00FFFF#32 else data) :
    (s.writeInject data).reg offRelInject = (s.reg offRelInject &&& ~~~m) ||| (d &&& m) := by
  subst hm hd
  exact State.putMasked_reg_same _ _ _ _

/-- Settles O26: each command runs under its guard; what a swap writes of `rel` and REL_EVENTS outlives the cycles of the
supply ramp and the faults of the reads that are given up. -/
theorem sparesTakeTheNumbers : Obligations.SparesTakeTheNumbers := by
  unfold Obligations.SparesTakeTheNumbers
  intro s
  refine ⟨?withdrawn, ?replaced, ?bank, ?inject, ?config⟩
  case withdrawn =>
    intro lane alive steward waits hold rest itins tiles rwins hf
    have h : s.LaneMaySwap lane := ⟨alive, steward, waits, hold, rest, itins, tiles, rwins⟩
    refine ⟨_, laneSpareSwap_none h hf, rfl, mapped_flag _, ?_, ?_, rfl⟩
    · simp [State.mapped, State.noSpare, State.raiseEvent_flag]
    · intro off ho
      rw [State.mapped, State.raiseEvent_regsBut _ _ _ off ho]
      exact State.raiseEvent_regsBut _ _ _ off ho
  case replaced =>
    intro lane k alive steward waits hold rest itins tiles rwins hf
    have h : s.LaneMaySwap lane := ⟨alive, steward, waits, hold, rest, itins, tiles, rwins⟩
    obtain ⟨u, hu, hout, hsp⟩ := laneSpareSwap_some h hf
    refine ⟨_, hu, ?_, by rw [placeAsides_flag, mapped_flag], ?_⟩
    · simpa [State.mapped] using hout
    · simp [State.mapped, hsp]
  case bank =>
    intro w bank alive steward hb hd ho
    have hrun := tagBankSwap_runs alive steward hb hd ho
    exact ⟨_, hrun, tagBankSwap_maps alive steward hb hd ho hrun⟩
  case inject =>
    intro data hp
    exact ⟨_, cpEffect_performs (fun s => s.writeInject data) hp, fun m d hm hd => writeInject_reg s data m d hm hd,
      State.putMasked_regsBut _ _ _ _, rfl⟩
  case config =>
    intro cls data hc hp
    refine ⟨(s.writeCeCfg cls.toNat data).respondOk, ?_, writeCeCfg_reg s cls.toNat data, fun k hk => ?_, fun k hk => ?_,
      State.putMasked_regsBut s (offCeCfg cls.toNat) 0x00FFFF1F#32 data, rfl⟩
    · simp only [exec, execRelCeCfgWrite]
      rw [cpEffect_performs _ hp, if_pos hc]
    · exact (writeCeCfg_counts s cls.toNat data k).trans (if_pos hk)
    · exact (writeCeCfg_counts s cls.toNat data k).trans (if_neg hk)

end Sys2Proof.Machine
end

section
/-!
PROOFS. Why O52 fails: its frame of the registers does not hold of every state it speaks of.
-/

namespace Sys2Proof.Machine

/-- A LEDGER command, OP COMMIT, that asks for a completion record. -/
def recordedCommit : BitVec 512 := BitVec.ofNat 512 (0x30 + 2 ^ 8 + 2 ^ 64)

/-- A COMMIT with nothing staged waits for quiescence with no memory port up, beside a load record whose number is the next
one to be given. -/
def commitBesideRecord : State := { State.reset with
  pins := { State.reset.pins with poreset := false, pllLocked := true }
  queues := Bank.empty.set 0 { (default : Queue) with
    cmds := [{ idx := 0, bytes := recordedCommit, started := true, done := false, failed := false, pages := 0 }] }
  records := [{ id := State.reset.nextId, note := .load, left := [State.reset.nextId + 1], bad := false }]
  ledger := { (default : Ledger) with st := .committing } }

/-- The COMMIT's own record takes the number that is in use. No port takes it, and the load record is the one that ends: its
loss is raised in TBL_LOAD_EVENTS (R282). -/
theorem commitBesideRecord_raises_load :
    (stateAfter commitBesideRecord (exec .commitQuiesced commitBesideRecord)).reg offLoadEvents ≠
      commitBesideRecord.reg offLoadEvents := by
  decide +kernel

/-- Refutes O52: its first clause lets a commit change only the staged registers, the Ledger's and queue 0's events, of any state,
and nothing it asks for keeps `nextId` apart from the numbers of the records under way. With a record of that number beside
it, a commit ends that record and so changes TBL_LOAD_EVENTS. -/
theorem not_commitsApplyAtQuiescence : ¬ Obligations.CommitsApplyAtQuiescence := by
  unfold Obligations.CommitsApplyAtQuiescence
  intro h
  obtain ⟨applies, -⟩ := h commitBesideRecord (by decide +kernel)
  obtain ⟨t, ht, -, -, -, -, -, -, hregs⟩ := applies
    { idx := 0, bytes := recordedCommit, started := true, done := false, failed := false, pages := 0 }
    (by decide +kernel) (by decide +kernel) (by decide +kernel) (by decide +kernel) (by decide +kernel) (by decide +kernel)
    (by decide +kernel) (by decide +kernel) (by decide +kernel)
  have hload : t.reg offLoadEvents = commitBesideRecord.reg offLoadEvents := hregs offLoadEvents (by decide +kernel)
  have hne := commitBesideRecord_raises_load
  rw [ht] at hne
  exact hne hload

end Sys2Proof.Machine
end

section
/-!
PROOFS. Why O31 fails: the probe of a write may use up a free value, which its frame does not allow for.
-/

namespace Sys2Proof.Machine

/-- A write of granule 0, outstanding at port 0 under tag 0. -/
def granuleWrite : OutReq := { (default : OutReq) with
  req := { (default : Req) with op := 1#3, len := 128 } }

/-- Granule 0 is windowed and held by a way of tier 0, for which an injection is armed (R75, R386). -/
def writeBesideInjection : State := { State.reset with
  pins := { State.reset.pins with poreset := false, pllLocked := true }
  regs := (((Bank.empty.set offMportLink (some 1#32)).set (offLrdBase 0) (some 0x80000000#32)).set offLdgTiers
    (some 1#32)).set offRelInject (some 0xB0000000#32)
  larder := { State.reset.larder with
    tiersUp := 1#8, dir := Bank.empty.set 0 (Bank.empty.set 0 { valid := true, heat := 0#2, tag := 0#26 }) }
  outs := [granuleWrite] }

/-- Invalidating the way writes the directory row of the armed tier: which of its bits are flipped is a free value (log 125). -/
theorem writeBesideInjection_uses_free :
    (stateAfter writeBesideInjection (exec (.larderWriteInvalidate 0 0#17) writeBesideInjection)).free ≠
      writeBesideInjection.free := by
  decide +kernel

/-- Refutes O31: its clause of the probe lets LARDER_WRITE_INVALIDATE change only the requests, the Larder, the Tally, REL_INJECT, the
repair state and what is driven. With an injection armed for the tier of the way that is invalidated, the directory row is
stored flipped, and the choice of the bits moves the model's counter of free values on. -/
theorem not_responsesFreeTheirTag : ¬ Obligations.ResponsesFreeTheirTag := by
  unfold Obligations.ResponsesFreeTheirTag
  intro h
  obtain ⟨-, -, -, -, -, -, probe, -⟩ := h writeBesideInjection 0 0#17 0#2 0#16 0#1024 granuleWrite (by decide +kernel)
    (by decide +kernel)
  obtain ⟨t, ht, -, -, -, frame⟩ := probe (by decide +kernel) (by decide +kernel) (by decide +kernel) (by decide +kernel)
  have hfree := congrArg State.free frame
  have hne := writeBesideInjection_uses_free
  rw [ht] at hne
  exact hne hfree

end Sys2Proof.Machine
end

section
/-!
PROOFS. Why O47 fails: the slots that a task's end frees go to other queues.
-/

namespace Sys2Proof.Machine

/-- The task of queue 0 has nothing left to do, while queue 1, resumed, still has an itinerary set aside. -/
def taskOverBesideAside : State := { State.reset with
  pins := { State.reset.pins with poreset := false, pllLocked := true }
  queues := (Bank.empty.set 0 { (default : Queue) with
    st := .running
    task := some { (default : Task) with phase := .running }
    cmds := [{ idx := 0, bytes := 1#512, started := true, done := false, failed := false, pages := 0 }] }).set 1
      { (default : Queue) with st := .running }
  itins := [{ (default : Itin) with stream := 1, q := 1, place := .aside }] }

/-- TASK_COMPLETE places the itinerary of queue 1, whose lane groups it joins (R100, R103, R201). -/
theorem taskOverBesideAside_places_queue1 :
    (stateAfter taskOverBesideAside (exec (.taskComplete 0) taskOverBesideAside)).queue 1 ≠ taskOverBesideAside.queue 1 := by
  decide +kernel

/-- Refutes O47: its last clause says that the end of a task leaves every other queue as it was. A Running queue whose itineraries
were set aside by a suspension takes the free slots then, and its lane groups are noted in it. -/
theorem not_tasksStartRunAndComplete : ¬ Obligations.TasksStartRunAndComplete := by
  unfold Obligations.TasksStartRunAndComplete
  intro h
  obtain ⟨-, -, complete⟩ := h taskOverBesideAside 0
  obtain ⟨t, ht, -, -, others, -⟩ := complete { (default : Task) with phase := .running }
    { idx := 0, bytes := 1#512, started := true, done := false, failed := false, pages := 0 } (by decide +kernel)
    (by decide +kernel) (by decide +kernel) (by decide +kernel) (by decide +kernel) (by decide +kernel) (by decide +kernel)
    (by decide +kernel)
  have hne := taskOverBesideAside_places_queue1
  rw [ht] at hne
  exact hne (others 1 (by decide))

end Sys2Proof.Machine
end

section
/-!
PROOFS. Why O50 fails: its frame of the queues does not hold of every state it speaks of.
-/

namespace Sys2Proof.Machine

/-- PREWARM of page 0 that asks for a completion record: OP 0x20, REC, LEN 4096. -/
def recordedPrewarm : BitVec 512 := BitVec.ofNat 512 (0x20 + 2 ^ 8 + 4096 * 2 ^ 192)

/-- The PREWARM of queue 0, read and not started. -/
def prewarmCmd : Cmd := { idx := 0, bytes := recordedPrewarm, started := false, done := false, failed := false, pages := 0 }

/-- The range that covers page 0. -/
def pageZero : Range := { (default : Range) with pages := 1 }

/-- Queue 0's PREWARM finds its page covered, with no memory port up, while the record of queue 1's SNAPSHOT task has the
number that is to be given next. -/
def prewarmBesideRecord : State := { State.reset with
  pins := { State.reset.pins with poreset := false, pllLocked := true }
  l2 := Bank.empty.set 0 [pageZero]
  queues := (Bank.empty.set 0 { (default : Queue) with st := .running, cmds := [prewarmCmd] }).set 1
    { (default : Queue) with st := .running, task := some { (default : Task) with phase := .snapshot } }
  records := [{ id := State.reset.nextId, note := .snap 1 [], left := [State.reset.nextId + 1], bad := false }] }

/-- The PREWARM's own record takes the number that is in use. No port takes it, and the SNAPSHOT task fails for it (R397). -/
theorem prewarmBesideRecord_stops_queue1 :
    (stateAfter prewarmBesideRecord (exec (.prewarm 0) prewarmBesideRecord)).queue 1 ≠ prewarmBesideRecord.queue 1 := by
  decide +kernel

/-- Refutes O50: its first clause says that a PREWARM whose page is covered leaves every other queue as it was, in any state, and
nothing it asks for keeps `nextId` apart from the numbers of the records under way. With a SNAPSHOT task's record of that
number beside it, the failing write of the PREWARM's record stops the SNAPSHOT task's queue. -/
theorem not_backgroundCommandsComplete : ¬ Obligations.BackgroundCommandsComplete := by
  unfold Obligations.BackgroundCommandsComplete
  intro h
  obtain ⟨prewarm, -⟩ := h prewarmBesideRecord 0 prewarmCmd 0
  obtain ⟨covered, -⟩ := prewarm (by decide +kernel) (by decide +kernel) rfl (by decide +kernel) (by decide +kernel)
    (by decide +kernel)
  obtain ⟨t, ht, -, -, others, -⟩ := covered pageZero (by decide +kernel) (by decide +kernel)
  have hne := prewarmBesideRecord_stops_queue1
  rw [ht] at hne
  exact hne (others 1 (by decide))

end Sys2Proof.Machine
end

section
/-!
PROOFS. What a write through the control port does by the access code of its register (R55-R57).
-/

namespace Sys2Proof.Machine

theorem cpTakes_iff (s : State) : s.cpTakes = true ↔ s.portRuns = true ∧ s.cpWaits.length < 8 := by
  simp [State.cpTakes]

/-- A response goes out when no earlier request is left without one. -/
theorem cpReply_first {s : State} (err : BitVec 2) (v : Word) (h : s.cpWaits = []) :
    s.cpReply err v = { s with out := .cpResponse err v :: s.out } := by
  simp [State.cpReply, State.drive, h]

/-- A response waits behind those of the earlier requests. -/
theorem cpReply_waits {s : State} (err : BitVec 2) (v : Word) (h : s.cpWaits ≠ []) :
    s.cpReply err v = { s with cpWaits := s.cpWaits ++ [some (err, v)] } := by
  simp [State.cpReply, h]

/-- How an access is refused, by its address, its block and the Corridor. -/
theorem cpAnswer_refuses {s : State} {addr : BitVec 24} {err : BitVec 2}
    (h : (0x150000 ≤ addr.toNat ∨ addr.toNat % 4 ≠ 0) ∧ err = 1#2 ∨ addr.toNat < 0x150000 ∧ addr.toNat % 4 = 0 ∧
      s.blockAnswers (addr.toNat / 0x10000) = false ∧ err = 2#2 ∨ s.cpAnswer addr = .timeout ∧ err = 3#2) :
    s.cpAnswer addr ≠ .ok ∧ s.cpAnswer addr ≠ .crosses ∧ cpCode (s.cpAnswer addr) = err := by
  obtain ⟨hbad, rfl⟩ | ⟨hlow, halign, hblock, rfl⟩ | ⟨hto, rfl⟩ := h
  · have ha : s.cpAnswer addr = .decodeErr := by unfold State.cpAnswer; exact if_pos hbad
    simp [ha, cpCode]
  · have ha : s.cpAnswer addr = .notReady := by
      unfold State.cpAnswer
      rw [if_neg (by omega), hblock]
      rfl
    simp [ha, cpCode]
  · simp [hto, cpCode]

/-- An access that is refused is answered without effect (R57). -/
theorem registerWrite_refused {s : State} (mid : BitVec 8) {addr : BitVec 24} (data : Word) (ht : s.cpTakes = true)
    (hok : s.cpAnswer addr ≠ .ok) (hc : s.cpAnswer addr ≠ .crosses) :
    execRegisterWrite mid addr data s = .next (s.cpReply (cpCode (s.cpAnswer addr)) 0#32) := by
  unfold execRegisterWrite State.cpWriteAt
  rw [whenever_pos ht, BitVec.ofNat_toNat, BitVec.setWidth_eq]
  cases ha : s.cpAnswer addr with
  | ok => exact absurd ha hok
  | crosses => exact absurd ha hc
  | decodeErr | notReady | timeout => rfl

/-- A write that the port performs has its effect, and OK is answered. -/
theorem registerWrite_performs {s : State} (mid : BitVec 8) {addr : BitVec 24} (data : Word) (hr : s.portRuns = true)
    (hw : s.cpWaits = []) (ha : s.cpAnswer addr = .ok) :
    execRegisterWrite mid addr data s = .next ((s.cpWrite mid addr.toNat data).drive (.cpResponse 0#2 0#32)) := by
  unfold execRegisterWrite State.cpWriteAt
  rw [whenever_pos ((cpTakes_iff s).2 ⟨hr, by simp [hw]⟩), BitVec.ofNat_toNat, BitVec.setWidth_eq]
  simp [ha, hw]

/-- A full port takes nothing (log 112). -/
theorem registerWrite_full {s : State} (mid : BitVec 8) (addr : BitVec 24) (data : Word) (h : 8 ≤ s.cpWaits.length) :
    execRegisterWrite mid addr data s = .next s := by
  have ht : ¬ s.cpTakes = true := fun ht => by have := ((cpTakes_iff s).1 ht).2; omega
  simp [execRegisterWrite, State.cpWriteAt, whenever, ht]

/-- An access that is not answered ends in TIMEOUT, without effect (log 112). -/
theorem controlPortTimeout_reply {s : State} (mid : BitVec 8) (w : Bool) {addr : BitVec 24} (data : Word)
    (ht : s.cpTakes = true) (ha : s.cpAnswer addr = .timeout) :
    execControlPortTimeout mid w addr data s = .next (s.cpReply 3#2 0#32) := by
  unfold execControlPortTimeout
  exact whenever_pos (by simp [ht, ha]) _ _

/-- A write of an RW register puts its writable bits. -/
theorem cpWrite_rw {s : State} (mid : BitVec 8) {off : Nat} (data m : Word) (hp : s.offPresent off = true)
    (hr : isRwt off = false) (hm : rwMask off = some m) :
    s.cpWrite mid off data = s.putMasked off (m &&& s.presentBits off data) data := by
  simp [State.cpWrite, hp, hr, hm]

/-- A write of a W1C register clears the bits written 1. -/
theorem cpWrite_w1c {s : State} (mid : BitVec 8) {off : Nat} (data m : Word) (hp : s.offPresent off = true)
    (hr : isRwt off = false) (hn : rwMask off = none) (hm : w1cMask off = some m) :
    s.cpWrite mid off data = s.clearBits off (data &&& m) := by
  simp [State.cpWrite, hp, hr, hn, hm]

theorem State.clearBits_reg_same (s : State) (off : Nat) (m : Word) : (s.clearBits off m).reg off = s.reg off &&& ~~~m :=
  s.setReg_reg_same off _

theorem State.clearBits_regsBut (s : State) (off : Nat) (m : Word) : s.regsBut (s.clearBits off m) [off] :=
  fun _ ho => s.setReg_reg_other _ (by simpa using ho)

/-- Settles O27: an access is refused, sent across or performed by the answer to its address; one performed writes its register
by its access code. -/
theorem registerWritesFollowTheAccessCode : Obligations.RegisterWritesFollowTheAccessCode := by
  unfold Obligations.RegisterWritesFollowTheAccessCode
  intro s mid addr data hrun
  refine ⟨fun err herr => ?refused, fun ha hlen => ?crosses, registerWrite_full mid addr data, fun m hw ha hp hr hm => ?rw,
    fun m hw ha hp hr hn hm => ?w1c⟩
  case refused =>
    obtain ⟨hok, hc, hcode⟩ := cpAnswer_refuses herr
    have hroom (h : s.cpWaits.length < 8) := (cpTakes_iff s).2 ⟨hrun, h⟩
    refine ⟨fun hw => ?_, fun hw hlen => ?_, fun h3 w => ?_⟩
    · rw [← cpReply_first err 0#32 hw, ← hcode]
      exact registerWrite_refused mid data (hroom (by simp [hw])) hok hc
    · rw [← cpReply_waits err 0#32 hw, ← hcode]
      exact registerWrite_refused mid data (hroom hlen) hok hc
    · have hto : s.cpAnswer addr = .timeout := by
        subst h3
        simpa using herr
      exact ⟨fun hw => (controlPortTimeout_reply mid w data (hroom (by simp [hw])) hto).trans
          (congrArg Host.Outcome.next (cpReply_first 3#2 0#32 hw)),
        fun hw hlen => (controlPortTimeout_reply mid w data (hroom hlen) hto).trans
          (congrArg Host.Outcome.next (cpReply_waits 3#2 0#32 hw))⟩
  case crosses =>
    have ht := (cpTakes_iff s).2 ⟨hrun, hlen⟩
    refine (cpWriteAt_crosses (off := addr.toNat) mid data (fun s => s.cpWrite mid addr.toNat data) ht
      (by rwa [BitVec.ofNat_toNat, BitVec.setWidth_eq])).trans ?_
    unfold State.cpSend State.corPush
    split <;> rfl
  case rw =>
    refine ⟨_, registerWrite_performs mid data hrun hw ha, ?_⟩
    rw [cpWrite_rw mid data m hp hr hm]
    exact ⟨fun w hw' => hw' ▸ s.putMasked_reg_same _ _ _, s.putMasked_regsBut _ _ _, rfl, rfl⟩
  case w1c =>
    refine ⟨_, registerWrite_performs mid data hrun hw ha, ?_⟩
    rw [cpWrite_w1c mid data m hp hr hn hm]
    exact ⟨s.clearBits_reg_same _ _, s.clearBits_regsBut _ _, rfl, rfl⟩

end Sys2Proof.Machine
end

section
/-!
PROOFS. What the stop of a queue's work (R97, R107) leaves as it is. `Stops s t` says that `t` is `s` but for what a stop changes: the
units drop the queue's work, other stops stay, LDG_RESULT and LDG_EVENTS may tell of a COMMIT that ends.
-/

namespace Sys2Proof.Machine

/-- The status of the fault for which a queue's work stops. -/
def Queue.stopStatus (v : Queue) : Option Byte := v.stop.bind (fun p => p.fault.map (fun f => f.status))

theorem stopsWith_iff (s : State) (q : Nat) (st : Byte) : s.stopsWith q st ↔ (s.queue q).stopStatus = some st := by
  simp only [State.stopsWith, Queue.stopStatus, Option.bind_eq_some_iff, Option.map_eq_some_iff]
  constructor
  · rintro ⟨p, f, hp, hf, hst⟩
    exact ⟨p, hp, f, hf, hst⟩
  · rintro ⟨p, hp, f, hf, hst⟩
    exact ⟨p, f, hp, hf, hst⟩

/-- The Corridor has failed and carries nothing. -/
def State.corridorDead (s : State) : Prop :=
  s.corridor.failed = true ∧ s.corridor.toEast = .empty ∧ s.corridor.toWest = .empty

/-- No unit holds work: `noLaneWork` but for the credits that a reply buffer may owe. -/
def State.noUnitWork (s : State) : Prop :=
  s.itins = [] ∧ s.tiles = [] ∧ s.porter.subs = [] ∧ s.blocks = [] ∧ s.remote.serves = [] ∧ s.readings = []

theorem noLaneWork_iff (s : State) : s.noLaneWork ↔ s.noUnitWork ∧ s.remote.owed = .empty := by
  unfold State.noLaneWork State.noUnitWork
  tauto

/-- What every part of a stop keeps between the state before it and the state after it. -/
structure Stops (s t : State) : Prop where
  stopped : ∀ q st, s.stopsWith q st → t.stopsWith q st
  idle : s.noUnitWork → t.noUnitWork
  owed : t.remote.owed = s.remote.owed
  await : ∀ c, (t.cport c).await = (s.cport c).await
  failed : t.corridor.failed = s.corridor.failed
  dead : s.corridorDead → t.corridorDead
  misses : ∀ m ∈ t.misses, ∃ m' ∈ s.misses, m.east = m'.east ∧ ∀ w ∈ m.waiters, w ∈ m'.waiters
  outs : ∀ o ∈ t.remote.outs, o ∈ s.remote.outs
  regs : s.regsBut t [offLdgResult, offLdgEvents]

theorem Stops.refl (s : State) : Stops s s :=
  ⟨fun _ _ h => h, id, rfl, fun _ => rfl, rfl, id, fun m hm => ⟨m, hm, rfl, fun _ h => h⟩, fun _ h => h, fun _ _ => rfl⟩

theorem Stops.trans {s t u : State} (h : Stops s t) (k : Stops t u) : Stops s u where
  stopped q st hs := k.stopped q st (h.stopped q st hs)
  idle hs := k.idle (h.idle hs)
  owed := k.owed.trans h.owed
  await c := (k.await c).trans (h.await c)
  failed := k.failed.trans h.failed
  dead hs := k.dead (h.dead hs)
  misses m hm := by
    obtain ⟨m', hm', he, hw⟩ := k.misses m hm
    obtain ⟨m'', hm'', he', hw'⟩ := h.misses m' hm'
    exact ⟨m'', hm'', he.trans he', fun w h => hw' w (hw w h)⟩
  outs o ho := h.outs o (k.outs o ho)
  regs off ho := (k.regs off ho).trans (h.regs off ho)

theorem Stops.noLaneWork {s t : State} (h : Stops s t) (hs : s.noLaneWork) : t.noLaneWork := by
  rw [noLaneWork_iff] at *
  exact ⟨h.idle hs.1, h.owed.trans hs.2⟩

theorem Stops.foldl {β : Type} {g : State → β → State} (h : ∀ a x, Stops a (g a x)) (l : List β) (s : State) :
    Stops s (l.foldl g s) := by
  induction l generalizing s with
  | nil => exact .refl s
  | cons x l ih => exact (h s x).trans (ih (g s x))

/-- A queue is written: what stops it stays. -/
theorem Stops.setQueue {s : State} {q : Nat} {v : Queue}
    (h : ∀ st, (s.queue q).stopStatus = some st → v.stopStatus = some st) : Stops s (s.setQueue q v) :=
  { Stops.refl s with
    stopped := by
      intro j st hs
      rw [stopsWith_iff] at *
      by_cases hj : j = q
      · subst hj
        simpa [State.queue, State.setQueue] using h st hs
      · simpa [State.queue, State.setQueue, Bank.get_set_other _ hj] using hs }

theorem Stops.extraFault (s : State) (q : Nat) : Stops s (s.extraFault q) := by
  unfold State.extraFault
  dsimp only
  split
  next p hp => exact .setQueue (fun st h => by simpa [Queue.stopStatus, hp] using h)
  next => exact .refl s

theorem extraFault_remote (s : State) (q : Nat) : (s.extraFault q).remote = s.remote := by
  unfold State.extraFault
  dsimp only
  split <;> rfl

/-- A live Corridor takes an item. -/
theorem Stops.corPush {s : State} (h : s.corridor.failed = false) (toEast : Bool) (cls : Nat) (i : CorItem) :
    Stops s (s.corPush toEast cls i) :=
  { Stops.refl s with
    failed := by unfold State.corPush; dsimp only; split <;> rfl
    dead := fun hd => by simp [State.corridorDead, h] at hd }

/-- The read caches of the lanes are no matter of a stop. -/
theorem Stops.cacheWritten (s : State) (lane pa len : Nat) : Stops s (s.cacheWritten lane pa len) := { Stops.refl s with }

theorem Stops.leavesLane (s : State) (r : Req) : Stops s (s.leavesLane r) := by
  unfold State.leavesLane
  split
  · split
    · exact .refl s
    · exact .cacheWritten s _ _ _
  · exact .refl s

/-- A request that may cross the Corridor finds it live. -/
theorem pathOf_cross {s : State} {r : Req} (h : s.pathOf r = .cross) : s.corridor.failed = false := by
  unfold State.pathOf at h
  by_contra hf
  simp only [Bool.not_eq_false] at hf
  simp only [hf, if_true] at h
  (repeat' split at h) <;> cases h

theorem Stops.sendReq (s : State) (r : Req) (p : ReqPath) (h : p = .cross → s.corridor.failed = false) :
    Stops s (s.sendReq r p) := by
  cases p with
  | hold => exact { Stops.refl s with }
  | enter => exact (Stops.leavesLane s r).trans { Stops.refl _ with }
  | cross =>
    have hl := Stops.leavesLane s r
    exact hl.trans (.corPush (hl.failed.trans (h rfl)) _ _ _)
  | gone | fail _ => exact .refl s

theorem Stops.letGo (s : State) (q : Nat) (r : Req) : Stops s (s.letGo q r) := by
  unfold State.letGo
  split
  · exact .extraFault s q
  · exact .sendReq s _ _ (fun h => pathOf_cross h)

theorem Stops.stopLanes (s : State) (q : Nat) : Stops s (s.stopLanes q) := by
  unfold State.stopLanes
  refine Stops.trans ?_ (.foldl (fun a r => .letGo a q r) _ _)
  exact { Stops.refl s with
    idle := by
      rintro ⟨hi, ht, hp, hb, hs, hr⟩
      exact ⟨by simp [hi], by simp [ht], hp, hb, hs, hr⟩ }

theorem each_empty {α : Type} [Inhabited α] [DecidableEq α] (f : Nat → α → α) : (Bank.empty : Bank α).each f = .empty := rfl

/-- Items taken off a Corridor that carries nothing leave it so. -/
theorem corridorDead_retain {s : State} (keep : CorItem → Bool) (h : s.corridorDead) :
    ({ s with corridor := s.corridor.retain keep } : State).corridorDead := by
  obtain ⟨hf, he, hw⟩ := h
  refine ⟨hf, ?_, ?_⟩
  · simp [Corridor.retain, he, each_empty]
  · simp [Corridor.retain, hw, each_empty]

theorem Stops.retain (s : State) (keep : CorItem → Bool) : Stops s { s with corridor := s.corridor.retain keep } :=
  { Stops.refl s with dead := corridorDead_retain keep }

theorem Stops.stopWaiters (s : State) (q : Nat) : Stops s (s.stopWaiters q) := by
  unfold State.stopWaiters
  refine (Stops.retain s _).trans { Stops.refl _ with misses := ?_ }
  intro m hm
  obtain ⟨m', hm', rfl⟩ := List.mem_map.1 hm
  exact ⟨m', hm', rfl, fun w hw => (List.mem_filter.1 hw).1⟩

theorem Stops.letGoParcel (s : State) (q : Nat) (x : TxParcel) : Stops s (s.letGoParcel q x) := by
  unfold State.letGoParcel
  dsimp only
  split
  · exact { Stops.refl s with }
  · split
    · rw [← extraFault_remote s q]
      exact (Stops.extraFault s q).trans { Stops.refl _ with outs := fun _ ho => (List.mem_filter.1 ho).1 }
    next hf => exact .corPush (by simpa using hf) _ _ _

theorem Stops.stopPorter (s : State) (q : Nat) : Stops s (s.stopPorter q) := by
  unfold State.stopPorter
  refine Stops.trans ?_ (.foldl (fun a x => .letGoParcel a q x) _ _)
  refine (Stops.retain s _).trans { Stops.refl _ with idle := ?_, outs := ?_ }
  · rintro ⟨hi, ht, hp, hb, hs, hr⟩
    exact ⟨hi, ht, congrArg (List.filter _) hp, hb, hs, hr⟩
  · exact fun o ho => (List.mem_filter.1 ho).1

theorem Stops.stopReads (s : State) (q : Nat) : Stops s (s.stopReads q) :=
  { Stops.refl s with
    idle := by
      rintro ⟨hi, ht, hp, hb, hs, hr⟩
      exact ⟨hi, ht, hp, hb, hs, by simp [State.stopReads, hr]⟩ }

theorem Stops.stopPushes (s : State) (q : Nat) : Stops s (s.stopPushes q) :=
  { Stops.refl s with
    idle := by
      rintro ⟨hi, ht, hp, hb, hs, hr⟩
      exact ⟨hi, ht, hp, by simp [State.stopPushes, hb], hs, hr⟩
    await := by
      intro c
      unfold State.stopPushes State.cport
      rw [Bank.get_each _ _ _ rfl] }

theorem Stops.updRing (s : State) (r : Nat) (f : Ring → Ring) : Stops s (s.updRing r f) := { Stops.refl s with }

theorem Stops.setLedger (s : State) (l : Ledger) : Stops s { s with ledger := l } := { Stops.refl s with }

/-- The units' parts of a stop, one after another. -/
theorem Stops.stopWork (s : State) (q : Nat) :
    Stops s (((((s.stopReads q).stopWaiters q).stopPorter q).stopLanes q).stopPushes q) :=
  ((((Stops.stopReads s q).trans (.stopWaiters _ q)).trans (.stopPorter _ q)).trans (.stopLanes _ q)).trans (.stopPushes _ q)

theorem Stops.stopUnits (s : State) (q : Nat) : Stops s (s.stopUnits q) := by
  unfold State.stopUnits
  dsimp only
  generalize ht : (s.taskRings q).foldl (fun a r => a.updRing r Ring.abandon) s = t
  have rings : Stops s t := ht ▸ .foldl (fun a r => .updRing a r _) _ s
  have units := rings.trans (.stopWork t q)
  split
  · exact units.trans (.setLedger _ _)
  · exact units

/-- A register of the Ledger's that tells of a COMMIT. -/
theorem Stops.setReg (s : State) {off : Nat} (v : Word) (h : off ∈ [offLdgResult, offLdgEvents]) :
    Stops s (s.setReg off v) :=
  { Stops.refl s with regs := fun _ ho => s.setReg_reg_other v (fun he => ho (he ▸ h)) }

theorem Stops.commitStopped (s : State) (q : Nat) (st : Byte) : Stops s (s.commitStopped q st) := by
  unfold State.commitStopped
  split
  · exact (Stops.setReg s _ (by simp)).trans (.setReg _ _ (by simp))
  · exact .refl s

theorem Stops.updSnap (s : State) (q : Nat) (idx : BitVec 16) (u : Nat) (f : UnitSnap → UnitSnap) :
    Stops s (s.updSnap q idx u f) := .setQueue (fun _ h => h)

theorem Stops.snapUnits (s : State) (q : Nat) (idx : BitVec 16) : Stops s (s.snapUnits q idx) :=
  .foldl (fun a u => .updSnap a q idx u _) _ _

theorem Stops.snapInstr (s : State) (q : Nat) (idx : BitVec 16) (f : FaultInfo) : Stops s (s.snapInstr q idx f) := by
  unfold State.snapInstr
  split
  · exact .updSnap s q idx 1 _
  · exact .refl s

/-- Snapshots are taken of a queue's units; its state and its stop stay. -/
theorem updSnap_mayFail {s : State} {p q : Nat} (idx : BitVec 16) (u : Nat) (f : UnitSnap → UnitSnap) (h : s.mayFail p) :
    (s.updSnap q idx u f).mayFail p := by
  obtain ⟨hst, hstop⟩ := h
  by_cases hp : p = q
  · subst hp
    simpa [State.mayFail, State.updSnap, State.updQueue, State.queue, State.setQueue] using ⟨hst, hstop⟩
  · simpa [State.mayFail, State.updSnap, State.updQueue, State.queue, State.setQueue, Bank.get_set_other _ hp] using ⟨hst, hstop⟩

theorem foldl_keeps {β : Type} {P : State → Prop} {g : State → β → State} (h : ∀ a x, P a → P (g a x)) (l : List β) {s : State}
    (hs : P s) : P (l.foldl g s) := by
  induction l generalizing s with
  | nil => exact hs
  | cons x l ih => exact ih (h s x hs)

/-- The snapshots that a fault takes leave the queue able to fail. -/
theorem snaps_mayFail {s : State} {q : Nat} (idx : BitVec 16) (f : FaultInfo) (h : s.mayFail q) :
    ((s.snapUnits q idx).snapInstr q idx f).mayFail q := by
  have hu : (s.snapUnits q idx).mayFail q := foldl_keeps (P := fun a => a.mayFail q) (fun a u ha => updSnap_mayFail idx u _ ha) _ h
  unfold State.snapInstr
  split
  · exact updSnap_mayFail idx 1 _ hu
  · exact hu

/-- The queue's work stops, with the fault it stops for. -/
theorem failCmd_stopsWith {s : State} {q : Nat} (idx : BitVec 16) (f : FaultInfo) (h : s.mayFail q) :
    (s.failCmd q idx f).stopsWith q f.status := by
  obtain ⟨hst, hstop⟩ := h
  have hrun : ((s.queue q).st == .running || (s.queue q).st == .suspended) = true := by
    obtain h | h := hst <;> simp [h]
  unfold State.failCmd
  simp only [hstop, hrun, if_true]
  refine (Stops.stopUnits _ q).stopped _ _ ((Stops.commitStopped _ q f.status).stopped _ _ ?_)
  rw [stopsWith_iff]
  simp [State.updQueue, State.setQueue, State.queue, Queue.stopStatus]

theorem Stops.failCmd (s : State) (q : Nat) (idx : BitVec 16) (f : FaultInfo) : Stops s (s.failCmd q idx f) := by
  unfold State.failCmd
  dsimp only
  split
  · exact .extraFault s q
  next hstop =>
    split
    next hrun =>
      have hmay : s.mayFail q := ⟨by simpa using hrun, hstop⟩
      have hnone : (((s.snapUnits q idx).snapInstr q idx f).queue q).stop = none := (snaps_mayFail idx f hmay).2
      refine Stops.trans ?_ (.stopUnits _ q)
      refine Stops.trans ?_ (.commitStopped _ q _)
      refine ((Stops.snapUnits s q idx).trans (.snapInstr _ q idx f)).trans (.setQueue ?_)
      intro st h
      simp [Queue.stopStatus, hnone] at h
    · exact .refl s

theorem Stops.abort (s : State) (q : Nat) (f : FaultInfo) : Stops s (s.abort q f) := .failCmd s q _ f

theorem abort_stopsWith {s : State} {q : Nat} (f : FaultInfo) (h : s.mayFail q) : (s.abort q f).stopsWith q f.status :=
  failCmd_stopsWith _ f h

end Sys2Proof.Machine
end

section
/-!
PROOFS. With no work in the lanes, the Porter and the Expander, nothing goes on when bytes have arrived or writes have landed.
-/

namespace Sys2Proof.Machine

theorem foldl_fixed {α β : Type} {g : α → β → α} {a : α} (h : ∀ x, g a x = a) (l : List β) : l.foldl g a = a := by
  induction l with
  | nil => rfl
  | cons x l ih => rw [List.foldl_cons, h, ih]

theorem freeBlocks_of_no_blocks {s : State} (h : s.blocks = []) : s.freeBlocks = s := by
  cases s
  simp_all [State.freeBlocks]

theorem finishTiles_of_no_tiles {s : State} (h : s.tiles = []) : s.finishTiles = s := by
  simp [State.finishTiles, h]

theorem retireTiles_of_no_tiles {s : State} (ht : s.tiles = []) (hi : s.itins = []) (hr : s.readings = []) :
    s.retireTiles = s := by
  cases s
  simp_all [State.retireTiles]

theorem feed_of_no_subs {s : State} (h : s.porter.subs = []) : s.feed = s :=
  foldl_fixed (fun _ => by simp [h]) _

/-- Credits that were held back go out. -/
theorem payCredits_eq (s : State) (east : Bool) : s.payCredits east =
    { s with remote := { s.remote with owed := (s.payCredits east).remote.owed }, out := (s.payCredits east).out } := by
  unfold State.payCredits
  split
  · rfl
  next hfull =>
    clear hfull
    generalize List.filter _ _ = l
    induction l generalizing s with
    | nil => rfl
    | cons c l ih => exact (ih _).trans rfl

/-- With nothing served the Porters give back the credits owed. -/
theorem serveAll_of_no_serves {s : State} (h : s.remote.serves = []) : s.serveAll =
    { s with remote := { s.remote with owed := s.serveAll.remote.owed }, out := s.serveAll.out } := by
  unfold State.serveAll
  split
  · rfl
  · rw [h]
    simp only [List.length_nil, Nat.mul_zero, List.range_zero, List.foldl_nil]
    rw [payCredits_eq, payCredits_eq s]

/-- Nothing but credits follows where no unit holds work. -/
theorem sweep_of_noUnitWork {s : State} (h : s.noUnitWork) :
    ∃ owed out, s.sweep = { s with remote := { s.remote with owed := owed }, out := out } := by
  obtain ⟨hi, ht, hp, hb, hs, hr⟩ := h
  have hserve : s.sweep = s.serveAll := by
    simp [State.sweep, freeBlocks_of_no_blocks hb, finishTiles_of_no_tiles ht, retireTiles_of_no_tiles ht hi hr, feed_of_no_subs hp]
  rw [hserve]
  exact ⟨_, _, serveAll_of_no_serves hs⟩

/-- Nothing follows where no unit holds work and no credits are owed. -/
theorem sweep_of_noLaneWork {s : State} (h : s.noLaneWork) : s.sweep = s := by
  obtain ⟨hi, ht, hp, hb, hs, ho, hr⟩ := h
  simp [State.sweep, freeBlocks_of_no_blocks hb, finishTiles_of_no_tiles ht, retireTiles_of_no_tiles ht hi hr,
    feed_of_no_subs hp, State.serveAll, hs, ho, Bank.empty]

end Sys2Proof.Machine
end

section
/-!
PROOFS. How slot fills go out through a client port and are acknowledged (R43-R46).
-/

namespace Sys2Proof.Machine

/-- Counting changes the Tally only. -/
theorem count_eq (s : State) (u ev qual n : Nat) : s.count u ev qual n = { s with tally := (s.count u ev qual n).tally } :=
  calc s.count u ev qual n
    _ = { { s.count u ev qual n with tally := s.tally } with tally := (s.count u ev qual n).tally } := rfl
    _ = { s with tally := (s.count u ev qual n).tally } := by rw [count_tally]

@[simp] theorem updCport_same (s : State) (c : Nat) (f : CPort → CPort) : (s.updCport c f).cport c = f (s.cport c) := by
  simp [State.cport, State.updCport]

theorem updCport_other (s : State) {c j : Nat} (f : CPort → CPort) (h : j ≠ c) : (s.updCport c f).cport j = s.cport j := by
  simp [State.cport, State.updCport, Bank.get_set_other _ h]

theorem cportLive_of {s : State} {c : Nat} (ha : s.alive = true) (hc : c < s.cfg.cports) (hu : s.cportUp c = true) :
    s.cportLive c = true := by
  simp [State.cportLive, ha, hc, hu]

/-- The beat at the front goes out (R43, R45). -/
theorem pushBeat_front {s : State} {c b : Nat} {f : Fill} {rest : List Fill} {left : List Nat} (hl : s.cportLive c = true)
    (hf : (s.cport c).fills = f :: rest) (hb : f.beats = b :: left) (hc : 0 < (s.cport c).credits) :
    execPushBeat c s = .next
      (((s.drive (.push c f.ring f.slot b left.isEmpty
          (f.bytes.filter (fun x => decide (b ≤ x.1) && decide (x.1 < b + 512))))).count (unitCport c) 0x01 0 1).updCport c
        (fun v => if left.isEmpty then
            { v with credits := v.credits - 1, fills := rest, await := v.await ++ [{ f with beats := left, begun := true }] }
          else { v with credits := v.credits - 1, fills := { f with beats := left, begun := true } :: rest })) := by
  unfold execPushBeat
  simp only [hf, hb]
  exact whenever_pos (by simp [hl, hc]) _ _

/-- The fill has been answered: nothing waits for its acknowledgement any more. -/
def State.fillAnswered (s : State) (c : Nat) (f : Fill) : State :=
  s.updCport c (fun v => { v with await := v.await.erase f })

theorem fillAnswered_await (s : State) (c : Nat) (f : Fill) :
    ((s.fillAnswered c f).cport c).await = (s.cport c).await.erase f := by
  simp [State.fillAnswered]

theorem fillAnswered_idle {s : State} {c : Nat} {f : Fill} (h : s.noLaneWork) : (s.fillAnswered c f).noLaneWork := h

theorem fillAnswered_mayFail {s : State} {c : Nat} {f : Fill} {q : Nat} (h : s.mayFail q) :
    (s.fillAnswered c f).mayFail q := h

section
variable {s : State} {c : Nat} {ring : BitVec 10} {slot : BitVec 6} {f : Fill}

/-- A fill awaits its answer at a port that is up. -/
def State.awaits (s : State) (c : Nat) (ring : BitVec 10) (slot : BitVec 6) (f : Fill) : Prop :=
  s.cportLive c = true ∧ (s.cport c).await.find? (fun f => f.ring == ring.toNat && f.slot == slot.toNat) = some f

/-- In the wing of the fill's queue its acknowledgement acts at once, and its failure faults the queue (R44, R46). -/
theorem pushLanded_here (h : s.awaits c ring slot f) (he : s.qEast f.q = cportEast c) (err : Bool) :
    execPushLanded c ring slot err s =
      .next (if err then (s.fillAnswered c f).pushFails f.q c else (s.fillAnswered c f).sweep) := by
  unfold execPushLanded
  simp only [h.2]
  refine (whenever_pos h.1 _ _).trans (congrArg Host.Outcome.next (if_pos ?_))
  exact beq_iff_eq.2 he

/-- For the other wing the answer crosses the Corridor, or faults the queue when that has failed (R15, R20). -/
theorem pushLanded_other (h : s.awaits c ring slot f) (he : s.qEast f.q ≠ cportEast c) (err : Bool) :
    execPushLanded c ring slot err s =
      .next (if s.corridor.failed then (s.fillAnswered c f).abort f.q (s.fillAnswered c f).corridorFault
        else (s.fillAnswered c f).corPush (s.qEast f.q) corData
          (if err then .pushFailed f.q f.tile f.ring c else .pushed f.q f.tile f.ring)) := by
  unfold execPushLanded
  simp only [h.2]
  refine (whenever_pos h.1 _ _).trans (congrArg Host.Outcome.next (if_neg ?_))
  exact fun h => he (beq_iff_eq.1 h)

/-- A failure in the lanes' wing faults the queue, and nothing else follows where no unit holds work. -/
theorem pushFails_faults (hidle : s.noLaneWork) {q : Nat} (hmay : s.mayFail q) :
    (s.pushFails q c).stopsWith q stInternal ∧ ((s.pushFails q c).cport c).await = (s.cport c).await := by
  have hstops := Stops.abort s q (s.cportFault c)
  unfold State.pushFails
  rw [sweep_of_noLaneWork (hstops.noLaneWork hidle)]
  exact ⟨abort_stopsWith _ hmay, hstops.await c⟩

end

/-- Settles O33: the beat at the front goes out; the acknowledgement is settled in the queue's wing, or crosses to it. -/
theorem slotFillsGoOutBeatByBeat : Obligations.SlotFillsGoOutBeatByBeat := by
  unfold Obligations.SlotFillsGoOutBeatByBeat
  intro s c ha hc hu
  have hlive := cportLive_of ha hc hu
  refine ⟨fun f rest b left hfills hbeats hcred => ⟨_, pushBeat_front hlive hfills hbeats hcred, ?beat⟩,
    fun f ring slot hf hidle => ?landed⟩
  case beat =>
    rw [count_eq]
    refine ⟨rfl, ?_, fun j hj => updCport_other _ _ hj, rfl⟩
    rw [updCport_same]
    cases left <;> rfl
  case landed =>
    have hw : s.awaits c ring slot f := ⟨hlive, hf⟩
    have hawait := fillAnswered_await s c f
    refine ⟨fun he => ?taken, fun he hmay => ?fails, fun err he => ⟨fun hcor => ?crosses, fun hcor hmay => ?cut⟩⟩
    case taken =>
      exact (pushLanded_here hw he false).trans
        (congrArg Host.Outcome.next ((if_neg Bool.false_ne_true).trans (sweep_of_noLaneWork (fillAnswered_idle hidle))))
    case fails =>
      have hfail := pushFails_faults (c := c) (fillAnswered_idle hidle) (fillAnswered_mayFail (c := c) (f := f) hmay)
      exact ⟨_, (pushLanded_here hw he true).trans (congrArg _ (if_pos rfl)), hfail.1, hfail.2.trans hawait⟩
    case crosses =>
      rw [show exec (.pushLanded c ring slot err) s = _ from pushLanded_other hw he err, hcor]
      rfl
    case cut =>
      refine ⟨_, (pushLanded_other hw he err).trans (congrArg Host.Outcome.next (if_pos hcor)), ?_⟩
      exact ⟨abort_stopsWith _ (fillAnswered_mayFail hmay), ((Stops.abort _ f.q _).await c).trans hawait⟩

end Sys2Proof.Machine
end

section
/-!
PROOFS. How a miss is asked for and answered (R59-R62, R64, R316).
-/

namespace Sys2Proof.Machine

/-- After the stop of a queue begins, no miss waits for work of that queue. -/
def State.noWaiterOf (s : State) (q : Nat) : Prop := ∀ m ∈ s.misses, ∀ w ∈ m.waiters, w.q ≠ q

theorem Stops.noWaiterOf {s t : State} (h : Stops s t) {q : Nat} (hs : s.noWaiterOf q) : t.noWaiterOf q := by
  intro m hm w hw
  obtain ⟨m', hm', -, hsub⟩ := h.misses m hm
  exact hs m' hm' w (hsub w hw)

theorem stopWaiters_noWaiterOf (s : State) (q : Nat) : (s.stopWaiters q).noWaiterOf q := by
  intro m hm w hw
  obtain ⟨m', -, rfl⟩ := List.mem_map.1 hm
  simpa using (List.mem_filter.1 hw).2

theorem stopUnits_noWaiterOf (s : State) (q : Nat) : (s.stopUnits q).noWaiterOf q := by
  unfold State.stopUnits
  dsimp only
  generalize (s.taskRings q).foldl (fun a r => a.updRing r Ring.abandon) s = t
  have work : (((((t.stopReads q).stopWaiters q).stopPorter q).stopLanes q).stopPushes q).noWaiterOf q :=
    (((Stops.stopPorter _ q).trans (.stopLanes _ q)).trans (.stopPushes _ q)).noWaiterOf (stopWaiters_noWaiterOf _ q)
  split
  · exact (Stops.setLedger _ _).noWaiterOf work
  · exact work

/-- A queue that fails takes its waiters out of every miss (R316). -/
theorem failCmd_noWaiterOf {s : State} {q : Nat} (idx : BitVec 16) (f : FaultInfo) (h : s.mayFail q) :
    (s.failCmd q idx f).noWaiterOf q := by
  obtain ⟨hst, hstop⟩ := h
  have hrun : ((s.queue q).st == .running || (s.queue q).st == .suspended) = true := by
    obtain h | h := hst <;> simp [h]
  unfold State.failCmd
  simp only [hstop, hrun, if_true]
  exact stopUnits_noWaiterOf _ q

/-- A command's reading fails: the command does. -/
theorem readFails_command {s : State} {r q : Nat} {idx : BitVec 16} {x : Reading} (ps : List (Nat × Nat)) (f : FaultInfo)
    (hx : s.readings.find? (fun y => y.id == r) = some x) (hw : x.who = .command q idx) :
    s.readFails r ps f = s.failCmd q idx f := by
  simp [State.readFails, hx, hw]

/-- The command whose reading waits for a miss fails with the status the miss ends with. -/
theorem missFails_command {s : State} {r item va len q p : Nat} {acc : BitVec 2} {idx : BitVec 16} {x : Reading} (m : Miss)
    (id : BitVec 9) (st : Byte) (broke : Bool) (hx : s.readings.find? (fun y => y.id == r) = some x)
    (hw : x.who = .command q idx) :
    ∃ f : FaultInfo, f.status = st ∧ s.missFails m id st broke ⟨.reader r item va len, p, acc⟩ = s.failCmd q idx f := by
  unfold State.missFails
  simp only [hx, readFails_command _ _ hx hw]
  exact ⟨_, rfl, rfl⟩

/-- The miss is over. -/
def State.dropMiss (s : State) (m : Miss) : State := { s with misses := s.misses.filter (fun x => x != m) }

theorem Stops.dropMiss (s : State) (m : Miss) : Stops s (s.dropMiss m) :=
  { Stops.refl s with misses := fun m hm => ⟨m, (List.mem_filter.1 hm).1, rfl, fun _ h => h⟩ }

/-- A miss for which a command's reading waits ends with a status: the command fails with it, and the miss is over. -/
theorem missEnds_command {s : State} {m : Miss} {r item va len q : Nat} {acc : BitVec 2} {idx : BitVec 16} {x : Reading}
    (id : BitVec 9) (st : Byte) (broke : Bool) (hm : m.waiters = [⟨.reader r item va len, q, acc⟩])
    (hx : s.readings.find? (fun y => y.id == r) = some x) (hw : x.who = .command q idx) (hq : s.mayFail q) :
    (s.missEnds m id st broke).stopsWith q st ∧ m ∉ (s.missEnds m id st broke).misses ∧
      Stops s (s.missEnds m id st broke) := by
  have hends : s.missEnds m id st broke = (s.dropMiss m).missFails m id st broke ⟨.reader r item va len, q, acc⟩ := by
    simp [State.missEnds, hm, State.dropMiss]
  obtain ⟨f, hf, heq⟩ := missFails_command (s := s.dropMiss m) (p := q) (item := item) (va := va) (len := len) (acc := acc) m id st broke hx hw
  have hqt : (s.dropMiss m).mayFail q := hq
  rw [hends, heq]
  refine ⟨hf ▸ failCmd_stopsWith idx f hqt, fun hmem => ?_, (Stops.dropMiss s m).trans (.failCmd _ q idx f)⟩
  exact failCmd_noWaiterOf idx f hqt m hmem _ (hm ▸ List.mem_singleton_self _) rfl

-- The request.

/-- The first entry that matches stays the one that matches when only it is rewritten. -/
theorem find_map_entry {l : List Miss} {m : Miss} {g : Miss → Miss} {p : Miss → Bool}
    (hm : m ∈ l) (hg : p (g m) = true) (hother : ∀ x ∈ l, x ≠ m → p x = false) :
    (l.map (fun x => if x == m then g x else x)).find? p = some (g m) := by
  induction l with
  | nil => cases hm
  | cons y l ih =>
    by_cases hy : y = m
    · subst hy
      simp [hg]
    · have hml : m ∈ l := (List.mem_cons.1 hm).resolve_left (Ne.symm hy)
      have hpy : p y = false := hother y (List.mem_cons_self ..) hy
      simpa [hy, hpy] using ih hml (fun x hx => hother x (List.mem_cons_of_mem y hx))

/-- The first entry found stays the first when it is rewritten. -/
theorem find_map_found {l : List Miss} {m : Miss} {g : Miss → Miss} {p : Miss → Bool} (hm : l.find? p = some m)
    (hg : p (g m) = true) : (l.map (fun x => if x == m then g x else x)).find? p = some (g m) := by
  induction l with
  | nil => cases hm
  | cons y l ih =>
    by_cases hy : y = m
    · subst hy
      simp [hg]
    · have hpy : p y = false := by
        by_contra h
        simp only [Bool.not_eq_false] at h
        simp [h, hy] at hm
      simpa [hy, hpy] using ih (by simpa [hpy] using hm)

/-- The request of an entry reaches port T. -/
theorem missDriven_some {s : State} {id : BitVec 9} {m : Miss} (h : s.missOf id = some m) :
    s.missDriven id = s.drive (.missReq id m.page m.asid m.acc m.pre) := by
  unfold State.missOf at h
  simp [State.missDriven, h]

/-- The oldest unsent miss of the wing is sent as the entry. -/
def State.missSent (s : State) (m : Miss) (id : BitVec 9) : State :=
  { s with misses := s.misses.map (fun x => if x == m then { x with sent := true, n := BitVec.ofNat 8 (bits id 0 8) } else x) }

theorem missRequest_some {s : State} {id : BitVec 9} {m : Miss} (ha : s.alive = true) (hw : s.cfg.hasWing (bitAt id 8) = true)
    (hc : bitAt id 8 = true → s.corridor.failed = false)
    (hm : s.misses.find? (fun m => m.east == bitAt id 8 && !m.sent) = some m)
    (hfree : ∀ x ∈ s.misses, x.east = bitAt id 8 → x.sent = true → x.n ≠ BitVec.ofNat 8 (bits id 0 8)) :
    execMissRequest id s = .next ((s.missSent m id).missLeaves id) := by
  unfold execMissRequest
  simp only [hm]
  refine whenever_pos ?_ _ _
  have hnone : s.misses.any (fun x => x.east == bitAt id 8 && x.sent && x.n == BitVec.ofNat 8 (bits id 0 8)) = false := by
    rw [List.any_eq_false]
    intro x hx h
    simp only [Bool.and_eq_true, beq_iff_eq] at h
    exact hfree x hx h.1.1 h.1.2 h.2
  rw [hnone]
  cases he : bitAt id 8 <;> simp_all

theorem missSent_missOf {s : State} {id : BitVec 9} {m : Miss}
    (hm : s.misses.find? (fun m => m.east == bitAt id 8 && !m.sent) = some m)
    (hfree : ∀ x ∈ s.misses, x.east = bitAt id 8 → x.sent = true → x.n ≠ BitVec.ofNat 8 (bits id 0 8)) :
    (s.missSent m id).missOf id = some { m with sent := true, n := BitVec.ofNat 8 (bits id 0 8) } := by
  have heast : m.east = bitAt id 8 := by
    have := List.find?_some hm
    simp only [Bool.and_eq_true, beq_iff_eq] at this
    exact this.1
  refine find_map_entry (g := fun x => { x with sent := true, n := BitVec.ofNat 8 (bits id 0 8) })
    (List.mem_of_find?_eq_some hm) (by simp [heast]) (fun x hx hne => ?_)
  have := hfree x hx
  grind

-- The answer.

theorem missResponse_unasked {s : State} {id : BitVec 9} {st : BitVec 2} {vstart : BitVec 44} {len : BitVec 28}
    {pbase : BitVec 40} {perm : BitVec 3} (ha : s.alive = true) (h : s.missOf id = none ∨ s.missCrossing id = true) :
    execMissResponse id st vstart len pbase perm s =
      .next ((s.count (unitXlate (bitAt id 8)) 0x05 0 1).raiseEvent offXltEvents 0) := by
  unfold execMissResponse
  refine (whenever_pos ha _ _).trans (congrArg Host.Outcome.next (if_pos ?_))
  obtain h | h := h <;> simp [h]

/-- An answer that an entry waits for acts in the wing of the miss. -/
theorem missResponse_asked {s : State} {id : BitVec 9} {m : Miss} {st : BitVec 2} {vstart : BitVec 44} {len : BitVec 28}
    {pbase : BitVec 40} {perm : BitVec 3} (ha : s.alive = true) (hm : s.missOf id = some m) (hc : s.missCrossing id = false) :
    execMissResponse id st vstart len pbase perm s =
      .next (if bitAt id 8 then s.corPush true corControl (.missAnswer id st vstart len pbase perm)
        else s.missAnswered id st vstart len pbase perm) := by
  unfold execMissResponse
  refine (whenever_pos ha _ _).trans (congrArg Host.Outcome.next (if_neg ?_))
  simp [hm, hc]

/-- An answer of the West wing acts at once. -/
theorem missResponse_west {s : State} {id : BitVec 9} {m : Miss} {st : BitVec 2} {vstart : BitVec 44} {len : BitVec 28}
    {pbase : BitVec 40} {perm : BitVec 3} (ha : s.alive = true) (hm : s.missOf id = some m) (hc : s.missCrossing id = false)
    (he : bitAt id 8 = false) :
    execMissResponse id st vstart len pbase perm s = .next (s.missAnswered id st vstart len pbase perm) := by
  rw [missResponse_asked ha hm hc, he, if_neg Bool.false_ne_true]

/-- A stale answer is discarded: no invalidation is noted against the miss any more. -/
def State.missRenewed (s : State) (m : Miss) : State :=
  { s with misses := s.misses.map (fun x => if x == m then { x with crossed := [] } else x) }

theorem missAnswered_stale {s : State} {id : BitVec 9} {m : Miss} {st : BitVec 2} {vstart : BitVec 44} {len : BitVec 28}
    {pbase : BitVec 40} {perm : BitVec 3} (hm : s.missOf id = some m) (hs : m.stale st vstart len = true) :
    s.missAnswered id st vstart len pbase perm =
      ((s.missRenewed m).count (unitXlate (bitAt id 8)) 0x05 0 1).missLeaves id := by
  simp [State.missAnswered, hm, hs, State.missRenewed]

theorem missOf_entry {s : State} {id : BitVec 9} {m : Miss} (hm : s.missOf id = some m) :
    (m.sent && m.east == bitAt id 8 && m.n == BitVec.ofNat 8 (bits id 0 8)) = true := by
  unfold State.missOf at hm
  have h := List.find?_some hm
  exact h

theorem missRenewed_missOf {s : State} {id : BitVec 9} {m : Miss} (hm : s.missOf id = some m) :
    (s.missRenewed m).missOf id = some { m with crossed := [] } := by
  have h := missOf_entry hm
  exact find_map_found (g := fun x => { x with crossed := [] }) hm h

/-- An answer that does not say OK ends the miss. -/
theorem missAnswered_refused {s : State} {id : BitVec 9} {m : Miss} {st : BitVec 2} {vstart : BitVec 44} {len : BitVec 28}
    {pbase : BitVec 40} {perm : BitVec 3} (hm : s.missOf id = some m) (hs : m.stale st vstart len = false) (hst : st ≠ 0#2) :
    s.missAnswered id st vstart len pbase perm = s.missEnds m id (missStatus st) false := by
  simp [State.missAnswered, hm, hs, hst]

theorem missTimeout_some {s : State} {id : BitVec 9} {m : Miss} (ha : s.alive = true) (hm : s.missOf id = some m) :
    execMissTimeout id s = .next ((s.raiseEvent offXltEvents 1).missEnds m id stAgentError true) := by
  unfold execMissTimeout
  simp only [hm]
  exact whenever_pos ha _ _

-- An answer that is installed.

/-- An injection may flip a word that is stored: REL_INJECT and the repair state tell of it. -/
theorem stored_eq (s : State) (c : Nat) (east : Bool) (unit : Nat) :
    s.stored c east unit = { s with regs := (s.stored c east unit).regs, rel := (s.stored c east unit).rel } := by
  unfold State.stored
  split <;> rfl

theorem stored_cacheSize (s : State) (c : Nat) (east : Bool) (unit k : Nat) :
    (s.stored c east unit).cacheSize k = s.cacheSize k := by
  unfold State.stored
  split <;> rfl

theorem stored_regsBut (s : State) (c : Nat) (east : Bool) (unit : Nat) : s.regsBut (s.stored c east unit) [offRelInject] := by
  unfold State.stored
  split
  · exact s.clearBits_regsBut _ _
  · exact fun _ _ => rfl

/-- What installing ranges changes. -/
structure Installed (s t : State) : Prop where
  eq : t = { s with l1 := t.l1, l2 := t.l2, regs := t.regs, rel := t.rel }
  regs : s.regsBut t [offRelInject]

theorem Installed.refl (s : State) : Installed s s := ⟨rfl, fun _ _ => rfl⟩

theorem Installed.trans {s t u : State} (h : Installed s t) (k : Installed t u) : Installed s u where
  eq := by rw [k.eq, h.eq]
  regs off ho := (k.regs off ho).trans (h.regs off ho)

theorem installL1_installed (s : State) (g : Nat) (r : Range) : Installed s (s.installL1 g r) where
  eq := by
    unfold State.installL1
    dsimp only
    rw [stored_eq]
  regs := stored_regsBut s _ _ _

theorem installL2_installed (s : State) (east : Bool) (r : Range) : Installed s (s.installL2 east r) where
  eq := by
    unfold State.installL2
    dsimp only
    rw [stored_eq]
  regs := stored_regsBut s _ _ _

theorem installL2_l2 (s : State) (east : Bool) (r : Range) :
    (s.installL2 east r).l2.get (wingNo east) = installIn (s.cacheSize (8 + wingNo east)) r (s.l2.get (wingNo east)) := by
  unfold State.installL2
  dsimp only
  rw [Bank.get_set_same, stored_cacheSize, stored_eq]

theorem installL1s_installed (gs : List Nat) (r : Range) (s : State) :
    Installed s (gs.foldl (fun a g => a.installL1 g r) s) := by
  induction gs generalizing s with
  | nil => exact .refl s
  | cons g gs ih => exact (installL1_installed s g r).trans (ih _)

/-- Installing in the L1s leaves the L2s. -/
theorem installL1s_l2 (gs : List Nat) (r : Range) (s : State) : (gs.foldl (fun a g => a.installL1 g r) s).l2 = s.l2 := by
  induction gs generalizing s with
  | nil => rfl
  | cons g gs ih =>
    refine (ih (s.installL1 g r)).trans ?_
    unfold State.installL1
    rw [stored_eq]

/-- The range an OK answer gives. -/
def Miss.range (m : Miss) (vstart : BitVec 44) (len : BitVec 28) (pbase : BitVec 40) (perm : BitVec 3) : Range :=
  ⟨m.asid, vstart, len.toNat + 1, pbase, perm⟩

/-- An OK answer is installed in the wing's L2 and in the L1s, and covers the tile that waits (R61, R310, R312). -/
theorem missAnswered_ok {s : State} {id : BitVec 9} {m : Miss} {vstart : BitVec 44} {len : BitVec 28} {pbase : BitVec 40}
    {perm : BitVec 3} {x q : Nat} {acc : BitVec 2} (hm : s.missOf id = some m) (hs : m.stale 0#2 vstart len = false)
    (hfit : answerFits m.page vstart len pbase = true) (hw : m.waiters = [⟨.tile x, q, acc⟩])
    (hperm : bitAt perm acc.toNat = true) :
    s.missAnswered id 0#2 vstart len pbase perm =
      ((s.missGroups m).foldl (fun a g => a.installL1 g (m.range vstart len pbase perm))
        ((s.dropMiss m).installL2 m.east (m.range vstart len pbase perm))).updTile x
          (fun t => t.coverBy (acc != accRead) (m.range vstart len pbase perm) t.touched) := by
  have hallow : (m.range vstart len pbase perm).allows acc = true := hperm
  unfold State.missAnswered
  simp only [hm, hs, hfit, bne_self_eq_false, Bool.not_true, Bool.false_eq_true, if_false, hw, List.foldl_cons, List.foldl_nil]
  rw [← Miss.range, State.missTakes, hallow]
  simp [State.missResumes, State.dropMiss, hallow, MissWaiter.isPrewarm]

theorem coverBy_id (t : Tile) (wr : Bool) (r : Range) (ps : List (Bool × Nat)) : (t.coverBy wr r ps).id = t.id := rfl

theorem updTile_tile {s : State} {x : Nat} {f : Tile → Tile} (hf : ∀ t, (f t).id = t.id) {y : Tile} (hy : s.tile x = some y) :
    (s.updTile x f).tile x = some (f y) := by
  have hp : ((fun t : Tile => t.id == x) ∘ fun t => if t.id == x then f t else t) = fun t => t.id == x := by
    funext t
    by_cases h : t.id = x <;> simp [h, hf]
  have hyx : y.id = x := by simpa using List.find?_some (p := fun t : Tile => t.id == x) hy
  unfold State.tile State.updTile at *
  rw [List.find?_map, hp, hy]
  simp [hyx]

/-- Settles O36: a request, an answer and a timeout each act on the one entry of their ID. -/
theorem missesAreAskedAndAnswered : Obligations.MissesAreAskedAndAnswered := by
  unfold Obligations.MissesAreAskedAndAnswered
  intro s id ha
  refine ⟨?asked, fun st vstart len pbase perm => ⟨?discarded, fun m hm hc => ⟨?crosses, ?stale, ?installed, ?fails⟩⟩⟩
  case asked =>
    rintro m l hm hw hfree rfl
    refine ⟨fun he => ?_, fun he hcor => ?_⟩
    · refine (missRequest_some ha hw (by simp [he]) hm hfree).trans ?_
      rw [State.missLeaves, he, missDriven_some (missSent_missOf hm hfree)]
      rfl
    · refine (missRequest_some ha hw (fun _ => hcor) hm hfree).trans ?_
      rw [State.missLeaves, he]
      rfl
  case discarded =>
    intro h
    refine ⟨_, missResponse_unasked ha h, State.raiseEvent_flag_same _ _ _ (by decide), ?_⟩
    rw [count_eq]
    exact ⟨State.raiseEvent_regsBut _ _ _, rfl⟩
  case crosses =>
    intro he
    refine (missResponse_asked ha hm hc).trans ?_
    rw [he]
    rfl
  case stale =>
    intro he hs
    refine ⟨_, missResponse_west ha hm hc he, ?_⟩
    have hans : s.missAnswered id st vstart len pbase perm =
        ((s.missRenewed m).count (unitXlate (bitAt id 8)) 0x05 0 1).drive (.missReq id m.page m.asid m.acc m.pre) := by
      rw [missAnswered_stale hm hs, State.missLeaves, he, if_neg Bool.false_ne_true, count_eq]
      exact missDriven_some (m := { m with crossed := [] }) (missRenewed_missOf hm)
    rw [hans, count_eq]
    exact ⟨rfl, rfl, rfl⟩
  case installed =>
    rintro he hs rfl hfit x acc hwait hperm
    refine ⟨_, missResponse_west ha hm hc he, ?_⟩
    rw [missAnswered_ok hm hs hfit hwait hperm]
    have hin := (installL2_installed (s.dropMiss m) m.east (m.range vstart len pbase perm)).trans
      (installL1s_installed (s.missGroups m) (m.range vstart len pbase perm) _)
    have hl2 := (congrArg (fun l => l.get (wingNo m.east)) (installL1s_l2 (s.missGroups m) (m.range vstart len pbase perm)
      ((s.dropMiss m).installL2 m.east (m.range vstart len pbase perm)))).trans (installL2_l2 _ _ _)
    generalize (s.missGroups m).foldl _ _ = t at hin hl2 ⊢
    refine ⟨congrArg State.misses hin.eq, hl2, fun y hy => updTile_tile (fun t => coverBy_id t _ _ _) ?_, hin.regs, ?_⟩
    · exact (congrArg (fun a => State.tile a x) hin.eq).trans hy
    · rw [hin.eq]
      rfl
  case fails =>
    intro q idx r va len' item acc x hwait hx hwho hq
    refine ⟨fun he hs hst => ?_, ?_⟩
    · obtain ⟨hstop, hmem, -⟩ := missEnds_command id (missStatus st) false hwait hx hwho hq
      exact ⟨_, (missResponse_west ha hm hc he).trans (congrArg _ (missAnswered_refused hm hs hst)), hstop, hmem⟩
    · obtain ⟨hstop, hmem, hkeep⟩ := missEnds_command (s := s.raiseEvent offXltEvents 1) id stAgentError true hwait hx hwho hq
      refine ⟨_, missTimeout_some ha hm, hstop, hmem, ?_⟩
      rw [State.flag, hkeep.regs _ (by decide)]
      exact State.raiseEvent_flag_same s _ _ (by decide)

end Sys2Proof.Machine
end

section
/-!
PROOFS. How the record of a Tally snapshot is read together and written (R396, R397, R404).
-/

namespace Sys2Proof.Machine

-- Records that the ports take at once.

/-- A piece of a record whose port takes writes of the West wing enters that port's arbitration. -/
theorem pathOf_recordReq {s : State} (w : Writer) (rid id pa : Nat) (bytes : List Byte)
    (hup : s.mportUp (s.portFor pa) = true) (heast : mportEast (s.portFor pa) = false) :
    s.pathOf (s.recordReq w rid id pa bytes) = .enter := by
  simp [State.pathOf, State.recordReq, Req.isFinal, hup, heast]

theorem sendPart_recordReq {s : State} (w : Writer) (rid id pa : Nat) (bytes : List Byte)
    (hup : s.mportUp (s.portFor pa) = true) (heast : mportEast (s.portFor pa) = false) :
    s.sendPart (s.recordReq w rid id pa bytes) = { s with waiting := s.waiting ++ [s.recordReq w rid id pa bytes] } := by
  unfold State.sendPart
  rw [pathOf_recordReq w rid id pa bytes hup heast]
  rfl

/-- The request for a numbered piece of a record. -/
def State.pieceReq (s : State) (w : Writer) (rid : Nat) (p : (Nat × List Byte) × Nat) : Req :=
  s.recordReq w rid p.2 p.1.1 p.1.2

/-- Pieces that each wait at their port when they are sent all wait there. -/
theorem foldl_pieces {s : State} {w : Writer} {rid : Nat} {g : State → (Nat × List Byte) × Nat → State}
    {parts : List ((Nat × List Byte) × Nat)}
    (h : ∀ p ∈ parts, ∀ l, g { s with waiting := l } p = { s with waiting := l ++ [s.pieceReq w rid p] }) :
    parts.foldl g s = { s with waiting := s.waiting ++ parts.map (s.pieceReq w rid) } := by
  suffices hl : ∀ l, parts.foldl g { s with waiting := l } = { s with waiting := l ++ parts.map (s.pieceReq w rid) } from
    hl s.waiting
  induction parts with
  | nil => simp
  | cons p parts ih =>
    intro l
    rw [List.foldl_cons, h p (List.mem_cons_self ..) l, ih (fun p hp => h p (List.mem_cons_of_mem _ hp))]
    simp

/-- Every window of a record is one of its numbered pieces. -/
theorem openRecord_piece {s : State} {n : Note} {chunks : List (Nat × List Byte)} {x : Nat × List Byte}
    (hx : x ∈ windowsAll chunks) :
    ∃ id ∈ (List.range (windowsAll chunks).length).map (fun k => s.nextId + 1 + k), (x, id) ∈ (s.openRecord n chunks).2.2 := by
  obtain ⟨k, hk, rfl⟩ := List.getElem_of_mem hx
  refine ⟨s.nextId + 1 + k, by simpa using hk, ?_⟩
  refine List.mem_iff_getElem.2 ⟨k, ?_, ?_⟩
  · simpa [State.openRecord, windowsAll] using hk
  · simp [State.openRecord, windowsAll]

/-- The pieces of an opened record. -/
theorem openRecord_windows {s : State} {n : Note} {chunks : List (Nat × List Byte)} {p : (Nat × List Byte) × Nat}
    (hp : p ∈ (s.openRecord n chunks).2.2) : p.1 ∈ windowsAll chunks :=
  (List.of_mem_zip hp).1

/-- A record whose pieces all wait at their ports is on its way to memory. -/
theorem recordWaits_of_pieces (s : State) (n : Note) (chunks : List (Nat × List Byte)) (w : Writer) :
    ({ (s.openRecord n chunks).1 with
      waiting := s.waiting ++ (s.openRecord n chunks).2.2.map (s.pieceReq w s.nextId) } : State).recordWaits n w.asid w.prio
        chunks := by
  refine ⟨_, List.mem_append_right _ (List.mem_singleton_self _), rfl, rfl, fun x hx => ?_⟩
  obtain ⟨id, hid, hmem⟩ := openRecord_piece (s := s) (n := n) hx
  exact ⟨s.pieceReq w s.nextId (x, id), List.mem_append_right _ (List.mem_map_of_mem hmem), rfl, hid, rfl, rfl, rfl, rfl, rfl⟩

/-- A record whose ports take its pieces waits there. -/
theorem writeRecord_goes {s : State} (n : Note) (w : Writer) {chunks : List (Nat × List Byte)} (h : s.recordGoes chunks) :
    s.writeRecord n w chunks = { (s.openRecord n chunks).1 with
      waiting := s.waiting ++ (s.openRecord n chunks).2.2.map (s.pieceReq w s.nextId) } := by
  refine foldl_pieces (s := (s.openRecord n chunks).1) (w := w) (rid := s.nextId) (fun p hp l => ?_)
  obtain ⟨hup, heast⟩ := h _ (openRecord_windows (n := n) hp)
  exact sendPart_recordReq (s := { (s.openRecord n chunks).1 with waiting := l }) w _ _ _ _ hup heast

/-- The record of a TLY_CTRL snapshot whose ports take it is on its way, in a stream of its own (R396). -/
theorem writeTally_goes {s : State} {k : TallyRec} {pa : Nat}
    (hpa : pa = s.fld offTlyDumpHi 0 20 * 2 ^ 32 + s.fld offTlyDumpLo 6 26 * 64) (hdev : paDevice pa = s.devid)
    (h : s.recordGoes [(pa, s.recordBytes k)]) :
    (s.writeTally k).recordWaits .tally s.stwAsid 1#2 [(pa, s.recordBytes k)] ∧ (s.writeTally k).tally = s.tally ∧
      (s.writeTally k).regs = s.regs := by
  have hgo : s.writeTally k = ({ s.bump with free := s.free + k.lost.length } : State).writeRecord .tally
      ⟨none, s.nextId, s.stwAsid, 1#2⟩ [(pa, s.recordBytes k)] := by
    unfold State.writeTally
    simp only [← hpa, hdev, bne_self_eq_false, Bool.false_eq_true, if_false]
  rw [hgo, writeRecord_goes _ _ (show State.recordGoes { s.bump with free := s.free + k.lost.length } _ from h)]
  exact ⟨recordWaits_of_pieces _ _ _ ⟨none, s.nextId, s.stwAsid, 1#2⟩, rfl, rfl⟩

/-- A record whose address lies on another device is lost (R396). -/
theorem writeTally_lost {s : State} {k : TallyRec}
    (hdev : paDevice (s.fld offTlyDumpHi 0 20 * 2 ^ 32 + s.fld offTlyDumpLo 6 26 * 64) ≠ s.devid) :
    s.writeTally k = (s.raiseEvent offTlyStatus 1).recordDone := by
  unfold State.writeTally
  exact if_pos (bne_iff_ne.2 hdev)

-- The counters of the East units.

theorem foldl_corPush {α : Type} (f : α → CorItem) (l : List α) (s : State) :
    ∃ c, l.foldl (fun a i => a.corPush true corControl (f i)) s = { s with corridor := c } ∧
      c.toEast.get corControl = s.corridor.toEast.get corControl ++ l.map f := by
  induction l generalizing s with
  | nil => exact ⟨s.corridor, rfl, by simp⟩
  | cons x l ih =>
    obtain ⟨c, hc, hget⟩ := ih (s.corPush true corControl (f x))
    refine ⟨c, hc, hget.trans ?_⟩
    simp [State.corPush]

/-- The reader asks for the counters of the East units (R403). -/
theorem askCounters_live {s : State} {k : TallyRec} (hc : s.corridor.failed = false) :
    ∃ c, s.askCounters k = { s with
        tally := { s.tally with record := some { k with left := some (s.eastCounters k) } }, corridor := c } ∧
      c.toEast.get corControl =
        s.corridor.toEast.get corControl ++ (s.eastCounters k).map (.tallyRead s.tally.snapSeq) := by
  unfold State.askCounters
  simp only [hc, Bool.false_eq_true, if_false]
  exact foldl_corPush _ _ _

theorem countersRead_unasked {s : State} {k : TallyRec} (hl : k.left = none) (hks : s.eastCounters k ≠ []) :
    s.countersRead k = false := by
  simp [State.countersRead, hl, hks]

/-- The reader of a TLY_CTRL record goes on. -/
theorem tallyRecord_runs {s : State} {k : TallyRec} (ha : s.alive = true) (hk : s.tally.record = some k) (hq : k.q = none)
    (haway : s.recordAway = false) :
    execTallyRecord s = .next (if s.countersRead k then s.writeTally k else if k.left.isNone then s.askCounters k else s) := by
  unfold execTallyRecord
  simp only [hk]
  exact whenever_pos (by simp [ha, hq, haway]) _ _

/-- The reader of a SNAPSHOT task's record goes on. -/
theorem snapshotTask_runs {s : State} {k : TallyRec} {q : Nat} {task : Task} (ha : s.alive = true)
    (hk : s.tally.record = some k) (hq : k.q = some q) (ht : (s.queue q).task = some task) (hp : task.phase = .snapshot)
    (hs : (s.queue q).stopping = false) (haway : s.recordAway = false) :
    execSnapshotTask q s = .next (if s.countersRead k then s.writeSnap q task k else if k.left.isSome then s
      else if s.corridor.failed then s.failCmd q task.cmd s.corridorFault else s.askCounters k) := by
  unfold execSnapshotTask
  simp only [hk, ht]
  exact whenever_pos (by simp [ha, hq, hp, haway, hs]) _ _

-- The pages of a SNAPSHOT task's record.

/-- Opening a reading takes a number. -/
theorem openReading_eq (s : State) (who : Reader) : (s.openReading who).1 =
    { s with nextId := (s.openReading who).1.nextId, readings := (s.openReading who).1.readings } := by
  unfold State.openReading
  split <;> rfl

theorem openReading_who (s : State) (who : Reader) : (s.openReading who).2.who = who := by
  unfold State.openReading
  split
  next r hr =>
    have h := List.find?_some hr
    exact beq_iff_eq.1 h
  next => rfl

/-- A range found in an L2 becomes its most recently used. -/
theorem lookupL2_some {s t : State} {east : Bool} {asid : BitVec 16} {page : Nat} {r : Range}
    (h : s.lookupL2 east asid page = (t, some r)) : t = { s with l2 := t.l2 } := by
  unfold State.lookupL2 at h
  split at h
  · cases h
    rfl
  · cases h

/-- A page found for the front end was translated, or stands in the L2, whose order of use it changes. -/
theorem lookPage_found {s u : State} {i : Issuer} {acc : BitVec 2} {page item pp : Nat} {who : MissWho}
    (hi : i.holder = .frontEnd) (h : s.lookPage i acc page who item = (u, .found pp)) : u = { s with l2 := u.l2 } := by
  unfold State.lookPage at h
  simp only [hi] at h
  split at h
  · cases h
    rfl
  · split at h
    · cases h
    · split at h
      next t r hl =>
        split at h
        · cases h
        · split at h
          · cases h
          · cases h
            exact lookupL2_some hl
      next => cases h

/-- The reading of a SNAPSHOT task's pages is the front end's. -/
theorem issuer_command {s : State} {r : Reading} {q : Nat} {idx : BitVec 16} (h : r.who = .command q idx) :
    (s.issuer r).holder = .frontEnd := by
  simp [State.issuer, h]

/-- One page of the record is looked up. -/
def State.snapPage (q : Nat) (t : Task) (len : Nat) (r : Reading) (a : State × Option (List (Nat × Nat))) (p : Nat) :
    State × Option (List (Nat × Nat)) :=
  match a with
  | (s, none) => (s, none)
  | (s, some ps) =>
    match s.lookPage (s.issuer r) accWrite p (.reader r.id t.snapVa.toNat t.snapVa.toNat len) t.snapVa.toNat with
    | (u, .found pp) => (u, some (ps ++ [(pp, p)]))
    | (u, .wait) => (u, none)
    | (u, .denied f) => (u.failCmd q t.cmd f, none)

theorem snapPages_eq (s : State) (q : Nat) (t : Task) (len : Nat) :
    s.snapPages q t len = (pagesOf t.snapVa.toNat len).foldl (State.snapPage q t len (s.openReading (.command q t.cmd)).2)
      ((s.openReading (.command q t.cmd)).1, some []) := rfl

/-- Once a page is missing no more are looked up. -/
theorem snapPages_none (q : Nat) (t : Task) (len : Nat) (r : Reading) (s : State) (l : List Nat) :
    l.foldl (State.snapPage q t len r) (s, none) = (s, none) := foldl_fixed (fun _ => rfl) l

/-- When every page is found, only the L2's order of use has changed. -/
theorem snapPages_found {q : Nat} {t : Task} {len : Nat} {r : Reading} (hr : r.who = .command q t.cmd) {l : List Nat} {s u : State}
    {ps pages : List (Nat × Nat)} (h : l.foldl (State.snapPage q t len r) (s, some ps) = (u, some pages)) :
    u = { s with l2 := u.l2 } := by
  induction l generalizing s ps with
  | nil =>
    cases h
    rfl
  | cons p l ih =>
    rw [List.foldl_cons] at h
    generalize ha : State.snapPage q t len r (s, some ps) p = a at h
    obtain ⟨v, o⟩ := a
    cases o with
    | none =>
      rw [snapPages_none] at h
      cases h
    | some qs =>
      have hv : v = { s with l2 := v.l2 } := by
        unfold State.snapPage at ha
        dsimp only at ha
        split at ha
        next w pp hl =>
          cases ha
          exact lookPage_found (issuer_command hr) hl
        next => cases ha
        next => cases ha
      exact (ih h).trans (hv ▸ rfl)

/-- When every page is found, a reading may have been opened and the L2's order of use changed. -/
theorem snapPages_some {s u : State} {q : Nat} {t : Task} {len : Nat} {pages : List (Nat × Nat)}
    (h : s.snapPages q t len = (u, some pages)) :
    u = { s with nextId := u.nextId, readings := u.readings, l2 := u.l2 } := by
  rw [snapPages_eq] at h
  have hu := snapPages_found (openReading_who _ _) h
  rw [openReading_eq] at hu
  rw [hu]

/-- The record of a SNAPSHOT task whose ports take it is on its way with the queue's ASID (R397). -/
theorem sendSnap_goes {s : State} {q va : Nat} {pages : List (Nat × Nat)} {bytes : List Byte}
    (hdev : ∀ c ∈ windowsAll (snapChunks va pages bytes), paDevice c.1 = s.devid)
    (h : s.recordGoes (snapChunks va pages bytes)) :
    s.sendSnap q va pages bytes = { (s.openRecord (.snap q pages) (snapChunks va pages bytes)).1 with
      waiting := s.waiting ++ (s.openRecord (.snap q pages) (snapChunks va pages bytes)).2.2.map
        (s.pieceReq { s.feWriter q with stream := s.nextId } s.nextId) } := by
  refine foldl_pieces (s := (s.openRecord (.snap q pages) (snapChunks va pages bytes)).1)
    (w := { s.feWriter q with stream := s.nextId }) (rid := s.nextId) (fun p hp l => ?_)
  have hw := openRecord_windows (n := .snap q pages) hp
  obtain ⟨hup, heast⟩ := h _ hw
  refine (if_pos (beq_iff_eq.2 (hdev _ hw))).trans ?_
  exact sendPart_recordReq (s := { (s.openRecord (.snap q pages) (snapChunks va pages bytes)).1 with waiting := l })
    { s.feWriter q with stream := s.nextId } _ _ _ _ hup heast

/-- Settles O22: the reader asks for counters, or writes the record it has. -/
theorem tallyRecordsAreWritten : Obligations.TallyRecordsAreWritten := by
  unfold Obligations.TallyRecordsAreWritten
  intro s ha
  refine ⟨?counters, ?tally, ?gone, ?task⟩
  case counters =>
    rintro k q c ks hk hleft rfl hks haway hwho
    have hunread := countersRead_unasked hleft hks
    have hasks : s.corridor.failed = false → exec c s = .next (s.askCounters k) := by
      intro hc
      obtain ⟨hq, rfl⟩ | ⟨hq, rfl, hstop, task, ht, hp⟩ := hwho
      · refine (tallyRecord_runs ha hk hq haway).trans ?_
        simp [hunread, hleft]
      · refine (snapshotTask_runs ha hk hq ht hp hstop haway).trans ?_
        simp [hunread, hleft, hc]
    refine ⟨fun hc => ?_, fun hc hq => ?_⟩
    · obtain ⟨c', heq, hget⟩ := askCounters_live (k := k) hc
      refine ⟨_, hasks hc, ?_⟩
      rw [heq]
      exact ⟨rfl, hget, rfl⟩
    · obtain ⟨-, rfl⟩ | ⟨hq', -⟩ := hwho
      · refine (tallyRecord_runs ha hk hq haway).trans ?_
        simp [hunread, hleft, State.askCounters, hc, State.setRecord]
      · simp [hq] at hq'
  case tally =>
    rintro k pa bytes hk hq hread haway hpa rfl
    refine ⟨s.writeTally k, (tallyRecord_runs ha hk hq haway).trans (congrArg _ (if_pos hread)),
      writeTally_goes hpa, fun hdev => ?_⟩
    rw [writeTally_lost (hpa ▸ hdev)]
    exact ⟨rfl, State.raiseEvent_flag_same _ _ _ (by decide), State.raiseEvent_regsBut _ _ _⟩
  case gone =>
    intro q k hk hq ht
    show execSnapshotTask q s = _
    unfold execSnapshotTask
    simp only [hk, ht]
    exact whenever_pos (by simp [ha, hq]) _ _
  case task =>
    rintro q k task u pages chunks hk hq ht hp hread haway hstop hpages rfl hdev hgo
    refine ⟨s.writeSnap q task k, (snapshotTask_runs ha hk hq ht hp hstop haway).trans (congrArg _ (if_pos hread)), ?_⟩
    have hu := snapPages_some hpages
    have hwrite : s.writeSnap q task k =
        (u.closeReading (.command q task.cmd)).sendSnap q task.snapVa.toNat pages (s.recordBytes k) := by
      simp [State.writeSnap, hpages]
    have hdevid : (u.closeReading (.command q task.cmd)).devid = s.devid := by rw [hu]; rfl
    have hw : ((u.closeReading (.command q task.cmd)).feWriter q) = s.feWriter q := by rw [hu]; rfl
    rw [hwrite, sendSnap_goes (fun c hc => (hdev c hc).trans hdevid.symm) hgo, hw]
    exact ⟨recordWaits_of_pieces (u.closeReading (.command q task.cmd)) _ _ { s.feWriter q with stream := _ }, rfl⟩

end Sys2Proof.Machine
end

section
/-!
PROOFS. How the answers to this device's parcels settle them (R68, R69, R71, R72, R269, R322).
-/

namespace Sys2Proof.Machine

-- The arrival.

/-- Tracing may add to the trace queue or count a packet that is dropped (R399). -/
theorem trace_eq (s : State) (type unit : Nat) (q : Option Nat) (payload : Nat) : s.trace type unit q payload =
    { s with tally := (s.trace type unit q payload).tally, regs := (s.trace type unit q payload).regs } := by
  unfold State.trace
  dsimp only
  split
  · rfl
  · split <;> rfl

theorem trace_regsBut (s : State) (type unit : Nat) (q : Option Nat) (payload : Nat) :
    s.regsBut (s.trace type unit q payload) [offTlyTraceDrop] := by
  unfold State.trace
  dsimp only
  split
  · exact fun _ _ => rfl
  · split
    · exact fun _ ho => s.setReg_reg_other _ (by simpa using ho)
    · exact fun _ _ => rfl

/-- What the arrival of a parcel changes before it acts: its flits are counted and traced, and their credits go back or are owed. -/
structure Arrived (s t : State) (p : Parcel) : Prop where
  eq : t = { s with tally := t.tally, regs := t.regs, remote := { s.remote with owed := t.remote.owed }, out := t.out }
  regs : s.regsBut t [offTlyTraceDrop]
  remote : p.cls = true → t.remote = s.remote

theorem Arrived.trans {s t u : State} {p : Parcel} (h : Arrived s t p) (k : Arrived t u p) : Arrived s u p where
  eq := by rw [k.eq, h.eq]
  regs off ho := (k.regs off ho).trans (h.regs off ho)
  remote hc := (k.remote hc).trans (h.remote hc)

theorem count_arrived (s : State) (u ev qual n : Nat) (p : Parcel) : Arrived s (s.count u ev qual n) p where
  eq := by rw [count_eq]
  regs _ _ := by rw [count_eq]; rfl
  remote _ := by rw [count_eq]

theorem giveCredits_arrived (s : State) (x n : Nat) (p : Parcel) : Arrived s (s.giveCredits x p.cls n) p where
  eq := by
    unfold State.giveCredits
    split <;> rfl
  regs _ _ := by
    unfold State.giveCredits
    split <;> rfl
  remote hc := by
    unfold State.giveCredits
    rw [hc]
    rfl

theorem trace_arrived (s : State) (type unit : Nat) (q : Option Nat) (payload : Nat) (p : Parcel) :
    Arrived s (s.trace type unit q payload) p where
  eq := by rw [trace_eq]
  regs := trace_regsBut s _ _ _ _
  remote _ := by rw [trace_eq]

/-- The flits of a parcel are counted and their credits returned. -/
def State.flitsTaken (s : State) (x : Nat) (p : Parcel) : State :=
  (s.count (unitXport x) 0x02 (oneIf p.cls) (parcelFlits p)).giveCredits x p.cls (parcelFlits p)

theorem flitsTaken_arrived (s : State) (x : Nat) (p : Parcel) : Arrived s (s.flitsTaken x p) p :=
  (count_arrived s _ _ _ _ p).trans (giveCredits_arrived _ x _ p)

/-- A good parcel of its type arrives, and acts. -/
theorem arrive_acts {s : State} {x : Nat} {p : Parcel} {ty : Byte} (f : State → State) (ha : s.xportAlive x = true)
    (hl : s.flag offXportLink x = true) (hb : s.parcelBad p = false) (hty : p.ptype = ty) :
    ∃ t, s.arrive x p ty f = .next (f t) ∧ Arrived s t p := by
  have hu := flitsTaken_arrived s x p
  have hbad : (s.flitsTaken x p).parcelBad p = false := by
    rw [hu.eq]
    exact hb
  refine ⟨(s.flitsTaken x p).trace 6 (unitXport x)
    (if isRequestType p.ptype then none else ((s.flitsTaken x p).outFor p).map (fun o => o.q))
    (parcelPayload x p p.src.toNat true), ?_, hu.trans (trace_arrived _ _ _ _ _ p)⟩
  unfold State.arrive
  refine (whenever_pos (by simp [ha, hl, hty]) _ _).trans (congrArg Host.Outcome.next ?_)
  exact if_neg (by rw [show (State.giveCredits _ _ _ _).parcelBad p = _ from hbad]; exact Bool.false_ne_true)

section
variable {s t : State} {p : Parcel}

theorem Arrived.outFor (h : Arrived s t p) : t.outFor p = s.outFor p := by rw [h.eq]; rfl

theorem Arrived.outEast (h : Arrived s t p) (o : OutParcel) : t.outEast o = s.outEast o := by
  have hw : t.reg (offLdgQwing (o.q / 32)) = s.reg (offLdgQwing (o.q / 32)) := h.regs _ (by
    simp only [offLdgQwing, offTlyTraceDrop, List.mem_singleton]
    omega)
  simp [State.outEast, State.qEast, State.flag, hw]

theorem Arrived.queues (h : Arrived s t p) : t.queues = s.queues := by rw [h.eq]

theorem Arrived.queue (h : Arrived s t p) (q : Nat) : t.queue q = s.queue q := by rw [h.eq]; rfl

theorem Arrived.corridor (h : Arrived s t p) : t.corridor = s.corridor := by rw [h.eq]

theorem Arrived.outs (h : Arrived s t p) : t.remote.outs = s.remote.outs := by rw [h.eq]

theorem Arrived.porter (h : Arrived s t p) : t.porter = s.porter := by rw [h.eq]

theorem Arrived.mayFail (h : Arrived s t p) {q : Nat} (hq : s.mayFail q) : t.mayFail q := by
  unfold State.mayFail
  rw [h.queue]
  exact hq

theorem Arrived.noUnitWork (h : Arrived s t p) (hs : s.noUnitWork) : t.noUnitWork := by rw [h.eq]; exact hs

end

-- The response.

theorem response_unknown {s : State} {x : Nat} {p : Parcel} (h : s.outFor p = none) :
    s.response x p = s.count (unitXport x) 0x04 0 1 := by
  simp [State.response, h]

theorem response_crosses {s : State} {x : Nat} {p : Parcel} {o : OutParcel} (h : s.outFor p = some o)
    (he : s.outEast o ≠ xportEast x) (hc : s.corridor.failed = false) :
    s.response x p = s.corPush (s.outEast o) corParcel (.inbound x o.q p) := by
  simp [State.response, h, he, hc]

theorem response_here {s : State} {x : Nat} {p : Parcel} {o : OutParcel} (h : s.outFor p = some o)
    (he : s.outEast o = xportEast x) : s.response x p = s.answered p := by
  simp [State.response, h, he]

theorem answered_some {s : State} {p : Parcel} {o : OutParcel} (h : s.outFor p = some o) : s.answered p =
    if p.ptype == 0x02#8 then s.replyArrives o p else if p.ptype == 0x05#8 then s.landedArrives o else s.nackArrives o p := by
  simp [State.answered, h]

/-- The instruction of a parcel that answers takes its credits, and then the response acts. -/
theorem answer_arrives {s : State} {x : Nat} {p : Parcel} (ha : s.xportAlive x = true) (hl : s.flag offXportLink x = true)
    (hb : s.parcelBad p = false) {m : Instr}
    (hm : m ∈ (if p.ptype = 0x05#8 then [Instr.rwLanded x p] else if p.ptype = 0x02#8 then [.lkupRsp x p]
      else if p.ptype = 0x06#8 then [.nack x p] else [])) :
    ∃ t, exec m s = .next (t.response x p) ∧ Arrived s t p := by
  split at hm
  next hty =>
    cases List.mem_singleton.1 hm
    exact arrive_acts (fun s => s.response x p) ha hl hb hty
  next =>
    split at hm
    next hty =>
      cases List.mem_singleton.1 hm
      exact arrive_acts (fun s => s.response x p) ha hl hb hty
    next =>
      split at hm
      next hty =>
        cases List.mem_singleton.1 hm
        exact arrive_acts (fun s => s.response x p) ha hl hb hty
      next => cases hm

-- What is noted in a queue.

/-- Snapshots and the progress timer of a queue are written; nothing else is. -/
structure Noted (q : Nat) (s t : State) : Prop where
  eq : t = { s with queues := t.queues }
  stop : (t.queue q).stop = (s.queue q).stop
  st : (t.queue q).st = (s.queue q).st
  others : s.queuesBut t q

theorem Noted.refl (q : Nat) (s : State) : Noted q s s := ⟨rfl, rfl, rfl, fun _ _ => rfl⟩

theorem Noted.trans {q : Nat} {s t u : State} (h : Noted q s t) (k : Noted q t u) : Noted q s u where
  eq := by rw [k.eq, h.eq]
  stop := k.stop.trans h.stop
  st := k.st.trans h.st
  others j hj := (k.others j hj).trans (h.others j hj)

theorem setQueue_noted {s : State} {q : Nat} {v : Queue} (hstop : v.stop = (s.queue q).stop) (hst : v.st = (s.queue q).st) :
    Noted q s (s.setQueue q v) where
  eq := rfl
  stop := by simp [State.setQueue, State.queue, hstop]
  st := by simp [State.setQueue, State.queue, hst]
  others j hj := by simp [State.setQueue, State.queue, Bank.get_set_other _ hj]

theorem progress_noted (s : State) (q : Nat) : Noted q s (s.progress q) := setQueue_noted rfl rfl

theorem streamSnap_noted (s : State) (q stream u : Nat) (f : UnitSnap → UnitSnap) : Noted q s (s.streamSnap q stream u f) := by
  unfold State.streamSnap
  split
  · exact setQueue_noted rfl rfl
  · exact .refl q s

theorem batchProgress_noted (s : State) (o : OutParcel) : Noted o.q s (s.batchProgress o) := by
  unfold State.batchProgress
  split
  · exact progress_noted s o.q
  · exact .refl o.q s

/-- RW_LANDED notes the progress of the queue and takes the parcel off (R71). -/
theorem landedArrives_noted {s : State} {o : OutParcel} (hr : o.record = none) (hidle : s.noUnitWork) :
    ∃ u owed out, Noted o.q s u ∧ s.landedArrives o = { u with
      remote := { s.remote with
        outs := s.remote.outs.filter (fun y => !(y.dst == o.dst && y.pseq == o.pseq)), owed := owed }
      out := out } := by
  have hn : Noted o.q s ((s.batchProgress o).snapDone o.q o.stream 5 1) :=
    (batchProgress_noted s o).trans (streamSnap_noted _ _ _ _ _)
  generalize hu : (s.batchProgress o).snapDone o.q o.stream 5 1 = u at hn
  have hland : s.landedArrives o = (u.dropParcel o).sweep := by
    simp [State.landedArrives, hr, hu]
  have hwork : (u.dropParcel o).noUnitWork := by
    rw [hn.eq]
    exact hidle
  obtain ⟨owed, out, hsweep⟩ := sweep_of_noUnitWork hwork
  refine ⟨u, owed, out, hn, ?_⟩
  rw [hland, hsweep, State.dropParcel, hn.eq]

-- A parcel that is refused or not answered.

theorem outSnap_of_idle {s : State} (h : s.noUnitWork) (o : OutParcel) : s.outSnap o = s := by
  obtain ⟨-, ht, hp, -⟩ := h
  unfold State.outSnap State.subWin State.tile
  rw [ht, hp]
  cases o.sw <;> cases o.tiles.head? <;> simp

/-- With no batch a parcel's failure aborts the task of its queue, with the status of the fault. -/
theorem streamFault_aborts {s : State} (h : s.porter.batches = []) (q stream : Nat) (f : FaultInfo) :
    ∃ g : FaultInfo, g.status = f.status ∧ s.streamFault q stream f = s.abort q g := by
  unfold State.streamFault
  rw [h]
  cases (s.queue q).task with
  | none => exact ⟨f, rfl, rfl⟩
  | some t => exact ⟨_, by split <;> rfl, rfl⟩

theorem Stops.dropParcel (s : State) (o : OutParcel) : Stops s (s.dropParcel o) :=
  { Stops.refl s with outs := fun _ ho => (List.mem_filter.1 ho).1 }

theorem Stops.loseWrites (s : State) (l : List LostWrite) : Stops s (s.loseWrites l) := by
  unfold State.loseWrites
  exact (Stops.retain s _).trans { Stops.refl _ with outs := fun _ ho => (List.mem_filter.1 ho).1 }

/-- Where no unit holds work, what follows leaves the queues and the parcels that wait for an answer. -/
theorem sweep_keeps {s : State} (h : s.noUnitWork) :
    s.sweep.queues = s.queues ∧ s.sweep.remote.outs = s.remote.outs := by
  obtain ⟨owed, out, heq⟩ := sweep_of_noUnitWork h
  rw [heq]
  exact ⟨rfl, rfl⟩

theorem stopsWith_of_queues {s t : State} (h : t.queues = s.queues) {q : Nat} {st : Byte} (hs : s.stopsWith q st) :
    t.stopsWith q st := by
  unfold State.stopsWith State.queue at *
  rwa [h]

/-- A parcel's failure stops its queue; no parcel is sent for it. -/
theorem streamFault_stops {s : State} (hidle : s.noUnitWork) (hb : s.porter.batches = []) {q : Nat} (hq : s.mayFail q)
    (stream : Nat) (f : FaultInfo) :
    (s.streamFault q stream f).sweep.stopsWith q f.status ∧
      ∀ y ∈ (s.streamFault q stream f).sweep.remote.outs, y ∈ s.remote.outs := by
  obtain ⟨g, hg, heq⟩ := streamFault_aborts hb q stream f
  have hkeep := Stops.abort s q g
  obtain ⟨hqueues, houts⟩ := sweep_keeps (hkeep.idle hidle)
  rw [heq, houts, ← hg]
  exact ⟨stopsWith_of_queues hqueues (abort_stopsWith g hq), hkeep.outs⟩

/-- A write parcel that is lost takes the final writes behind it along (R225). -/
def State.parcelLost (s : State) (o : OutParcel) : State :=
  if isWriteParcel o.parcel then s.loseWrites [lostParcel o] else s

theorem Stops.parcelLost (s : State) (o : OutParcel) : Stops s (s.parcelLost o) := by
  unfold State.parcelLost
  split
  · exact .loseWrites s _
  · exact .refl s

theorem parcelLost_queues (s : State) (o : OutParcel) : (s.parcelLost o).queues = s.queues := by
  unfold State.parcelLost
  split <;> rfl

theorem parcelLost_porter (s : State) (o : OutParcel) : (s.parcelLost o).porter = s.porter := by
  unfold State.parcelLost
  split <;> rfl

/-- The parcel that answered or timed out no longer waits. -/
def State.parcelGone (s : State) (o : OutParcel) : Prop := ∀ y ∈ s.remote.outs, y.dst ≠ o.dst ∨ y.pseq ≠ o.pseq

theorem dropParcel_gone (s : State) (o : OutParcel) : (s.dropParcel o).parcelGone o := by
  intro y hy
  have h := (List.mem_filter.1 hy).2
  grind

/-- A parcel that is taken off and whose loss is noted faults its queue. -/
theorem lostParcel_faults {s : State} {o : OutParcel} (hidle : s.noUnitWork) (hb : s.porter.batches = []) (hq : s.mayFail o.q)
    (hgone : s.parcelGone o) (f : FaultInfo) :
    ((s.parcelLost o).streamFault o.q o.stream f).sweep.stopsWith o.q f.status ∧
      ((s.parcelLost o).streamFault o.q o.stream f).sweep.parcelGone o := by
  have hkeep := Stops.parcelLost s o
  have hql : (s.parcelLost o).mayFail o.q := by
    unfold State.mayFail State.queue
    rw [parcelLost_queues]
    exact hq
  obtain ⟨hstop, houts⟩ := streamFault_stops (hkeep.idle hidle) (parcelLost_porter s o ▸ hb) hql o.stream f
  exact ⟨hstop, fun y hy => hgone y (hkeep.outs y (houts y hy))⟩

/-- A NACK faults the queue of its parcel (R72, R322). -/
theorem nackArrives_faults {s : State} {o : OutParcel} (p : Parcel) (hidle : s.noUnitWork) (hb : s.porter.batches = [])
    (hq : s.mayFail o.q) :
    (s.nackArrives o p).stopsWith o.q (if p.status = stAccessKey then stAccessKey else stRemoteNack) ∧
      (s.nackArrives o p).parcelGone o := by
  have hprog : s.batchProgress o = s := by simp [State.batchProgress, hb]
  have hlost := lostParcel_faults (s := s.dropParcel o) (o := o) hidle hb hq (dropParcel_gone s o)
  unfold State.nackArrives State.refused
  rw [hprog, outSnap_of_idle hidle]
  obtain ⟨hstop, hgone⟩ := hlost _
  refine ⟨?_, hgone⟩
  have hst : (if p.status == stAccessKey then stAccessKey else stRemoteNack) =
      if p.status = stAccessKey then stAccessKey else stRemoteNack := by
    simp
  rw [← hst]
  exact hstop

/-- A parcel without a response in time is taken off, and the part of it that has not begun is not sent. -/
def State.parcelDropped (s : State) (o : OutParcel) : State :=
  (s.dropParcel o).updXport o.port (fun v => { v with tx := v.tx.filter (fun t =>
    t.begun || !(t.parcel.dst == o.parcel.dst && t.parcel.pseq == o.pseq && isRequestType t.parcel.ptype)) })

/-- The fault of a parcel without a response (R72). -/
def State.lateFault (s : State) (o : OutParcel) : FaultInfo := { s.fault stRemoteTimeout 0x5#8 with
  detail := BitVec.ofNat 32 o.dst.toNat, pa := BitVec.ofNat 52 o.dst.toNat }

theorem parcelTimeout_some {s : State} {o : OutParcel} (ha : s.alive = true) (hidle : s.noUnitWork) (hq : s.mayFail o.q)
    (ho : s.remote.outs.find? (fun y => y.dst == o.dst && y.pseq == o.pseq) = some o) :
    execParcelTimeout o.dst o.pseq s = .next (((s.parcelDropped o).parcelLost o).streamFault o.q o.stream
      (((s.parcelDropped o).parcelLost o).lateFault o)).sweep := by
  have hrun : ((((s.parcelDropped o).parcelLost o).queue o.q).stopping && isWriteParcel o.parcel) = false := by
    have hnone : (((s.parcelDropped o).parcelLost o).queue o.q).stop = none := by
      unfold State.queue
      rw [parcelLost_queues]
      exact hq.2
    simp [Queue.stopping, hnone]
  unfold execParcelTimeout
  simp only [ho]
  refine (whenever_pos ha _ _).trans (congrArg (fun a => Host.Outcome.next (State.sweep a)) ?_)
  rw [outSnap_of_idle hidle, ← State.parcelDropped]
  exact if_neg (by rw [← State.parcelLost, hrun]; exact Bool.false_ne_true)

/-- A parcel that times out faults its queue (R72). -/
theorem parcelTimeout_faults {s : State} {o : OutParcel} (ha : s.alive = true) (hidle : s.noUnitWork)
    (hb : s.porter.batches = []) (hq : s.mayFail o.q)
    (ho : s.remote.outs.find? (fun y => y.dst == o.dst && y.pseq == o.pseq) = some o) :
    ∃ t, execParcelTimeout o.dst o.pseq s = .next t ∧ t.stopsWith o.q stRemoteTimeout ∧ t.parcelGone o := by
  obtain ⟨hstop, hgone⟩ := lostParcel_faults (s := s.parcelDropped o) (o := o) hidle hb hq (dropParcel_gone s o)
    (((s.parcelDropped o).parcelLost o).lateFault o)
  exact ⟨_, parcelTimeout_some ha hidle hq ho, hstop, hgone⟩

-- A part of a reply.

theorem find_map_same {α : Type} {p : α → Bool} {f : α → α} (hp : ∀ x, p (f x) = p x) (l : List α) :
    (l.map f).find? p = (l.find? p).map f := by
  rw [List.find?_map]
  congr 2
  funext x
  exact hp x

/-- A sub-window that is written reads as written. -/
theorem updSub_subWin {s : State} {k : Nat} {f : SubWin → SubWin} (hf : ∀ w, (f w).id = w.id) {w : SubWin}
    (hw : s.subWin k = some w) : (s.updSub w.id f).subWin k = some (f w) := by
  have hk : w.id = k := by simpa using List.find?_some (p := fun w : SubWin => w.id == k) hw
  unfold State.subWin State.updSub at *
  rw [find_map_same (fun x => by by_cases h : x.id = w.id <;> simp [h, hf]), hw]
  simp

/-- At least one row of at most 8192 bytes goes into a reply (R268). -/
theorem rowsPerReply_pos {rb : Nat} (h : rb ≤ 8192) : 0 < rowsPerReply rb :=
  Nat.div_pos (by omega) (by omega)

/-- A part that holds rows is one of the parts of the reply. -/
theorem part_lt {k r n : Nat} (hr : 0 < r) (h : k * r < n) : ¬ (n + r - 1) / r ≤ k := by
  rw [Nat.not_le, Nat.lt_div_iff_mul_lt hr]
  omega

/-- The rows that a part of a reply brings, by their numbers. -/
def OutParcel.rowsIn (o : OutParcel) (p : Parcel) (b : Batch) : List (Nat × List Byte) :=
  (List.range p.count.toNat).map (fun i =>
    (reqEntry o.parcel (bits p.table 12 4 * rowsPerReply (tbRowBytes b.desc) + i) % 2 ^ 40,
      (p.payload.drop (i * tbRowBytes b.desc)).take (tbRowBytes b.desc)))

/-- The rows of a sub-window take their data, and the queue has progressed. -/
def State.rowsTaken (s : State) (o : OutParcel) (w : SubWin) (got : List (Nat × List Byte)) : State :=
  (s.progress o.q).updSub w.id (fun w => w.take o.dst.toNat got)

/-- A part has come; with the last of `parts` the parcel is settled. -/
def State.partTaken (s : State) (o : OutParcel) (k parts : Nat) : State :=
  if parts ≤ o.parts.length + 1 then (s.snapDone o.q o.stream 5 1).dropParcel o
  else { s with remote := { s.remote with
    outs := s.remote.outs.map (fun x => if x == o then { x with parts := x.parts ++ [k] } else x) } }

/-- A part that is new, of the rows' size and with the rows it should have is taken (R269). -/
theorem replyArrives_part {s : State} {o : OutParcel} {p : Parcel} {k : Nat} {w : SubWin} {b : Batch} (hk : o.sw = some k)
    (hw : s.subWin k = some w) (hb : s.batch w.batch = some b) (hnew : o.parts.contains (bits p.table 12 4) = false)
    (hrb : tbRowBytes b.desc ≤ 8192) (hbytes : p.ebytes.toNat = tbRowBytes b.desc)
    (hcount : p.count.toNat = min (rowsPerReply (tbRowBytes b.desc))
      (o.parcel.count.toNat - bits p.table 12 4 * rowsPerReply (tbRowBytes b.desc)))
    (hpart : bits p.table 12 4 * rowsPerReply (tbRowBytes b.desc) < o.parcel.count.toNat) :
    s.replyArrives o p = (s.rowsTaken o w (o.rowsIn p b)).partTaken o (bits p.table 12 4)
      ((o.parcel.count.toNat + rowsPerReply (tbRowBytes b.desc) - 1) / rowsPerReply (tbRowBytes b.desc)) := by
  have hlt := part_lt (rowsPerReply_pos hrb) hpart
  unfold State.replyArrives
  simp only [hk, Option.bind_some, hw, hb, hnew, Bool.false_eq_true, if_false]
  exact if_neg (by simp [hbytes, ← hcount, hlt])

theorem partTaken_porter (s : State) (o : OutParcel) (k parts : Nat) : (s.partTaken o k parts).porter = s.porter := by
  unfold State.partTaken
  split
  · have h := congrArg State.porter (streamSnap_noted s o.q o.stream 5 (fun p => { p with done := p.done + 1 })).eq
    exact h
  · rfl

theorem partTaken_queue (s : State) (o : OutParcel) (k parts : Nat) :
    ((s.partTaken o k parts).queue o.q).stop = (s.queue o.q).stop ∧ s.queuesBut (s.partTaken o k parts) o.q := by
  unfold State.partTaken
  split
  · have hn := streamSnap_noted s o.q o.stream 5 (fun p => { p with done := p.done + 1 })
    exact ⟨hn.stop, hn.others⟩
  · exact ⟨rfl, fun _ _ => rfl⟩

theorem subWin_of_porter {s t : State} (h : t.porter = s.porter) (k : Nat) : t.subWin k = s.subWin k := by
  unfold State.subWin
  rw [h]

theorem batch_of_porter {s t : State} (h : t.porter = s.porter) (k : Nat) : t.batch k = s.batch k := by
  unfold State.batch
  rw [h]

theorem rowsTaken_subWin {s : State} (o : OutParcel) {k : Nat} {w : SubWin} (got : List (Nat × List Byte))
    (hw : s.subWin k = some w) : (s.rowsTaken o w got).subWin k = some (w.take o.dst.toNat got) :=
  updSub_subWin (s := s.progress o.q) (f := fun w => w.take o.dst.toNat got) (fun _ => rfl) hw

theorem rowsTaken_noted (s : State) (o : OutParcel) (w : SubWin) (got : List (Nat × List Byte)) :
    ((s.rowsTaken o w got).queue o.q).stop = (s.queue o.q).stop ∧ s.queuesBut (s.rowsTaken o w got) o.q :=
  ⟨(progress_noted s o.q).stop, (progress_noted s o.q).others⟩

/-- Settles O40: a response of a good parcel finds the request it answers, crosses to its wing, or settles it there. -/
theorem answersSettleTheirParcels : Obligations.AnswersSettleTheirParcels := by
  unfold Obligations.AnswersSettleTheirParcels
  intro s x p ha hl hb
  refine ⟨fun m hm hcls => ?unsettled, fun o ho heast => ?settled⟩
  case unsettled =>
    obtain ⟨t, hstep, harr⟩ := answer_arrives ha hl hb hm
    refine ⟨fun hnone => ⟨_, hstep, ?_⟩, fun o ho heast hc => ⟨_, hstep, ?_⟩⟩
    · rw [response_unknown (harr.outFor.trans hnone), count_eq]
      exact ⟨harr.remote hcls, harr.queues, harr.regs⟩
    · rw [response_crosses (harr.outFor.trans ho) (by rwa [harr.outEast]) (by rw [harr.corridor]; exact hc), harr.outEast]
      refine ⟨?_, harr.remote hcls, harr.queues, harr.regs⟩
      rw [← harr.corridor]
      cases s.outEast o <;> simp [State.corPush, Corridor.lane]
  case settled =>
    -- The answer acts at once in the wing of its request.
    have hhere : ∀ ty m, p.ptype = ty → exec m s = s.arrive x p ty (fun s => s.response x p) → ∃ t, Arrived s t p ∧
        exec m s = .next (if p.ptype == 0x02#8 then t.replyArrives o p else if p.ptype == 0x05#8 then t.landedArrives o
          else t.nackArrives o p) := by
      intro ty m hty hm
      obtain ⟨t, hstep, harr⟩ := arrive_acts (fun s => s.response x p) ha hl hb hty
      refine ⟨t, harr, hm.trans (hstep.trans (congrArg _ ?_))⟩
      rw [response_here (harr.outFor.trans ho) (by rwa [harr.outEast]), answered_some (harr.outFor.trans ho)]
    refine ⟨fun hty hrec hidle => ?landed, fun hty k w b hk hw hbatch hnew hrb hbytes hcount hpart => ?reply,
      fun hty hq hidle hbatches => ?nack,
      fun hfind hq hidle hbatches => parcelTimeout_faults ?alive ((noLaneWork_iff s).1 hidle).1 hbatches hq hfind⟩
    case landed =>
      obtain ⟨t, harr, hstep⟩ := hhere _ (.rwLanded x p) hty rfl
      obtain ⟨u, owed, out, hn, hland⟩ := landedArrives_noted hrec (harr.noUnitWork ((noLaneWork_iff s).1 hidle).1)
      refine ⟨t.landedArrives o, by simpa [hty] using hstep, ?_⟩
      rw [hland]
      refine ⟨congrArg _ harr.outs, hn.stop.trans (congrArg Queue.stop (harr.queue _)), ?_, fun j hj => ?_, fun off hoff => ?_⟩
      · exact hn.st.trans (congrArg Queue.st (harr.queue _))
      · exact (hn.others j hj).trans (harr.queue j)
      · have hreg : u.reg off = t.reg off := by
          rw [hn.eq]
          rfl
        exact hreg.trans (harr.regs off hoff)
    case reply =>
      obtain ⟨t, harr, hstep⟩ := hhere _ (.lkupRsp x p) hty rfl
      refine ⟨t.replyArrives o p, by simpa [hty] using hstep, ?_⟩
      have hwt := (subWin_of_porter harr.porter k).trans hw
      obtain ⟨htake, hothers⟩ := rowsTaken_noted t o w (o.rowsIn p b)
      rw [replyArrives_part hk hwt ((batch_of_porter harr.porter _).trans hbatch) hnew hrb hbytes hcount hpart]
      obtain ⟨hstop, hbut⟩ := partTaken_queue (t.rowsTaken o w (o.rowsIn p b)) o (bits p.table 12 4)
        ((o.parcel.count.toNat + rowsPerReply (tbRowBytes b.desc) - 1) / rowsPerReply (tbRowBytes b.desc))
      refine ⟨(subWin_of_porter (partTaken_porter _ _ _ _) k).trans (rowsTaken_subWin o _ hwt), fun j hj => ?_, ?_⟩
      · exact ((hbut j hj).trans (hothers j hj)).trans (harr.queue j)
      · exact (hstop.trans htake).trans (congrArg Queue.stop (harr.queue o.q))
    case nack =>
      obtain ⟨t, harr, hstep⟩ := hhere _ (.nack x p) hty rfl
      refine ⟨t.nackArrives o p, by simpa [hty] using hstep, ?_⟩
      exact nackArrives_faults p (harr.noUnitWork ((noLaneWork_iff s).1 hidle).1) (harr.porter ▸ hbatches) (harr.mayFail hq)
    case alive =>
      simp only [State.xportAlive, Bool.and_eq_true] at ha
      exact ha.1

end Sys2Proof.Machine
end

section
/-!
PROOFS. What an item does where it leaves the Corridor (R15, R17-R19, R403).
-/

namespace Sys2Proof.Machine

-- The turn.

/-- While control, or for a lower class semaphore, items wait, no flit of the class crosses (R17). -/
theorem turn_waits {c : Corridor} {toEast : Bool} {cls : BitVec 2} (h0 : cls ≠ 0#2)
    (h : (c.lane toEast).get corControl ≠ [] ∨ (cls ≠ 1#2 ∧ (c.lane toEast).get corSemaphore ≠ [])) :
    c.turn toEast ≠ some cls.toNat := by
  have hc0 : cls.toNat ≠ corControl := fun he => h0 (BitVec.eq_of_toNat_eq he)
  unfold Corridor.turn
  dsimp only
  obtain h | ⟨h1, h⟩ := h
  · simpa [h] using Ne.symm hc0
  · have hc1 : cls.toNat ≠ corSemaphore := fun he => h1 (BitVec.eq_of_toNat_eq he)
    split
    · simpa using Ne.symm hc0
    · simpa [h] using Ne.symm hc1

/-- Only the class whose turn it is crosses. -/
theorem flitArrival_notTurn {s : State} {toEast : Bool} {cls : BitVec 2} (h : s.corridor.turn toEast ≠ some cls.toNat) :
    execCorridorFlitArrival toEast cls s = .next s := by
  unfold execCorridorFlitArrival
  split
  · rfl
  · simp [whenever, h]

/-- The Corridor after one more flit of a class. -/
def State.flitCounted (s : State) (toEast : Bool) (cls : Nat) : State :=
  s.count unitCorridor 0x01 (cls + if toEast then 0 else 8) 1

/-- The oldest item of a direction and class has left the Corridor. -/
def State.itemOff (s : State) (toEast : Bool) (cls : Nat) (rest : List CorItem) : State :=
  let c := (s.corridor.passed toEast cls)
  let c := c.setLane toEast ((c.lane toEast).set cls rest)
  { s.flitCounted toEast cls with corridor := { c with got := c.got.set (corKey toEast cls) 0 } }

section
variable {s : State} {toEast : Bool} {cls : BitVec 2} {i : CorItem} {rest : List CorItem}

/-- What lets a flit of an item cross. -/
def State.crosses (s : State) (toEast : Bool) (cls : BitVec 2) (i : CorItem) (rest : List CorItem) : Prop :=
  s.alive = true ∧ s.corridor.failed = false ∧ (s.corridor.lane toEast).get cls.toNat = i :: rest ∧
    s.corridor.turn toEast = some cls.toNat

theorem flitArrival_runs (h : s.crosses toEast cls i rest) : execCorridorFlitArrival toEast cls s = .next
    (if (s.corridor.passed toEast cls.toNat).got.get (corKey toEast cls.toNat) < i.flits then
      { s.flitCounted toEast cls.toNat with corridor := s.corridor.passed toEast cls.toNat }
    else (s.itemOff toEast cls.toNat rest).corridorDeliver i) := by
  obtain ⟨ha, hf, hl, ht⟩ := h
  unfold execCorridorFlitArrival
  simp only [hl]
  exact whenever_pos (by simp [ha, hf, ht]) _ _

theorem passed_got (c : Corridor) (toEast : Bool) (cls : Nat) :
    (c.passed toEast cls).got.get (corKey toEast cls) = c.got.get (corKey toEast cls) + 1 := by
  simp [Corridor.passed]

theorem flitArrival_more (h : s.crosses toEast cls i rest)
    (hmore : s.corridor.got.get (corKey toEast cls.toNat) + 1 < i.flits) : execCorridorFlitArrival toEast cls s =
      .next { s.flitCounted toEast cls.toNat with corridor := s.corridor.passed toEast cls.toNat } :=
  (flitArrival_runs h).trans (congrArg _ (if_pos (by rwa [passed_got])))

theorem flitArrival_last (h : s.crosses toEast cls i rest)
    (hlast : i.flits ≤ s.corridor.got.get (corKey toEast cls.toNat) + 1) :
    execCorridorFlitArrival toEast cls s = .next ((s.itemOff toEast cls.toNat rest).corridorDeliver i) :=
  (flitArrival_runs h).trans (congrArg _ (if_neg (by rw [passed_got]; omega)))

/-- One more replay of the flit whose turn it is. -/
def Corridor.replayed (c : Corridor) (k : Nat) : Corridor := { c with replays := c.replays.set k (c.replays.get k + 1) }

/-- A flit that fails is sent again while eight replays have not all failed (R20, log 34). -/
theorem replay_again (h : s.crosses toEast cls i rest)
    (hn : s.corridor.replays.get (corKey toEast cls.toNat) < 8) : execCorridorReplay toEast cls s =
      .next (({ s with corridor := s.corridor.replayed (corKey toEast cls.toNat) } : State).count unitCorridor 0x02 0 1) := by
  obtain ⟨ha, hf, -, ht⟩ := h
  unfold execCorridorReplay
  exact (whenever_pos (by simp [ha, hf, ht]) _ _).trans (congrArg _ (if_neg (by omega)))

theorem replay_last (h : s.crosses toEast cls i rest)
    (hn : 8 ≤ s.corridor.replays.get (corKey toEast cls.toNat)) :
    execCorridorReplay toEast cls s = .next s.failCorridor := by
  obtain ⟨ha, hf, -, ht⟩ := h
  unfold execCorridorReplay
  exact (whenever_pos (by simp [ha, hf, ht]) _ _).trans (congrArg _ (if_pos (by omega)))

end

-- The state in which an item arrives.

/-- Counting changes the counters of the Tally only. -/
theorem count_snapshot (s : State) (u ev qual n : Nat) :
    (s.count u ev qual n).tally = { s.tally with occ := (s.count u ev qual n).tally.occ, cnt := (s.count u ev qual n).tally.cnt } := by
  unfold State.count
  split
  · rfl
  next hrun =>
    clear hrun
    generalize List.range 16 = l
    induction l generalizing s with
    | nil => rfl
    | cons k l ih =>
      rw [List.foldl_cons]
      refine (ih _).trans ?_
      split <;> rfl

/-- A state but for the Corridor and the Tally's counters. -/
def State.arriving (s : State) (c : Corridor) (occ cnt : Bank Nat) : State :=
  { s with corridor := c, tally := { s.tally with occ := occ, cnt := cnt } }

/-- When an item has left, nothing but the Corridor and counters has changed. -/
theorem itemOff_eq (s : State) (toEast : Bool) (cls : Nat) (rest : List CorItem) : ∃ c o n,
    s.itemOff toEast cls rest = s.arriving c o n ∧
      (c.lane toEast).get cls = rest ∧ c.failed = s.corridor.failed := by
  refine ⟨(s.itemOff toEast cls rest).corridor, (s.flitCounted toEast cls).tally.occ, (s.flitCounted toEast cls).tally.cnt,
    ?_, ?_, ?_⟩
  · unfold State.itemOff State.flitCounted State.arriving
    rw [count_eq, count_snapshot]
  · cases toEast <;> simp [State.itemOff, Corridor.setLane, Corridor.lane]
  · cases toEast <;> simp [State.itemOff, Corridor.setLane, Corridor.passed]

-- What the items do.

theorem deliver_request {s : State} {r : Req} (hup : s.mportUp r.port = true)
    (hbanks : r.op ≠ 0#3 ∨ s.banksOut r.east ≠ s.cfg.tagBanks) :
    s.corridorDeliver (.request r) = { s with waiting := s.waiting ++ [r] } := by
  show s.enterPort r = _
  unfold State.enterPort
  rw [if_neg (by simpa [imp_iff_not_or] using hbanks), if_pos hup]

theorem deliver_semTake {s : State} {k : Nat} {w : SemWaiter} (h : (s.sem k).poisoned = false) :
    s.corridorDeliver (.semTake k w) = s.semQueue k w := by
  simp [State.corridorDeliver, State.takeArrives, h]

theorem semQueue_sem (s : State) (k : Nat) (w : SemWaiter) :
    ((s.semQueue k w).sem k).waiters = (s.sem k).waiters ++ [w] ∧ s.semsBut (s.semQueue k w) k := by
  refine ⟨by simp [State.semQueue, State.updSem, State.setSem, State.sem], fun j hj => ?_⟩
  simp [State.semQueue, State.updSem, State.setSem, State.sem, Bank.get_set_other _ hj]

theorem movePaired_eq (s : State) (i k : Nat) : s.movePaired i k = { s with rings := (s.movePaired i k).rings } := by
  unfold State.movePaired
  generalize List.filter _ _ = l
  induction l generalizing s with
  | nil => rfl
  | cons c l ih => exact (ih _).trans rfl

/-- An increment moves the HEADs of paired rings, is counted and traced. -/
theorem incNoted_eq (s : State) (i k u ty : Nat) (q : Option Nat) (p : Nat) : ∃ r τ g,
    ((s.movePaired i k).count u 0x01 0 1).trace ty u q p = { s with rings := r, tally := τ, regs := g } := by
  obtain ⟨r, hr⟩ : ∃ r, s.movePaired i k = { s with rings := r } := ⟨_, movePaired_eq s i k⟩
  obtain ⟨t, ht⟩ : ∃ t, (s.movePaired i k).count u 0x01 0 1 = { s.movePaired i k with tally := t } := ⟨_, count_eq _ _ _ _ _⟩
  obtain ⟨τ, g, hg⟩ : ∃ τ g, ((s.movePaired i k).count u 0x01 0 1).trace ty u q p =
      { (s.movePaired i k).count u 0x01 0 1 with tally := τ, regs := g } := ⟨_, _, trace_eq _ _ _ _ _⟩
  refine ⟨r, τ, g, ?_⟩
  rw [hg, ht, hr]

/-- An increment in its turn that does not overflow is added, and the client hears of it unless it is its own (R203, R209). -/
theorem semIncrement_adds {s : State} {k : Nat} {c : BitVec 20} {src : IncSource} (hp : (s.sem k).poisoned = false)
    (ho : (s.turns.get k).overflowed = false) (hc : (s.sem k).count.toNat + c.toNat < 2 ^ 20) :
    ((s.semIncrement k c src).sem k).count = (s.sem k).count + c ∧ s.semsBut (s.semIncrement k c src) k ∧
      (s.semIncrement k c src).queues = s.queues ∧ (s.semIncrement k c src).incsDue =
        if src = .client ∨ (k, none) ∈ s.incsDue then s.incsDue else s.incsDue ++ [(k, some c)] := by
  have hover : s.semOverflows k c = false := by
    have hmax : semMax = 1048575 := rfl
    simp only [State.semOverflows, hp, ho, hmax, Bool.not_false, Bool.true_and, Bool.false_or, decide_eq_false_iff_not]
    omega
  obtain ⟨r, τ, g, heq⟩ := incNoted_eq s k c.toNat (unitSem (semEast k)) 4 src.queue? (semPayload k 0 c.toNat)
  unfold State.semIncrement
  simp only [hp, hover, heq, Bool.false_eq_true, if_false]
  by_cases h : src = .client ∨ (k, none) ∈ s.incsDue
  · rw [if_pos h, if_pos (by simpa [State.setSem] using h)]
    exact ⟨by simp [State.setSem, State.sem], fun j hj => by simp [State.setSem, State.sem, Bank.get_set_other _ hj], rfl, rfl⟩
  · rw [if_neg h, if_neg (by simpa [State.setSem] using h)]
    exact ⟨by simp [State.setSem, State.sem], fun j hj => by simp [State.setSem, State.sem, Bank.get_set_other _ hj], rfl, rfl⟩

theorem deliver_semInc {s : State} {k : Nat} {c : BitVec 20} {src : IncSource} (h : s.outOfTurn k rankInc c = false) :
    s.corridorDeliver (.semInc src k c) = s.semIncrement k c src := by
  simp [State.corridorDeliver, State.inTurn, h]

theorem deliver_access_read {s : State} {a : CpAccess} (h : a.write = none) : s.corridorDeliver (.access a) =
    (s.cpRead a.off).1.corPush false corControl (.accessDone a.tap (s.cpRead a.off).2) := by
  simp [State.corridorDeliver, State.accessRegister, h]

theorem deliver_access_write {s : State} {a : CpAccess} {mid : BitVec 8} {data : Word} (h : a.write = some (mid, data)) :
    s.corridorDeliver (.access a) = (s.cpWrite mid a.off data).corPush false corControl (.accessDone a.tap 0#32) := by
  simp [State.corridorDeliver, State.accessRegister, h]

/-- A response that is there goes out. -/
def State.answerDriven (s : State) (r : Option (BitVec 2 × Word)) : State :=
  match r with
  | some (e, v) => s.drive (.cpResponse e v)
  | none => s

theorem cpFlush_eq (s : State) : s.cpFlush = (s.cpWaits.takeWhile Option.isSome).foldl State.answerDriven
    { s with cpWaits := s.cpWaits.drop (s.cpWaits.takeWhile Option.isSome).length } := rfl

/-- Responses that are all there go out in order. -/
theorem answersDriven (l : List (Option (BitVec 2 × Word))) (hl : l.all Option.isSome = true) (s : State) :
    l.foldl State.answerDriven s =
      { s with out := (l.filterMap id).reverse.map (fun e => .cpResponse e.1 e.2) ++ s.out } := by
  induction l generalizing s with
  | nil => simp
  | cons x l ih =>
    simp only [List.all_cons, Bool.and_eq_true] at hl
    obtain ⟨⟨e, v⟩, rfl⟩ := Option.isSome_iff_exists.1 hl.1
    rw [List.foldl_cons, ih hl.2]
    simp [State.answerDriven, State.drive]

/-- When the oldest access has its answer and the later ones have theirs, all go out in order (R55). -/
theorem cpFlush_all {s : State} (hl : s.cpWaits.all Option.isSome = true) :
    s.cpFlush.cpWaits = [] ∧
      s.cpFlush.out = (s.cpWaits.filterMap id).reverse.map (fun e => .cpResponse e.1 e.2) ++ s.out := by
  have hgo : s.cpWaits.takeWhile Option.isSome = s.cpWaits :=
    List.takeWhile_eq_self_iff.2 (fun x hx => List.all_eq_true.1 hl x hx)
  rw [cpFlush_eq, hgo, answersDriven _ hl]
  exact ⟨List.drop_length, rfl⟩

theorem accessAnswered_port {s : State} {l : List (Option (BitVec 2 × Word))} (err : BitVec 2) (v : Word)
    (h : s.cpWaits = none :: l) (hl : l.all Option.isSome = true) : (s.accessAnswered false err v).cpWaits = [] ∧
      (s.accessAnswered false err v).out =
        (l.filterMap id).reverse.map (fun e => .cpResponse e.1 e.2) ++ .cpResponse err v :: s.out := by
  have hw : answerFirst (err, v) s.cpWaits = some (err, v) :: l := by rw [h, answerFirst]
  obtain ⟨hnone, hout⟩ := cpFlush_all (s := { s with cpWaits := answerFirst (err, v) s.cpWaits }) (by simp [hw, hl])
  refine ⟨hnone, hout.trans ?_⟩
  simp [hw]

theorem counterAnswered_some {s : State} {r : TallyRec} (k : Nat) (h : s.tally.record = some r) :
    (s.counterAnswered s.tally.snapSeq k).tally.record =
      some { r with left := r.left.map (fun l => l.filter (fun j => j != k)) } := by
  simp [State.counterAnswered, h, State.setRecord]

theorem updCmd_queue (s : State) (q : Nat) (idx : BitVec 16) (f : Cmd → Cmd) :
    ((s.updQueue q (fun v => v.updCmd idx f)).queue q).cmds =
        (s.queue q).cmds.map (fun c => if c.idx == idx then f c else c) ∧
      s.queuesBut (s.updQueue q (fun v => v.updCmd idx f)) q := by
  refine ⟨by simp [State.updQueue, State.setQueue, State.queue, Queue.updCmd], fun j hj => ?_⟩
  simp [State.updQueue, State.setQueue, State.queue, Bank.get_set_other _ hj]

-- A request that was rejected.

theorem reqFault_of_idle {s : State} (h : s.noUnitWork) (r : Req) (c : Byte) (pa : Nat) :
    ∃ f : FaultInfo, f.status = c ∧ s.reqFault r c pa = (s, f) := by
  obtain ⟨-, ht, -, hb, -, hr⟩ := h
  have htile : ∀ id, s.tile id = none := fun id => by simp [State.tile, ht]
  unfold State.reqFault
  cases hd : r.dests with
  | nil => exact ⟨_, rfl, by simp [htile]; rfl⟩
  | cons d ds =>
    cases d with
    | tile id off pa len => exact ⟨_, rfl, by simp [htile]; rfl⟩
    | block id off pa len => exact ⟨_, rfl, by simp [hb]; rfl⟩
    | fetch id va pa len item => exact ⟨_, rfl, by simp [hr]; rfl⟩

theorem dropPages_queues (s : State) (asid : BitVec 16) (l : List Nat) :
    ∃ l1 l2, l.foldl (fun a p => a.dropPage asid p) s = { s with l1 := l1, l2 := l2 } := by
  induction l generalizing s with
  | nil => exact ⟨_, _, rfl⟩
  | cons p l ih =>
    obtain ⟨l1, l2, h⟩ := ih (s.dropPage asid p)
    exact ⟨l1, l2, h⟩

/-- A request of a queue's work that no tile, record, parcel or reading stands behind fails the work of its stream. -/
theorem requestFault_stream {s : State} {r : Req} {q : Nat} (hidle : s.noUnitWork) (hrec : r.record = none)
    (hserv : r.service = none) (hfetch : r.fetches = false) (hq : r.q = some q) (f : FaultInfo) :
    s.requestFault r f = s.streamFault q r.stream f := by
  have hsnap : s.reqSnap r = s := by
    have htile : ∀ id, s.tile id = none := fun id => by simp [State.tile, hidle.2.1]
    unfold State.reqSnap
    cases r.tiles.head? <;> simp [htile]
  simp [State.requestFault, hrec, hserv, hfetch, hq, hsnap]

/-- A rejected request faults its queue with the status of the response (R26). -/
theorem rejects_faults {s : State} {r : Req} {st : BitVec 2} {pa q : Nat} (hst : rspStatus st ≠ stEcc)
    (hrec : r.record = none) (hserv : r.service = none) (hfetch : r.fetches = false) (hq : r.q = some q)
    (hmay : s.mayFail q) (hidle : s.noUnitWork) (hb : s.porter.batches = []) :
    (s.rejects r st pa).stopsWith q (rspStatus st) := by
  obtain ⟨f, hf, hfault⟩ := reqFault_of_idle hidle r (rspStatus st) pa
  obtain ⟨l1, l2, hdrop⟩ := dropPages_queues s r.asid (s.reqPages r pa)
  have hne : (rspStatus st == stEcc) = false := by simpa using hst
  have hrej : s.rejects r st pa = (({ s with l1 := l1, l2 := l2 } : State).requestFault r f).sweep := by
    simp [State.rejects, hne, hfault, hdrop]
  have hidle' : ({ s with l1 := l1, l2 := l2 } : State).noUnitWork := hidle
  rw [hrej, requestFault_stream hidle' hrec hserv hfetch hq, ← hf]
  exact (streamFault_stops hidle' hb hmay r.stream f).1

/-- An answer that does not say OK ends its miss when it arrives. -/
theorem deliver_missAnswer_refused {s : State} {id : BitVec 9} {m : Miss} {st : BitVec 2} {vstart : BitVec 44} {len : BitVec 28}
    {pbase : BitVec 40} {perm : BitVec 3} (hm : s.missOf id = some m) (hs : m.stale st vstart len = false) (hst : st ≠ 0#2) :
    s.corridorDeliver (.missAnswer id st vstart len pbase perm) = s.missEnds m id (missStatus st) false :=
  missAnswered_refused hm hs hst

end Sys2Proof.Machine
end

section
/-!
PROOFS. What follows the Corridor's failure (R20). `Severed N s` says that the Corridor is dead, that no East miss is open, that the failure
is noted and that the queues of `N` stop with ST_INTERNAL: whatever the units still do keeps it.
-/

namespace Sys2Proof.Machine

/-- After the Corridor's failure the queues of `N` stop. -/
structure Severed (N : Nat → Prop) (s : State) : Prop where
  dead : s.corridorDead
  west : ∀ m ∈ s.misses, m.east = false
  noted : s.flag offRelEvents 11 = true
  stopped : ∀ q, N q → s.stopsWith q stInternal

section
variable {N : Nat → Prop} {s t : State}

namespace Severed

-- The rules of the state.

theorem failed (h : Severed N s) : s.corridor.failed = true := h.dead.1

theorem of_stops (h : Severed N s) (k : Stops s t) : Severed N t where
  dead := k.dead h.dead
  west m hm := by
    obtain ⟨m', hm', he, -⟩ := k.misses m hm
    exact he.trans (h.west m' hm')
  noted := (congrArg (fun w => bitAt w 11) (k.regs offRelEvents (by decide))).trans h.noted
  stopped q hq := k.stopped q _ (h.stopped q hq)

/-- What touches neither queues, Corridor, misses nor registers. -/
theorem same (h : Severed N s) (hq : t.queues = s.queues) (hc : t.corridor = s.corridor) (hm : t.misses = s.misses)
    (hr : t.regs = s.regs) : Severed N t := by
  refine ⟨?_, hm ▸ h.west, ?_, fun q n => ?_⟩
  · simpa only [State.corridorDead, hc] using h.dead
  · simpa only [State.flag, State.reg, hr] using h.noted
  · simpa only [State.stopsWith, State.queue, hq] using h.stopped q n

theorem ite {c : Prop} [Decidable c] (hs : Severed N s) (ht : Severed N t) : Severed N (if c then s else t) := by
  split <;> assumption

theorem foldl {β : Type} {g : State → β → State} (h : Severed N s) (hg : ∀ a x, Severed N a → Severed N (g a x)) (l : List β) :
    Severed N (l.foldl g s) := foldl_keeps hg l h

theorem foldlFst {β γ : Type} {g : State × γ → β → State × γ} {p : State × γ} (h : Severed N p.1)
    (hg : ∀ a x, Severed N a.1 → Severed N (g a x).1) (l : List β) : Severed N (l.foldl g p).1 := by
  induction l generalizing p with
  | nil => exact h
  | cons x l ih => exact ih (hg p x h)

theorem bump (h : Severed N s) : Severed N s.bump := h.same rfl rfl rfl rfl
theorem tick (h : Severed N s) : Severed N s.tick := h.same rfl rfl rfl rfl
theorem drive (h : Severed N s) (o : Out) : Severed N (s.drive o) := h.same rfl rfl rfl rfl
theorem updLane (h : Severed N s) (l : Nat) (f : Lane → Lane) : Severed N (s.updLane l f) := h.same rfl rfl rfl rfl
theorem updCport (h : Severed N s) (c : Nat) (f : CPort → CPort) : Severed N (s.updCport c f) := h.same rfl rfl rfl rfl
theorem updXport (h : Severed N s) (x : Nat) (f : XPort → XPort) : Severed N (s.updXport x f) := h.same rfl rfl rfl rfl
theorem updItin (h : Severed N s) (k : Nat) (f : Itin → Itin) : Severed N (s.updItin k f) := h.same rfl rfl rfl rfl
theorem updTile (h : Severed N s) (id : Nat) (f : Tile → Tile) : Severed N (s.updTile id f) := h.same rfl rfl rfl rfl
theorem updSub (h : Severed N s) (id : Nat) (f : SubWin → SubWin) : Severed N (s.updSub id f) := h.same rfl rfl rfl rfl
theorem updServe (h : Severed N s) (id : Nat) (f : Serve → Serve) : Severed N (s.updServe id f) := h.same rfl rfl rfl rfl
theorem countOne (h : Severed N s) (u k n : Nat) : Severed N (s.countOne u k n) := h.same rfl rfl rfl rfl
theorem countLoad (h : Severed N s) (k : Nat) (east : Bool) (f : LoadCount → LoadCount) : Severed N (s.countLoad k east f) :=
  h.same rfl rfl rfl rfl
theorem recordDone (h : Severed N s) : Severed N s.recordDone := h.same rfl rfl rfl rfl
theorem setRecord (h : Severed N s) (r : TallyRec) : Severed N (s.setRecord r) := h.same rfl rfl rfl rfl
theorem piecesAway (h : Severed N s) (id : Nat) (ps : List (Nat × Nat)) : Severed N (s.piecesAway id ps) := h.same rfl rfl rfl rfl
theorem forgetParcel (h : Severed N s) (x : TxParcel) : Severed N (s.forgetParcel x) := h.same rfl rfl rfl rfl
theorem freeBlocks (h : Severed N s) : Severed N s.freeBlocks := h.same rfl rfl rfl rfl
theorem openByte (h : Severed N s) : Severed N s.openByte.1 := h.tick

theorem loseWrites (h : Severed N s) (l : List LostWrite) : Severed N (s.loseWrites l) := h.of_stops (.loseWrites s l)
theorem extraFault (h : Severed N s) (q : Nat) : Severed N (s.extraFault q) := h.of_stops (.extraFault s q)
theorem failCmd (h : Severed N s) (q : Nat) (idx : BitVec 16) (f : FaultInfo) : Severed N (s.failCmd q idx f) :=
  h.of_stops (.failCmd s q idx f)
theorem abort (h : Severed N s) (q : Nat) (f : FaultInfo) : Severed N (s.abort q f) := h.of_stops (.abort s q f)

theorem count (h : Severed N s) (u ev qual n : Nat) : Severed N (s.count u ev qual n) := by
  unfold State.count
  exact ite h (h.foldl (fun a k ha => ite (ha.countOne u k n) ha) _)

-- Queues and registers.

/-- A queue is written, and what stops it stays. -/
theorem setQueue (h : Severed N s) (q : Nat) {v : Queue} (hv : v.stop = (s.queue q).stop) : Severed N (s.setQueue q v) :=
  h.of_stops (.setQueue (fun st hs => by simpa only [Queue.stopStatus, hv] using hs))

theorem updQueue (h : Severed N s) (q : Nat) {f : Queue → Queue} (hf : (f (s.queue q)).stop = (s.queue q).stop) :
    Severed N (s.updQueue q f) := h.setQueue q hf

theorem updSnap (h : Severed N s) (q : Nat) (idx : BitVec 16) (u : Nat) (f : UnitSnap → UnitSnap) :
    Severed N (s.updSnap q idx u f) := h.of_stops (.updSnap s q idx u f)

theorem streamSnap (h : Severed N s) (q stream u : Nat) (f : UnitSnap → UnitSnap) : Severed N (s.streamSnap q stream u f) := by
  unfold State.streamSnap
  split
  · exact h.updSnap _ _ _ _
  · exact h

theorem snapIssued (h : Severed N s) (q stream u n : Nat) : Severed N (s.snapIssued q stream u n) := h.streamSnap _ _ _ _
theorem snapDone (h : Severed N s) (q stream u n : Nat) : Severed N (s.snapDone q stream u n) := h.streamSnap _ _ _ _
theorem snapDetail (h : Severed N s) (q stream u : Nat) (d : Word) : Severed N (s.snapDetail q stream u d) := h.streamSnap _ _ _ _

theorem progress (h : Severed N s) (q : Nat) : Severed N (s.progress q) := h.updQueue q rfl

theorem advanceHead (h : Severed N s) (q : Nat) : Severed N (s.advanceHead q) := h.setQueue q rfl

theorem settle (h : Severed N s) (q : Nat) : Severed N (s.settle q) := by
  unfold State.settle
  exact ite (h.setQueue q rfl) h

theorem closeCmd (h : Severed N s) (q : Nat) (idx : BitVec 16) : Severed N (s.closeCmd q idx) :=
  (((h.updQueue q rfl).progress q).advanceHead q).settle q

/-- A register of another unit is written. -/
theorem setReg (h : Severed N s) {off : Nat} (v : Word) (ho : off ≠ offRelEvents) : Severed N (s.setReg off v) :=
  { dead := h.dead, west := h.west, stopped := h.stopped
    noted := (congrArg (fun w => bitAt w 11) (s.setReg_reg_other v ho.symm)).trans h.noted }

theorem raiseEvent (h : Severed N s) (off i : Nat) : Severed N (s.raiseEvent off i) := by
  by_cases ho : off = offRelEvents
  · subst ho
    refine { dead := h.dead, west := h.west, stopped := h.stopped, noted := ?_ }
    simp [State.raiseEvent_flag, h.noted]
  · exact h.setReg _ ho

theorem raiseQueue (h : Severed N s) (q i : Nat) : Severed N (s.raiseQueue q i) := h.raiseEvent _ i

theorem stored (h : Severed N s) (c : Nat) (east : Bool) (unit : Nat) : Severed N (s.stored c east unit) := by
  unfold State.stored
  refine ite ?_ h
  exact (h.setReg (off := offRelInject) _ (by decide)).same rfl rfl rfl rfl

theorem trace (h : Severed N s) (ty u : Nat) (q : Option Nat) (p : Nat) : Severed N (s.trace ty u q p) := by
  unfold State.trace
  exact ite h (ite (h.setReg _ (by decide)) (h.same rfl rfl rfl rfl))

theorem endCmd (h : Severed N s) (q : Nat) (c : Cmd) : Severed N (s.endCmd q c) := (h.trace _ _ _ _).closeCmd q _

end Severed

end

end Sys2Proof.Machine
end

section
/-!
PROOFS. After the Corridor's failure (R20): the faults, the requests and the parcels of the work that goes on.
-/

namespace Sys2Proof.Machine

section
variable {N : Nat → Prop} {s t : State}

namespace Severed

-- The faults of a stream's work.

theorem porterSnap (h : Severed N s) (t : Tile) : Severed N (s.porterSnap t) := ite h (h.snapDetail _ _ _ _)

theorem outSnap (h : Severed N s) (o : OutParcel) : Severed N (s.outSnap o) := by
  unfold State.outSnap
  refine ite h ?_
  split
  · exact h.snapDetail _ _ _ _
  · exact h.porterSnap _
  · exact h

theorem reqSnap (h : Severed N s) (r : Req) : Severed N (s.reqSnap r) := by
  unfold State.reqSnap
  split
  · exact h.porterSnap _
  · exact h

theorem streamFault (h : Severed N s) (q stream : Nat) (f : FaultInfo) : Severed N (s.streamFault q stream f) := by
  unfold State.streamFault
  split
  · exact h.failCmd _ _ _
  · exact h.abort _ _
  · exact h.abort _ _

theorem outFails (h : Severed N s) (o : OutParcel) (f : FaultInfo) : Severed N (s.outFails o f) := (h.outSnap o).streamFault _ _ _

-- Parcels.

theorem parcelFails (h : Severed N s) (x : TxParcel) (f : FaultInfo) : Severed N (s.parcelFails x f) := by
  unfold State.parcelFails
  split
  · exact (h.outFails _ _).forgetParcel _
  · exact h.streamFault _ _ _
  · exact h.forgetParcel _

/-- No parcel enters the Corridor that has failed. -/
theorem enqueueParcel (h : Severed N s) (east : Bool) (x : TxParcel) : Severed N (s.enqueueParcel east x) := by
  unfold State.enqueueParcel
  refine ite (h.forgetParcel x) (ite (h.updXport _ _) ?_)
  rw [if_pos h.failed]
  exact h.parcelFails x _

theorem sendResponse (h : Severed N s) (x : Nat) (r : Parcel) : Severed N (s.sendResponse x r) := ite (h.enqueueParcel _ _) h

theorem respond (h : Severed N s) (x : Nat) (p : Parcel) (ptype status : Byte) : Severed N (s.respond x p ptype status) :=
  h.sendResponse _ _

theorem nackServe (h : Severed N s) (id : Nat) (st : Byte) : Severed N (s.nackServe id st) := by
  unfold State.nackServe
  split
  · exact h
  next v hv =>
    have hgone : Severed N { s with
      remote := { s.remote with serves := s.remote.serves.filter (fun x => x.id != id) }
      readings := s.readings.filter (fun r => r.who != .serve id) } := h.same rfl rfl rfl rfl
    exact ite hgone (hgone.respond _ _ _ _)

theorem nackService (h : Severed N s) (id : Nat) (st : Byte) : Severed N (s.nackService id st) := by
  unfold State.nackService
  split
  · exact h
  next w hw =>
    have hgone : Severed N { s with remote := { s.remote with service := s.remote.service.filter (fun v => v.id != id) } } :=
      h.same rfl rfl rfl rfl
    exact ite hgone (hgone.respond _ _ _ _)

-- Records.

theorem noteActs (h : Severed N s) (n : Note) (bad : Bool) : Severed N (s.noteActs n bad) := by
  cases n with
  | done q irq marker =>
    have hdone : Severed N (if irq then (if bad then s.raiseQueue q 5 else s).raiseQueue q 0 else if bad then s.raiseQueue q 5 else s) :=
      ite ((ite (h.raiseQueue q 5) h).raiseQueue q 0) (ite (h.raiseQueue q 5) h)
    unfold State.noteActs
    dsimp only
    split
    · exact ite (hdone.endCmd _ _) hdone
    · exact hdone
  | fault q => exact ite (h.raiseQueue q 4) h
  | log _ => exact ite (h.raiseEvent _ 2) h
  | load => exact h.raiseEvent _ _
  | tally => exact (h.raiseEvent _ _).recordDone
  | snap q _ => exact ite h.recordDone (h.recordDone.updQueue q rfl)
  | reply hole pa => exact ite h (h.same rfl rfl rfl rfl)

theorem recordPart (h : Severed N s) (rid id : Nat) (bad : Bool) : Severed N (s.recordPart rid id bad) := by
  unfold State.recordPart
  split
  · exact h
  · refine ite (noteActs ?_ _ _) ?_ <;> exact h.same rfl rfl rfl rfl

theorem recordFails (h : Severed N s) (rid id : Nat) (f : FaultInfo) : Severed N (s.recordFails rid id f) := by
  unfold State.recordFails
  split
  · split
    · refine failCmd (recordDone ?_) _ _ _
      exact h.same rfl rfl rfl rfl
    · exact h.recordPart _ _ _
  · exact h

-- Reads and requests.

theorem readFails (h : Severed N s) (id : Nat) (pieces : List (Nat × Nat)) (f : FaultInfo) : Severed N (s.readFails id pieces f) := by
  unfold State.readFails
  split
  · exact h
  · split
    · exact h.failCmd _ _ _
    · split
      · exact h
      · exact (ite h (h.snapDetail _ _ _ _)).failCmd _ _ _
    · split
      · exact h.abort _ _
      · exact h
    · exact h.nackServe _ _
    all_goals exact h.same rfl rfl rfl rfl

theorem requestFault (h : Severed N s) (r : Req) (f : FaultInfo) : Severed N (s.requestFault r f) := by
  unfold State.requestFault
  split
  · exact h.recordFails _ _ _
  · exact h.nackService _ _
  · refine ite (ite (h.foldl (fun a id ha => ha.readFails _ _ _) _) ?_) ?_
    · split
      · exact h.extraFault _
      · exact h
    · split
      · exact (h.reqSnap r).streamFault _ _ _
      · exact h

theorem requestsFault (h : Severed N s) (rs : List Req) (f : State → FaultInfo) : Severed N (s.requestsFault rs f) :=
  h.foldl (fun a r ha => ha.requestFault r (f a)) _

theorem leavesLane (h : Severed N s) (r : Req) : Severed N (s.leavesLane r) := h.of_stops (.leavesLane s r)

/-- No request enters the Corridor that has failed. -/
theorem submit (h : Severed N s) (r : Req) : Severed N (s.submit r) := by
  unfold State.submit
  split
  · exact h.requestFault _ _
  · exact h.of_stops (.sendReq s r _ (fun hp => pathOf_cross hp))

theorem enterPort (h : Severed N s) (r : Req) : Severed N (s.enterPort r) :=
  ite (h.requestFault _ _) (ite (h.same rfl rfl rfl rfl) (h.requestFault _ _))

theorem readDests (h : Severed N s) (ds : List Dest) (crossed : Bool) : Severed N (s.readDests ds crossed) := by
  refine h.foldl (fun a w ha => ?_) _
  dsimp only
  split
  · exact ha
  · exact ite (ha.bump.enterPort _) (ha.bump.submit _)

theorem remoteParcel (h : Severed N s) {rem : Remote} {o : OutParcel} {x : TxParcel} (held : Option Nat) : Severed N
    (if held.isSome then ({ s.bump with remote := rem } : State).updXport x.port (fun v => { v with tx := v.tx ++ [x] })
    else ({ s.bump with remote := rem } : State).enqueueParcel (State.outEast { s.bump with remote := rem } o) x) := by
  have hout : Severed N { s.bump with remote := rem } := h.same rfl rfl rfl rfl
  exact ite (hout.updXport _ _) (hout.enqueueParcel _ _)

theorem remoteWrite (h : Severed N s) (q stream : Nat) (final : Bool) (held : Option Nat) (bytes : List (Nat × Byte))
    (tiles : List Nat) (record : Option (Nat × Nat)) : Severed N (s.remoteWrite q stream final held bytes tiles record) := by
  unfold State.remoteWrite
  split
  · exact h
  · refine ite (streamFault ?_ _ _ _) ?_
    · split
      · exact h.porterSnap _
      · exact h
    · refine h.foldl (fun a r ha => ?_) _
      dsimp only
      generalize hload : List.foldl _ (a, ([] : List Byte)) _ = p
      have hp : Severed N p.1 := by
        rw [← hload]
        refine foldlFst (p := (a, [])) ha (fun b i hb => ?_) _
        split
        · exact hb
        · exact hb.openByte
      exact hp.remoteParcel held

theorem writeReq (h : Severed N s) (q stream : Nat) (holder : Holder) (op : BitVec 3) (final : Bool) (held : Option Nat)
    (bytes : List (Nat × Byte)) (tiles : List Nat) (row : Option RowPart) :
    Severed N (s.writeReq q stream holder op final held bytes tiles row) := by
  unfold State.writeReq
  split
  · exact h
  · exact ite (h.remoteWrite _ _ _ _ _ _ _) (h.bump.submit _)

end Severed

end

end Sys2Proof.Machine
end

section
/-!
PROOFS. After the Corridor's failure (R20): translation, reads and what is served.
-/

namespace Sys2Proof.Machine

section
variable {N : Nat → Prop} {s t : State}

namespace Severed

theorem of_fst {β : Type} {p : State × β} {b : β} (hp : p = (t, b)) (h : Severed N p.1) : Severed N t := by
  subst hp
  exact h

-- Translation.

theorem waiterFails (h : Severed N s) (w : MissWaiter) (f : FaultInfo) : Severed N (s.waiterFails w f) := by
  unfold State.waiterFails
  split
  · split
    · exact (h.porterSnap _).streamFault _ _ _
    · exact h
  · exact h.readFails _ _ _
  · exact h.count _ _ _ _
  · exact h.failCmd _ _ _

/-- Waiters join a miss, a West one is opened. -/
theorem setMisses (h : Severed N s) {l : List Miss} (hl : ∀ m ∈ l, m.east = false) : Severed N { s with misses := l } :=
  { dead := h.dead, west := hl, noted := h.noted, stopped := h.stopped }

/-- No East miss is opened after the Corridor's failure. -/
theorem openMiss (h : Severed N s) (east : Bool) (k : MissHolder) (asid : BitVec 16) (page : Nat) (w : MissWaiter) :
    Severed N (s.openMiss east k asid page w).1 := by
  unfold State.openMiss
  dsimp only
  split
  · exact h.waiterFails _ _
  next hwest =>
    have he : east = false := by simpa [h.failed] using hwest
    split
    · have hc := h.count (unitXlate east) 0x04 0 1
      refine hc.setMisses (fun m hm => ?_)
      obtain ⟨m', hm', rfl⟩ := List.mem_map.1 hm
      have hw : m'.east = false := h.west m' hm'
      split <;> exact hw
    · split
      · exact h
      · refine h.setMisses (fun m hm => ?_)
        obtain hm | hm := List.mem_append.1 hm
        · exact h.west m hm
        · rw [List.mem_singleton.1 hm]
          exact he

theorem installL1 (h : Severed N s) (g : Nat) (r : Range) : Severed N (s.installL1 g r) := (h.stored 4 _ _).same rfl rfl rfl rfl

theorem lookupL2 (h : Severed N s) (east : Bool) (asid : BitVec 16) (page : Nat) : Severed N (s.lookupL2 east asid page).1 := by
  unfold State.lookupL2
  split
  · exact h.same rfl rfl rfl rfl
  · exact h.count _ _ _ _

theorem lookupLane (h : Severed N s) (lane : Nat) (asid : BitVec 16) (page : Nat) : Severed N (s.lookupLane lane asid page).1 := by
  have hc := h.count (unitXlate (laneEast lane)) 0x01 0 1
  have hl := (hc.count (unitXlate (laneEast lane)) 0x02 0 1).lookupL2 (laneEast lane) asid page
  unfold State.lookupLane
  dsimp only
  split
  · exact hc.same rfl rfl rfl rfl
  · split
    next t r ht => exact (of_fst ht hl).installL1 _ _
    next t ht => exact of_fst ht hl

theorem lookPage (h : Severed N s) (i : Issuer) (acc : BitVec 2) (page : Nat) (who : MissWho) (item : Nat) :
    Severed N (s.lookPage i acc page who item).1 := by
  unfold State.lookPage
  dsimp only
  split
  · exact h
  · split
    · exact h
    · split
      next t r ht =>
        have hl : Severed N t := by
          split at ht
          · exact of_fst ht (h.lookupLane _ _ _)
          · exact of_fst ht (h.lookupL2 _ _ _)
        split
        · exact hl
        · split <;> exact hl
      next t ht =>
        refine openMiss ?_ _ _ _ _ _
        split at ht
        · exact of_fst ht (h.lookupLane _ _ _)
        · exact of_fst ht (h.lookupL2 _ _ _)

-- Reads.

theorem fetchPages (h : Severed N s) (r : Reading) (ps : List (Nat × Nat)) (item : Nat → Nat) :
    Severed N (s.fetchPages r ps item).1 := by
  refine foldlFst (p := (s, [])) h (fun a page ha => ?_) _
  split
  next r p ps hr hp =>
    have hl := ha.lookPage (a.1.issuer r) accRead page (.reader r.id (item p.1) p.1 p.2) (item p.1)
    split
    next t pp ht => exact of_fst ht hl
    next t ht => exact of_fst ht hl
    next t f ht => exact (of_fst ht hl).readFails _ _ _
  · exact ha

theorem fetchDests (h : Severed N s) (r : Reading) (va len : Nat) (item : Nat → Nat) :
    Severed N (s.fetchDests r va len item).1 := (h.fetchPages r _ item).piecesAway _ _

theorem rowMissed (h : Severed N s) (p0 : Probe) (crossed : Bool) : Severed N (s.rowMissed p0 crossed) := by
  unfold State.rowMissed
  refine ite h (readDests ?_ _ _)
  exact h.same rfl rfl rfl rfl

theorem askLarder (h : Severed N s) (ps : List Probe) : Severed N (s.askLarder ps) := by
  unfold State.askLarder
  split
  · exact h
  · refine rowMissed ?_ _ _
    exact h.same rfl rfl rfl rfl

/-- No probe crosses the Corridor that has failed. -/
theorem fetchRow (h : Severed N s) (ds : List Dest) (d : BitVec 512) (table row mult : Nat) :
    Severed N (s.fetchRow ds d table row mult) := by
  unfold State.fetchRow
  refine ite h (ite (h.readDests _ _) ?_)
  have ha := h.askLarder (((firsts (ds.map (fun x => x.span.1 / 128))).map (fun g =>
      ({ east := s.homeEast (g * 128), granule := g, dests := ds.filter (fun x => x.span.1 / 128 == g), row := row
         table := table, mult := mult, missed := false } : Probe))).filter (fun p => p.east == s.destsEast ds))
  refine ite ha ?_
  rw [if_pos ha.failed]
  split
  · exact ha.requestFault _ _
  · exact ha

theorem openReading (h : Severed N s) (who : Reader) : Severed N (s.openReading who).1 := by
  unfold State.openReading
  split
  · exact h
  · exact h.bump.same rfl rfl rfl rfl

-- What is served to other devices.

theorem serveAsk (h : Severed N s) (v : Serve) (d : BitVec 512) : Severed N (s.serveAsk v d) := by
  refine h.foldl (fun a i ha => ?_) _
  refine ite ha ?_
  split
  next t r ht =>
    dsimp only
    exact ((of_fst ht (ha.openReading _)).fetchDests _ _ _ _).fetchRow _ _ _ _ _

theorem serveBegin (h : Severed N s) (v : Serve) : Severed N (s.serveBegin v) := by
  unfold State.serveBegin
  dsimp only
  split
  · exact h.nackServe _ _
  · exact ite (h.nackServe _ _) (ite (h.nackServe _ _) (h.updServe _ _))

/-- The last part of what is served ends it. -/
theorem serveOver (h : Severed N s) (id : Nat) (c : Prop) [Decidable c] : Severed N (if c then { s with
    remote := { s.remote with serves := s.remote.serves.filter (fun x => x.id != id) }
    readings := s.readings.filter (fun r => r.who != .serve id) } else s) := by
  refine ite ?_ h
  exact h.same rfl rfl rfl rfl

theorem servePart (h : Severed N s) (v : Serve) (d : BitVec 512) (rows : List (List Byte)) : Severed N (s.servePart v d rows) := by
  unfold State.servePart
  have ended := serveOver (((h.count (unitPorter (xportEast v.port)) 0x05 0 (v.part d).2).countLoad (bits v.parcel.table 0 12)
    (xportEast v.port) (fun c => { c with served := c.served + (v.part d).2 })).updServe v.id
    (fun v => { v with sent := v.sent + 1, asked := false })) v.id (v.parcel.count.toNat ≤ (v.part d).1 + (v.part d).2)
  exact ite ended (ended.sendResponse _ _)

theorem serveOne (h : Severed N s) (east : Bool) : Severed N (s.serveOne east) := by
  unfold State.serveOne
  dsimp only
  split
  · exact h
  · split
    · exact h.serveBegin _
    · refine ite ?_ (ite h ((h.updServe _ _).serveAsk _ _))
      split
      · exact h.servePart _ _ _
      · exact h.serveAsk _ _

theorem payCredits (h : Severed N s) (east : Bool) : Severed N (s.payCredits east) := by
  refine ite h (h.foldl (fun a c ha => drive ?_ _) _)
  exact ha.same rfl rfl rfl rfl

theorem serveAll (h : Severed N s) : Severed N s.serveAll :=
  ite h (((h.foldl (fun _ _ ha => (ha.serveOne false).serveOne true) _).payCredits false).payCredits true)

end Severed

end

end Sys2Proof.Machine
end

section
/-!
PROOFS. After the Corridor's failure (R20): the numbers that the lanes make, their writes, and the tiles.
-/

namespace Sys2Proof.Machine

section
variable {N : Nat → Prop} {s t : State}

namespace Severed

-- Numbers.

theorem roll (h : Severed N s) (lane : Nat) : Severed N (s.roll lane).1 := h.same rfl rfl rfl rfl

theorem cast (h : Severed N s) (lane : Nat) (sround : Bool) (ty : Nat) (v : Num) : Severed N (s.cast lane sround ty v).1 := by
  cases sround with
  | true => exact ite ((h.roll lane).count _ _ _ _) (h.roll lane)
  | false => exact ite (h.count _ _ _ _) h

theorem castElem (h : Severed N s) (lane : Nat) (sround : Bool) (ty ty' : Nat) (e : Elem) :
    Severed N (s.castElem lane sround ty ty' e).1 := by
  unfold State.castElem
  split
  · exact h
  · exact h.cast _ _ _ _

theorem sumBare (h : Severed N s) (l : List Word) : Severed N (s.sumBare l).1 := h.same rfl rfl rfl rfl
theorem sumAny (h : Severed N s) (l : List Word) : Severed N (s.sumAny l).1 := h.same rfl rfl rfl rfl

theorem accumBytes (h : Severed N s) (t : Tile) (d : BitVec 1024) (ty : Nat) (es : List (List Int × Elem)) :
    Severed N (s.accumBytes t d ty es).1 := by
  refine foldlFst (h.count _ _ _ _) (fun a g ha => ?_) _
  dsimp only
  split
  · exact ha.castElem _ _ _ _ _
  · exact (ha.sumBare _).castElem _ _ _ _ _

theorem plainBytes (h : Severed N s) (t : Tile) (d : BitVec 1024) (ty : Nat) (es : List (List Int × Elem)) :
    Severed N (s.plainBytes t d ty es).1 := by
  unfold State.plainBytes
  dsimp only
  refine foldlFst (p := (s, [])) h (fun a e ha => ?_) _
  have hc := ha.castElem t.lane t.sround ty (tdDtype d) e.2
  split
  · exact hc.count _ _ _ _
  · split
    · split
      · exact hc
      · split
        · split <;> exact hc
        · exact hc
    · exact hc

theorem moveBytes (h : Severed N s) (t : Tile) : Severed N (s.moveBytes t).1 := by
  unfold State.moveBytes
  split
  · dsimp only
    split
    · exact h.accumBytes _ _ _ _
    · exact h.plainBytes _ _ _ _
  · exact h

theorem wordBytes (h : Severed N s) (t : Tile) (w : Nat → Nat → Word) : Severed N (s.wordBytes t w).1 := by
  unfold State.wordBytes
  split
  · dsimp only
    split
    · exact h.accumBytes _ _ _ _
    · exact h.plainBytes _ _ _ _
  · exact h

theorem poolAddends (h : Severed N s) (t : Tile) : Severed N (s.poolAddends t).1 := by
  unfold State.poolAddends
  split
  · exact h
  · refine foldlFst (p := (s, [], 0)) h (fun a j ha => ?_) _
    dsimp only
    split
    · exact ha.count _ _ _ _
    · refine foldlFst (p := (a.1, [])) ha (fun b k hb => ?_) _
      split
      · exact hb
      · exact hb.castElem _ _ _ _ _

theorem poolBag (h : Severed N s) (b : Batch) (w : SubWin) (bag : Nat) : Severed N (s.poolBag b w bag).1 :=
  foldlFst (p := (s, [])) h (fun _ _ ha => ha.sumAny _) _

theorem addends (h : Severed N s) (lane : Nat) (sround : Bool) (c d : BitVec 512) (g : List Word) :
    Severed N (s.addends lane sround c d g).1 :=
  foldlFst (p := (s, [])) h (fun _ _ ha => ha.cast _ _ _ _) _

theorem castCode (h : Severed N s) (lane : Nat) (sround : Bool) (v den : Num) : Severed N (s.castCode lane sround v den).1 := by
  cases sround with
  | true => exact ite ((h.roll lane).count _ _ _ _) (h.roll lane)
  | false => exact ite (h.count _ _ _ _) h

theorem requantise (h : Severed N s) (lane : Nat) (sround : Bool) (w : List Word) : Severed N (s.requantise lane sround w).1 := by
  have hskip : Severed N (if sround then w.foldl (fun a _ => (a.roll lane).1) s else s) :=
    ite (h.foldl (fun _ _ ha => ha.roll lane) _) h
  unfold State.requantise
  dsimp only
  split
  · exact hskip
  · split
    · exact h
    · split
      · exact hskip
      · exact foldlFst (p := (s, [])) h (fun _ _ ha => ha.castCode _ _ _ _) _

theorem encodeRow (h : Severed N s) (lane : Nat) (sround : Bool) (d : BitVec 512) (w : List Word) :
    Severed N (s.encodeRow lane sround d w).1 := by
  unfold State.encodeRow
  split
  · exact h.requantise _ _ _
  · exact foldlFst (p := (s, [])) h (fun _ _ ha => ha.castElem _ _ _ _ _) _

theorem optimise (h : Severed N s) (c d : BitVec 512) (w g : List Word) (a : List Byte) : Severed N (s.optimise c d w g a).1 := by
  unfold State.optimise
  dsimp only
  split
  · exact h
  · split
    · exact h.sumAny _
    · exact h

-- The Porter's and the lanes' writes.

theorem porterWrites (h : Severed N s) (t : Tile) (op : BitVec 3) (bytes : List (Nat × Byte)) :
    Severed N (s.porterWrites t op bytes) :=
  (h.count _ _ _ _).foldl (fun _ _ ha => ha.foldl (fun _ _ hb => hb.writeReq _ _ _ _ _ _ _ _ _) _) _

theorem rowWrites (h : Severed N s) (t : Tile) (op : BitVec 3) (row : Nat) (items : List (Nat × List Byte)) :
    Severed N (s.rowWrites t op row items) := by
  refine (h.count _ _ _ _).foldl (fun a p ha => ?_) _
  split
  · exact ha
  · exact ha.writeReq _ _ _ _ _ _ _ _ _

theorem updateRow (h : Severed N s) (b : Batch) (c : BitVec 512) (t : Tile) (row : Nat) (g : List Word) :
    Severed N (s.updateRow b c t row g) := by
  unfold State.updateRow
  dsimp only
  split
  · exact h
  · split
    · exact (h.addends _ _ _ _ _).rowWrites _ _ _ _
    · exact ((h.optimise _ _ _ _ _).encodeRow _ _ _ _).rowWrites _ _ _ _

theorem runUpdateRows (h : Severed N s) (t : Tile) : Severed N (s.runUpdateRows t) := by
  unfold State.runUpdateRows
  split
  · exact h
  · exact h.foldl (fun _ _ ha => ha.updateRow _ _ _ _ _) _

theorem runBags (h : Severed N s) (t : Tile) : Severed N (s.runBags t) := by
  unfold State.runBags
  split
  · exact h
  · split
    · exact h
    · exact h.foldl (fun _ _ ha => ((ha.poolBag _ _ _).wordBytes _ _).porterWrites _ _ _) _

theorem runRows (h : Severed N s) (t : Tile) : Severed N (s.runRows t) := by
  unfold State.runRows
  split
  · exact h
  · split
    · exact h
    · exact h.updSub _ _

theorem closeWrites (h : Severed N s) (lane q stream : Nat) (w : WriteWindow) : Severed N (s.closeWrites lane q stream w) :=
  h.foldl (fun _ _ ha => ha.writeReq _ _ _ _ _ _ _ _ _) _

theorem closeWriteWindow (h : Severed N s) (stream : Nat) : Severed N (s.closeWriteWindow stream) := by
  unfold State.closeWriteWindow
  split
  · exact h
  · split
    · exact h
    · exact (h.updItin _ _).closeWrites _ _ _ _

theorem writeMem (h : Severed N s) (t : Tile) (op : BitVec 3) (bytes : List (Nat × Byte)) : Severed N (s.writeMem t op bytes) := by
  refine (h.count _ _ _ _).foldl (fun a r ha => ?_) _
  have hjoin : Severed N (match (a.itin t.stream).bind (fun i => i.wwin) with
      | some w => if w.mayJoin t op r.1 then a else a.closeWriteWindow t.stream
      | none => a) := by
    split
    · exact ite ha (ha.closeWriteWindow _)
    · exact ha
  have hput := hjoin.updItin t.stream (fun i => { i with wwin := match i.wwin with
      | some w => some { w with writes := w.writes ++ r.2.reverse }
      | none => some { base := r.1, op := op, writes := r.2.reverse } })
  dsimp only
  split
  · exact ite (hput.closeWriteWindow _) hput
  · exact hput

theorem pickAny (h : Severed N s) (l : List Byte) : Severed N (s.pickAny l).1 := by
  unfold State.pickAny
  split
  · exact h
  · exact h.tick

theorem resolve (h : Severed N s) (bytes : List (Nat × Byte)) : Severed N (s.resolve bytes).1 :=
  foldlFst (p := (s, [])) h (fun _ _ ha => ha.pickAny _) _

theorem hallStored (h : Severed N s) (east : Bool) : Severed N (s.hallStored east) :=
  ite (tick (ite (h.stored _ _ _) h)) h

/-- No fill enters the Corridor that has failed. -/
theorem writeSlot (h : Severed N s) (t : Tile) (d : BitVec 1024) (k : HeldSlot) (bytes : List (Nat × Byte)) :
    Severed N (s.writeSlot t d k bytes) := by
  unfold State.writeSlot
  generalize hp : (if tdAccum d then (s, if s.ringClient k.ring then bytes else s.hallSums k (tdDtype d) bytes)
    else s.resolve bytes) = p
  have hres : Severed N p.1 := by
    rw [← hp]
    split
    · exact h
    · exact h.resolve _
  have hc := hres.count (unitLane t.lane) 0x0E t.q p.2.length
  refine ite (hc.foldl (fun a r ha => ite ha (ite (ha.updCport _ _) ?_)) _) ?_
  · rw [if_pos ha.failed]
    exact ha.abort _ _
  · exact ((hc.count _ _ _ _).hallStored _).same rfl rfl rfl rfl

theorem writeTile (h : Severed N s) (t : Tile) (bytes : List (Nat × Byte)) : Severed N (s.writeTile t bytes) := by
  unfold State.writeTile
  split
  · exact h
  · split
    · exact h.writeSlot _ _ _ _
    · exact h
    · exact h.writeMem _ _ _

-- The tiles.

theorem dropTile (h : Severed N s) (id : Nat) : Severed N { s with tiles := s.tiles.filter (fun u => u.id != id) } :=
  h.same rfl rfl rfl rfl

theorem runTile (h : Severed N s) (t : Tile) : Severed N (s.runTile t) := by
  have hw := h.updTile t.id (fun t => { t with written := true })
  unfold State.runTile
  generalize s.updTile t.id (fun t => { t with written := true }) = u at hw
  dsimp only
  split
  case h_1 | h_2 => exact (hw.moveBytes _).writeTile _ _
  case h_3 =>
    refine writeTile (ite (snapDone ?_ _ _ _ _) ?_) _ _ <;>
    · split
      · split
        · exact hw.accumBytes _ _ _ _
        · exact hw.plainBytes _ _ _ _
      · exact hw
  case h_4 | h_5 => exact (hw.poolAddends _).updItin _ _
  case h_6 =>
    split
    · exact hw
    · exact (((foldlFst (p := (u, [])) hw (fun _ _ ha => ha.sumAny _) _).updItin _ _).wordBytes _ _).writeTile _ _
  case h_7 =>
    refine dropTile (ite hw ?_) _
    exact hw.updItin _ _
  case h_8 => exact hw.runRows _
  case h_9 => exact hw.runBags _
  case h_10 => exact hw.runUpdateRows _

theorem finishTiles (h : Severed N s) : Severed N s.finishTiles := by
  refine h.foldl (fun a id ha => ?_) _
  split
  · exact ha
  · exact ite (ha.runTile _) ha

theorem retireTiles (h : Severed N s) : Severed N s.retireTiles := by
  have htiles : Severed N ((s.tiles.filter (fun t => t.written && !s.inFlight t.id)).foldl (fun a t =>
      let a := if t.kind == .bagGroup then a else (a.progress t.q).snapDone t.q t.stream (if t.kind.ordered then 1 else 3) 1
      { a with tiles := a.tiles.filter (fun u => u.id != t.id) }) s) := by
    refine h.foldl (fun a t ha => ?_) _
    exact (ite ha ((ha.progress t.q).snapDone _ _ _ _)).dropTile _
  exact htiles.same rfl rfl rfl rfl

theorem pushTile (h : Severed N s) (lane : Nat) (t : Tile) : Severed N (s.pushTile lane t) := h.same rfl rfl rfl rfl

theorem feedUpdate (h : Severed N s) (b : Batch) (w : SubWin) (lane : Nat) : Severed N (s.feedUpdate b w lane) :=
  ite h (((h.updSub _ _).pushTile _ _).snapIssued _ _ _ _)

theorem feedOne (h : Severed N s) (w : SubWin) : Severed N (s.feedOne w) := by
  unfold State.feedOne
  split
  · exact h
  · split
    · exact h
    · exact ite h (ite (ite (h.feedUpdate _ _ _) h) (ite ((h.pushTile _ _).snapIssued _ _ _ _)
        (ite ((h.updSub _ _).pushTile _ _) h)))

theorem feed (h : Severed N s) : Severed N s.feed := by
  refine h.foldl (fun a _ ha => ha.foldl (fun b w hb => ?_) _) _
  split
  · exact hb.feedOne _
  · exact hb

theorem sweep (h : Severed N s) : Severed N s.sweep := h.freeBlocks.finishTiles.retireTiles.feed.serveAll

end Severed

end

end Sys2Proof.Machine
end

section
/-!
PROOFS. The Corridor's failure (R20, R403): it is noted, nothing crosses any more, no East miss is open, and the queue whose item was
crossing stops.
-/

namespace Sys2Proof.Machine

section
variable {N : Nat → Prop} {s : State}

namespace Severed

-- What the failure does after it is noted.

theorem answerDriven (h : Severed N s) (r : Option (BitVec 2 × Word)) : Severed N (s.answerDriven r) := by
  cases r with
  | none => exact h
  | some e => exact h.drive _

theorem accessAnswered (h : Severed N s) (tap : Bool) (err : BitVec 2) (v : Word) : Severed N (s.accessAnswered tap err v) := by
  refine ite (h.same rfl rfl rfl rfl) ?_
  rw [cpFlush_eq]
  refine foldl ?_ (fun _ x ha => ha.answerDriven x) _
  exact h.same rfl rfl rfl rfl

theorem itemFails (h : Severed N s) (i : CorItem) : Severed N (s.itemFails i) := by
  unfold State.itemFails
  split
  · exact h.failCmd _ _ _
  · exact h.parcelFails _ _
  · split
    · exact h.outFails _ _
    · exact h.abort _ _
  · exact h.accessAnswered _ _ _
  · exact h.accessAnswered _ _ _
  · split
    · exact h.abort _ _
    · exact h

theorem itemsFail (h : Severed N s) (failed : List Nat) (items : List CorItem) : Severed N (s.itemsFail failed items) := by
  refine foldlFst (p := (s, failed)) h (fun a i ha => ?_) _
  split
  · split
    · exact ha
    · exact ha.itemFails i
  · exact ha.itemFails i

theorem countersLost (h : Severed N s) : Severed N s.countersLost := by
  unfold State.countersLost
  split
  · split
    · exact h.failCmd _ _ _
    · exact h.setRecord _
  · exact h

/-- One more queue stops. -/
theorem add (h : Severed N s) {q : Nat} (hq : s.stopsWith q stInternal) : Severed (fun k => N k ∨ k = q) s :=
  { h with stopped := fun _ hk => hk.elim (h.stopped _) (fun he => he ▸ hq) }

end Severed

end

-- The steps of the failure.

/-- The Corridor is dead and the failure noted; no East miss is open. -/
def State.corridorLost (s : State) : State :=
  ({ s with
    corridor := { s.corridor with failed := true, toEast := .empty, toWest := .empty, got := .empty, replays := .empty }
    misses := s.misses.filter (fun m => !m.east) } : State).raiseEvent offRelEvents 11

/-- The work of items that were crossing fails: that of the requests, rows and acknowledgements first. -/
def State.itemsLost (s : State) (items : List CorItem) : State :=
  (s.requestsFault (items.flatMap s.itemReqs) (fun a => a.corridorFault)).itemsFail
    (firsts ((items.flatMap s.itemReqs).filterMap (fun r => if r.record.isSome then none else r.q))) items

theorem corridorLost_severed (s : State) : Severed (fun _ => False) s.corridorLost where
  dead := ⟨rfl, rfl, rfl⟩
  west m hm := by simpa using (List.mem_filter.1 hm).2
  noted := State.raiseEvent_flag_same _ _ _ (by decide)
  stopped _ h := h.elim

/-- After the items' work has failed, the rest of the failure keeps what stops. -/
theorem failCorridor_severed {N : Nat → Prop} {s : State} (h : Severed N (s.corridorLost.itemsLost s.corItems)) :
    Severed N s.failCorridor := by
  unfold State.failCorridor
  refine .sweep (.countersLost (.foldl (.loseWrites ?_ _) (fun a w ha => .ite ha ?_) _))
  · exact h.same rfl rfl rfl rfl
  · split
    · exact ha.failCmd _ _ _
    · exact ha.waiterFails _ _

theorem itemsLost_severed {N : Nat → Prop} {s : State} (h : Severed N s) (items : List CorItem) : Severed N (s.itemsLost items) :=
  (h.requestsFault _ _).itemsFail _ _

-- The queue whose item was crossing.

theorem snapDetail_mayFail {s : State} {p : Nat} (q stream u : Nat) (d : Word) (h : s.mayFail p) :
    (s.snapDetail q stream u d).mayFail p := by
  unfold State.snapDetail State.streamSnap
  split
  · exact updSnap_mayFail _ _ _ h
  · exact h

theorem porterSnap_mayFail {s : State} {q : Nat} (t : Tile) (h : s.mayFail q) : (s.porterSnap t).mayFail q := by
  unfold State.porterSnap
  split
  · exact h
  · exact snapDetail_mayFail _ _ _ _ h

theorem reqSnap_mayFail {s : State} {q : Nat} (r : Req) (h : s.mayFail q) : (s.reqSnap r).mayFail q := by
  unfold State.reqSnap
  split
  · exact porterSnap_mayFail _ h
  · exact h

theorem outSnap_mayFail {s : State} {q : Nat} (o : OutParcel) (h : s.mayFail q) : (s.outSnap o).mayFail q := by
  unfold State.outSnap
  split
  · exact h
  · split
    · exact snapDetail_mayFail _ _ _ _ h
    · exact porterSnap_mayFail _ h
    · exact h

theorem portFault_status (b : Batch) (f : FaultInfo) : (b.portFault f).status = f.status := by
  unfold Batch.portFault
  split <;> rfl

/-- A stream's fault stops its queue with the fault's status. -/
theorem streamFault_stopsWith {s : State} {q : Nat} (h : s.mayFail q) (stream : Nat) (f : FaultInfo) :
    (s.streamFault q stream f).stopsWith q f.status := by
  unfold State.streamFault
  split
  next _ b hb =>
    rw [← portFault_status b f]
    exact failCmd_stopsWith _ _ h
  next t _ _ =>
    have hstop := abort_stopsWith
      (if stream == feStream q && f.status != stInternal then { f with unit := 0x0#8, va := t.snapVa } else f) h
    have hst : (if stream == feStream q && f.status != stInternal then { f with unit := 0x0#8, va := t.snapVa } else f).status =
        f.status := by split <;> rfl
    rwa [hst] at hstop
  · exact abort_stopsWith f h

theorem outFails_stopsWith {s : State} {o : OutParcel} (h : s.mayFail o.q) (f : FaultInfo) :
    (s.outFails o f).stopsWith o.q f.status := streamFault_stopsWith (outSnap_mayFail o h) _ f

theorem owner_of_queue {i : CorItem} {q : Nat} (h : i.queue = some q) : i.owner = some q := by
  cases i with
  | request | quarter | landed | rejected => exact (Option.ite_none_left_eq_some.1 h).2
  | _ => exact h

/-- The parcel that an item sends or answers is one of the queue's. -/
def State.parcelsOf (s : State) (i : CorItem) (q : Nat) : Prop :=
  (∀ x o, i = .parcel x → s.outOf x = some o → o.q = q) ∧ (∀ x k p o, i = .inbound x k p → s.outFor p = some o → o.q = q)

/-- A queue's item that was crossing faults the queue. -/
theorem itemFails_stopsWith {s : State} {i : CorItem} {q : Nat} (h : s.mayFail q) (hq : i.queue = some q)
    (hparcel : s.parcelsOf i q) : (s.itemFails i).stopsWith q stInternal := by
  obtain ⟨hout, hin⟩ := hparcel
  unfold State.itemFails
  split
  next k idx =>
    obtain rfl : k = q := Option.some.inj hq
    exact failCmd_stopsWith _ _ h
  next x =>
    have hx : x.q = some q := hq
    cases ho : s.outOf x with
    | none =>
      simp only [State.parcelFails, hx, ho]
      exact streamFault_stopsWith h _ _
    | some o =>
      obtain rfl := hout x o rfl ho
      simp only [State.parcelFails, hx, ho]
      exact stopsWith_of_queues rfl (outFails_stopsWith h s.corridorFault)
  next x k p =>
    obtain rfl : k = q := Option.some.inj hq
    split
    next o ho =>
      obtain rfl := hin x _ p o rfl ho
      exact outFails_stopsWith h s.corridorFault
    · exact abort_stopsWith _ h
  · cases hq
  · cases hq
  · rw [owner_of_queue hq]
    exact abort_stopsWith _ h

/-- A request of a queue's work that was crossing faults the queue. -/
theorem requestFault_stopsWith {s : State} {r : Req} {q : Nat} (h : s.mayFail q) (hrec : r.record = none)
    (hserv : r.service = none) (hfetch : r.fetches = false) (hq : r.q = some q) (f : FaultInfo) :
    (s.requestFault r f).stopsWith q f.status := by
  simp only [State.requestFault, hrec, hserv, hfetch, hq, Bool.false_eq_true, if_false]
  exact streamFault_stopsWith (reqSnap_mayFail r h) _ f

theorem requestsFault_one (s : State) (r : Req) (f : State → FaultInfo) : s.requestsFault [r] f = s.requestFault r (f s) := by
  simp [State.requestsFault, firsts]

/-- No item's work fails twice. -/
theorem itemsFail_known {s : State} {i : CorItem} {q : Nat} (h : i.owner = some q) : s.itemsFail [q] [i] = s := by
  simp [State.itemsFail, h]

theorem itemsFail_one {s : State} {i : CorItem} {q : Nat} (h : i.owner = some q) : s.itemsFail [] [i] = s.itemFails i := by
  simp [State.itemsFail, h]

theorem itemReqs_request (s : State) {i : CorItem} {r : Req} (h : i.req? = some r) : s.itemReqs i = [r] := by
  unfold State.itemReqs
  split
  · cases h
  · simp [h]

theorem itemReqs_other (s : State) {i : CorItem} (h : i.req? = none) (hask : ∀ q ps, i ≠ .larderAsk q ps) : s.itemReqs i = [] := by
  unfold State.itemReqs
  split
  next q ps => exact absurd rfl (hask q ps)
  · simp [h]

theorem queue_request {i : CorItem} {r : Req} {q : Nat} (h : i.req? = some r) (hq : i.queue = some q) : r.q = some q := by
  cases i with
  | request | quarter | landed | rejected =>
    obtain rfl := Option.some.inj h
    exact (Option.ite_none_left_eq_some.1 hq).2
  | _ => cases h

/-- The items that carry a request. -/
theorem req_kinds {i : CorItem} {r : Req} (h : i.req? = some r) :
    i = .request r ∨ i = .landed r ∨ (∃ b d w, i = .quarter r b d w) ∨ ∃ st pa, i = .rejected r st pa := by
  cases i with
  | request | quarter | landed | rejected =>
    obtain rfl := Option.some.inj h
    simp
  | _ => cases h

/-- The item that was crossing alone faults its queue. -/
theorem itemsLost_stopsWith {s : State} {i : CorItem} {q : Nat} (h : s.mayFail q) (hq : i.queue = some q)
    (hask : ∀ r, i ≠ .larderAsk (some q) r) (hparcel : s.parcelsOf i q)
    (hreq : ∀ r, i.req? = some r → r.record = none ∧ r.service = none ∧ r.fetches = false) :
    (s.itemsLost [i]).stopsWith q stInternal := by
  unfold State.itemsLost
  rw [List.flatMap_singleton]
  cases hr : i.req? with
  | some r =>
    obtain ⟨hrec, hserv, hfetch⟩ := hreq r hr
    have hrq := queue_request hr hq
    have hfirsts : firsts ([r].filterMap (fun r => if r.record.isSome then none else r.q)) = [q] := by
      simp [hrec, hrq, firsts]
    rw [itemReqs_request s hr, requestsFault_one, hfirsts, itemsFail_known (owner_of_queue hq)]
    exact requestFault_stopsWith h hrec hserv hfetch hrq s.corridorFault
  | none =>
    have hother : ∀ k ps, i ≠ .larderAsk k ps := by
      rintro k ps rfl
      obtain rfl : k = some q := hq
      exact hask ps rfl
    rw [itemReqs_other s hr hother]
    show (s.itemsFail [] [i]).stopsWith q stInternal
    rw [itemsFail_one (owner_of_queue hq)]
    exact itemFails_stopsWith h hq hparcel

/-- The failure of the Corridor, and the queue whose item alone was crossing. -/
theorem failCorridor_stopsWith {s : State} {i : CorItem} {q : Nat} (hone : s.corItems = [i]) (h : s.mayFail q)
    (hq : i.queue = some q) (hask : ∀ r, i ≠ .larderAsk (some q) r) (hparcel : s.parcelsOf i q)
    (hreq : ∀ r, i.req? = some r → r.record = none ∧ r.service = none ∧ r.fetches = false) :
    s.failCorridor.stopsWith q stInternal := by
  have hstop : (s.corridorLost.itemsLost s.corItems).stopsWith q stInternal := by
    rw [hone]
    exact itemsLost_stopsWith (s := s.corridorLost) h hq hask hparcel hreq
  exact (failCorridor_severed ((itemsLost_severed (corridorLost_severed s) _).add hstop)).stopped q (.inr rfl)

end Sys2Proof.Machine
end

section
/-!
PROOFS. Corridor items arrive in order (R17-R20, R403).
-/

namespace Sys2Proof.Machine

/-- Settles O41, the arrivals item by item with what each does where it leaves; of the Corridor's failure with `Severed`, which whatever
the units still do keeps. -/
theorem corridorItemsArriveInOrder : Obligations.CorridorItemsArriveInOrder := by
  unfold Obligations.CorridorItemsArriveInOrder
  intro s toEast cls i rest ha hf hl
  have hcross (ht) : s.crosses toEast cls i rest := ⟨ha, hf, hl, ht⟩
  refine ⟨fun h0 h => flitArrival_notTurn (turn_waits h0 h),
    fun ht hmore => ⟨_, flitArrival_more (hcross ht) hmore, passed_got _ _ _, rfl, rfl, ?more⟩,
    fun ht hlast => ⟨_, flitArrival_last (hcross ht) hlast, ?last⟩,
    fun ht hn => ⟨_, replay_again (hcross ht) hn, ?again⟩,
    fun ht hn => ⟨_, replay_last (hcross ht) hn, ?failed⟩⟩
  case more =>
    unfold State.flitCounted
    rw [count_eq]
  case again =>
    rw [count_eq]
    exact ⟨by simp [Corridor.replayed], rfl, rfl, rfl⟩
  case last =>
    obtain ⟨c, o, n, hu, hlane, hcf⟩ := itemOff_eq s toEast cls.toNat rest
    rw [hu]
    refine ⟨?request, ?fill, ?semTake, ?semInc, ?access, ?tapDone, ?portDone, ?tallyRead, ?tallyAnswer, ?rejected, ?command,
      ?missAsk, ?missAnswer⟩
    case request =>
      rintro r rfl hup hbanks
      rw [deliver_request (s := s.arriving c o n) hup hbanks]
      exact ⟨rfl, rfl, hlane⟩
    case fill =>
      rintro f rfl
      exact ⟨congrArg CPort.fills (updCport_same _ _ _), rfl⟩
    case semTake =>
      rintro k w rfl hp
      rw [deliver_semTake (s := s.arriving c o n) hp]
      obtain ⟨hw, hbut⟩ := semQueue_sem (s.arriving c o n) k w
      exact ⟨hw, hbut, rfl⟩
    case semInc =>
      rintro src k d rfl hturn hp ho hsum
      rw [deliver_semInc (s := s.arriving c o n) hturn]
      exact semIncrement_adds (s := s.arriving c o n) hp ho hsum
    case access =>
      rintro a rfl
      exact ⟨s.arriving c o n, rfl, fun h => deliver_access_read h, fun mid data h => deliver_access_write h⟩
    case tapDone =>
      rintro v rfl
      exact ⟨rfl, rfl⟩
    case portDone =>
      rintro v l rfl hw hall
      exact accessAnswered_port (s := s.arriving c o n) 0#2 v hw hall
    case tallyRead =>
      rintro m k rfl
      exact ⟨s.arriving c o n, rfl, rfl⟩
    case tallyAnswer =>
      rintro k r rfl hr
      exact counterAnswered_some (s := s.arriving c o n) k hr
    case rejected =>
      rintro r st pa q rfl hst hrec hserv hfetch hq hmay hidle hb
      exact rejects_faults (s := s.arriving c o n) hst hrec hserv hfetch hq hmay
        ((noLaneWork_iff s).1 hidle).1 hb
    case command =>
      rintro q idx rfl
      obtain ⟨hc, hbut⟩ := updCmd_queue (s.arriving c o n) q idx
        (fun c => { c with crossing := false })
      exact ⟨hbut, hc⟩
    case missAsk =>
      rintro id m rfl hm
      exact congrArg State.out (missDriven_some (s := s.arriving c o n) hm)
    case missAnswer =>
      rintro id st vstart len pbase perm m q idx r va item len' acc x rfl hm hstale hst hwait hx hwho hq
      obtain ⟨hstop, hmem, -⟩ := missEnds_command (s := s.arriving c o n) id (missStatus st) false hwait hx hwho hq
      rw [deliver_missAnswer_refused (s := s.arriving c o n) hm hstale hst]
      exact ⟨hstop, hmem⟩
  case failed =>
    obtain ⟨⟨hfail, heast, hwest⟩, hmiss, hnote, -⟩ :=
      failCorridor_severed (itemsLost_severed (corridorLost_severed s) s.corItems)
    refine ⟨hfail, hnote, ?_, hmiss, ?_⟩
    · simp [State.corItems, heast, hwest, Bank.empty]
    · rintro q hone hmay ⟨hq, hask, hout, hin, hreq⟩
      exact failCorridor_stopsWith hone hmay hq hask ⟨hout, hin⟩ (fun r hr => hreq r (req_kinds hr))

end Sys2Proof.Machine
end

section
/-!
PROOFS. What the stop of a queue's work (R107) leaves of the ports, the semaphores and the other queues.
-/

namespace Sys2Proof.Machine

/-- The stop of queue `q` takes fills that have not begun from the client ports, and waiters from the semaphores; the memory ports
and the other queues it leaves. -/
structure StopLeaves (q : Nat) (s t : State) : Prop where
  mports : t.mports = s.mports
  cport : ∀ c, ∃ l, t.cport c = { s.cport c with fills := l } ∧ ∀ f ∈ l, f ∈ (s.cport c).fills
  sem : ∀ i, ∃ l, t.sem i = { s.sem i with waiters := l }
  others : s.queuesBut t q

namespace StopLeaves
variable {q : Nat} {s t u : State}

/-- What touches neither ports, semaphores nor queues. -/
theorem same (hm : t.mports = s.mports) (hc : t.cports = s.cports) (hs : t.sems = s.sems) (hq : t.queues = s.queues) :
    StopLeaves q s t := by
  refine ⟨hm, fun c => ⟨(s.cport c).fills, ?_, fun _ h => h⟩, fun i => ⟨(s.sem i).waiters, ?_⟩, fun j _ => ?_⟩
  · simp [State.cport, hc]
  · simp [State.sem, hs]
  · simp [State.queue, hq]

theorem refl (q : Nat) (s : State) : StopLeaves q s s := same rfl rfl rfl rfl

theorem trans (h : StopLeaves q s t) (k : StopLeaves q t u) : StopLeaves q s u where
  mports := k.mports.trans h.mports
  cport c := by
    obtain ⟨l, hl, hin⟩ := h.cport c
    obtain ⟨l', hl', hin'⟩ := k.cport c
    rw [hl] at hl' hin'
    exact ⟨l', hl', fun f hf => hin f (hin' f hf)⟩
  sem i := by
    obtain ⟨l, hl⟩ := h.sem i
    obtain ⟨l', hl'⟩ := k.sem i
    rw [hl] at hl'
    exact ⟨l', hl'⟩
  others j hj := (k.others j hj).trans (h.others j hj)

theorem foldl {β : Type} {g : State → β → State} (h : ∀ a x, StopLeaves q a (g a x)) (l : List β) (s : State) :
    StopLeaves q s (l.foldl g s) :=
  foldl_keeps (P := StopLeaves q s) (fun a x ha => ha.trans (h a x)) l (refl q s)

/-- The queue itself is written. -/
theorem setQueue (s : State) (q : Nat) (v : Queue) : StopLeaves q s (s.setQueue q v) :=
  { refl q s with others := fun _ hj => State.setQueue_queue_other s q _ v hj }

theorem extraFault (s : State) (q : Nat) : StopLeaves q s (s.extraFault q) := by
  unfold State.extraFault
  dsimp only
  split
  · exact setQueue s q _
  · exact refl _ s

theorem leavesLane (q : Nat) (s : State) (r : Req) : StopLeaves q s (s.leavesLane r) := by
  unfold State.leavesLane
  split
  · split <;> exact same rfl rfl rfl rfl
  · exact refl _ s

theorem sendReq (q : Nat) (s : State) (r : Req) (p : ReqPath) : StopLeaves q s (s.sendReq r p) := by
  cases p with
  | hold => exact same rfl rfl rfl rfl
  | enter => exact (leavesLane q s r).trans (same rfl rfl rfl rfl)
  | cross => exact (leavesLane q s r).trans (same rfl rfl rfl rfl)
  | gone | fail _ => exact refl _ s

theorem letGo (s : State) (q : Nat) (r : Req) : StopLeaves q s (s.letGo q r) := by
  unfold State.letGo
  split
  · exact extraFault s q
  · exact sendReq q s _ _

theorem letGoParcel (s : State) (q : Nat) (x : TxParcel) : StopLeaves q s (s.letGoParcel q x) := by
  unfold State.letGoParcel
  dsimp only
  split
  · exact same rfl rfl rfl rfl
  · split
    · exact (extraFault s q).trans (same rfl rfl rfl rfl)
    · exact same rfl rfl rfl rfl

theorem stopLanes (s : State) (q : Nat) : StopLeaves q s (s.stopLanes q) := by
  unfold State.stopLanes
  refine trans ?_ (foldl (fun a r => letGo a q r) _ _)
  exact same rfl rfl rfl rfl

theorem stopPorter (s : State) (q : Nat) : StopLeaves q s (s.stopPorter q) := by
  unfold State.stopPorter
  refine trans ?_ (foldl (fun a x => letGoParcel a q x) _ _)
  exact same rfl rfl rfl rfl

theorem stopWaiters (s : State) (q : Nat) : StopLeaves q s (s.stopWaiters q) :=
  { refl _ s with
    sem := fun i => ⟨(s.sem i).waiters.filter (fun w => w.q != q), by
      unfold State.stopWaiters State.sem
      rw [Bank.get_each _ _ _ rfl]⟩ }

theorem stopPushes (s : State) (q : Nat) : StopLeaves q s (s.stopPushes q) :=
  { refl _ s with
    cport := fun c => ⟨(s.cport c).fills.filter (fun f => f.q != q || f.begun), by
      unfold State.stopPushes State.cport
      rw [Bank.get_each _ _ _ rfl], fun _ hf => (List.mem_filter.1 hf).1⟩ }

theorem updRing (q : Nat) (s : State) (r : Nat) (f : Ring → Ring) : StopLeaves q s (s.updRing r f) := same rfl rfl rfl rfl

theorem setLedger (q : Nat) (s : State) (l : Ledger) : StopLeaves q s { s with ledger := l } := same rfl rfl rfl rfl

theorem stopReads (s : State) (q : Nat) : StopLeaves q s (s.stopReads q) := same rfl rfl rfl rfl

/-- The units' parts of a stop, one after another. -/
theorem stopWork (s : State) (q : Nat) :
    StopLeaves q s (((((s.stopReads q).stopWaiters q).stopPorter q).stopLanes q).stopPushes q) :=
  ((((stopReads s q).trans (stopWaiters _ q)).trans (stopPorter _ q)).trans (stopLanes _ q)).trans (stopPushes _ q)

theorem stopUnits (s : State) (q : Nat) : StopLeaves q s (s.stopUnits q) := by
  unfold State.stopUnits
  dsimp only
  generalize ht : (s.taskRings q).foldl (fun a r => a.updRing r Ring.abandon) s = t
  have rings : StopLeaves q s t := ht ▸ foldl (fun a r => updRing q a r _) _ s
  have units := rings.trans (stopWork t q)
  split
  · exact units.trans (setLedger q _ _)
  · exact units

theorem setReg (q : Nat) (s : State) (off : Nat) (v : Word) : StopLeaves q s (s.setReg off v) := same rfl rfl rfl rfl

theorem commitStopped (s : State) (q : Nat) (st : Byte) : StopLeaves q s (s.commitStopped q st) := by
  unfold State.commitStopped
  split
  · exact (setReg q s _ _).trans (setReg q _ _ _)
  · exact refl _ s

theorem updSnap (s : State) (q : Nat) (idx : BitVec 16) (u : Nat) (f : UnitSnap → UnitSnap) :
    StopLeaves q s (s.updSnap q idx u f) := setQueue s q _

theorem snapUnits (s : State) (q : Nat) (idx : BitVec 16) : StopLeaves q s (s.snapUnits q idx) :=
  foldl (fun a u => updSnap a q idx u _) _ _

theorem snapInstr (s : State) (q : Nat) (idx : BitVec 16) (f : FaultInfo) : StopLeaves q s (s.snapInstr q idx f) := by
  unfold State.snapInstr
  split
  · exact updSnap s q idx 1 _
  · exact refl _ s

theorem failCmd (s : State) (q : Nat) (idx : BitVec 16) (f : FaultInfo) : StopLeaves q s (s.failCmd q idx f) := by
  unfold State.failCmd
  dsimp only
  split
  · exact extraFault s q
  · split
    · refine trans ?_ (stopUnits _ q)
      refine trans ?_ (commitStopped _ q _)
      exact ((snapUnits s q idx).trans (snapInstr _ q idx f)).trans (setQueue _ q _)
    · exact refl _ s

theorem abort (s : State) (q : Nat) (f : FaultInfo) : StopLeaves q s (s.abort q f) := failCmd s q _ f

end StopLeaves

/-- A queue whose work may be stopped, or is stopping with a status. -/
def State.fallsWith (s : State) (q : Nat) (st : Byte) : Prop := s.mayFail q ∨ s.stopsWith q st

/-- Faults of one status, of whatever queues, leave such a queue so; a fault of its own stops it. -/
theorem failCmd_fallsWith {s : State} {q p : Nat} (idx : BitVec 16) (f : FaultInfo) (h : s.fallsWith q f.status) :
    (s.failCmd p idx f).fallsWith q f.status ∧ (p = q → (s.failCmd p idx f).stopsWith q f.status) := by
  obtain hmay | hstop := h
  · by_cases hp : p = q
    · subst hp
      have hfail := failCmd_stopsWith idx f hmay
      exact ⟨.inr hfail, fun _ => hfail⟩
    · refine ⟨.inl ?_, fun h => absurd h hp⟩
      unfold State.mayFail
      rw [(StopLeaves.failCmd s p idx f).others q (Ne.symm hp)]
      exact hmay
  · have hkeep := (Stops.failCmd s p idx f).stopped q _ hstop
    exact ⟨.inr hkeep, fun _ => hkeep⟩

theorem abort_fallsWith {s : State} {q p : Nat} (f : FaultInfo) (h : s.fallsWith q f.status) :
    (s.abort p f).fallsWith q f.status ∧ (p = q → (s.abort p f).stopsWith q f.status) := failCmd_fallsWith _ f h

/-- Of queues that are aborted one after another for faults of one status, each that could fail stops with it. -/
theorem foldl_abort_stopsWith {g : State → Nat → FaultInfo} {st : Byte} (hg : ∀ a q, (g a q).status = st) {qs : List Nat} {s : State}
    {q : Nat} (hq : q ∈ qs) (h : s.fallsWith q st) : (qs.foldl (fun a q => a.abort q (g a q)) s).stopsWith q st := by
  induction qs generalizing s with
  | nil => cases hq
  | cons p qs ih =>
    obtain ⟨hfall, hself⟩ := abort_fallsWith (p := p) (g s p) ((hg s p).symm ▸ h)
    rw [hg] at hfall hself
    rw [List.foldl_cons]
    obtain rfl | hq := List.mem_cons.1 hq
    · exact foldl_keeps (P := fun a => a.stopsWith q st) (fun a p ha => (Stops.abort a p _).stopped q st ha) qs (hself rfl)
    · exact ih hq hfall

theorem foldl_mem {α β : Type} {g : List α → β → List α} {x : α} (h : ∀ a y, x ∈ a → x ∈ g a y) (l : List β) {a : List α}
    (ha : x ∈ a) : x ∈ l.foldl g a := by
  induction l generalizing a with
  | nil => exact ha
  | cons y l ih => exact ih (h a y ha)

/-- One more element is kept, unless it is there. -/
def keepFirst {α : Type} [BEq α] (a : List α) (x : α) : List α :=
  match a with
  | y :: _ => if y == x || a.contains x then a else x :: a
  | [] => [x]

theorem firsts_eq {α : Type} [BEq α] (l : List α) : firsts l = (l.foldl keepFirst []).reverse := rfl

theorem mem_keepFirst {α : Type} [BEq α] [LawfulBEq α] (a : List α) (x : α) :
    x ∈ keepFirst a x ∧ ∀ y ∈ a, y ∈ keepFirst a x := by
  unfold keepFirst
  cases a with
  | nil => simp
  | cons z a =>
    dsimp only
    split
    next h =>
      refine ⟨?_, fun _ hy => hy⟩
      rw [Bool.or_eq_true, beq_iff_eq, List.contains_iff_mem] at h
      obtain rfl | h := h
      · exact List.mem_cons_self ..
      · exact h
    next => exact ⟨List.mem_cons_self .., fun _ hy => List.mem_cons_of_mem _ hy⟩

/-- Keeping the first of each loses none. -/
theorem mem_firsts {α : Type} [BEq α] [LawfulBEq α] {l : List α} {x : α} (h : x ∈ l) : x ∈ firsts l := by
  suffices hl : ∀ a, x ∈ l.foldl keepFirst a by
    rw [firsts_eq, List.mem_reverse]
    exact hl []
  induction l with
  | nil => cases h
  | cons y l ih =>
    intro a
    rw [List.foldl_cons]
    obtain rfl | h := List.mem_cons.1 h
    · exact foldl_mem (fun b z hb => (mem_keepFirst b z).2 _ hb) l (mem_keepFirst a x).1
    · exact ih h _

end Sys2Proof.Machine
end

section
/-!
PROOFS. Memory links and credits (R31, R32, R40), and the end of an exit from N2 that waits for links (R360).
-/

namespace Sys2Proof.Machine

-- Bits of a register.

/-- A bit that is put reads as put. -/
theorem State.putBit_flag (s : State) (off i : Nat) (v : Bool) (hi : i < 32) : (s.putBit off i v).flag off i = v := by
  unfold State.putBit
  cases v
  · simp only [State.flag, Bool.false_eq_true, if_false, State.clearBits_reg_same, bitAt, oneBit, BitVec.getLsbD_and,
      BitVec.getLsbD_not, BitVec.getLsbD_ofNat, Nat.testBit_two_pow, hi]
    simp
  · exact State.raiseEvent_flag_same s off i hi

theorem State.putBit_regsBut (s : State) (off i : Nat) (v : Bool) : s.regsBut (s.putBit off i v) [off] := by
  unfold State.putBit
  split
  · exact s.raiseEvent_regsBut off i
  · exact s.clearBits_regsBut off _

theorem State.putBit_eq (s : State) (off i : Nat) (v : Bool) : s.putBit off i v = { s with regs := (s.putBit off i v).regs } := by
  unfold State.putBit
  split <;> rfl

-- A port is written.

theorem mports_lt (cfg : ConfigPoint) : cfg.mports ≤ 16 := by
  cases cfg <;> decide

-- What the replies of the Steward leave.

/-- Writing the Steward's replies leaves the memory ports and PWR_EVENTS. -/
structure RepliesKept (s t : State) : Prop where
  mports : t.mports = s.mports
  events : t.reg offPwrEvents = s.reg offPwrEvents

namespace RepliesKept
variable {s t u : State}

theorem same (hm : t.mports = s.mports) (hr : t.regs = s.regs) : RepliesKept s t :=
  ⟨hm, State.reg_of_regs (congrArg (fun b => b.get offPwrEvents) hr)⟩

theorem refl (s : State) : RepliesKept s s := same rfl rfl

theorem trans (h : RepliesKept s t) (k : RepliesKept t u) : RepliesKept s u :=
  ⟨k.mports.trans h.mports, k.events.trans h.events⟩

theorem foldl {β : Type} {g : State → β → State} (h : ∀ a x, RepliesKept a (g a x)) (l : List β) (s : State) :
    RepliesKept s (l.foldl g s) :=
  foldl_keeps (P := RepliesKept s) (fun a x ha => ha.trans (h a x)) l (refl s)

theorem setReg (s : State) {off : Nat} (v : Word) (h : off ≠ offPwrEvents) : RepliesKept s (s.setReg off v) :=
  ⟨rfl, s.setReg_reg_other v h.symm⟩

theorem raiseQueue (s : State) (q i : Nat) : RepliesKept s (s.raiseQueue q i) :=
  setReg s _ (by simp only [offQ, qEvents, offPwrEvents]; omega)

theorem trace (s : State) (ty u : Nat) (q : Option Nat) (p : Nat) : RepliesKept s (s.trace ty u q p) :=
  ⟨by rw [trace_eq], trace_regsBut s ty u q p _ (by decide)⟩

theorem setQueue (s : State) (q : Nat) (v : Queue) : RepliesKept s (s.setQueue q v) := same rfl rfl

theorem settle (s : State) (q : Nat) : RepliesKept s (s.settle q) := by
  unfold State.settle
  dsimp only
  split
  · exact same rfl rfl
  · exact refl s

theorem endCmd (s : State) (q : Nat) (c : Cmd) : RepliesKept s (s.endCmd q c) := by
  unfold State.endCmd State.closeCmd
  refine trans ?_ (settle _ q)
  refine trans ?_ (setQueue _ q _)
  refine trans ?_ (setQueue _ q _)
  exact (trace s _ _ _ _).trans (setQueue _ q _)

theorem failCmd (s : State) (q : Nat) (idx : BitVec 16) (f : FaultInfo) : RepliesKept s (s.failCmd q idx f) :=
  ⟨(StopLeaves.failCmd s q idx f).mports, (Stops.failCmd s q idx f).regs _ (by decide)⟩

theorem raises (s : State) (q i : Nat) (c : Bool) : RepliesKept s (if c then s.raiseQueue q i else s) := by
  cases c
  · exact refl s
  · exact raiseQueue s q i

theorem noteActs (s : State) (n : Note) (bad : Bool) : RepliesKept s (s.noteActs n bad) := by
  cases n with
  | done q irq marker =>
    unfold State.noteActs
    dsimp only
    have hraise := (raises s q 5 bad).trans (raises _ q 0 irq)
    split
    · split
      · exact hraise.trans (endCmd _ q _)
      · exact hraise
    · exact hraise
  | fault q => exact raises s q 4 bad
  | log _ =>
    cases bad
    · exact refl s
    · exact setReg s _ (by decide)
  | load => exact setReg s _ (by decide)
  | tally => exact (setReg s (off := offTlyStatus) _ (by decide)).trans (same rfl rfl)
  | snap q _ => cases bad <;> exact same rfl rfl
  | reply _ _ => cases bad <;> exact same rfl rfl

theorem recordPart (s : State) (rid id : Nat) (bad : Bool) : RepliesKept s (s.recordPart rid id bad) := by
  unfold State.recordPart
  split
  · exact refl s
  · dsimp only
    split
    · refine trans ?_ (noteActs _ _ _)
      exact same rfl rfl
    · exact same rfl rfl

theorem recordFails (s : State) (rid id : Nat) (f : FaultInfo) : RepliesKept s (s.recordFails rid id f) := by
  unfold State.recordFails
  split
  · split
    · refine trans ?_ (failCmd _ _ _ _)
      exact same rfl rfl
    · exact recordPart s _ _ _
  · exact refl s

theorem sendReq (s : State) (r : Req) (p : ReqPath) : RepliesKept s (s.sendReq r p) := by
  have hlane : (s.leavesLane r).regs = s.regs := by
    unfold State.leavesLane
    split
    · split <;> rfl
    · rfl
  refine same (StopLeaves.sendReq 0 s r p).mports ?_
  cases p with
  | hold | gone | fail _ => rfl
  | enter | cross => exact hlane

theorem sendPart (s : State) (r : Req) : RepliesKept s (s.sendPart r) := by
  unfold State.sendPart
  split
  · exact recordFails s _ _ _
  · exact sendReq s r _

theorem stwReply (s : State) (p : Nat) (req : BitVec 512) (st : StwStatus) (extra : Nat) :
    RepliesKept s (s.stwReply p req st extra) := by
  unfold State.stwReply State.writeRecord
  refine trans ?_ (foldl (fun a x => sendPart a _) _ _)
  exact same rfl rfl

theorem answerPower (s : State) (which : PowerReq → Bool) (st : StwStatus) : RepliesKept s (s.answerPower which st) := by
  unfold State.answerPower
  refine trans ?_ (foldl (fun a r => stwReply a _ _ _ _) _ _)
  exact same rfl rfl

theorem powerKick (s : State) : RepliesKept s s.powerKick := by
  unfold State.powerKick
  (repeat' split) <;> exact same rfl rfl

end RepliesKept

/-- A bit of PWR_EVENTS that is raised is set, and the memory ports are left. -/
theorem raisePower_sets (s : State) {i : Nat} (hi : i < 32) :
    (s.raisePower i).flag offPwrEvents i = true ∧ (s.raisePower i).mports = s.mports := by
  have hset := s.raiseEvent_flag_same offPwrEvents i hi
  unfold State.raisePower
  dsimp only
  split <;> exact ⟨hset, rfl⟩

/-- A transition that has reached its state says so, and leaves the memory ports (R363). -/
theorem transitionDone_sets (s : State) :
    s.transitionDone.flag offPwrEvents 0 = true ∧ s.transitionDone.mports = s.mports := by
  obtain ⟨hset, hports⟩ := raisePower_sets s (i := 0) (by decide)
  have hkept : RepliesKept (s.raisePower 0) s.transitionDone := by
    unfold State.transitionDone
    dsimp only
    refine RepliesKept.trans ?_ (.powerKick _)
    split
    · refine RepliesKept.trans ?_ (.answerPower _ _ _)
      exact .same rfl rfl
    · exact .same rfl rfl
  exact ⟨(congrArg (fun w => bitAt w 0) hkept.events).trans hset, hkept.mports.trans hports⟩

-- The end of a wait for links.

theorem wakeGoes_noLinkWait {s : State} (h : s.noLinkWait) : s.wakeGoes = s := by
  unfold State.wakeGoes
  split
  next ps hps => exact absurd hps (h ps)
  next => rfl

/-- Once the last link has settled the ramp begins, or N1 is reached (R360, log 102). -/
theorem wakeGoes_settled {s : State} {ps : List LinkPort} (hp : s.power.phase = .linkUp ps)
    (h : ∀ x ∈ ps, s.linkSettled x = true) : s.wakeGoes.mports = s.mports ∧
      (s.target = 0 → s.wakeGoes.power.phase = .ramp 0 ∧ s.wakeGoes.pins.loadup = true) ∧
      (s.target ≠ 0 → s.wakeGoes.flag offPwrEvents 0 = true) := by
  have hall : ps.all s.linkSettled = true := List.all_eq_true.2 h
  have hgo : s.wakeGoes = if s.target = 0 then s.beginRamp else ((s.setPhase .rest).putWakeCyc).transitionDone := by
    unfold State.wakeGoes
    simp only [hp, hall]
    rfl
  rw [hgo]
  split
  next ht => exact ⟨rfl, fun _ => ⟨rfl, rfl⟩, fun hne => absurd ht hne⟩
  next hne =>
    obtain ⟨hset, hports⟩ := transitionDone_sets (s.setPhase .rest).putWakeCyc
    exact ⟨hports, fun ht => absurd ht hne, fun _ => hset⟩

-- The links.

/-- The partner's LINK_ACK has risen. -/
def State.mlinkUp (s : State) (p : Nat) : State :=
  (s.updMport p (fun v => { v with linkAck := true })).putBit offMportLink p true

theorem mlinkUp_mports (s : State) (p : Nat) : (s.mlinkUp p).mports = s.mports.set p { s.mport p with linkAck := true } := by
  unfold State.mlinkUp
  rw [State.putBit_eq]
  rfl

theorem mlinkUp_mport (s : State) (p : Nat) : (s.mlinkUp p).mport p = { s.mport p with linkAck := true } := by
  simp [State.mport, mlinkUp_mports]

theorem mlinkUp_mport_other (s : State) {p j : Nat} (h : j ≠ p) : (s.mlinkUp p).mport j = s.mport j := by
  simp [State.mport, mlinkUp_mports, Bank.get_set_other _ h]

theorem mlinkUp_eq (s : State) (p : Nat) :
    s.mlinkUp p = { s with mports := (s.mlinkUp p).mports, regs := (s.mlinkUp p).regs } := by
  unfold State.mlinkUp
  rw [State.putBit_eq]
  rfl

theorem mlinkUp_regsBut (s : State) (p : Nat) : s.regsBut (s.mlinkUp p) [offMportLink] :=
  State.putBit_regsBut (s.updMport p _) offMportLink p true

/-- The link that comes up is settled, and every settled one stays settled. -/
theorem mlinkUp_settled {s : State} {p : Nat} {x : LinkPort} (h : x = .mem p ∨ s.linkSettled x = true) :
    (s.mlinkUp p).linkSettled x = true := by
  cases x with
  | mem j =>
    by_cases hj : j = p
    · subst hj
      simp [State.linkSettled, mlinkUp_mport]
    · obtain h | h := h
      · exact absurd (LinkPort.mem.inj h) hj
      · simpa [State.linkSettled, mlinkUp_mport_other s hj] using h
  | client c =>
    have hc := h.resolve_left (by simp)
    rw [mlinkUp_eq]
    exact hc
  | remote c =>
    have hc := h.resolve_left (by simp)
    rw [mlinkUp_eq]
    exact hc

theorem memLinkAckRise_runs {s : State} {p : Nat} (ha : s.alive = true) (hp : p < s.cfg.mports)
    (hreq : (s.mport p).linkReq = true) (hack : (s.mport p).linkAck = false) (habs : (s.mport p).absent = false) :
    execMemLinkAckRise p s = .next (s.mlinkUp p).wakeGoes := by
  unfold execMemLinkAckRise
  exact whenever_pos (by simp [State.mportAlive, ha, hp, hreq, hack, habs]) _ _

theorem memLinkAbsent_runs {s : State} {p : Nat} (ha : s.alive = true) (hp : p < s.cfg.mports)
    (hreq : (s.mport p).linkReq = true) (hack : (s.mport p).linkAck = false) :
    execMemLinkAbsent p s = .next (s.updMport p (fun v => { v with absent := true })).wakeGoes := by
  unfold execMemLinkAbsent
  exact whenever_pos (by simp [State.mportAlive, ha, hp, hreq, hack]) _ _

/-- Returned credits are added, up to the largest number of their range (R31, R32). -/
theorem memCreditReturn_runs {s : State} {p : Nat} (rc : BitVec 3) (wc : BitVec 2) (ha : s.alive = true)
    (hp : p < s.cfg.mports) (hack : (s.mport p).linkAck = true) :
    execMemCreditReturn p rc wc s = .next (s.updMport p (fun v => { v with
      reqCred := min 255 (v.reqCred + rc.toNat), wdCred := min 511 (v.wdCred + wc.toNat) })) := by
  unfold execMemCreditReturn
  exact whenever_pos (by simp [State.mportAlive, ha, hp, hack]) _ _

/-- Settles O28: a link that rises is marked and settles; without a wait for links nothing follows. -/
theorem memoryLinksAndCreditsAreKept : Obligations.MemoryLinksAndCreditsAreKept := by
  unfold Obligations.MemoryLinksAndCreditsAreKept
  intro s p ha hp
  refine ⟨fun hreq hack habs ps hph hps => ?last, fun hno hreq hack habs => ?rises, fun hno hreq hack => ?absent,
    fun rc wc hack => ?credits⟩
  case last =>
    have hph' : (s.mlinkUp p).power.phase = .linkUp ps := by rw [mlinkUp_eq]; exact hph
    have htarget : (s.mlinkUp p).target = s.target :=
      congrArg (fun w => bits w 0 2) (mlinkUp_regsBut s p offPwrCtrl (by decide))
    obtain ⟨hports, hramp, hdone⟩ := wakeGoes_settled hph' (fun x hx => mlinkUp_settled (hps x hx))
    rw [htarget] at hramp hdone
    refine ⟨_, memLinkAckRise_runs ha hp hreq hack habs, ?_, hramp, hdone⟩
    have hport : (s.mlinkUp p).wakeGoes.mport p = (s.mlinkUp p).mport p := congrArg (fun b => b.get p) hports
    rw [hport, mlinkUp_mport]
  case rises =>
    have hno' : (s.mlinkUp p).noLinkWait := by rw [mlinkUp_eq]; exact hno
    refine ⟨_, memLinkAckRise_runs ha hp hreq hack habs, ?_⟩
    rw [wakeGoes_noLinkWait hno']
    refine ⟨mlinkUp_mport s p, ?_, mlinkUp_regsBut s p, fun j hj => mlinkUp_mport_other s hj, ?_⟩
    · exact State.putBit_flag _ _ _ _ (by have := mports_lt s.cfg; omega)
    · rw [mlinkUp_eq]
  case absent =>
    exact (memLinkAbsent_runs ha hp hreq hack).trans (congrArg _ (wakeGoes_noLinkWait hno))
  case credits => exact memCreditReturn_runs rc wc ha hp hack

end Sys2Proof.Machine
end

section
/-!
PROOFS. Requests and write data leave their memory port (R22, R24, R28, R29, R32).
-/

namespace Sys2Proof.Machine

-- A request is issued.

/-- A request as it is outstanding under its tag (R28, R29). -/
def State.outUnder (s : State) (r : Req) (tag : BitVec 17) : OutReq :=
  ⟨{ r with slot := none }, tag, s.seqs.get r.stream, (s.tagShare r).getD false, [], [], false, false, false⟩

/-- The request is outstanding under its tag, and its stream's SEQ advances. -/
def State.reqTaken (s : State) (r : Req) (tag : BitVec 17) : State :=
  { s with
    waiting := s.waiting.filter (fun w => w.id != r.id)
    outs := s.outs ++ [s.outUnder r tag]
    seqs := s.seqs.set r.stream (s.seqs.get r.stream + 1) }

/-- A read's tag is stored in its bank, where an injection may be armed. -/
def State.tagStored (s : State) (r : Req) (tag : BitVec 17) : State :=
  if isWriteOp r.op then s else s.stored 2 r.east (tag.toNat % 65536 / 8192)

theorem tagStored_eq (s : State) (r : Req) (tag : BitVec 17) :
    s.tagStored r tag = { s with regs := (s.tagStored r tag).regs, rel := (s.tagStored r tag).rel } := by
  unfold State.tagStored
  split
  · rfl
  · exact stored_eq s _ _ _

theorem tagStored_regsBut (s : State) (r : Req) (tag : BitVec 17) : s.regsBut (s.tagStored r tag) [offRelInject] := by
  unfold State.tagStored
  split
  · exact fun _ _ => rfl
  · exact stored_regsBut s _ _ _

theorem issueReq_eq (s : State) (p : Nat) (k : BitVec 2) (r : Req) (tag : BitVec 17) : s.issueReq p k r tag =
    ((((s.reqTaken r tag).tagStored r tag).updMport p (fun v => { v with reqCred := v.reqCred - 1 })).drive
      (.memReq p k r.op r.pa r.len tag r.asid r.prio (s.seqs.get r.stream))).trace 1 (unitMport p) r.q
        (reqPayload p tag (s.seqs.get r.stream) r.op r.q r.pa) := rfl

/-- The request has gone out on its slot: it is outstanding under the tag, and a credit is spent. -/
structure Issued (s t : State) (p : Nat) (k : BitVec 2) (r : Req) (tag : BitVec 17) : Prop where
  eq : t = { s.reqTaken r tag with
    mports := s.mports.set p { s.mport p with reqCred := (s.mport p).reqCred - 1 }
    out := .memReq p k r.op r.pa r.len tag r.asid r.prio (s.seqs.get r.stream) :: s.out
    larder := t.larder, regs := t.regs, rel := t.rel, tally := t.tally }
  regs : s.regsBut t [offTlyTraceDrop, offRelInject]

theorem issueReq_issued (s : State) (p : Nat) (k : BitVec 2) (r : Req) (tag : BitVec 17) :
    Issued s (s.issueReq p k r tag) p k r tag where
  eq := by
    rw [issueReq_eq, trace_eq, tagStored_eq]
    rfl
  regs off ho := by
    simp only [List.mem_cons, not_or, List.not_mem_nil, not_false_eq_true, and_true] at ho
    rw [issueReq_eq, trace_regsBut _ _ _ _ _ off (by simp [ho.1])]
    exact tagStored_regsBut (s.reqTaken r tag) r tag off (by simp [ho.2])

/-- A picked request that may issue goes out; a write spoils installs, which are the Larder's (R276). -/
theorem issueOn_issued {s : State} {p : Nat} {k : BitVec 2} {op : BitVec 3} {r : Req} {tag : BitVec 17}
    (hr : s.pickedReq p k op = some r) (hm : s.mayIssue p r tag = true) :
    ∃ t, s.issueOn p k op tag = .next t ∧ Issued s t p k r tag := by
  obtain ⟨heq, hregs⟩ := issueReq_issued s p k r tag
  unfold State.issueOn
  simp only [hr]
  refine ⟨_, whenever_pos hm _ _, ?_⟩
  split
  · exact ⟨by rw [State.spoilInstalls, heq], hregs⟩
  · exact ⟨heq, hregs⟩

/-- Every request instruction issues the request picked for its opcode. -/
theorem exec_issueOn {s : State} {p : Nat} {k : BitVec 2} {tag : BitVec 17} {op : BitVec 3} {c : Instr}
    (h : (op, c) ∈ [(0#3, Instr.read p k tag), (1#3, .write p k tag), (2#3, .writeFinal p k tag),
      (3#3, .atomicAddFp32 p k tag), (4#3, .atomicAddBf16 p k tag)]) : exec c s = s.issueOn p k op tag := by
  simp only [List.mem_cons, Prod.mk.injEq, List.not_mem_nil, or_false] at h
  obtain ⟨rfl, rfl⟩ | ⟨rfl, rfl⟩ | ⟨rfl, rfl⟩ | ⟨rfl, rfl⟩ | ⟨rfl, rfl⟩ := h <;> rfl

-- A beat of write data.

/-- The bytes of a request in a quarter of its window. -/
def Req.beatBytes (r : Req) (ofs : BitVec 2) : List (Nat × Byte) := r.bytes.filter (fun b => r.inQuarter ofs b.1)

/-- A beat of a quarter that has had none goes out and spends a credit (R24, R32). -/
theorem writeDataBeat_runs {s : State} {p : Nat} {j : BitVec 1} {tag : BitVec 17} {ofs : BitVec 2} {o : OutReq}
    (ha : s.alive = true) (hup : s.mportUp p = true) (ho : s.outOn p true tag = some o)
    (hq : o.req.quarters.contains ofs = true) (hb : o.beats.contains ofs = false) (hc : 0 < (s.mport p).wdCred) :
    execWriteDataBeat p j tag ofs s = .next
      ((((s.updOut o (fun x => { x with beats := x.beats ++ [ofs] })).updMport p (fun v => { v with
        wdCred := v.wdCred - 1 })).drive (.memData p j tag ofs (o.req.beatBytes ofs))).count (unitMport p) 0x04 0
          (o.req.beatBytes ofs).length) := by
  have hp : p < s.cfg.mports := by
    simp only [State.mportUp, Bool.and_eq_true, decide_eq_true_eq] at hup
    exact hup.1.1
  unfold execWriteDataBeat
  simp only [ho]
  exact whenever_pos (by simp only [State.mportAlive, ha, hp, hup, hq, hb, hc]; rfl) _ _

/-- Settles O30: a request instruction issues the request picked for it, a beat goes out for a quarter without one. -/
theorem requestsAndBeatsAreSent : Obligations.RequestsAndBeatsAreSent := by
  unfold Obligations.RequestsAndBeatsAreSent
  refine ⟨fun s p k tag op c hc r hr hm => ?request, fun s p j tag ofs o ha hup ho hq hb hcred => ?beat⟩
  case request =>
    obtain ⟨t, hstep, heq, hregs⟩ := issueOn_issued hr hm
    refine ⟨t, (exec_issueOn hc).trans hstep, ?_⟩
    rw [heq] at hregs ⊢
    refine ⟨rfl, rfl, ?_, ?_, rfl, hregs, rfl, rfl, rfl, rfl⟩
    · simp [State.reqTaken]
    · simp [State.mport]
  case beat =>
    refine ⟨_, writeDataBeat_runs ha hup ho hq hb hcred, ?_⟩
    rw [count_eq]
    refine ⟨?_, ?_, rfl, rfl, rfl⟩
    · simp [State.mport, State.updMport, State.updOut, State.drive]
    · simp [State.mport, State.updMport, State.updOut, State.drive]

end Sys2Proof.Machine
end

section
/-!
PROOFS. Client links and push credits (R43, R49, R52), and the messages of the semaphore sideband (R42, R209).
-/

namespace Sys2Proof.Machine

-- Messages that go out.

/-- Messages have gone out at ports whose links are up, and were counted; nothing else changed. -/
structure Announced (s t : State) : Prop where
  eq : t = { s with out := t.out, tally := t.tally }
  out : ∀ m ∈ s.out, m ∈ t.out

namespace Announced
variable {s t u : State}

theorem refl (s : State) : Announced s s := ⟨rfl, fun _ h => h⟩

theorem trans (h : Announced s t) (k : Announced t u) : Announced s u where
  eq := by rw [k.eq, h.eq]
  out m hm := k.out m (h.out m hm)

theorem cportUp (h : Announced s t) (c : Nat) : t.cportUp c = s.cportUp c := by rw [h.eq]; rfl

theorem sem (h : Announced s t) (i : Nat) : t.sem i = s.sem i := by rw [h.eq]; rfl

end Announced

/-- A message to a port whose link is up goes out. -/
theorem sendSemo_up {s : State} {i : Nat} (h : s.cportUp (semPort i) = true) (op : BitVec 2) (cnt : BitVec 20) :
    Announced s (s.sendSemo i op cnt) ∧ Out.semo (semPort i) ⟨op, BitVec.ofNat 6 (i % 48), cnt⟩ ∈ (s.sendSemo i op cnt).out := by
  have hsend : s.sendSemo i op cnt =
      (s.drive (.semo (semPort i) ⟨op, BitVec.ofNat 6 (i % 48), cnt⟩)).count (unitCport (semPort i)) 0x04 0 1 := by
    unfold State.sendSemo
    exact if_pos h
  rw [hsend, count_eq]
  exact ⟨⟨rfl, fun _ hm => List.mem_cons_of_mem _ hm⟩, List.mem_cons_self ..⟩

theorem sendFull_up {s : State} {i : Nat} (h : s.cportUp (semPort i) = true) :
    Announced s (s.sendFull i) ∧ ((s.sem i).count ≠ 0#20 →
      Out.semo (semPort i) ⟨0#2, BitVec.ofNat 6 (i % 48), (s.sem i).count⟩ ∈ (s.sendFull i).out) := by
  unfold State.sendFull
  split
  next hz => exact ⟨.refl s, fun hne => absurd (beq_iff_eq.1 hz) hne⟩
  next => exact ⟨(sendSemo_up h _ _).1, fun _ => (sendSemo_up h _ _).2⟩

/-- The client knows the latched state of a semaphore: FAULT, INC with the COUNT, and POISON where R211 asks for it (R49). -/
def State.knows (s t : State) (i : Nat) (poison : Bool) : Prop :=
  Out.semo (semPort i) ⟨2#2, BitVec.ofNat 6 (i % 48), 0#20⟩ ∈ t.out ∧
    ((s.sem i).count ≠ 0#20 → Out.semo (semPort i) ⟨0#2, BitVec.ofNat 6 (i % 48), (s.sem i).count⟩ ∈ t.out) ∧
    (poison = true → Out.semo (semPort i) ⟨1#2, BitVec.ofNat 6 (i % 48), 0#20⟩ ∈ t.out)

theorem State.knows.later {s t u : State} {i : Nat} {poison : Bool} (h : s.knows t i poison) (k : Announced t u) :
    s.knows u i poison :=
  ⟨k.out _ h.1, fun hc => k.out _ (h.2.1 hc), fun hp => k.out _ (h.2.2 hp)⟩

/-- A semaphore's part of the link-up sequence (R49). -/
theorem linkUpSem_up {s : State} {i : Nat} (h : s.cportUp (semPort i) = true) (poison : Bool) :
    Announced s (s.linkUpSem i poison) ∧ s.knows (s.linkUpSem i poison) i poison := by
  obtain ⟨a, ha, hs, hmem⟩ : ∃ a, s.linkUpSem i poison = (a.sendSemo i 2#2 0#20).sendFull i ∧ Announced s a ∧
      (poison = true → Out.semo (semPort i) ⟨1#2, BitVec.ofNat 6 (i % 48), 0#20⟩ ∈ a.out) := by
    cases poison
    · exact ⟨s, rfl, .refl s, fun h => Bool.noConfusion h⟩
    · exact ⟨_, rfl, (sendSemo_up h _ _).1, fun _ => (sendSemo_up h _ _).2⟩
  obtain ⟨hb, hfault⟩ := sendSemo_up (s := a) (by rw [hs.cportUp]; exact h) 2#2 0#20
  have hsb := hs.trans hb
  obtain ⟨hc, hinc⟩ := sendFull_up (s := a.sendSemo i 2#2 0#20) (by rw [hsb.cportUp]; exact h)
  rw [hsb.sem] at hinc
  rw [ha]
  exact ⟨hsb.trans hc, hc.out _ hfault, hinc, fun hp => hc.out _ (hb.out _ (hmem hp))⟩

/-- The link-up sequence of a port tells it of each of its semaphores. -/
theorem linkUpSems_up {c : Nat} {l : List Nat} (hl : ∀ n ∈ l, semPort (48 * c + n) = c) (poison : Bool) {s : State}
    (h : s.cportUp c = true) : Announced s (l.foldl (fun a n => a.linkUpSem (48 * c + n) poison) s) ∧
      ∀ n ∈ l, s.knows (l.foldl (fun a n => a.linkUpSem (48 * c + n) poison) s) (48 * c + n) poison := by
  induction l generalizing s with
  | nil => exact ⟨.refl s, fun _ hn => nomatch hn⟩
  | cons n l ih =>
    obtain ⟨hfirst, hknows⟩ := linkUpSem_up (i := 48 * c + n) (by rwa [hl n (List.mem_cons_self ..)]) poison
    obtain ⟨hrest, hothers⟩ := ih (fun m hm => hl m (List.mem_cons_of_mem _ hm)) (by rwa [hfirst.cportUp])
    rw [List.foldl_cons]
    refine ⟨hfirst.trans hrest, fun m hm => ?_⟩
    obtain rfl | hm := List.mem_cons.1 hm
    · exact hknows.later hrest
    · have hm' := hothers m hm
      unfold State.knows at hm' ⊢
      rwa [hfirst.sem] at hm'

-- A link comes up.

theorem cports_lt (cfg : ConfigPoint) : cfg.cports ≤ 32 := by
  cases cfg <;> decide

/-- The client's LINK_ACK has risen: its credits are there, and the messages held for it are dropped (R43, R52). -/
def State.clinkUp (s : State) (c : Nat) (crd : BitVec 7) : State :=
  { (s.updCport c (fun v => { v with
      linkAck := true, credits := min 64 crd.toNat, heldSemo := [], poisonDue := false })).putBit offCportLink c true with
    incsDue := s.incsDue.filter (fun m => semPort m.1 != c) }

theorem clinkUp_eq (s : State) (c : Nat) (crd : BitVec 7) : s.clinkUp c crd = { s with
    cports := s.cports.set c { s.cport c with
      linkAck := true, credits := min 64 crd.toNat, heldSemo := [], poisonDue := false }
    regs := (s.clinkUp c crd).regs, incsDue := (s.clinkUp c crd).incsDue } := by
  unfold State.clinkUp
  rw [State.putBit_eq]
  rfl

theorem clinkUp_link {s : State} {c : Nat} (crd : BitVec 7) (hc : c < s.cfg.cports) :
    (s.clinkUp c crd).cportUp c = true :=
  State.putBit_flag (s.updCport c _) offCportLink c true (by have := cports_lt s.cfg; omega)

theorem clinkUp_regsBut (s : State) (c : Nat) (crd : BitVec 7) : s.regsBut (s.clinkUp c crd) [offCportLink] :=
  State.putBit_regsBut (s.updCport c _) offCportLink c true

/-- A client link that comes up runs its link-up sequence (R49). -/
theorem clientLinkUp_runs {s : State} {c : Nat} {crd : BitVec 7} (ha : s.alive = true) (hc : c < s.cfg.cports)
    (hreq : (s.cport c).linkReq = true) (hack : (s.cport c).linkAck = false) :
    execClientLinkUp c crd s = .next (((List.range 48).foldl (fun a n => a.linkUpSem (48 * c + n) (s.cport c).poisonDue)
      (s.clinkUp c crd)).wakeGoes) := by
  unfold execClientLinkUp
  refine (whenever_pos (by simp [ha, hc, hreq, hack]) _ _).trans ?_
  rw [State.clinkUp, State.putBit_eq]
  rfl

-- A link falls.

/-- A link that the engine lowered is down (R360). -/
def State.clinkLowered (s : State) (c : Nat) : State :=
  (s.updCport c (fun v => { v with linkAck := false, credits := 0 })).putBit offCportLink c false

theorem clinkLowered_eq (s : State) (c : Nat) : s.clinkLowered c = { s with
    cports := s.cports.set c { s.cport c with linkAck := false, credits := 0 }, regs := (s.clinkLowered c).regs } := by
  unfold State.clinkLowered
  rw [State.putBit_eq]
  rfl

theorem handOver_noDrop {s : State} (h : s.power.phase ≠ .linkDrop) : s.handOver = s := by
  unfold State.handOver
  exact if_neg (by simp [h])

theorem clientLinkDown_lowered {s : State} {c : Nat} (ha : s.alive = true) (hc : c < s.cfg.cports)
    (hack : (s.cport c).linkAck = true) (hreq : (s.cport c).linkReq = false) (hp : s.power.phase ≠ .linkDrop) :
    execClientLinkDown c s = .next (s.clinkLowered c) := by
  have hphase : (s.clinkLowered c).power.phase ≠ .linkDrop := by rw [clinkLowered_eq]; exact hp
  unfold execClientLinkDown
  refine (whenever_pos (by simp [ha, hc, hack]) _ _).trans (congrArg Host.Outcome.next ?_)
  rw [hreq, State.dropClient]
  exact handOver_noDrop hphase

/-- The fills towards the port leave the Corridor. -/
def State.corFillsGone (s : State) (c : Nat) : State :=
  { s with corridor := { s.corridor with
    toEast := s.corridor.toEast.each (fun _ l => l.filter (fun i => !i.fillFor c))
    toWest := s.corridor.toWest.each (fun _ l => l.filter (fun i => !i.fillFor c)) } }

/-- A link that fell is down: its credits and its fills are gone, and the event is raised (R52). -/
def State.clinkFallen (s : State) (c : Nat) : State :=
  (((s.updCport c (fun v => { v with linkAck := false, credits := 0, fills := [], await := [] })).corFillsGone c).putBit
    offCportLink c false).raiseEvent offRelEvents 8

/-- The queues whose fills a falling link takes. -/
def State.fillQueues (s : State) (c : Nat) : List Nat :=
  firsts (((s.cport c).fills ++ (s.cport c).await ++ s.corFills c).map (fun f => f.q))

theorem clientLinkDown_fallen {s : State} {c : Nat} (ha : s.alive = true) (hc : c < s.cfg.cports)
    (hack : (s.cport c).linkAck = true) (hreq : (s.cport c).linkReq = true) : execClientLinkDown c s =
      .next (((s.fillQueues c).foldl (fun a q => a.abort q (a.cportFault c)) (s.clinkFallen c)).sweep) := by
  unfold execClientLinkDown
  refine (whenever_pos (by simp [ha, hc, hack]) _ _).trans (congrArg Host.Outcome.next ((if_neg ?_).trans ?_))
  · simp [hreq]
  · refine congrArg State.sweep ?_
    unfold State.clinkFallen
    rfl

theorem clinkFallen_eq (s : State) (c : Nat) : s.clinkFallen c = { s with
    cports := s.cports.set c { s.cport c with linkAck := false, credits := 0, fills := [], await := [] }
    corridor := (s.clinkFallen c).corridor, regs := (s.clinkFallen c).regs } := by
  have hbit := State.putBit_eq ((s.updCport c (fun v =>
    { v with linkAck := false, credits := 0, fills := [], await := [] })).corFillsGone c) offCportLink c false
  unfold State.clinkFallen
  generalize State.putBit _ offCportLink c false = b at hbit ⊢
  rw [hbit]
  rfl

theorem clinkFallen_flags {s : State} {c : Nat} (hc : c < s.cfg.cports) :
    (s.clinkFallen c).flag offCportLink c = false ∧ (s.clinkFallen c).flag offRelEvents 8 = true := by
  refine ⟨?_, State.raiseEvent_flag_same _ _ _ (by decide)⟩
  unfold State.clinkFallen State.flag
  rw [State.raiseEvent_regsBut _ _ _ _ (by decide)]
  exact State.putBit_flag _ offCportLink c false (by have := cports_lt s.cfg; omega)

/-- The queues of the fills stop, one after another; the port stays as the fall has left it. -/
theorem fillQueues_stop {s : State} {c : Nat} (hc : c < s.cfg.cports) (hidle : s.noLaneWork) {t : State}
    (ht : t = (s.fillQueues c).foldl (fun a q => a.abort q (a.cportFault c)) (s.clinkFallen c)) :
    t.sweep = t ∧ (t.cport c).linkAck = false ∧ (t.cport c).credits = 0 ∧ (t.cport c).fills = [] ∧ (t.cport c).await = [] ∧
      t.flag offCportLink c = false ∧ t.flag offRelEvents 8 = true := by
  have hstops : Stops (s.clinkFallen c) t := ht ▸ .foldl (fun a q => .abort a q _) _ _
  have hport : ∃ l, t.cport c = { (s.clinkFallen c).cport c with fills := l } ∧ ∀ f ∈ l, f ∈ ((s.clinkFallen c).cport c).fills := by
    rw [ht]
    generalize s.fillQueues c = qs
    refine foldl_keeps (P := fun a => ∃ l, a.cport c = { (s.clinkFallen c).cport c with fills := l } ∧
      ∀ f ∈ l, f ∈ ((s.clinkFallen c).cport c).fills) (fun a q ha => ?_) qs ⟨_, rfl, fun _ h => h⟩
    obtain ⟨l, hl, hin⟩ := ha
    obtain ⟨l', hl', hin'⟩ := (StopLeaves.abort a q (a.cportFault c)).cport c
    rw [hl] at hl' hin'
    exact ⟨l', hl', fun f hf => hin f (hin' f hf)⟩
  have hfallen : (s.clinkFallen c).cport c = { s.cport c with linkAck := false, credits := 0, fills := [], await := [] } := by
    rw [clinkFallen_eq]
    simp [State.cport]
  obtain ⟨l, hl, hin⟩ := hport
  rw [hfallen] at hl hin
  obtain rfl : l = [] := List.eq_nil_iff_forall_not_mem.2 (fun f hf => List.not_mem_nil (hin f hf))
  obtain ⟨hlink, hevent⟩ := clinkFallen_flags hc
  have hwork : t.noLaneWork := hstops.noLaneWork (by rw [clinkFallen_eq]; exact hidle)
  rw [hl]
  refine ⟨sweep_of_noLaneWork hwork, rfl, rfl, rfl, rfl, ?_, ?_⟩
  · exact (congrArg (fun w => bitAt w c) (hstops.regs offCportLink (by decide))).trans hlink
  · exact (congrArg (fun w => bitAt w 8) (hstops.regs offRelEvents (by decide))).trans hevent

-- Credits and stall causes.

/-- Returned push credits are added, up to 64 (R43, log 32). -/
theorem pushCreditReturn_runs {s : State} {c : Nat} (n : BitVec 2) (h : s.cportLive c = true) :
    execPushCreditReturn c n s = .next (s.updCport c (fun v => { v with credits := min 64 (v.credits + n.toNat) })) := by
  unfold execPushCreditReturn
  exact whenever_pos h _ _

/-- A stalled ccyc is counted and answered with its cause (R50). -/
theorem stallReport_runs {s : State} {c : Nat} (kind : Bool) (id : BitVec 10) (h : s.cportLive c = true) :
    execStallReport c kind id s = .next
      ((s.count (unitCport c) (0x20 + if kind then 4 else s.stallCause id.toNat) 0 1).drive
        (.cause c (BitVec.ofNat 3 (if kind then 4 else s.stallCause id.toNat)))) := by
  unfold execStallReport
  exact whenever_pos h _ _

/-- Settles O32: a link comes up with its link-up sequence or falls with its fills; credits and stall causes are the port's. -/
theorem clientLinksAndCreditsAreKept : Obligations.ClientLinksAndCreditsAreKept := by
  unfold Obligations.ClientLinksAndCreditsAreKept
  intro s c ha hc
  refine ⟨fun crd hno hreq hack => ?up, fun hack hreq hp => ?lowered, fun hack hreq hidle => ?fallen, fun n hup => ?credits,
    fun kind id hup => ?stall⟩
  case up =>
    obtain ⟨hann, hknows⟩ := linkUpSems_up (c := c) (l := List.range 48)
      (fun n hn => by rw [List.mem_range] at hn; unfold semPort; omega) (s.cport c).poisonDue (clinkUp_link crd hc)
    have hstep := clientLinkUp_runs (crd := crd) ha hc hreq hack
    generalize (List.range 48).foldl _ _ = t at hann hknows hstep
    have hwait : t.noLinkWait := by
      rw [hann.eq, clinkUp_eq]
      exact hno
    rw [wakeGoes_noLinkWait hwait] at hstep
    refine ⟨t, hstep, ?_, ?_, fun off ho => ?_, fun n hn => ?_, fun j hj => ?_, ?_⟩
    · rw [hann.eq, clinkUp_eq]
      simp [State.cport]
    · exact (hann.cportUp c).trans (clinkUp_link crd hc)
    · rw [hann.eq]
      exact clinkUp_regsBut s c crd off ho
    · have hk := hknows n (List.mem_range.2 hn)
      have hsem : (s.clinkUp c crd).sem (48 * c + n) = s.sem (48 * c + n) := by rw [clinkUp_eq]; rfl
      have hport : semPort (48 * c + n) = c := by unfold semPort; omega
      have hmod : (48 * c + n) % 48 = n := by omega
      unfold State.knows at hk
      rwa [hport, hmod, hsem] at hk
    · rw [hann.eq, clinkUp_eq]
      simp [State.cport, Bank.get_set_other _ hj]
    · rw [hann.eq, clinkUp_eq]
  case lowered =>
    refine ⟨_, clientLinkDown_lowered ha hc hack hreq hp, ?_, ?_, State.putBit_regsBut (s.updCport c _) offCportLink c false, ?_⟩
    · rw [clinkLowered_eq]
      simp [State.cport]
    · exact State.putBit_flag (s.updCport c _) offCportLink c false (by have := cports_lt s.cfg; omega)
    · rw [clinkLowered_eq]
  case fallen =>
    have hstep := clientLinkDown_fallen ha hc hack hreq
    generalize ht : (s.fillQueues c).foldl _ (s.clinkFallen c) = t at hstep
    obtain ⟨hsweep, hlink, hcred, hfills, hawait, hflag, hevent⟩ := fillQueues_stop hc hidle ht.symm
    rw [hsweep] at hstep
    refine ⟨t, hstep, hlink, hcred, hfills, hawait, hflag, hevent, fun f hf hmay => ?_⟩
    rw [← ht]
    have hq : f.q ∈ s.fillQueues c := mem_firsts (List.mem_map_of_mem (List.mem_append_left _ hf))
    refine foldl_abort_stopsWith (g := fun a _ => a.cportFault c) (fun _ _ => rfl) hq (.inl ?_)
    rw [clinkFallen_eq]
    exact hmay
  case credits => exact pushCreditReturn_runs n (cportLive_of ha hc hup)
  case stall =>
    refine ⟨_, stallReport_runs kind id (cportLive_of ha hc hup), ?_⟩
    rw [count_eq]
    exact ⟨rfl, rfl⟩

end Sys2Proof.Machine
end

section
/-!
PROOFS. How clients count their semaphores (R47, R48, R205-R207, R215).
-/

namespace Sys2Proof.Machine

-- The messages of the sideband.

/-- A message that asks for nothing is counted (R48). -/
theorem semiMessage_discarded {s : State} {op : BitVec 2} {j : BitVec 6} {n : BitVec 20}
    (h : 1 < op.toNat ∨ 47 < j.toNat ∨ n = 0#20) (c : Nat) : s.semiMessage c op j n = s.count (unitCport c) 0x03 0 1 := by
  unfold State.semiMessage
  exact if_pos (by simpa [or_assoc] using h)

theorem semiMessage_inc {s : State} {c : Nat} {j : BitVec 6} {n : BitVec 20} (hj : j.toNat < 48) (hn : n ≠ 0#20) :
    s.semiMessage c 0#2 j n = (s.inTurn (48 * c + j.toNat) rankInc n).semIncrement (48 * c + j.toNat) n .client := by
  unfold State.semiMessage State.clientInc
  rw [if_neg (by simp [hn]; omega), if_pos (by decide)]

theorem semiMessage_dec {s : State} {c : Nat} {j : BitVec 6} {n : BitVec 20} (hj : j.toNat < 48) (hn : n ≠ 0#20) :
    s.semiMessage c 1#2 j n = (s.inTurn (48 * c + j.toNat) rankDec n).semDecrement (48 * c + j.toNat) n := by
  unfold State.semiMessage
  rw [if_neg (by simp [hn]; omega), if_neg (by decide)]

theorem semiInc_runs {s : State} {c : Nat} (op : BitVec 2) (j : BitVec 6) (n : BitVec 20) (h : s.cportLive c = true) :
    execSemiInc c op j n s = .next (s.semiMessage c op j n) := by
  unfold execSemiInc
  exact whenever_pos h _ _

theorem semiDec_runs {s : State} {c : Nat} (op : BitVec 2) (j : BitVec 6) (n : BitVec 20) (h : s.cportLive c = true) :
    execSemiDec c op j n s = .next (s.semiMessage c op j n) := by
  unfold execSemiDec
  exact whenever_pos h _ _

-- Increments.

section
variable {u : State} {i : Nat} {k : BitVec 20}

theorem semIncrement_poisoned (h : (u.sem i).poisoned = true) (src : IncSource) :
    u.semIncrement i k src = u.count (unitSem (semEast i)) 0x03 0 1 := by
  simp [State.semIncrement, h]

/-- An increment of a client is noted: paired HEADs move, and it is counted, traced and taken into the ccyc's sum. -/
def State.clientIncNoted (u : State) (i : Nat) (k : BitVec 20) : State :=
  let t := u.turns.get i
  { ((u.movePaired i k.toNat).count (unitSem (semEast i)) 0x01 0 1).trace 4 (unitSem (semEast i)) none (semPayload i 0 k.toNat) with
    turns := u.turns.set i { t with incs := t.incs ++ [.client], overflowed := u.semOverflows i k } }

theorem clientIncNoted_eq (u : State) (i : Nat) (k : BitVec 20) : u.clientIncNoted i k = { u with
    rings := (u.clientIncNoted i k).rings, regs := (u.clientIncNoted i k).regs, tally := (u.clientIncNoted i k).tally
    turns := (u.clientIncNoted i k).turns } := by
  obtain ⟨r, τ, g, heq⟩ := incNoted_eq u i k.toNat (unitSem (semEast i)) 4 none (semPayload i 0 k.toNat)
  unfold State.clientIncNoted
  rw [heq]

theorem movePaired_reg (u : State) (i k off : Nat) : (u.movePaired i k).reg off = u.reg off := by
  rw [movePaired_eq]
  rfl

theorem clientIncNoted_regsBut (u : State) (i : Nat) (k : BitVec 20) : u.regsBut (u.clientIncNoted i k) [offTlyTraceDrop] := by
  intro off ho
  refine (trace_regsBut ((u.movePaired i k.toNat).count _ 0x01 0 1) 4 _ none _ off ho).trans ?_
  rw [count_eq]
  exact movePaired_reg u i _ off

theorem semIncrement_client (h : (u.sem i).poisoned = false) : u.semIncrement i k .client =
    if u.semOverflows i k then (u.clientIncNoted i k).semSaturate i (u.turns.get i) .client
    else (u.clientIncNoted i k).setSem i { u.sem i with count := (u.sem i).count + k } := by
  have hturns : (((u.movePaired i k.toNat).count (unitSem (semEast i)) 0x01 0 1).trace 4 (unitSem (semEast i)) none
      (semPayload i 0 k.toNat)).turns = u.turns := by
    obtain ⟨r, τ, g, heq⟩ := incNoted_eq u i k.toNat (unitSem (semEast i)) 4 none (semPayload i 0 k.toNat)
    rw [heq]
  unfold State.semIncrement State.clientIncNoted
  simp only [h, IncSource.queue?, hturns, Bool.false_eq_true, if_false, beq_self_eq_true, Bool.true_or, if_true]

theorem semOverflows_iff (hp : (u.sem i).poisoned = false) (ho : (u.turns.get i).overflowed = false) :
    u.semOverflows i k = true ↔ 2 ^ 20 ≤ (u.sem i).count.toNat + k.toNat := by
  have hmax : semMax = 1048575 := rfl
  simp only [State.semOverflows, hp, ho, hmax, Bool.not_false, Bool.true_and, Bool.false_or, decide_eq_true_eq]
  omega

-- Overflow and underflow.

/-- A message has left, or is held at its port while the link is down. -/
structure Told (s t : State) : Prop where
  sems : t.sems = s.sems
  queues : t.queues = s.queues
  regs : t.regs = s.regs

theorem Told.refl (s : State) : Told s s := ⟨rfl, rfl, rfl⟩

theorem Told.trans {s t u : State} (h : Told s t) (k : Told t u) : Told s u :=
  ⟨k.sems.trans h.sems, k.queues.trans h.queues, k.regs.trans h.regs⟩

theorem sendSemo_told (s : State) (i : Nat) (op : BitVec 2) (cnt : BitVec 20) : Told s (s.sendSemo i op cnt) := by
  unfold State.sendSemo
  dsimp only
  split
  · rw [count_eq]
    exact ⟨rfl, rfl, rfl⟩
  · exact ⟨rfl, rfl, rfl⟩

theorem sendDue_told (s : State) (m : Nat × Option (BitVec 20)) : Told s (s.sendDue m) := by
  unfold State.sendDue State.sendFull
  split
  · exact sendSemo_told s _ _ _
  · split
    · exact .refl s
    · exact sendSemo_told s _ _ _

theorem flushIncs_told (s : State) (p : Nat × Option (BitVec 20) → Bool) : Told s (s.flushIncs p) :=
  foldl_keeps (P := Told s) (fun a m ha => ha.trans (sendDue_told a m)) _ ⟨rfl, rfl, rfl⟩

theorem sendFault_told (s : State) (i : Nat) : Told s (s.sendFault i) := by
  unfold State.sendFault
  exact ((flushIncs_told s _).trans (sendSemo_told _ i 2#2 0#20)).trans ⟨rfl, rfl, rfl⟩

/-- What a fault that follows leaves of a semaphore and of SEM_EVENTS: only waiters may be gone. -/
structure SemLeft (i : Nat) (s t : State) : Prop where
  sem : ∃ l, t.sem i = { s.sem i with waiters := l }
  events : t.reg offSemEvents = s.reg offSemEvents

theorem SemLeft.refl (i : Nat) (s : State) : SemLeft i s s := ⟨⟨_, rfl⟩, rfl⟩

theorem SemLeft.trans {s t v : State} (h : SemLeft i s t) (k : SemLeft i t v) : SemLeft i s v where
  sem := by
    obtain ⟨l, hl⟩ := h.sem
    obtain ⟨l', hl'⟩ := k.sem
    rw [hl] at hl'
    exact ⟨l', hl'⟩
  events := k.events.trans h.events

theorem failCmd_semLeft (s : State) (i q : Nat) (idx : BitVec 16) (f : FaultInfo) : SemLeft i s (s.failCmd q idx f) :=
  ⟨(StopLeaves.failCmd s q idx f).sem i, (Stops.failCmd s q idx f).regs _ (by decide)⟩

theorem abort_semLeft (s : State) (i q : Nat) (f : FaultInfo) : SemLeft i s (s.abort q f) := failCmd_semLeft s i q _ f

theorem incFails_semLeft (s : State) (i j : Nat) (src : IncSource) : SemLeft i s (s.incFails j src) := by
  cases src with
  | client => exact .refl i s
  | command q => exact abort_semLeft s i q _
  | itin q num task =>
    unfold State.incFails
    dsimp only
    split
    · exact abort_semLeft s i q _
    · exact .refl i s

theorem incFails_fallsWith {s : State} {q : Nat} (j : Nat) (src : IncSource) (h : s.fallsWith q stSemOverflow) :
    (s.incFails j src).fallsWith q stSemOverflow := by
  cases src with
  | client => exact h
  | command p => exact (abort_fallsWith (p := p) { s.fault stSemOverflow 0x6#8 with detail := s.semDetail j } h).1
  | itin p num task =>
    unfold State.incFails
    dsimp only
    split
    · exact (abort_fallsWith (p := p) { s.fault stSemOverflow 0x6#8 with
        detail := s.semDetail j, itin := some num, instr := s.insIndex p (some num) } h).1
    · exact h

theorem ownerFault_semLeft (s : State) (i j : Nat) (st : Byte) : SemLeft i s (s.ownerFault j st) := by
  unfold State.ownerFault
  dsimp only
  split
  · split
    · exact failCmd_semLeft s i _ _ _
    · exact failCmd_semLeft s i _ _ _
  · exact .refl i s

/-- The owner of the semaphore stops with the fault's status, or is stopping with it. -/
theorem ownerFault_stopsWith {s : State} {i : Nat} {st : Byte} (ho : (s.sem i).owned = true)
    (h : s.fallsWith (s.sem i).owner.toNat st) : (s.ownerFault i st).stopsWith (s.sem i).owner.toNat st := by
  have hfail (idx : BitVec 16) (f : FaultInfo) (hf : f.status = st) :
      (s.failCmd (s.sem i).owner.toNat idx f).stopsWith (s.sem i).owner.toNat st := by
    subst hf
    exact (failCmd_fallsWith (p := (s.sem i).owner.toNat) idx f h).2 rfl
  unfold State.ownerFault
  dsimp only
  split
  · split
    · exact hfail _ _ rfl
    · exact hfail _ _ rfl
  next hrun =>
    obtain ⟨hst, -⟩ | h := h
    · exact absurd (by obtain h | h := hst <;> simp [ho, h]) hrun
    · exact h

/-- COUNT saturates with OVF, and the event is raised (R206). -/
def State.saturated (s : State) (i : Nat) : State :=
  { (s.updSem i (fun v => { v with count := BitVec.ofNat 20 semMax, ovf := true })).raiseEvent offSemEvents 0 with
    incsDue := s.incsDue.filter (fun m => m.1 != i || m.2.isNone) }

theorem saturated_sem (s : State) (i : Nat) : (s.saturated i).sem i = { s.sem i with count := 0xFFFFF#20, ovf := true } := by
  simp [State.saturated, State.raiseEvent, State.setBits, State.setReg, State.updSem, State.setSem, State.sem, semMax]

theorem saturated_flag (s : State) (i : Nat) : (s.saturated i).flag offSemEvents 0 = true :=
  State.raiseEvent_flag_same (s.updSem i _) _ _ (by decide)

/-- Increments fail one after another. -/
def State.incsFail (s : State) (i : Nat) (srcs : List IncSource) : State := srcs.foldl (fun a x => a.incFails i x) s

theorem incsFail_semLeft (s : State) (i : Nat) (srcs : List IncSource) : SemLeft i s (s.incsFail i srcs) :=
  foldl_keeps (P := SemLeft i s) (fun a x ha => ha.trans (incFails_semLeft a i i x)) srcs (.refl i s)

theorem incsFail_fallsWith {s : State} {q : Nat} (i : Nat) (srcs : List IncSource) (h : s.fallsWith q stSemOverflow) :
    (s.incsFail i srcs).fallsWith q stSemOverflow :=
  foldl_keeps (P := fun a => a.fallsWith q stSemOverflow) (fun _ x ha => incFails_fallsWith i x ha) srcs h

/-- The increments of the ccyc that overflow together fail, and then the owner, for the client's (R206). -/
theorem semSaturate_client {s : State} {i : Nat} {before : Turn} (h : before.overflowed = false) :
    s.semSaturate i before .client =
      (((s.saturated i).sendFault i).incsFail i (before.incs ++ [.client])).ownerFault i stSemOverflow := by
  unfold State.semSaturate State.overflowActs
  dsimp only
  rw [h, if_neg Bool.false_ne_true, if_neg Bool.false_ne_true, if_pos (by simp)]
  rfl

/-- A client's increment that overflows (R206). -/
theorem semSaturate_acts {s : State} {i : Nat} {before : Turn} (h : before.overflowed = false) :
    ((s.semSaturate i before .client).sem i).count = 0xFFFFF#20 ∧ ((s.semSaturate i before .client).sem i).ovf = true ∧
      (s.semSaturate i before .client).flag offSemEvents 0 = true ∧ ((s.sem i).owned = true →
        s.mayFail (s.sem i).owner.toNat → (s.semSaturate i before .client).stopsWith (s.sem i).owner.toNat stSemOverflow) := by
  rw [semSaturate_client h]
  have htold := sendFault_told (s.saturated i) i
  generalize (s.saturated i).sendFault i = a at htold
  have hsem : a.sem i = { s.sem i with count := 0xFFFFF#20, ovf := true } := by
    rw [← saturated_sem]
    exact congrArg (fun b => b.get i) htold.sems
  have hflag : a.flag offSemEvents 0 = true :=
    (congrArg (fun w => bitAt w 0) (State.reg_of_regs (congrArg (fun b => b.get offSemEvents) htold.regs))).trans
      (saturated_flag s i)
  have hleft := incsFail_semLeft a i (before.incs ++ [.client])
  have hfalls (q : Nat) (hq : s.mayFail q) : (a.incsFail i (before.incs ++ [.client])).fallsWith q stSemOverflow := by
    refine incsFail_fallsWith i _ (.inl ?_)
    unfold State.mayFail State.queue
    rw [htold.queues]
    exact hq
  generalize a.incsFail i (before.incs ++ [.client]) = b at hleft hfalls ⊢
  obtain ⟨l, hl⟩ := hleft.sem
  rw [hsem] at hl
  have hlast := ownerFault_semLeft b i i stSemOverflow
  obtain ⟨l', hl'⟩ := hlast.sem
  rw [hl']
  refine ⟨by rw [hl], by rw [hl], ?_, fun howned hmay => ?_⟩
  · exact (congrArg (fun w => bitAt w 0) (hlast.events.trans hleft.events)).trans hflag
  · have howner : (b.sem i).owner = (s.sem i).owner := by rw [hl]
    have hfault := ownerFault_stopsWith (s := b) (i := i) (st := stSemOverflow) (by rw [hl]; exact howned)
      (howner ▸ hfalls _ hmay)
    rwa [howner] at hfault

-- Decrements.

theorem semDecrement_poisoned (h : (u.sem i).poisoned = true) :
    u.semDecrement i k = u.count (unitSem (semEast i)) 0x03 0 1 := by
  simp [State.semDecrement, h]

/-- A client's decrement takes its place in the ccyc and is traced. -/
def State.decNoted (u : State) (i : Nat) (k : BitVec 20) : State :=
  (u.takeTurn i rankDec).trace 4 (unitSem (semEast i)) none (semPayload i 1 k.toNat)

theorem decNoted_eq (u : State) (i : Nat) (k : BitVec 20) : u.decNoted i k = { u with
    regs := (u.decNoted i k).regs, tally := (u.decNoted i k).tally, turns := (u.decNoted i k).turns } := by
  unfold State.decNoted
  rw [trace_eq]
  rfl

theorem decNoted_regsBut (u : State) (i : Nat) (k : BitVec 20) : u.regsBut (u.decNoted i k) [offTlyTraceDrop] :=
  trace_regsBut (u.takeTurn i rankDec) _ _ _ _

/-- COUNT covers the decrement, or becomes 0 with UNF (R207). -/
theorem semDecrement_acts (h : (u.sem i).poisoned = false) : u.semDecrement i k =
    if (u.sem i).count.toNat < k.toNat then
      ((((u.decNoted i k).setSem i { u.sem i with count := 0#20, unf := true }).raiseEvent offSemEvents 1).sendFault i).ownerFault
        i stSemUnderflow
    else (u.decNoted i k).setSem i { u.sem i with count := (u.sem i).count - k } := by
  simp [State.semDecrement, h, State.decNoted]

/-- The semaphore after an underflow, before its owner faults. -/
def State.underflown (u : State) (i : Nat) (k : BitVec 20) : State :=
  (((u.decNoted i k).setSem i { u.sem i with count := 0#20, unf := true }).raiseEvent offSemEvents 1).sendFault i

theorem underflown_sem (u : State) (i : Nat) (k : BitVec 20) :
    (u.underflown i k).sem i = { u.sem i with count := 0#20, unf := true } := by
  refine (congrArg (fun b => b.get i) (sendFault_told _ i).sems).trans ?_
  simp [State.raiseEvent, State.setBits, State.setReg, State.setSem]

theorem underflown_flag (u : State) (i : Nat) (k : BitVec 20) : (u.underflown i k).flag offSemEvents 1 = true :=
  (congrArg (fun w => bitAt w 1) (State.reg_of_regs (congrArg (fun b => b.get offSemEvents) (sendFault_told _ i).regs))).trans
    (State.raiseEvent_flag_same _ _ _ (by decide))

theorem underflown_mayFail {q : Nat} (k : BitVec 20) (h : u.mayFail q) : (u.underflown i k).mayFail q := by
  have hq : (u.underflown i k).queues = u.queues := by
    refine (sendFault_told _ i).queues.trans ?_
    refine Eq.trans (b := (u.decNoted i k).queues) rfl ?_
    rw [decNoted_eq]
  unfold State.mayFail State.queue
  rw [hq]
  exact h

/-- A client's decrement below 0 (R207). -/
theorem underflow_acts (u : State) (i : Nat) (k : BitVec 20) :
    (((u.underflown i k).ownerFault i stSemUnderflow).sem i).count = 0#20 ∧
      (((u.underflown i k).ownerFault i stSemUnderflow).sem i).unf = true ∧
      ((u.underflown i k).ownerFault i stSemUnderflow).flag offSemEvents 1 = true ∧ ((u.sem i).owned = true →
        u.mayFail (u.sem i).owner.toNat →
          ((u.underflown i k).ownerFault i stSemUnderflow).stopsWith (u.sem i).owner.toNat stSemUnderflow) := by
  have hleft := ownerFault_semLeft (u.underflown i k) i i stSemUnderflow
  obtain ⟨l, hl⟩ := hleft.sem
  have hsem := underflown_sem u i k
  rw [hl, hsem]
  refine ⟨rfl, rfl, (congrArg (fun w => bitAt w 1) hleft.events).trans (underflown_flag u i k), fun howned hmay => ?_⟩
  have howner : ((u.underflown i k).sem i).owner = (u.sem i).owner := by rw [hsem]
  have hfault := ownerFault_stopsWith (s := u.underflown i k) (i := i) (st := stSemUnderflow) (by rw [hsem]; exact howned)
    (howner ▸ .inl (underflown_mayFail k hmay))
  rwa [howner] at hfault

end

/-- Settles O34: each message is one operation on one semaphore, discarded when it is poisoned. -/
theorem clientsCountTheirSemaphores : Obligations.ClientsCountTheirSemaphores := by
  unfold Obligations.ClientsCountTheirSemaphores
  refine ⟨fun s i rank k h => if_neg (by simp [h]), ?_⟩
  intro s u c idx k i ha hc hup hidx hk hi
  have hlive := cportLive_of ha hc hup
  refine ⟨fun hu => ?inc, fun hu => ?dec, fun op j n hbad => ?discarded⟩
  case inc =>
    have hstep : exec (.semiInc c 0#2 idx k) s = .next (u.semIncrement i k .client) := by
      subst hu hi
      exact (semiInc_runs 0#2 idx k hlive).trans (congrArg Host.Outcome.next (semiMessage_inc hidx hk))
    refine ⟨fun hp ho hfit => ⟨_, hstep, ?_⟩, fun hp ho hover => ⟨_, hstep, ?_⟩, fun hp => ⟨_, hstep, ?_⟩⟩
    · have hno : ¬ u.semOverflows i k = true := by
        rw [semOverflows_iff hp ho]
        omega
      rw [semIncrement_client hp, if_neg hno]
      refine ⟨State.setSem_sem _ _ _, fun j hj => ?_, clientIncNoted_regsBut u i k, ?_, ?_⟩
      · rw [State.setSem_sem_other _ _ _ _ hj, clientIncNoted_eq]
        rfl
      · simp [State.clientIncNoted]
      · rw [clientIncNoted_eq]
        rfl
    · have hsem : (u.clientIncNoted i k).sem i = u.sem i := by rw [clientIncNoted_eq]; rfl
      have hacts := semSaturate_acts (s := u.clientIncNoted i k) (i := i) ho
      rw [hsem] at hacts
      rw [semIncrement_client hp, if_pos ((semOverflows_iff hp ho).2 hover)]
      obtain ⟨hcount, hovf, hflag, howner⟩ := hacts
      refine ⟨hcount, hovf, hflag, fun howned hmay => howner howned ?_⟩
      rw [clientIncNoted_eq]
      exact hmay
    · rw [semIncrement_poisoned hp]
      exact count_tally u _ _ _ _
  case dec =>
    have hstep : exec (.semiDec c 1#2 idx k) s = .next (u.semDecrement i k) := by
      subst hu hi
      exact (semiDec_runs 1#2 idx k hlive).trans (congrArg Host.Outcome.next (semiMessage_dec hidx hk))
    refine ⟨fun hp hfit => ⟨_, hstep, ?_⟩, fun hp hunder => ⟨_, hstep, ?_⟩, fun hp => ⟨_, hstep, ?_⟩⟩
    · rw [semDecrement_acts hp, if_neg (by omega)]
      refine ⟨State.setSem_sem _ _ _, fun j hj => ?_, decNoted_regsBut u i k, ?_⟩
      · rw [State.setSem_sem_other _ _ _ _ hj, decNoted_eq]
        rfl
      · rw [decNoted_eq]
        rfl
    · rw [semDecrement_acts hp, if_pos hunder]
      exact underflow_acts u i k
    · rw [semDecrement_poisoned hp]
      exact count_tally u _ _ _ _
  case discarded =>
    intro m hm
    have hcount : exec m s = .next (s.count (unitCport c) 0x03 0 1) := by
      rw [← semiMessage_discarded hbad c]
      simp only [List.mem_cons, List.not_mem_nil, or_false] at hm
      obtain rfl | rfl := hm
      · exact semiInc_runs op j n hlive
      · exact semiDec_runs op j n hlive
    exact ⟨_, hcount, count_tally s _ _ _ _⟩

end Sys2Proof.Machine
end

section
/-!
PROOFS. How a boot step passes (R352, R353): the step that follows is entered, and what the step itself has set stays.
-/

namespace Sys2Proof.Machine

/-- What entering a later step leaves: the boot state but for the journal and the place in it, the registers, the Larder and the
lanes. -/
structure EntersStep (s t : State) : Prop where
  boot : t.boot = { s.boot with jrnl := t.boot.jrnl, step := t.boot.step, stwState := t.boot.stwState }
  regs : t.regs = s.regs
  larder : t.larder = s.larder
  lanes : t.lanes = s.lanes

namespace EntersStep
variable {s t u : State}

theorem refl (s : State) : EntersStep s s := ⟨rfl, rfl, rfl, rfl⟩

theorem trans (h : EntersStep s t) (k : EntersStep t u) : EntersStep s u where
  boot := by rw [k.boot, h.boot]
  regs := k.regs.trans h.regs
  larder := k.larder.trans h.larder
  lanes := k.lanes.trans h.lanes

theorem foldl {β : Type} {g : State → β → State} (h : ∀ a x, EntersStep a (g a x)) (l : List β) (s : State) :
    EntersStep s (l.foldl g s) :=
  foldl_keeps (P := EntersStep s) (fun a x ha => ha.trans (h a x)) l (refl s)

theorem updStep (s : State) (n : Nat) (f : JEntry → JEntry) : EntersStep s (s.updStep n f) := ⟨rfl, rfl, rfl, rfl⟩

theorem stepBegins (s : State) (n : Nat) : EntersStep s (s.stepBegins n) := by
  unfold State.stepBegins
  split
  · unfold State.raiseMports
    refine foldl (fun a x => ?_) _ s
    exact ⟨rfl, rfl, rfl, rfl⟩
  · unfold State.raiseCports
    refine foldl (fun a x => ?_) _ s
    exact ⟨rfl, rfl, rfl, rfl⟩
  · unfold State.raiseXports
    refine foldl (fun a x => ?_) _ s
    exact ⟨rfl, rfl, rfl, rfl⟩
  · exact ⟨rfl, rfl, rfl, rfl⟩
  · exact refl s

end EntersStep

/-- What a step sets going leaves the boot state alone. -/
theorem stepBegins_boot (s : State) (n : Nat) : (s.stepBegins n).boot = s.boot := by
  unfold State.stepBegins
  split
  · unfold State.raiseMports
    refine foldl_keeps (P := fun a => a.boot = s.boot) (fun a x h => ?_) _ rfl
    exact h
  · unfold State.raiseCports
    refine foldl_keeps (P := fun a => a.boot = s.boot) (fun a x h => ?_) _ rfl
    exact h
  · unfold State.raiseXports
    refine foldl_keeps (P := fun a => a.boot = s.boot) (fun a x h => ?_) _ rfl
    exact h
  · rfl
  · rfl

theorem updStep_jrnl_other (s : State) {n j : Nat} (f : JEntry → JEntry) (h : j ≠ n) :
    (s.updStep n f).boot.jrnl.get j = s.boot.jrnl.get j :=
  Bank.get_set_other s.boot.jrnl h (f (s.boot.jrnl.get n))

theorem updStep_jrnl (s : State) (n : Nat) (f : JEntry → JEntry) : (s.updStep n f).boot.jrnl.get n = f (s.boot.jrnl.get n) :=
  Bank.get_set_same _ _ _

/-- The journal entry of step `n` when it is entered. -/
def State.entryBegun (s : State) (n : Nat) : JEntry :=
  let e := s.boot.jrnl.get n
  { e with
    path := if s.policyNow n = 2 ∧ e.pfailed then 2#2 else 1#2, outcome := 3#4, attempts := min 255 (e.attempts + 1), code := 0#8 }

/-- Step `n` is entered: it is in progress. -/
def State.stepEntered (s : State) (n : Nat) : State :=
  { s with boot := { s.boot with
    jrnl := s.boot.jrnl.set n (s.entryBegun n), step := n
    stwState := if s.boot.stwState == 4#4 then 4#4 else stewardStage n } }

theorem stepEntered_jrnl (s : State) (n : Nat) : (s.stepEntered n).boot.jrnl.get n = s.entryBegun n :=
  Bank.get_set_same s.boot.jrnl n _

theorem stepEntered_jrnl_other (s : State) {n j : Nat} (h : j ≠ n) :
    (s.stepEntered n).boot.jrnl.get j = s.boot.jrnl.get j := Bank.get_set_other s.boot.jrnl h _

theorem stepEntered_enters (s : State) (n : Nat) : EntersStep s (s.stepEntered n) := ⟨rfl, rfl, rfl, rfl⟩

/-- Step 16 is required. -/
theorem policyNow_last (s : State) : s.policyNow 16 = 0 := by simp [State.policyNow, stepPolicy]

/-- What is passed over on the way to the next step: a step that is not applicable, or that is skipped. -/
theorem enterStep_cases (s : State) (k n : Nat) :
    s.enterStep (k + 1) n = (s.stepEntered n).stepBegins n ∨ (s.policyNow n = 3 ∨ s.policyNow n = 1) ∧
      ∃ t, s.enterStep (k + 1) n = t.enterStep k (n + 1) ∧ EntersStep s t ∧
        ∀ j, j ≠ n → t.boot.jrnl.get j = s.boot.jrnl.get j := by
  by_cases h3 : s.policyNow n = 3
  · refine .inr ⟨.inl h3, s.updStep n (fun e => { e with path := 0#2, outcome := 5#4, code := 0#8 }), ?_, .updStep s n _,
      fun j hj => updStep_jrnl_other s _ hj⟩
    simp [State.enterStep, h3]
  by_cases h1 : s.policyNow n = 1 ∧ (s.boot.jrnl.get n).pfailed = true
  · refine .inr ⟨.inr h1.1, (s.stepBegins n).updStep n (fun e => { e with path := 3#2, outcome := 4#4, code := 0#8 }), ?_,
      (EntersStep.stepBegins s n).trans (.updStep _ n _), fun j hj => ?_⟩
    · simp [State.enterStep, h1]
    · rw [updStep_jrnl_other _ _ hj, stepBegins_boot]
  · refine .inl ?_
    rw [State.enterStep, if_neg h3, if_neg h1]
    rfl

/-- Whatever the steps from `n` are passed over for, one of them is in progress, and the journal of the steps before is as it was. -/
theorem enterStep_enters {k n : Nat} {s : State} (hn : n ≤ 16) (hk : 16 < n + k) :
    EntersStep s (s.enterStep k n) ∧ n ≤ (s.enterStep k n).boot.step ∧
      ∀ j < n, (s.enterStep k n).boot.jrnl.get j = s.boot.jrnl.get j := by
  induction k generalizing n s with
  | zero => omega
  | succ k ih =>
    obtain h | ⟨hp, t, h, ht, hj⟩ := enterStep_cases s k n
    · rw [h, stepBegins_boot]
      exact ⟨(stepEntered_enters s n).trans (.stepBegins _ n), le_refl n, fun j hj => stepEntered_jrnl_other s (by omega)⟩
    · have hne : n ≠ 16 := by
        rintro rfl
        simp [policyNow_last] at hp
      obtain ⟨he, hs, hk'⟩ := ih (n := n + 1) (s := t) (by omega) (by omega)
      rw [h]
      exact ⟨ht.trans he, by omega, fun j hlt => (hk' j (by omega)).trans (hj j (by omega))⟩

/-- A step that is always run is in progress when its turn comes. -/
theorem enter_run {s : State} {n : Nat} (h3 : s.policyNow n ≠ 3) (h1 : s.policyNow n ≠ 1) :
    (s.enter n).boot.step = n ∧ ((s.enter n).boot.jrnl.get n).outcome = 3#4 := by
  obtain h | ⟨hp, -⟩ := enterStep_cases s 17 n
  · rw [State.enter, h, stepBegins_boot]
    exact ⟨rfl, congrArg JEntry.outcome (stepEntered_jrnl s n)⟩
  · exact (hp.elim h3 h1).elim

/-- The journal says that step `n` has passed. -/
def State.stepNoted (s : State) (n : Nat) (code : Byte) : State :=
  (s.closeReading .image).updStep n (fun e => { e with outcome := 1#4, fails := 0, code := code })

theorem stepDone_passes (s : State) {n : Nat} (code : Byte) (hn : n ≠ 16) :
    s.stepDone n true code = (s.stepNoted n code).enter (n + 1) := by
  simp [State.stepDone, hn, State.stepNoted]

theorem stepDone_last (s : State) (code : Byte) : s.stepDone 16 true code = (s.stepNoted 16 code).becomeReady := by
  simp [State.stepDone, State.stepNoted]

theorem stepNoted_enters (s : State) (n : Nat) (code : Byte) : EntersStep s (s.stepNoted n code) := ⟨rfl, rfl, rfl, rfl⟩

theorem stepNoted_jrnl (s : State) (n : Nat) (code : Byte) :
    (s.stepNoted n code).boot.jrnl.get n = { s.boot.jrnl.get n with outcome := 1#4, fails := 0, code := code } :=
  updStep_jrnl _ n _

/-- Step `n` has passed with `code` between `s` and `t`, and a later step is in progress. -/
structure StepPasses (n : Nat) (code : Byte) (s t : State) : Prop extends EntersStep s t where
  entry : t.boot.jrnl.get n = { s.boot.jrnl.get n with outcome := 1#4, fails := 0, code := code }
  later : n < t.boot.step

theorem stepDone_stepPasses (s : State) {n : Nat} (code : Byte) (hn : n < 16) : StepPasses n code s (s.stepDone n true code) := by
  rw [stepDone_passes s code (by omega)]
  obtain ⟨he, hs, hj⟩ := enterStep_enters (s := s.stepNoted n code) (n := n + 1) (k := 18) (by omega) (by omega)
  exact {
    toEntersStep := (stepNoted_enters s n code).trans he
    entry := (hj n (by omega)).trans (stepNoted_jrnl s n code)
    later := hs }

-- What BOOT_STEP_END comes to.

theorem bootStepEnd_runs {s u : State} {r : BootReport} (h : s.mayEndStep r = true) (hr : s.stepReads r = (u, true)) :
    exec (.bootStepEnd r) s = .next (u.endStep r false) := by
  have hrun : execBootStepEnd r s = .next (u.endStep r false) := by
    unfold execBootStepEnd
    rw [whenever_pos h, hr]
  exact hrun

/-- Steps 5, 7 and 11 alone read anything. -/
theorem stepReads_nothing {s : State} (r : BootReport) (h5 : s.boot.step ≠ 5) (h7 : s.boot.step ≠ 7)
    (h11 : s.boot.step = 11 → (s.boot.jrnl.get 11).path = 2#2) : s.stepReads r = (s, true) := by
  unfold State.stepReads
  split
  next h => exact absurd h h5
  next h => exact absurd h h7
  next h => simp [h11 h]
  next => rfl

theorem testRows_none (s : State) {r : BootReport} (h : r.rows = []) : s.testRows r = s := by simp [State.testRows, h]

variable {s t v : State} {r : BootReport} {n : Nat} {code code' : Byte}

/-- The primary path passes. -/
theorem endStep_primary (hs : s.boot.step = n) (hp : (s.boot.jrnl.get n).path ≠ 2#2) (hrows : n = 12 → r.rows = [])
    (h : s.runPrimary n r = (t, true, code)) : s.endStep r false = t.stepDone n true code := by
  have hrow : (if n = 12 then s.testRows r else s) = s := by
    split
    next h12 => exact testRows_none s (hrows h12)
    next => rfl
  simp [State.endStep, hs, hrow, hp, h]

/-- The alternate path, which the start has chosen, passes. -/
theorem endStep_alternate (hs : s.boot.step = n) (hp : (s.boot.jrnl.get n).path = 2#2) (hrows : n = 12 → r.rows = [])
    (h : s.runAlternate n r (s.boot.jrnl.get n).code = (t, true, code)) : s.endStep r false = t.stepDone n true code := by
  have hrow : (if n = 12 then s.testRows r else s) = s := by
    split
    next h12 => exact testRows_none s (hrows h12)
    next => rfl
  simp [State.endStep, hs, hrow, hp, h]

/-- The alternate of a step follows its primary. -/
def State.turnsTo (s : State) (n : Nat) (code : Byte) : State :=
  (s.updStep n (fun e => { e with pfailed := true })).updStep n (fun e => { e with path := 2#2, code := code })

theorem turnsTo_path (s : State) (n : Nat) (code : Byte) : ((s.turnsTo n code).boot.jrnl.get n).path = 2#2 := by
  unfold State.turnsTo
  rw [updStep_jrnl]

/-- The primary path fails and the alternate passes. -/
theorem endStep_turns (hs : s.boot.step = n) (hp : (s.boot.jrnl.get n).path ≠ 2#2) (hrows : n = 12 → r.rows = [])
    (hpol : s.policyNow n = 2) (h : s.runPrimary n r = (t, false, code)) (hr : (t.turnsTo n code).stepReads r = (t.turnsTo n code, true))
    (ha : (t.turnsTo n code).runAlternate n r code = (v, true, code')) : s.endStep r false = v.stepDone n true code' := by
  have hrow : (if n = 12 then s.testRows r else s) = s := by
    split
    next h12 => exact testRows_none s (hrows h12)
    next => rfl
  unfold State.turnsTo at hr ha
  simp [State.endStep, hs, hrow, hp, h, hpol, hr, ha]

end Sys2Proof.Machine
end

section
/-!
PROOFS. What the paths of the boot steps find and set (R140, R350, R352, R370).
-/

namespace Sys2Proof.Machine

-- Spares (steps 3 and 8).

/-- A lane that fails its test gets a spare, or leaves service. -/
def State.spareLane (s : State) (l : Nat) : State :=
  match s.freeLaneSpare (laneEast l) 3 with
  | some k => s.useLaneSpare (laneEast l) k
  | none => { s with rel := { s.rel with lanesOut := s.rel.lanesOut ||| BitVec.ofNat 64 (2 ^ l) } }

/-- Enough lanes stay in service for LANE_SPARE to pass. -/
def State.lanesEnough (s : State) : Bool :=
  let left (east : Bool) : Nat :=
    ((List.range s.cfg.wingLanes).filter (fun i => !bitAt s.rel.lanesOut (wingLane0 east + i))).length
  [false, true].all (fun e => !s.cfg.hasWing e || decide ((if s.cfg == .s then 4 else 16) ≤ left e))

theorem spareLanes_eq (s : State) (l : List Nat) :
    s.spareLanes l = (l.foldl State.spareLane s, (l.foldl State.spareLane s).lanesEnough) := rfl

/-- The state with another boot state. -/
def State.withBoot (s : State) (b : Boot) : State := { s with boot := b }

theorem spareLane_withBoot (s : State) (b : Boot) (l : Nat) : (s.withBoot b).spareLane l = (s.spareLane l).withBoot b := by
  unfold State.spareLane
  have hfree : (s.withBoot b).freeLaneSpare (laneEast l) 3 = s.freeLaneSpare (laneEast l) 3 := rfl
  rw [hfree]
  split <;> rfl

theorem spareLane_fold_withBoot (l : List Nat) (s : State) (b : Boot) :
    l.foldl State.spareLane (s.withBoot b) = (l.foldl State.spareLane s).withBoot b := by
  induction l generalizing s with
  | nil => rfl
  | cons x l ih => rw [List.foldl_cons, List.foldl_cons, spareLane_withBoot, ih]

/-- Spare lanes are taken whatever the boot state holds. -/
theorem spareLanes_withBoot (s : State) (b : Boot) (l : List Nat) :
    (s.withBoot b).spareLanes l = ((s.spareLanes l).1.withBoot b, (s.spareLanes l).2) := by
  rw [spareLanes_eq, spareLanes_eq, spareLane_fold_withBoot]
  rfl

theorem spareBanks_snd_withBoot (s : State) (b : Boot) (m : BitVec 16) :
    ((s.withBoot b).spareBanks m).2 = (s.spareBanks m).2 := by
  unfold State.spareBanks
  simp only [apply_ite Prod.snd]
  rfl

theorem spareBanks_fst_boot (s : State) (m : BitVec 16) : (s.spareBanks m).1.boot = s.boot := by
  unfold State.spareBanks
  simp only [apply_ite Prod.fst]
  split
  · refine foldl_keeps (P := fun a => a.boot = s.boot) (fun a e h => ?_) _ rfl
    split
    · exact h
    · exact h
  · rfl

-- Seeds (step 14, R140).

/-- The seeds from lane `k` on are placed in their lanes. -/
theorem seeds_fold (seeds : List Word) (k : Nat) (s : State) (l : Nat) :
    (((seeds.zipIdx k).foldl (fun a w => a.updLane w.2 (fun v => { v with lfsr := w.1 })) s).lane l).lfsr =
      if k ≤ l ∧ l < k + seeds.length then seeds.getD (l - k) 0#32 else (s.lane l).lfsr := by
  induction seeds generalizing k s with
  | nil => simp
  | cons w seeds ih =>
    rw [List.zipIdx_cons, List.foldl_cons, ih]
    by_cases hl : l = k
    · subst hl
      simp
    have hlane : ((s.updLane k (fun v => { v with lfsr := w })).lane l) = s.lane l := Bank.get_set_other s.lanes hl _
    rw [hlane]
    by_cases hlt : l < k
    · rw [if_neg (by omega), if_neg (by omega)]
    · obtain ⟨d, rfl⟩ : ∃ d, l = k + 1 + d := ⟨l - (k + 1), by omega⟩
      have h1 : k + 1 + d - (k + 1) = d := by omega
      have h2 : k + 1 + d - k = d + 1 := by omega
      rw [h1, h2, List.getD_cons_succ]
      exact if_congr (by simp; omega) rfl rfl

theorem seedLanes_lfsr (s : State) {seeds : List Word} {l : Nat} (h : l < seeds.length) :
    ((s.seedLanes seeds).lane l).lfsr = seeds.getD l 0#32 := by
  unfold State.seedLanes
  rw [seeds_fold]
  simp [h]

theorem seedLanes_boot (s : State) (seeds : List Word) : (s.seedLanes seeds).boot = s.boot := by
  unfold State.seedLanes
  refine foldl_keeps (P := fun a => a.boot = s.boot) (fun a w h => ?_) _ rfl
  exact h

-- What a step has read (R350, R370).

/-- Bytes that have come, or have failed to, ask for nothing: the reading is there, and nothing else has changed. -/
theorem need_come {s t : State} {who : Reader} {va len : Nat} {g : Got} (h : s.need who va len = (t, g)) (hg : g ≠ .wait) :
    t.boot = s.boot ∧ t.cfg = s.cfg := by
  have hopen : (s.openReading who).1.boot = s.boot ∧ (s.openReading who).1.cfg = s.cfg := by
    unfold State.openReading
    split <;> exact ⟨rfl, rfl⟩
  unfold State.need State.needItem State.needIn at h
  generalize s.openReading who = p at h hopen
  obtain ⟨v, r⟩ := p
  dsimp only at h
  split at h
  · obtain ⟨rfl, -⟩ := Prod.mk.inj h
    exact hopen
  · obtain ⟨rfl, -⟩ := Prod.mk.inj h
    exact hopen
  · obtain ⟨-, rfl⟩ := Prod.mk.inj h
    exact absurd rfl hg

theorem imageCheck_some {s t : State} {which kind : Nat} {sig : Bool} {c : Byte × BitVec 512}
    (h : s.imageCheck which kind sig = (t, some c)) : t.boot = s.boot := by
  unfold State.imageCheck at h
  dsimp only at h
  split at h
  · rw [(Prod.mk.inj h).1]
  generalize hn : s.need .image (s.imgAddr which) 64 = p at h
  obtain ⟨v, g⟩ := p
  cases g with
  | wait => simp at h
  | failed st =>
    rw [← (Prod.mk.inj h).1]
    exact (need_come hn (by simp)).1
  | bytes l =>
    have hv := (need_come hn (by simp)).1
    dsimp only at h
    split at h
    · rw [← (Prod.mk.inj h).1]
      exact hv
    generalize hm : v.need .image (s.imgAddr which) (64 + fieldAt (words512 l) 20 4 + 96) = p at h
    obtain ⟨w, g⟩ := p
    cases g with
    | wait => simp at h
    | failed st =>
      rw [← (Prod.mk.inj h).1]
      exact ((need_come hm (by simp)).1).trans hv
    | bytes m =>
      rw [← (Prod.mk.inj h).1]
      exact ((need_come hm (by simp)).1).trans hv

theorem structRead_some {s t : State} {c : Byte × BitVec 512 × List (BitVec 64)} (h : s.structRead = (t, some c)) :
    t.boot = s.boot ∧ t.cfg = s.cfg := by
  unfold State.structRead at h
  dsimp only at h
  split at h
  · rw [(Prod.mk.inj h).1]
    exact ⟨rfl, rfl⟩
  generalize hn : s.need .image (s.imgAddr 3) 64 = p at h
  obtain ⟨v, g⟩ := p
  cases g with
  | wait => simp at h
  | failed st =>
    rw [← (Prod.mk.inj h).1]
    exact need_come hn (by simp)
  | bytes l =>
    obtain ⟨hvb, hvc⟩ := need_come hn (by simp)
    dsimp only at h
    split at h
    · rw [← (Prod.mk.inj h).1]
      exact ⟨hvb, hvc⟩
    generalize hm : v.need .image (s.imgAddr 3 + 64) (8 * fieldAt (words512 l) 12 4) = p at h
    obtain ⟨w, g⟩ := p
    cases g with
    | wait => simp at h
    | failed st =>
      rw [← (Prod.mk.inj h).1]
      exact ⟨((need_come hm (by simp)).1).trans hvb, ((need_come hm (by simp)).2).trans hvc⟩
    | bytes m =>
      rw [← (Prod.mk.inj h).1]
      exact ⟨((need_come hm (by simp)).1).trans hvb, ((need_come hm (by simp)).2).trans hvc⟩

-- The structure (step 7, R370).

theorem find_filter {α : Type} {p : Nat × α → Bool} {i : Nat} (h : ∀ v, p (i, v) = false) (l : List (Nat × α)) :
    Bank.find i (l.filter p) = none := by
  refine Bank.find_none fun hin => ?_
  obtain ⟨⟨j, v⟩, hv, rfl⟩ := List.mem_map.1 hin
  have hp := (List.mem_filter.1 hv).2
  rw [h v] at hp
  cases hp

/-- Where the structure registers lie. -/
theorem structBits_range {off : Nat} (h : (structBits off).isSome = true) :
    0x060000 ≤ off ∧ off < 0x069400 ∨ 0x0A0100 ≤ off ∧ off < 0x0A0110 ∨ 0x0D0100 ≤ off ∧ off < 0x0D0140 ∨
      0x100100 ≤ off ∧ off < 0x100220 := by
  by_contra hno
  have hnone : structBits off = none := by
    unfold structBits
    repeat rw [if_neg (by simp; omega)]
    split
    case h_7 => rfl
    all_goals omega
  simp [hnone] at h

/-- A structure register reads 0 before the image loads (log 8). -/
theorem regReset_struct {off : Nat} (h : (structBits off).isSome = true) : regReset off = 0#32 := by
  have hr := structBits_range h
  unfold regReset
  rw [if_neg (by simp [inQueues]; omega), if_neg (by simp; omega)]
  split
  case h_8 => rfl
  all_goals omega

/-- The registers that `structDefault` lists, which `structDefaults` sets. -/
def structListed : List Nat := [0x060000, 0x060004, offLdgTiers, offLdgSpare]

theorem structDefault_unlisted {c : ConfigPoint} {off : Nat} (h : off ∉ structListed) : structDefault c off = 0#32 := by
  simp only [structListed, List.mem_cons, not_or] at h
  obtain ⟨h0, h1, h2, h3, -⟩ := h
  simp [structDefault, h0, h1, h2, h3]

/-- Registers set one after the other to what a function of them says. -/
theorem setRegs_reg (f : ConfigPoint → Nat → Word) (l : List Nat) (s : State) (off : Nat) :
    (l.foldl (fun a o => a.setReg o (f a.cfg o)) s).reg off = if off ∈ l then f s.cfg off else s.reg off := by
  induction l generalizing s with
  | nil => simp
  | cons o l ih =>
    rw [List.foldl_cons, ih, State.setReg_reg]
    have hcfg : (s.setReg o (f s.cfg o)).cfg = s.cfg := rfl
    rw [hcfg]
    by_cases ho : off = o
    · subst ho
      simp
    · simp [ho]

/-- The structure registers read their reset values. -/
def State.structCleared (s : State) : State := { s with regs := ⟨s.regs.cells.filter (fun c => (structBits c.1).isNone)⟩ }

theorem structCleared_reg (s : State) {off : Nat} (h : (structBits off).isSome = true) : s.structCleared.reg off = 0#32 := by
  have hfind : Bank.find off s.structCleared.regs.cells = none :=
    find_filter (p := fun c => (structBits c.1).isNone) (fun v => by simpa using h) s.regs.cells
  have hget : s.structCleared.regs.get off = none := by rw [Bank.get, hfind]; rfl
  simpa only [State.reg, hget, Option.getD_none] using regReset_struct h

theorem structDefaults_eq (s : State) : s.structDefaults =
    structListed.foldl (fun a o => a.setReg o (structDefault a.cfg o)) s.structCleared := rfl

theorem structDefaults_reg (s : State) {off : Nat} (h : (structBits off).isSome = true) :
    s.structDefaults.reg off = structDefault s.cfg off := by
  rw [structDefaults_eq, setRegs_reg structDefault]
  split
  · rfl
  next hno => rw [structDefault_unlisted hno, structCleared_reg s h]

/-- The entries of the image set its registers; the last value stays (R370). -/
theorem entries_reg (es : List (BitVec 64)) (off : Nat) (s : State) :
    (es.foldl (fun a e => a.setReg (seOffset e) (seValue e)) s).reg off =
      es.foldl (fun v e => if seOffset e = off then seValue e else v) (s.reg off) := by
  induction es generalizing s with
  | nil => rfl
  | cons e es ih =>
    rw [List.foldl_cons, List.foldl_cons, ih, State.setReg_reg]
    simp only [eq_comm]

/-- Resetting the rings touches no register. -/
theorem resetRings_regs (l : List Nat) (s : State) : (l.foldl (fun a r => a.resetRing r false) s).regs = s.regs := by
  refine foldl_keeps (P := fun a => a.regs = s.regs) (fun a r h => ?_) _ rfl
  exact h

/-- The rings of the loaded structure are reset. -/
def State.ringsReset (s : State) : State := ((List.range 1024).filter s.ringValid).foldl (fun a r => a.resetRing r false) s

theorem loadStructure_eq (s : State) (h : BitVec 512) (es : List (BitVec 64)) : s.loadStructure h es =
    ((es.foldl (fun a e => a.setReg (seOffset e) (seValue e)) s.structDefaults).ringsReset.setReg offLdgImgid
      (BitVec.ofNat 32 (fieldAt h 8 4))).ledgerResult stOk 0 0 := rfl

theorem ledgerResult_reg (s : State) (st : Byte) (k o : Nat) {off : Nat} (h : off ≠ offLdgResult) :
    (s.ledgerResult st k o).reg off = s.reg off := State.setReg_reg_other s _ h

theorem loadStructure_imgid (s : State) (h : BitVec 512) (es : List (BitVec 64)) :
    (s.loadStructure h es).reg offLdgImgid = BitVec.ofNat 32 (fieldAt h 8 4) := by
  rw [loadStructure_eq, ledgerResult_reg _ _ _ _ (by decide), State.setReg_reg_same]

/-- Every structure register takes the last value of the image, or its default (R370). -/
theorem loadStructure_reg (s : State) (h : BitVec 512) (es : List (BitVec 64)) {off : Nat} (ho : (structBits off).isSome = true) :
    (s.loadStructure h es).reg off = imageStruct s.cfg es off := by
  have hresult : off ≠ offLdgResult := by
    rintro rfl
    revert ho
    decide
  have himgid : off ≠ offLdgImgid := by
    rintro rfl
    revert ho
    decide
  rw [loadStructure_eq, ledgerResult_reg _ _ _ _ hresult, State.setReg_reg_other _ _ himgid]
  unfold State.ringsReset
  rw [State.reg_of_regs (congrArg (fun b => b.get off) (resetRings_regs _ _)), entries_reg, structDefaults_reg s ho]
  rfl

-- READY (step 16, R352).

theorem powerKick_leaves (s : State) : s.powerKick.boot = s.boot ∧ s.powerKick.regs = s.regs := by
  unfold State.powerKick
  (repeat' split) <;> exact ⟨rfl, rfl⟩

theorem becomeReady_sets (s : State) : s.becomeReady.boot = { s.boot with ready := true, booting := false } ∧
    s.becomeReady.flag offStwEvents 0 = true := by
  unfold State.becomeReady
  obtain ⟨hb, hr⟩ := powerKick_leaves
    (({ s with boot := { s.boot with ready := true, booting := false } } : State).raiseEvent offStwEvents 0)
  refine ⟨hb, ?_⟩
  rw [State.flag, State.reg_of_regs (congrArg (fun b => b.get offStwEvents) hr)]
  exact State.raiseEvent_flag_same _ _ 0 (by decide)

end Sys2Proof.Machine
end

section
/-!
PROOFS. A boot step that passes leads on (O15).
-/

namespace Sys2Proof.Machine

section
variable {s t u : State} {r : BootReport} {n : Nat} {code : Byte}

theorem mayEndStep_booting (h : s.mayEndStep r = true) : s.boot.booting = true := by
  simp only [State.mayEndStep, Bool.and_eq_true] at h
  exact h.1.1.2

/-- A link step ends once its ports are linked. -/
theorem mayEndStep_linked (h : s.mayEndStep r = true) (hn : s.boot.step = 9 ∨ s.boot.step = 10) : s.unlinked s.boot.step = 0 := by
  rcases hn with hn | hn <;>
    (simp only [State.mayEndStep, hn, Bool.and_eq_true, beq_iff_eq] at h
     rw [hn]
     exact h.2)

theorem mayEndStep_seeds (h : s.mayEndStep r = true) (hn : s.boot.step = 14) : r.seeds.length = s.cfg.lanes := by
  simp only [State.mayEndStep, hn, Bool.and_eq_true, seedsOk, beq_iff_eq] at h
  exact h.2.1.1

theorem mayEndStep_ramped (h : s.mayEndStep r = true) (hn : s.boot.step = 15) :
    (s.power.phase == .rest && s.power.running == s.cfg.rampUnits) = true := by
  simp only [State.mayEndStep, hn, Bool.and_eq_true] at h
  exact Bool.and_eq_true _ _ ▸ h.2

-- What the paths of the steps are.

/-- The lanes that a step has found failed. -/
def lanesMask (l : List Nat) : BitVec 64 := l.foldl (fun a i => a ||| BitVec.ofNat 64 (2 ^ i)) 0#64

/-- The boot state tells which lanes have failed. -/
def Boot.lanesTested (b : Boot) (l : List Nat) : Boot := { b with lanesFailed := lanesMask l }

/-- LARDER_DIR leaves every way invalid. -/
def State.dirCleared (s : State) : State := { s with larder := { s.larder with dir := .empty } }

theorem runPrimary_required (s : State) (r : BootReport) (hn : n ∈ [1, 2, 6]) : s.runPrimary n r = (s, r.ok, 0) := by
  simp only [List.mem_cons, List.not_mem_nil, or_false] at hn
  rcases hn with rfl | rfl | rfl
  · rfl
  · rfl
  · rfl

theorem runPrimary_laneTest (s : State) (r : BootReport) : s.runPrimary 3 r =
    (s.withBoot (s.boot.lanesTested (s.maskLanes r.lanes)),
      r.ok && (s.maskLanes r.lanes).isEmpty, lanesCode (s.maskLanes r.lanes)) := rfl

theorem runPrimary_memLinks (s : State) (r : BootReport) :
    s.runPrimary 4 r = (s, decide (s.unlinked 4 < s.cfg.mports), BitVec.ofNat 8 (s.unlinked 4)) := rfl

theorem runPrimary_tagTest (s : State) (r : BootReport) : s.runPrimary 8 r =
    (s, r.ok && [false, true].all (fun e => !s.cfg.hasWing e || (s.maskBanks r.banks e).isEmpty), 0) := rfl

theorem runPrimary_links (s : State) (r : BootReport) (hn : n = 9 ∨ n = 10) :
    s.runPrimary n r = (s, s.unlinked n == 0, BitVec.ofNat 8 (s.unlinked n)) := by
  rcases hn with rfl | rfl
  · rfl
  · rfl

theorem runPrimary_tierTest (s : State) (r : BootReport) : s.runPrimary 12 r = (s, r.ok && s.badTiers r.tiers == 0#8, 0) := rfl
theorem runPrimary_dir (s : State) (r : BootReport) : s.runPrimary 13 r = (s.dirCleared, r.ok, 0) := rfl
theorem runPrimary_seed (s : State) (r : BootReport) : s.runPrimary 14 r = (s.seedLanes r.seeds, true, 0) := rfl

theorem runPrimary_ramp (s : State) (r : BootReport) :
    s.runPrimary 15 r = (s, s.power.phase == .rest && s.power.running == s.cfg.rampUnits, 0) := rfl

theorem runPrimary_last (s : State) (r : BootReport) : s.runPrimary 16 r = (s, true, 0) := rfl

theorem runAlternate_lanes (s : State) (r : BootReport) (code : Byte) : s.runAlternate 3 r code =
    (((s.withBoot (s.boot.lanesTested (s.maskLanes r.lanes))).spareLanes (s.maskLanes r.lanes)).1,
      ((s.withBoot (s.boot.lanesTested (s.maskLanes r.lanes))).spareLanes (s.maskLanes r.lanes)).2,
      lanesCode (s.maskLanes r.lanes)) := rfl

theorem runAlternate_banks (s : State) (r : BootReport) (code : Byte) :
    s.runAlternate 8 r code = ((s.spareBanks r.banks).1, (s.spareBanks r.banks).2, 0) := rfl

theorem runAlternate_bypass (s : State) (r : BootReport) (code : Byte) :
    s.runAlternate 11 r code = ({ s with boot := { s.boot with bypass := true } }, true, code) := rfl

theorem runAlternate_tiers (s : State) (r : BootReport) (code : Byte) :
    s.runAlternate 12 r code = (s.mapOut (s.badTiers r.tiers), true, s.badTiers r.tiers) := rfl

/-- A step whose primary path passes ends, and a later step is in progress. -/
theorem bootStepEnd_primary (hs : s.atStep n r) (hn : n < 16) (hr : s.stepReads r = (u, true)) (hu : u.boot = s.boot)
    (hrows : n = 12 → r.rows = []) (h : u.runPrimary n r = (t, true, code)) :
    exec (.bootStepEnd r) s = .next (t.stepDone n true code) ∧ StepPasses n code t (t.stepDone n true code) := by
  obtain ⟨hmay, hstep, hpath⟩ := hs
  have hend : u.endStep r false = t.stepDone n true code :=
    endStep_primary (hu ▸ hstep) (hu ▸ hpath) hrows h
  exact ⟨hend ▸ bootStepEnd_runs hmay hr, stepDone_stepPasses t code hn⟩

/-- The step that follows is in progress where it is always run. -/
theorem stepDone_next (s : State) (code : Byte) (hn : n ≠ 16)
    (hpol : ∀ a : State, a.policyNow (n + 1) ≠ 3 ∧ a.policyNow (n + 1) ≠ 1) :
    (s.stepDone n true code).boot.step = n + 1 ∧ ((s.stepDone n true code).boot.jrnl.get (n + 1)).outcome = 3#4 := by
  rw [stepDone_passes s code hn]
  exact enter_run (hpol _).1 (hpol _).2

-- Required steps.

theorem required_leadsOn (hn : n ∈ [1, 2, 6]) (hs : s.atStep n r) (hok : r.ok = true) : ∃ t,
    exec (.bootStepEnd r) s = .next t ∧ (t.boot.jrnl.get n).outcome = 1#4 ∧ (t.boot.jrnl.get n).fails = 0 ∧
      t.boot.step = n + 1 ∧ (t.boot.jrnl.get (n + 1)).outcome = 3#4 ∧ t.boot.booting = true := by
  have hboot := mayEndStep_booting hs.1
  have hstep := hs.2.1
  have hreads : s.stepReads r = (s, true) := by
    refine stepReads_nothing r ?_ ?_ ?_ <;> (simp at hn; omega)
  have hrun : s.runPrimary n r = (s, true, 0) := hok ▸ runPrimary_required s r hn
  have hpol : ∀ a : State, a.policyNow (n + 1) ≠ 3 ∧ a.policyNow (n + 1) ≠ 1 := by
    simp only [List.mem_cons, List.not_mem_nil, or_false] at hn
    rcases hn with rfl | rfl | rfl <;> simp [State.policyNow, stepPolicy]
  have h16 : n < 16 := by
    simp at hn
    omega
  obtain ⟨he, hp⟩ := bootStepEnd_primary hs h16 hreads rfl (by simp at hn; omega) hrun
  have hnext := stepDone_next s 0 (by omega) hpol
  exact ⟨_, he, congrArg JEntry.outcome hp.entry, congrArg JEntry.fails hp.entry, hnext.1, hnext.2,
    (congrArg Boot.booting hp.boot).trans hboot⟩

-- Primary paths.

/-- When the primary path of a step passes that reads no image (R352). -/
def State.primaryPasses (s : State) (n : Nat) (r : BootReport) : Prop :=
  n = 3 ∧ r.ok = true ∧ s.maskLanes r.lanes = [] ∨ n = 4 ∧ s.unlinked 4 < s.cfg.mports ∨
    n = 8 ∧ r.ok = true ∧ (∀ e, s.cfg.hasWing e = true → s.maskBanks r.banks e = []) ∨ n ∈ [9, 10, 14, 15] ∨
    n = 12 ∧ r.ok = true ∧ r.rows = [] ∧ s.badTiers r.tiers = 0#8 ∨ n = 13 ∧ r.ok = true

/-- What the primary path of step `n` has set in `t`. -/
structure PrimarySets (n : Nat) (r : BootReport) (s t : State) (code : Byte) : Prop where
  booting : t.boot.booting = s.boot.booting
  lanes : n = 3 → t.boot.lanesFailed = 0#64
  ports : n = 4 → code = BitVec.ofNat 8 (s.unlinked 4)
  dir : n = 13 → t.larder.dir = .empty
  seeds : n = 14 → ∀ l < s.cfg.lanes, (t.lane l).lfsr = r.seeds.getD l 0#32

theorem runPrimary_passes (hs : s.atStep n r) (h : s.primaryPasses n r) : ∃ t code,
    s.runPrimary n r = (t, true, code) ∧ PrimarySets n r s t code := by
  obtain ⟨hmay, hstep, -⟩ := hs
  rcases h with ⟨rfl, hok, hbad⟩ | ⟨rfl, hlinked⟩ | ⟨rfl, hok, hbanks⟩ | hn | ⟨rfl, hok, -, htiers⟩ | ⟨rfl, hok⟩
  · refine ⟨s.withBoot (s.boot.lanesTested []), lanesCode [], ?_, ⟨rfl, fun _ => rfl, by simp, by simp, by simp⟩⟩
    rw [runPrimary_laneTest, hok, hbad]
    rfl
  · refine ⟨s, BitVec.ofNat 8 (s.unlinked 4), ?_, ⟨rfl, by simp, fun _ => rfl, by simp, by simp⟩⟩
    rw [runPrimary_memLinks, decide_eq_true hlinked]
  · refine ⟨s, 0, ?_, ⟨rfl, by simp, by simp, by simp, by simp⟩⟩
    have hall : [false, true].all (fun e => !s.cfg.hasWing e || (s.maskBanks r.banks e).isEmpty) = true :=
      List.all_eq_true.2 fun e _ => by cases he : s.cfg.hasWing e <;> simp [hbanks, he]
    rw [runPrimary_tagTest, hok, hall]
    rfl
  · simp only [List.mem_cons, List.not_mem_nil, or_false] at hn
    have hlinks (h9 : n = 9 ∨ n = 10) : ∃ t code, s.runPrimary n r = (t, true, code) ∧ PrimarySets n r s t code := by
      have hzero : s.unlinked n = 0 := hstep ▸ mayEndStep_linked hmay (hstep ▸ h9)
      refine ⟨s, BitVec.ofNat 8 (s.unlinked n), ?_, ⟨rfl, by omega, by omega, by omega, by omega⟩⟩
      rw [runPrimary_links s r h9, hzero]
      rfl
    rcases hn with h9 | h10 | rfl | rfl
    · exact hlinks (.inl h9)
    · exact hlinks (.inr h10)
    · have hlen := mayEndStep_seeds hmay hstep
      refine ⟨s.seedLanes r.seeds, 0, runPrimary_seed s r, ⟨?_, by simp, by simp, by simp, fun _ l hl => ?_⟩⟩
      · rw [seedLanes_boot]
      · exact seedLanes_lfsr s (hlen ▸ hl)
    · refine ⟨s, 0, ?_, ⟨rfl, by simp, by simp, by simp, by simp⟩⟩
      rw [runPrimary_ramp, mayEndStep_ramped hmay hstep]
  · refine ⟨s, 0, ?_, ⟨rfl, by simp, by simp, by simp, by simp⟩⟩
    rw [runPrimary_tierTest, hok, htiers]
    rfl
  · refine ⟨s.dirCleared, 0, ?_, ⟨rfl, by simp, by simp, fun _ => rfl, by simp⟩⟩
    rw [runPrimary_dir, hok]

theorem primaryPasses_reads (hs : s.atStep n r) (h : s.primaryPasses n r) :
    s.stepReads r = (s, true) ∧ n < 16 ∧ (n = 12 → r.rows = []) := by
  have hstep := hs.2.1
  rcases h with ⟨rfl, -⟩ | ⟨rfl, -⟩ | ⟨rfl, -⟩ | hn | ⟨rfl, -, hrows, -⟩ | ⟨rfl, -⟩
  case inr.inr.inr.inl =>
    simp only [List.mem_cons, List.not_mem_nil, or_false] at hn
    exact ⟨stepReads_nothing r (by omega) (by omega) (by omega), by omega, by omega⟩
  all_goals exact ⟨stepReads_nothing r (by omega) (by omega) (by omega), by omega, by simp [*]⟩

theorem primary_leadsOn (hs : s.atStep n r) (h : s.primaryPasses n r) : ∃ t, exec (.bootStepEnd r) s = .next t ∧
    (t.boot.jrnl.get n).outcome = 1#4 ∧ (t.boot.jrnl.get n).fails = 0 ∧ t.boot.booting = true ∧ n < t.boot.step ∧
    (n = 3 → t.boot.lanesFailed = 0#64) ∧ (n = 4 → (t.boot.jrnl.get 4).code = BitVec.ofNat 8 (s.unlinked 4)) ∧
    (n = 13 → ∀ key w, t.way key w = default) ∧
    (n = 14 → ∀ l < s.cfg.lanes, (t.lane l).lfsr = r.seeds.getD l 0#32) := by
  obtain ⟨hreads, hn, hrows⟩ := primaryPasses_reads hs h
  obtain ⟨t, code, hrun, hsets⟩ := runPrimary_passes hs h
  obtain ⟨he, hp⟩ := bootStepEnd_primary hs hn hreads rfl hrows hrun
  refine ⟨_, he, congrArg JEntry.outcome hp.entry, congrArg JEntry.fails hp.entry, ?_, hp.later, fun h3 => ?_, ?_, fun h13 key w => ?_,
    fun h14 l hl => ?_⟩
  · exact (congrArg Boot.booting hp.boot).trans (hsets.booting.trans (mayEndStep_booting hs.1))
  · exact (congrArg Boot.lanesFailed hp.boot).trans (hsets.lanes h3)
  · rintro rfl
    exact (congrArg JEntry.code hp.entry).trans (hsets.ports rfl)
  · rw [State.way, hp.larder, hsets.dir h13]
    rfl
  · rw [State.lane, hp.lanes]
    exact hsets.seeds h14 l hl

-- Alternate paths.

/-- When the alternate path of a step passes that reads no image (R352). -/
def State.alternatePasses (s : State) (n : Nat) (r : BootReport) : Prop :=
  n = 3 ∧ (s.spareLanes (s.maskLanes r.lanes)).2 = true ∨ n = 8 ∧ (s.spareBanks r.banks).2 = true ∨ n = 11 ∨
    n = 12 ∧ r.rows = []

/-- What the alternate path of step `n`, begun with the boot state `b`, has set in `t`. -/
structure AlternateSets (n : Nat) (r : BootReport) (s : State) (b : Boot) (t : State) : Prop where
  booting : t.boot.booting = b.booting
  jrnl : t.boot.jrnl = b.jrnl
  bypass : n = 11 → t.boot.bypass = true
  tiers : n = 12 → t.larder.tiersOut = s.larder.tiersOut ||| s.badTiers r.tiers

theorem runAlternate_passes (h : s.alternatePasses n r) (b : Boot) (code : Byte) : ∃ t code',
    (s.withBoot b).runAlternate n r code = (t, true, code') ∧ AlternateSets n r s b t := by
  rcases h with ⟨rfl, hlanes⟩ | ⟨rfl, hbanks⟩ | rfl | ⟨rfl, -⟩
  · have hspare := spareLanes_withBoot s (b.lanesTested (s.maskLanes r.lanes)) (s.maskLanes r.lanes)
    refine ⟨(s.spareLanes (s.maskLanes r.lanes)).1.withBoot (b.lanesTested (s.maskLanes r.lanes)),
      lanesCode (s.maskLanes r.lanes), ?_, ⟨rfl, rfl, by simp, by simp⟩⟩
    rw [hlanes] at hspare
    have hrun := runAlternate_lanes (s.withBoot b) r code
    change _ = (((s.withBoot (b.lanesTested (s.maskLanes r.lanes))).spareLanes (s.maskLanes r.lanes)).1,
      ((s.withBoot (b.lanesTested (s.maskLanes r.lanes))).spareLanes (s.maskLanes r.lanes)).2, lanesCode (s.maskLanes r.lanes)) at hrun
    rw [hrun, hspare]
  · have hsnd := (spareBanks_snd_withBoot s b r.banks).trans hbanks
    have hfst := spareBanks_fst_boot (s.withBoot b) r.banks
    refine ⟨((s.withBoot b).spareBanks r.banks).1, 0, ?_, ⟨by rw [hfst]; rfl, by rw [hfst]; rfl, by simp, by simp⟩⟩
    rw [runAlternate_banks, hsnd]
  · exact ⟨_, _, runAlternate_bypass _ r code, ⟨rfl, rfl, fun _ => rfl, by simp⟩⟩
  · exact ⟨_, _, runAlternate_tiers _ r code, ⟨rfl, rfl, by simp, fun _ => rfl⟩⟩

/-- When the primary path of a step fails that has an alternate and reads no image (R352). -/
def State.primaryFails (s : State) (n : Nat) (r : BootReport) : Prop :=
  n = 3 ∧ (r.ok = false ∨ s.maskLanes r.lanes ≠ []) ∨ n = 8 ∧ r.ok = false ∨
    n = 12 ∧ (r.ok = false ∨ s.badTiers r.tiers ≠ 0#8)

theorem runPrimary_fails (h : s.primaryFails n r) : ∃ b code, s.runPrimary n r = (s.withBoot b, false, code) ∧
    b.booting = s.boot.booting ∧ b.step = s.boot.step := by
  rcases h with ⟨rfl, h⟩ | ⟨rfl, hok⟩ | ⟨rfl, h⟩
  · refine ⟨s.boot.lanesTested (s.maskLanes r.lanes), lanesCode (s.maskLanes r.lanes), ?_, rfl, rfl⟩
    have hfail : (r.ok && (s.maskLanes r.lanes).isEmpty) = false := by
      rcases h with hok | hbad
      · simp [hok]
      · simp [hbad]
    rw [runPrimary_laneTest, hfail]
  · refine ⟨s.boot, 0, ?_, rfl, rfl⟩
    rw [runPrimary_tagTest, hok]
    rfl
  · refine ⟨s.boot, 0, ?_, rfl, rfl⟩
    have hfail : (r.ok && s.badTiers r.tiers == 0#8) = false := by
      rcases h with hok | hbad
      · simp [hok]
      · simp [hbad]
    rw [runPrimary_tierTest, hfail]
    rfl

/-- The alternate path ends the step: it has been chosen, or follows the primary that fails. -/
theorem endStep_byAlternate (hstep : s.boot.step = n) (hpol : s.policyNow n = 2) (halt : s.alternatePasses n r)
    (hpath : (s.boot.jrnl.get n).path = 2#2 ∨ s.primaryFails n r) : ∃ b t code, (b.jrnl.get n).path = 2#2 ∧
      b.booting = s.boot.booting ∧ AlternateSets n r s b t ∧ s.endStep r false = t.stepDone n true code := by
  have hrows : n = 12 → r.rows = [] := by
    rcases halt with ⟨rfl, -⟩ | ⟨rfl, -⟩ | rfl | ⟨-, h⟩ <;> simp [*]
  by_cases hp : (s.boot.jrnl.get n).path = 2#2
  · obtain ⟨t, code, hrun, hsets⟩ := runAlternate_passes halt s.boot (s.boot.jrnl.get n).code
    exact ⟨s.boot, t, code, hp, rfl, hsets, endStep_alternate hstep hp hrows hrun⟩
  · have hfails := hpath.resolve_left hp
    obtain ⟨b, code, hrun, hbooting, hbstep⟩ := runPrimary_fails hfails
    have hreads : ((s.withBoot b).turnsTo n code).stepReads r = ((s.withBoot b).turnsTo n code, true) := by
      have hturn : ((s.withBoot b).turnsTo n code).boot.step = n := hbstep.trans hstep
      rcases hfails with ⟨rfl, -⟩ | ⟨rfl, -⟩ | ⟨rfl, -⟩ <;>
        exact stepReads_nothing r (by omega) (by omega) (by omega)
    obtain ⟨t, code', halt', hsets⟩ := runAlternate_passes halt ((s.withBoot b).turnsTo n code).boot code
    exact ⟨((s.withBoot b).turnsTo n code).boot, t, code', turnsTo_path _ n code, hbooting, hsets,
      endStep_turns hstep hp hrows hpol hrun hreads halt'⟩

theorem alternate_leadsOn (hmay : s.mayEndStep r = true) (hstep : s.boot.step = n) (hpol : s.policyNow n = 2)
    (halt : s.alternatePasses n r) (hpath : (s.boot.jrnl.get n).path = 2#2 ∨ s.primaryFails n r) :
    ∃ t, exec (.bootStepEnd r) s = .next t ∧ (t.boot.jrnl.get n).outcome = 1#4 ∧ (t.boot.jrnl.get n).fails = 0 ∧
      (t.boot.jrnl.get n).path = 2#2 ∧ t.boot.booting = true ∧ n < t.boot.step ∧ (n = 11 → t.boot.bypass = true) ∧
      (n = 12 → t.larder.tiersOut = s.larder.tiersOut ||| s.badTiers r.tiers) := by
  have hreads : s.stepReads r = (s, true) := by
    refine stepReads_nothing r ?_ ?_ fun h11 => ?_
    · rcases halt with ⟨rfl, -⟩ | ⟨rfl, -⟩ | rfl | ⟨rfl, -⟩ <;> omega
    · rcases halt with ⟨rfl, -⟩ | ⟨rfl, -⟩ | rfl | ⟨rfl, -⟩ <;> omega
    · obtain rfl : 11 = n := h11.symm.trans hstep
      exact hpath.resolve_right (by simp [State.primaryFails])
  obtain ⟨b, t, code, hb, hbooting, hsets, hend⟩ := endStep_byAlternate hstep hpol halt hpath
  have hn : n < 16 := by rcases halt with ⟨rfl, -⟩ | ⟨rfl, -⟩ | rfl | ⟨rfl, -⟩ <;> omega
  have hp := stepDone_stepPasses t code hn
  refine ⟨_, bootStepEnd_runs hmay hreads, ?_⟩
  rw [hend]
  refine ⟨congrArg JEntry.outcome hp.entry, congrArg JEntry.fails hp.entry, ?_, ?_, hp.later, fun h11 => ?_, fun h12 => ?_⟩
  · refine (congrArg JEntry.path hp.entry).trans ?_
    rw [hsets.jrnl]
    exact hb
  · exact (congrArg Boot.booting hp.boot).trans (hsets.booting.trans (hbooting.trans (mayEndStep_booting hmay)))
  · exact (congrArg Boot.bypass hp.boot).trans (hsets.bypass h11)
  · rw [hp.larder]
    exact hsets.tiers h12

-- Images.

theorem check_read {p : State × Option (Byte × BitVec 512)} (h : (p.1, p.2.isSome) = (u, true)) : ∃ c, p = (u, some c) := by
  obtain ⟨t, o⟩ := p
  obtain ⟨rfl, ho⟩ := Prod.mk.inj h
  obtain ⟨c, rfl⟩ := Option.isSome_iff_exists.1 ho
  exact ⟨c, rfl⟩

/-- Steps 5 and 11 have read their image: the boot state is as it was. -/
theorem stepReads_image (hn : s.boot.step = 5 ∨ s.boot.step = 11) (hp : (s.boot.jrnl.get s.boot.step).path ≠ 2#2)
    (h : s.stepReads r = (u, true)) : u.boot = s.boot := by
  unfold State.stepReads at h
  rcases hn with hn | hn
  · rw [hn] at h hp
    simp only [if_neg hp] at h
    obtain ⟨c, hc⟩ := check_read h
    exact imageCheck_some hc
  · rw [hn] at h hp
    simp only [if_neg hp] at h
    obtain ⟨c, hc⟩ := check_read h
    exact imageCheck_some hc

/-- Step 7 has read the structure image. -/
theorem stepReads_structure (hn : s.boot.step = 7) (h : s.stepReads r = (u, true)) : u.boot = s.boot ∧ u.cfg = s.cfg := by
  unfold State.stepReads at h
  rw [hn] at h
  generalize hc : s.structRead = p at h
  obtain ⟨t, o⟩ := p
  have ht : (t, o.isSome) = (u, true) := h
  obtain ⟨rfl, ho⟩ := Prod.mk.inj ht
  obtain ⟨c, rfl⟩ := Option.isSome_iff_exists.1 ho
  exact structRead_some hc

theorem runPrimary_firmware {h : BitVec 512} (hf : s.imageFound 0 1 r.sigOk = (0#8, h)) :
    s.runPrimary 5 r = (s.loadFirmware false h, true, 0) := by
  unfold State.runPrimary
  rw [hf]
  exact if_pos rfl

theorem runPrimary_microcode {h : BitVec 512} (hf : s.imageFound 2 2 r.sigOk = (0#8, h)) :
    s.runPrimary 11 r = (s.loadMicrocode h, true, 0) := by
  unfold State.runPrimary
  rw [hf]
  exact if_pos rfl

theorem runPrimary_structure {st : Byte} {h : BitVec 512} {es : List (BitVec 64)}
    (hf : s.structFound = (st, h, es)) (hb : s.structImageBad st h es = none) :
    s.runPrimary 7 r = (s.loadStructure h es, true, 0) := by
  unfold State.runPrimary
  rw [hf]
  exact congrArg (fun o : Option (Byte × Nat × Nat) => match o with
    | none => (s.loadStructure h es, true, (0#8 : Byte))
    | some (st, k, off) => (s.ledgerResult st k off, false, 0)) hb

theorem firmware_leadsOn {h : BitVec 512} (hs : s.atStep 5 r) (hr : s.stepReads r = (u, true))
    (hf : u.imageFound 0 1 r.sigOk = (0#8, h)) : ∃ t, exec (.bootStepEnd r) s = .next t ∧
      (t.boot.jrnl.get 5).outcome = 1#4 ∧ (t.boot.jrnl.get 5).fails = 0 ∧ 5 < t.boot.step ∧ t.boot.imgB = false ∧
      t.boot.fwver = BitVec.ofNat 32 (fieldAt h 4 4) ∧ t.boot.stwEpoch = BitVec.ofNat 16 (fieldAt h 8 2) := by
  have hu := stepReads_image (.inl hs.2.1) (hs.2.1.symm ▸ hs.2.2) hr
  obtain ⟨he, hp⟩ := bootStepEnd_primary hs (by decide) hr hu (by simp) (runPrimary_firmware hf)
  exact ⟨_, he, congrArg JEntry.outcome hp.entry, congrArg JEntry.fails hp.entry, hp.later, congrArg Boot.imgB hp.boot,
    congrArg Boot.fwver hp.boot, congrArg Boot.stwEpoch hp.boot⟩

theorem microcode_leadsOn {h : BitVec 512} (hs : s.atStep 11 r) (hr : s.stepReads r = (u, true))
    (hf : u.imageFound 2 2 r.sigOk = (0#8, h)) : ∃ t, exec (.bootStepEnd r) s = .next t ∧
      (t.boot.jrnl.get 11).outcome = 1#4 ∧ (t.boot.jrnl.get 11).fails = 0 ∧ 11 < t.boot.step ∧
      t.boot.lmver = BitVec.ofNat 32 (fieldAt h 4 4) ∧ t.boot.lmEpoch = BitVec.ofNat 16 (fieldAt h 8 2) := by
  have hu := stepReads_image (.inr hs.2.1) (hs.2.1.symm ▸ hs.2.2) hr
  obtain ⟨he, hp⟩ := bootStepEnd_primary hs (by decide) hr hu (by simp) (runPrimary_microcode hf)
  exact ⟨_, he, congrArg JEntry.outcome hp.entry, congrArg JEntry.fails hp.entry, hp.later,
    congrArg Boot.lmver hp.boot, congrArg Boot.lmEpoch hp.boot⟩

/-- Step 8 is run at every configuration point. -/
theorem policyNow_tagTest (s : State) : s.policyNow 8 ≠ 3 ∧ s.policyNow 8 ≠ 1 := by
  cases hc : s.cfg <;> simp [State.policyNow, stepPolicy, hc]

theorem structure_leadsOn {st : Byte} {h : BitVec 512} {es : List (BitVec 64)} (hs : s.atStep 7 r)
    (hr : s.stepReads r = (u, true)) (hf : u.structFound = (st, h, es)) (hb : u.structImageBad st h es = none) :
    ∃ t, exec (.bootStepEnd r) s = .next t ∧ (t.boot.jrnl.get 7).outcome = 1#4 ∧ t.boot.step = 8 ∧
      (∀ off, (structBits off).isSome = true → t.reg off = imageStruct s.cfg es off) ∧
      t.reg offLdgImgid = BitVec.ofNat 32 (fieldAt h 8 4) := by
  obtain ⟨hu, hcfg⟩ := stepReads_structure hs.2.1 hr
  obtain ⟨he, hp⟩ := bootStepEnd_primary hs (by decide) hr hu (by simp) (runPrimary_structure hf hb)
  have hreg (off : Nat) : ((u.loadStructure h es).stepDone 7 true 0).reg off = (u.loadStructure h es).reg off :=
    State.reg_of_regs (congrArg (fun b => b.get off) hp.regs)
  have hnext := (stepDone_next (u.loadStructure h es) 0 (n := 7) (by decide) policyNow_tagTest).1
  refine ⟨_, he, congrArg JEntry.outcome hp.entry, hnext, fun off ho => ?_, ?_⟩
  · rw [hreg, loadStructure_reg u h es ho, hcfg]
  · rw [hreg, loadStructure_imgid]

-- READY.

theorem last_leadsOn (hs : s.atStep 16 r) : ∃ t, exec (.bootStepEnd r) s = .next t ∧ (t.boot.jrnl.get 16).outcome = 1#4 ∧
    t.boot.ready = true ∧ t.boot.booting = false ∧ t.flag offStwEvents 0 = true := by
  obtain ⟨hmay, hstep, hpath⟩ := hs
  have hend := endStep_primary hstep hpath (by simp) (runPrimary_last s r)
  rw [stepDone_last] at hend
  have hexec := bootStepEnd_runs hmay (stepReads_nothing r (by omega) (by omega) (by omega))
  rw [hend] at hexec
  obtain ⟨hb, hflag⟩ := becomeReady_sets (s.stepNoted 16 0)
  have hentry : ((s.stepNoted 16 0).becomeReady.boot.jrnl.get 16).outcome = 1#4 := by
    rw [hb]
    exact congrArg JEntry.outcome (stepNoted_jrnl s 16 0)
  exact ⟨_, hexec, hentry, congrArg Boot.ready hb, congrArg Boot.booting hb, hflag⟩

end

/-- Settles O15: a path of step `n` that passes ends in `stepDone`, which notes the outcome and enters a later step; what the path has set,
entering leaves. -/
theorem bootStepThatPassesLeadsOn : Obligations.BootStepThatPassesLeadsOn := by
  unfold Obligations.BootStepThatPassesLeadsOn
  intro s r
  refine ⟨fun n hn hs hok => required_leadsOn hn hs hok, fun n hs h => primary_leadsOn hs h, fun n path hmay hstep hpol hpath h => ?_,
    fun n u h hn hs hr hf => ?_, fun u st h es hs hr hf hb => structure_leadsOn hs hr hf hb, last_leadsOn⟩
  · subst hpath
    refine alternate_leadsOn hmay hstep hpol ?_ ?_
    · rcases h with ⟨h3, -, hok⟩ | ⟨h8, -, hok⟩ | ⟨h11, -⟩ | ⟨h12, hrows, -⟩
      · exact .inl ⟨h3, hok⟩
      · exact .inr (.inl ⟨h8, hok⟩)
      · exact .inr (.inr (.inl h11))
      · exact .inr (.inr (.inr ⟨h12, hrows⟩))
    · rcases h with ⟨h3, hway, -⟩ | ⟨h8, hway, -⟩ | ⟨-, hp⟩ | ⟨h12, -, hway⟩
      · exact hway.imp id fun hf => .inl ⟨h3, hf⟩
      · exact hway.imp id fun hf => .inr (.inl ⟨h8, hf⟩)
      · exact .inl hp
      · exact hway.imp id fun hf => .inr (.inr ⟨h12, hf⟩)
  · rcases hn with rfl | rfl
    · exact firmware_leadsOn hs hr hf
    · exact microcode_leadsOn hs hr hf

end Sys2Proof.Machine
end

section
/-!
PROOFS. How a port sends the flits of a parcel (R65, R66, R110).
-/

namespace Sys2Proof.Machine

/-- Only the snapshots that a fault record reads (R110) may differ. -/
structure SnapsNoted (s t : State) : Prop where
  eq : t = { s with queues := t.queues }
  queue : ∀ j, { t.queue j with snaps := (s.queue j).snaps } = s.queue j

theorem SnapsNoted.refl (s : State) : SnapsNoted s s := ⟨rfl, fun _ => rfl⟩

theorem SnapsNoted.trans {s t u : State} (h : SnapsNoted s t) (k : SnapsNoted t u) : SnapsNoted s u where
  eq := by rw [k.eq, h.eq]
  queue j := by
    rw [← h.queue j, ← k.queue j]

theorem updSnap_snapsNoted (s : State) (q : Nat) (idx : BitVec 16) (u : Nat) (f : UnitSnap → UnitSnap) :
    SnapsNoted s (s.updSnap q idx u f) where
  eq := rfl
  queue j := by
    by_cases hj : j = q
    · subst hj
      simp [State.updSnap]
    · rw [show (s.updSnap q idx u f).queue j = s.queue j from State.setQueue_queue_other s q _ _ hj]

theorem streamSnap_snapsNoted (s : State) (q stream u : Nat) (f : UnitSnap → UnitSnap) :
    SnapsNoted s (s.streamSnap q stream u f) := by
  unfold State.streamSnap
  split
  · exact updSnap_snapsNoted s _ _ _ _
  · exact .refl s

theorem parcelIssued_snapsNoted (s : State) (p : TxParcel) : SnapsNoted s (s.parcelIssued p) := by
  unfold State.parcelIssued
  split
  · split
    · exact .refl s
    · exact (streamSnap_snapsNoted s _ _ _ _).trans (streamSnap_snapsNoted _ _ _ _ _)
  · exact .refl s

/-- A parcel without a queue is counted in no snapshot. -/
theorem parcelIssued_noQueue (s : State) {p : TxParcel} (h : p.q = none) : s.parcelIssued p = s := by
  simp [State.parcelIssued, h]

/-- Bytes behind a parcel use up free values. -/
theorem padBytes_gives (s : State) (n : Nat) :
    (s.padBytes n).1 = { s with free := s.free + n } ∧ (s.padBytes n).2.length = n := by
  induction n with
  | zero => exact ⟨rfl, rfl⟩
  | succ n ih =>
    have hstep : s.padBytes (n + 1) = ((s.padBytes n).1.openByte.1, (s.padBytes n).2 ++ [(s.padBytes n).1.openByte.2]) := by
      unfold State.padBytes
      rw [List.range_succ, List.foldl_append]
      rfl
    rw [hstep]
    refine ⟨?_, by simp [ih.2]⟩
    change (s.padBytes n).1.tick = _
    rw [ih.1]
    rfl

/-- Nothing is served where no unit holds work and no credits are owed. -/
theorem serveAll_idle {s : State} (h : s.noLaneWork) : s.serveAll = s := by
  obtain ⟨-, -, -, -, hs, ho, -⟩ := h
  simp [State.serveAll, hs, ho, Bank.empty]

/-- What is left of a port's parcels when `n` flits of `p` have been sent. -/
def txAfter (p : TxParcel) (n : Nat) (l : List TxParcel) : List TxParcel :=
  if n = p.flits then l.erase p else l.map (fun y => if y == p then { y with begun := true, flits := p.flits - n } else y)

/-- `n` flits of `p` take the credits of their class. -/
def State.flitsGo (s : State) (x : Nat) (cls : Bool) (p : TxParcel) (n : Nat) : State :=
  s.updXport x (fun v => if cls then { v with tx := txAfter p n v.tx, cred1 := v.cred1 - n }
    else { v with tx := txAfter p n v.tx, cred0 := v.cred0 - n })

theorem flitsGo_xport (s : State) (x : Nat) (cls : Bool) (p : TxParcel) (n : Nat) : (s.flitsGo x cls p n).xport x =
    { s.xport x with
      tx := txAfter p n (s.xport x).tx
      cred0 := (s.xport x).cred0 - (if cls then 0 else n), cred1 := (s.xport x).cred1 - (if cls then n else 0) } := by
  cases cls <;> simp [State.flitsGo, State.xport, State.updXport]

/-- The last flit of the parcel is filled up. -/
def State.flitsPadded (s : State) (p : TxParcel) (n : Nat) : State × List Byte :=
  if n = p.flits then s.padBytes (parcelPad p.parcel) else (s, [])

theorem flitsPadded_gives (s : State) (p : TxParcel) (n : Nat) :
    (s.flitsPadded p n).1 = { s with free := (s.flitsPadded p n).1.free } ∧
      (s.flitsPadded p n).2.length = if n = p.flits then parcelPad p.parcel else 0 := by
  unfold State.flitsPadded
  split
  · obtain ⟨hs, hl⟩ := padBytes_gives s (parcelPad p.parcel)
    exact ⟨by rw [hs], hl⟩
  · exact ⟨rfl, rfl⟩

/-- The flits that a port drives for a parcel. -/
def flitsOf (x : Nat) (cls : Bool) (p : TxParcel) (n : Nat) (pad : List Byte) : Out :=
  .flits x cls ((List.range n).map (fun i => flitBytes p.parcel pad (parcelFlits p.parcel - p.flits + i)))

/-- The flits are driven and counted. -/
def State.flitsDriven (s : State) (x : Nat) (cls : Bool) (p : TxParcel) (n : Nat) (pad : List Byte) : State :=
  (s.drive (flitsOf x cls p n pad)).count (unitXport x) 0x01 (oneIf cls) n

/-- With the first flit the parcel counts for the fault record of its queue and is traced. -/
def State.parcelBegins (s : State) (x : Nat) (p : TxParcel) : State :=
  if p.begun then (if p.begun then s else s.parcelIssued p)
  else (if p.begun then s else s.parcelIssued p).trace 6 (unitXport x) p.q (parcelPayload x p.parcel p.parcel.dst.toNat false)

/-- The state after the flits are driven: what waited for room in the reply buffer goes on. -/
def State.flitsServed (s : State) (p : TxParcel) : State := if p.answers.isSome then s.serveAll else s

theorem parcelSend_runs {s : State} {x n : Nat} {cls : Bool} {p : TxParcel} (hx : s.xportAlive x = true)
    (hl : s.flag offXportLink x = true) (hp : s.nextParcel x cls = some p)
    (hn : n = min p.flits (if cls then (s.xport x).cred1 else (s.xport x).cred0)) (h0 : 0 < n) :
    exec (.parcelSend x cls) s = .next
      (((((s.flitsGo x cls p n).flitsPadded p n).1.flitsDriven x cls p n ((s.flitsGo x cls p n).flitsPadded p n).2).flitsServed
        p).parcelBegins x p) := by
  have hrun : execParcelSend x cls s = .next
      (((((s.flitsGo x cls p n).flitsPadded p n).1.flitsDriven x cls p n ((s.flitsGo x cls p n).flitsPadded p n).2).flitsServed
        p).parcelBegins x p) := by
    unfold execParcelSend
    rw [hp]
    subst hn
    exact whenever_pos (by simp [hx, hl, h0]) _ _
  exact hrun

/-- What the first flit of a parcel changes besides the port. -/
theorem parcelBegins_notes (s : State) (x : Nat) (p : TxParcel) :
    s.parcelBegins x p = { s with
      queues := (s.parcelBegins x p).queues, tally := (s.parcelBegins x p).tally, regs := (s.parcelBegins x p).regs } ∧
    (∀ j, { (s.parcelBegins x p).queue j with snaps := (s.queue j).snaps } = s.queue j) ∧
    (p.begun = true ∨ p.q = none → (s.parcelBegins x p).queues = s.queues) ∧ s.regsBut (s.parcelBegins x p) [offTlyTraceDrop] := by
  by_cases hb : p.begun = true
  · have hsame : s.parcelBegins x p = s := by simp [State.parcelBegins, hb]
    rw [hsame]
    exact ⟨rfl, fun _ => rfl, fun _ => rfl, fun _ _ => rfl⟩
  · have hbegin : s.parcelBegins x p =
        (s.parcelIssued p).trace 6 (unitXport x) p.q (parcelPayload x p.parcel p.parcel.dst.toNat false) := by
      simp [State.parcelBegins, hb]
    have hnoted := parcelIssued_snapsNoted s p
    have htrace := trace_eq (s.parcelIssued p) 6 (unitXport x) p.q (parcelPayload x p.parcel p.parcel.dst.toNat false)
    have hregs := trace_regsBut (s.parcelIssued p) 6 (unitXport x) p.q (parcelPayload x p.parcel p.parcel.dst.toNat false)
    rw [hbegin]
    generalize (s.parcelIssued p).trace 6 (unitXport x) p.q (parcelPayload x p.parcel p.parcel.dst.toNat false) = u at htrace hregs ⊢
    have hq : u.queues = (s.parcelIssued p).queues := by rw [htrace]
    refine ⟨?_, fun j => ?_, fun hnone => ?_, fun off ho => ?_⟩
    · rw [htrace, hnoted.eq]
    · rw [State.queue, hq]
      exact hnoted.queue j
    · rw [hq, parcelIssued_noQueue s (hnone.resolve_left hb)]
    · rw [hregs off ho, hnoted.eq]
      rfl

/-- What the sending of flits changes before the parcel is noted. -/
structure FlitsSent (x : Nat) (cls : Bool) (p : TxParcel) (n : Nat) (pad : List Byte) (s t : State) : Prop where
  eq : t = { s with
    remote := { s.remote with ports := t.remote.ports }, out := flitsOf x cls p n pad :: s.out, tally := t.tally, free := t.free }
  ports : t.remote.ports = (s.flitsGo x cls p n).remote.ports

theorem flitsDriven_sent (s : State) (x : Nat) (cls : Bool) (p : TxParcel) (n : Nat) :
    FlitsSent x cls p n ((s.flitsGo x cls p n).flitsPadded p n).2 s
      (((s.flitsGo x cls p n).flitsPadded p n).1.flitsDriven x cls p n ((s.flitsGo x cls p n).flitsPadded p n).2) := by
  have hpad := (flitsPadded_gives (s.flitsGo x cls p n) p n).1
  generalize (s.flitsGo x cls p n).flitsPadded p n = v at hpad
  have hcount := count_eq (v.1.drive (flitsOf x cls p n v.2)) (unitXport x) 0x01 (oneIf cls) n
  unfold State.flitsDriven
  constructor
  · rw [hcount, hpad]
    rfl
  · rw [hcount, hpad]
    rfl

/-- A parcel sends as many flits as its class has credits (R65, R66). -/
theorem parcelSend_sends {s : State} {x n : Nat} {cls : Bool} {p : TxParcel} (hx : s.xportAlive x = true)
    (hl : s.flag offXportLink x = true) (hp : s.nextParcel x cls = some p)
    (hn : n = min p.flits (if cls then (s.xport x).cred1 else (s.xport x).cred0)) (h0 : 0 < n)
    (ha : p.answers = none ∨ s.noLaneWork) :
    ∃ t pad, exec (.parcelSend x cls) s = .next t ∧ pad.length = (if n = p.flits then parcelPad p.parcel else 0) ∧
      t.out = flitsOf x cls p n pad :: s.out ∧
      (t.xport x).cred0 = (s.xport x).cred0 - (if cls then 0 else n) ∧
      (t.xport x).cred1 = (s.xport x).cred1 - (if cls then n else 0) ∧
      (t.xport x).tx = txAfter p n (s.xport x).tx ∧
      (p.begun = true ∨ p.q = none → t.queues = s.queues) ∧
      (∀ j, { t.queue j with snaps := (s.queue j).snaps } = s.queue j) ∧ s.regsBut t [offTlyTraceDrop] ∧ { t with
        remote := { t.remote with ports := s.remote.ports }, regs := s.regs, out := s.out, tally := s.tally
        free := s.free, queues := s.queues } = s := by
  have hrun := parcelSend_runs hx hl hp hn h0
  have hpad := (flitsPadded_gives (s.flitsGo x cls p n) p n).2
  have hsent := flitsDriven_sent s x cls p n
  generalize hpadded : ((s.flitsGo x cls p n).flitsPadded p n).2 = pad at hrun hpad hsent
  generalize ((s.flitsGo x cls p n).flitsPadded p n).1.flitsDriven x cls p n pad = u at hrun hsent
  have hserved : u.flitsServed p = u := by
    rcases ha with hnone | hidle
    · simp [State.flitsServed, hnone]
    · unfold State.flitsServed
      have hu : u.noLaneWork := by
        rw [hsent.eq]
        exact hidle
      rw [serveAll_idle hu, ite_self]
  rw [hserved] at hrun
  obtain ⟨heq, hqueue, hqueues, hregs⟩ := parcelBegins_notes u x p
  generalize u.parcelBegins x p = t at hrun heq hqueue hqueues hregs
  have huq : u.queues = s.queues := by rw [hsent.eq]
  have hur : u.regs = s.regs := by rw [hsent.eq]
  have hport : t.xport x = (s.flitsGo x cls p n).xport x := by
    have ht : t.xport x = u.xport x := by rw [heq]; rfl
    rw [ht, State.xport, hsent.ports]
    rfl
  rw [flitsGo_xport] at hport
  refine ⟨t, pad, hrun, hpad, ?_, ?_, ?_, ?_, fun h => (hqueues h).trans huq, fun j => ?_, fun off ho => ?_, ?_⟩
  · rw [heq, hsent.eq]
  · rw [hport]
  · rw [hport]
  · rw [hport]
  · have huj : u.queue j = s.queue j := by rw [State.queue, huq]; rfl
    have hj := hqueue j
    rw [huj] at hj
    exact hj
  · rw [hregs off ho]
    exact State.reg_of_regs (by rw [hur])
  · rw [heq, hsent.eq]

end Sys2Proof.Machine
end

section
/-!
PROOFS. A parcel arrives (R65, R67), and a parcel that writes becomes a write request (R71).
-/

namespace Sys2Proof.Machine

section
variable {s t : State} {x : Nat} {p : Parcel}

/-- The credits of a parcel go back at once: those of a request class are not held back by a full reply buffer. -/
def State.creditsGo (s : State) (x : Nat) (p : Parcel) : Prop := p.cls = true ∨ s.replyFull (xportEast x) = false

theorem giveCredits_goes (h : s.creditsGo x p) (n : Nat) : s.giveCredits x p.cls n = s.drive (.flitCredits x p.cls n) := by
  have hno : (!p.cls && s.replyFull (xportEast x)) = false := by
    rcases h with hc | hf
    · simp [hc]
    · simp [hf]
  simp [State.giveCredits, hno]

theorem flitsTaken_goes (h : s.creditsGo x p) : s.flitsTaken x p =
    { s with tally := (s.flitsTaken x p).tally, out := .flitCredits x p.cls (parcelFlits p) :: s.out } := by
  have hcount := count_eq s (unitXport x) 0x02 (oneIf p.cls) (parcelFlits p)
  unfold State.flitsTaken
  generalize s.count (unitXport x) 0x02 (oneIf p.cls) (parcelFlits p) = u at hcount
  have hu : u.creditsGo x p := by
    rw [hcount]
    exact h
  rw [giveCredits_goes hu, hcount]
  rfl

/-- A good parcel has arrived: it is traced, and its credits have gone back. -/
structure Credited (x : Nat) (p : Parcel) (s t : State) : Prop where
  eq : t = { s with tally := t.tally, regs := t.regs, out := .flitCredits x p.cls (parcelFlits p) :: s.out }
  regs : s.regsBut t [offTlyTraceDrop]

/-- A good parcel of its type arrives, its credits go back, and it acts. -/
theorem arrive_credited {ty : Byte} (f : State → State) (ha : s.xportAlive x = true) (hl : s.flag offXportLink x = true)
    (hb : s.parcelBad p = false) (hty : p.ptype = ty) (hc : s.creditsGo x p) :
    ∃ t, s.arrive x p ty f = .next (f t) ∧ Credited x p s t := by
  have hu := flitsTaken_goes hc
  have hbad : (s.flitsTaken x p).parcelBad p = false := by
    rw [hu]
    exact hb
  have htrace := trace_eq (s.flitsTaken x p) 6 (unitXport x)
    (if isRequestType p.ptype then none else ((s.flitsTaken x p).outFor p).map (fun o => o.q)) (parcelPayload x p p.src.toNat true)
  have hregs := trace_regsBut (s.flitsTaken x p) 6 (unitXport x)
    (if isRequestType p.ptype then none else ((s.flitsTaken x p).outFor p).map (fun o => o.q)) (parcelPayload x p p.src.toNat true)
  have hrun : s.arrive x p ty f = .next (f ((s.flitsTaken x p).trace 6 (unitXport x)
      (if isRequestType p.ptype then none else ((s.flitsTaken x p).outFor p).map (fun o => o.q))
      (parcelPayload x p p.src.toNat true))) := by
    unfold State.arrive
    refine (whenever_pos (by simp [ha, hl, hty]) _ _).trans (congrArg Host.Outcome.next ?_)
    exact if_neg (by rw [show (State.giveCredits _ _ _ _).parcelBad p = _ from hbad]; exact Bool.false_ne_true)
  generalize State.trace _ 6 _ _ _ = t at hrun htrace hregs
  refine ⟨t, hrun, by rw [htrace, hu], fun off ho => (hregs off ho).trans ?_⟩
  rw [hu]
  rfl

/-- A parcel of a reserved type is bad. -/
theorem parcelBad_reserved (s : State) (h : knownType p.ptype = false) : s.parcelBad p = true := by
  simp [State.parcelBad, State.parcelMalformed, h]

/-- A parcel of a reserved type is discarded and counted; its credits go back (R65, R67). -/
theorem arrive_reserved (ty : Byte) (f : State → State) (ha : s.xportAlive x = true) (hl : s.flag offXportLink x = true)
    (h : knownType p.ptype = false) (hc : s.creditsGo x p) : ∃ t, s.arrive x p ty f = .next t ∧
      t.out = .flitCredits x p.cls (parcelFlits p) :: s.out ∧ { t with out := s.out, tally := s.tally } = s := by
  have hu := flitsTaken_goes hc
  have hcount := count_eq (s.flitsTaken x p) (unitXport x) 0x03 0 1
  refine ⟨(s.flitsTaken x p).count (unitXport x) 0x03 0 1, ?_, ?_, ?_⟩
  · unfold State.arrive
    refine (whenever_pos (by simp [ha, hl, h]) _ _).trans (congrArg Host.Outcome.next ?_)
    exact if_pos (parcelBad_reserved (s.flitsTaken x p) h)
  · rw [hcount, hu]
  · rw [hcount, hu]

/-- A good LKUP_REQ is counted when it asks for it, and accepted. -/
def State.lkupTaken (s : State) (x : Nat) (p : Parcel) : State :=
  (if bitAt p.flags 0 then s.count (unitXport x) 0x05 0 1 else s).accept { port := x, parcel := p }

theorem reserved_discarded (ha : s.xportAlive x = true) (hl : s.flag offXportLink x = true) (h : knownType p.ptype = false)
    (hc : s.creditsGo x p) {m : Instr}
    (hm : m ∈ [Instr.lkupReq x p, .lkupRsp x p, .rwrite x p, .rwriteFinal x p, .rwLanded x p, .nack x p]) : ∃ t, exec m s = .next t ∧
      t.out = .flitCredits x p.cls (parcelFlits p) :: s.out ∧ { t with out := s.out, tally := s.tally } = s := by
  simp only [List.mem_cons, List.not_mem_nil, or_false] at hm
  rcases hm with rfl | rfl | rfl | rfl | rfl | rfl
  · exact arrive_reserved 0x01#8 (fun s => s.lkupTaken x p) ha hl h hc
  · exact arrive_reserved 0x02#8 (fun s => s.response x p) ha hl h hc
  · exact arrive_reserved 0x03#8 (fun s => s.accept { port := x, parcel := p }) ha hl h hc
  · exact arrive_reserved 0x04#8 (fun s => s.accept { port := x, parcel := p }) ha hl h hc
  · exact arrive_reserved 0x05#8 (fun s => s.response x p) ha hl h hc
  · exact arrive_reserved 0x06#8 (fun s => s.response x p) ha hl h hc

-- What the arrival leaves to be read.

theorem regs_interleave (h : s.regsBut t [offTlyTraceDrop]) (hcfg : t.cfg = s.cfg) (pa : Nat) :
    t.interleave pa = s.interleave pa := by
  unfold State.interleave
  rw [h offLdgIlv (by decide), hcfg]

theorem regs_lowestPort (h : s.regsBut t [offTlyTraceDrop]) (hcfg : t.cfg = s.cfg) : t.lowestPort = s.lowestPort := by
  unfold State.lowestPort State.flag
  rw [h offMportLink (by decide), hcfg]

theorem regs_portFor (h : s.regsBut t [offTlyTraceDrop]) (hcfg : t.cfg = s.cfg) (hboot : t.boot = s.boot) (pa : Nat) :
    t.portFor pa = s.portFor pa := by
  unfold State.portFor State.portOf State.structured State.recovery
  rw [regs_interleave h hcfg, regs_lowestPort h hcfg, hboot]

theorem regs_mportUp (h : s.regsBut t [offTlyTraceDrop]) (hcfg : t.cfg = s.cfg) (k : Nat) : t.mportUp k = s.mportUp k := by
  simp only [State.mportUp, State.flag, hcfg, h offMportLink (by decide), h offMportFailed (by decide)]

-- A parcel that writes (R71).

/-- A request goes to its port where that is up and of the wing that issues it, and has tag banks for a read. -/
theorem pathOf_enters {r : Req} (hheld : r.heldFor = none) (hfinal : r.isFinal = false)
    (hbank : r.op = 0#3 → s.banksOut r.east ≠ s.cfg.tagBanks) (hup : s.mportUp r.port = true) (he : mportEast r.port = r.east) :
    s.pathOf r = .enter := by
  have hno : (r.op == 0#3 && s.banksOut r.east == s.cfg.tagBanks) = false := by
    by_cases hop : r.op = 0#3
    · simp [hbank hop]
    · simp [hop]
  simp only [State.pathOf, hheld, hfinal, hno, hup, he, Option.isSome_none, Bool.false_and, Bool.not_true, Bool.false_eq_true, if_false,
    beq_self_eq_true, if_true]

/-- A request whose port takes it waits there. -/
theorem submit_enters {r : Req} (hp : s.pathOf r = .enter) (hh : r.holder = .porter) :
    s.submit r = { s with waiting := s.waiting ++ [r] } := by
  simp [State.submit, hp, State.sendReq, State.leavesLane, hh]

/-- The write request for the bytes of a parcel. -/
def State.parcelWrite (s : State) (x : Nat) (p : Parcel) : Req := {
  id := s.nextId + 1, port := s.portFor p.addr.toNat, op := 1, pa := p.addr.toNat, len := p.payload.length, east := xportEast x
  asid := p.table, prio := 1, cat := .remote, q := none, holder := .porter, stream := s.nextId, ring := none, dests := []
  bytes := p.payload.zipIdx.map (fun b => (p.addr.toNat + b.2, b.1)), tiles := [], service := some s.nextId, heldFor := none
  slot := none }

/-- The write of a parcel is being performed. -/
def State.writeServed (s : State) (x : Nat) (p : Parcel) : State :=
  { s.bump.bump with remote := { s.remote with
    service := s.remote.service ++ [⟨s.nextId, x, p, [s.nextId + 1], false⟩] } }

theorem serveWrite_submits (hd : paDevice p.addr.toNat = s.devid) (hp : p.payload ≠ []) :
    s.serveWrite x p false = (s.writeServed x p).submit (s.parcelWrite x p) := by
  have hne : (paDevice p.addr.toNat != s.devid) = false := by simp [hd]
  have hempty : p.payload.isEmpty = false := by simpa using hp
  unfold State.serveWrite
  dsimp only
  rw [hne, hempty]
  rfl

theorem accept_n0 (h : s.power.st = .n0) (v : HeldParcel) : s.accept v = s.serveParcel v := by
  simp [State.accept, h]

/-- A write parcel is served by one request to the port of its address. -/
theorem accept_write (hn0 : s.power.st = .n0) (hty : p.ptype ≠ 0x01#8) (hd : paDevice p.addr.toNat = s.devid) (hp : p.payload ≠ [])
    (hup : s.mportUp (s.portFor p.addr.toNat) = true) (he : mportEast (s.portFor p.addr.toNat) = xportEast x) :
    s.accept { port := x, parcel := p } =
      { s.writeServed x p with waiting := s.waiting ++ [s.parcelWrite x p] } := by
  have hpath : (s.writeServed x p).pathOf (s.parcelWrite x p) = .enter :=
    pathOf_enters rfl rfl (fun h => absurd h (by decide : (1#3 : BitVec 3) ≠ 0#3)) hup he
  rw [accept_n0 hn0, State.serveParcel, if_neg (by simpa using hty)]
  exact (serveWrite_submits hd hp).trans (submit_enters hpath rfl)

theorem write_requested (ha : s.xportAlive x = true) (hl : s.flag offXportLink x = true) (hb : s.parcelBad p = false)
    (hn0 : s.power.st = .n0) (hd : paDevice p.addr.toNat = s.devid) (hp : p.payload ≠ [])
    (hup : s.mportUp (s.portFor p.addr.toNat) = true) (he : mportEast (s.portFor p.addr.toNat) = xportEast x)
    (hc : s.creditsGo x p) {m : Instr} {ty : Byte} (hty : p.ptype = ty) (h1 : ty ≠ 0x01#8)
    (hm : exec m s = s.arrive x p ty (fun s => s.accept { port := x, parcel := p })) :
    ∃ t r, exec m s = .next t ∧ t.waiting = s.waiting ++ [r] ∧ r.op = 1#3 ∧ r.pa = p.addr.toNat ∧ r.len = p.payload.length ∧
      r.bytes = p.payload.zipIdx.map (fun b => (p.addr.toNat + b.2, b.1)) ∧ r.asid = p.table ∧ r.cat = .remote ∧
      r.service = some s.nextId ∧
      t.remote = { s.remote with service := s.remote.service ++ [⟨s.nextId, x, p, [s.nextId + 1], false⟩] } ∧
      t.out = .flitCredits x p.cls (parcelFlits p) :: s.out ∧ t.queues = s.queues ∧ s.regsBut t [offTlyTraceDrop] := by
  obtain ⟨u, hrun, hu⟩ := arrive_credited (fun s => s.accept { port := x, parcel := p }) ha hl hb hty hc
  have hcfg : u.cfg = s.cfg := by rw [hu.eq]
  have hboot : u.boot = s.boot := by rw [hu.eq]
  have hid : u.nextId = s.nextId := by rw [hu.eq]
  have hport := regs_portFor hu.regs hcfg hboot p.addr.toNat
  have hacc := accept_write (s := u) (x := x) (p := p) (by rw [hu.eq]; exact hn0) (by rw [hty]; exact h1) (by rw [hu.eq]; exact hd) hp
    (by rw [hport, regs_mportUp hu.regs hcfg]; exact hup) (by rw [hport]; exact he)
  refine ⟨_, u.parcelWrite x p, hm.trans (hrun.trans (congrArg Host.Outcome.next hacc)), ?_, rfl, rfl, rfl, rfl, rfl, rfl, ?_, ?_, ?_, ?_, ?_⟩
  · exact congrArg (fun l => l ++ [u.parcelWrite x p]) (show u.waiting = s.waiting by rw [hu.eq])
  · exact congrArg some hid
  · have hrem : u.remote = s.remote := by rw [hu.eq]
    change { u.remote with service := u.remote.service ++ [(⟨u.nextId, x, p, [u.nextId + 1], false⟩ : RemoteWrite)] } = _
    rw [hrem, hid]
  · exact show u.out = _ by rw [hu.eq]
  · exact show u.queues = s.queues by rw [hu.eq]
  · exact hu.regs

end

end Sys2Proof.Machine
end

section
/-!
PROOFS. How the Porters take turns at the LKUP_REQ parcels they serve, and refuse one (R270).
-/

namespace Sys2Proof.Machine

section
variable {s t u : State} {v w : Serve} {x : Nat} {p : Parcel} {st : Byte} {e : Bool}

/-- One round of the Porters. -/
def State.serveRound (s : State) : State := (s.serveOne false).serveOne true

/-- A Porter whose wing serves nothing does nothing. -/
theorem serveOne_idle (h : ∀ v ∈ s.remote.serves, xportEast v.port ≠ e) : s.serveOne e = s := by
  have hnone : s.remote.serves.find? (fun v => xportEast v.port == e) = none :=
    List.find?_eq_none.2 fun v hv => by simpa using h v hv
  simp [State.serveOne, hnone]

/-- In a round the Porter of the one wing that serves parcels goes on. -/
theorem serveRound_eq (h : ∀ v ∈ s.remote.serves, xportEast v.port = e) (ht : s.serveOne e = t)
    (h' : ∀ v ∈ t.remote.serves, xportEast v.port = e) : s.serveRound = t := by
  unfold State.serveRound
  cases e with
  | false =>
    rw [ht]
    exact serveOne_idle fun v hv => by simp [h' v hv]
  | true => rw [serveOne_idle (e := false) (fun v hv => by simp [h v hv]), ht]

/-- Rounds that come to rest after one or two. -/
theorem serveAll_rests (hlen : s.remote.serves.length = 1) (ht : s.serveRound.serveRound = t) (hrest : t.serveRound = t) :
    s.serveAll = (t.payCredits false).payCredits true := by
  have hfold : (List.range (34 * s.remote.serves.length)).foldl (fun a _ => (a.serveOne false).serveOne true) s = t := by
    have hn : (List.range (34 * s.remote.serves.length)).length = 32 + 1 + 1 := by simp [hlen]
    change (List.range (34 * s.remote.serves.length)).foldl (fun a _ => State.serveRound a) s = t
    rw [List.foldl_const, hn, Function.iterate_succ_apply, Function.iterate_succ_apply, ht, Function.iterate_fixed hrest]
  have hne : (s.remote.serves.isEmpty && s.remote.owed.cells.isEmpty) = false := by
    cases hs : s.remote.serves with
    | nil => simp [hs] at hlen
    | cons => rfl
  unfold State.serveAll
  rw [hne, hfold]
  rfl

/-- What the Porters' rounds leave when they rest: credits that were held back go out. -/
theorem paid_eq (t : State) : (t.payCredits false).payCredits true = { t with
    remote := { t.remote with owed := ((t.payCredits false).payCredits true).remote.owed }
    out := ((t.payCredits false).payCredits true).out } := by
  rw [payCredits_eq, payCredits_eq t]

-- A turn begins.

theorem serveOne_begins (h : s.remote.serves = [v]) (hv : v.version = none) : s.serveOne (xportEast v.port) = s.serveBegin v := by
  simp [State.serveOne, h, hv]

/-- The checks of a parcel's turn, refused with `st` (R270). -/
def State.turnRefused (s : State) (p : Parcel) (st : Byte) : Prop :=
  (st = stEpochRetired ∧ (s.table (bits p.table 0 12)).version p.epoch = none) ∨
    (st = stIndexRange ∧ ∃ v, (s.table (bits p.table 0 12)).version p.epoch = some v ∧
      (∀ i < p.count.toNat, reqEntry p i < 2 ^ 40) ∧ ∃ i < p.count.toNat, tbNLocal v.desc ≤ reqEntry p i)

theorem entries_small (h : ∀ i < p.count.toNat, reqEntry p i < 2 ^ 40) :
    ((List.range p.count.toNat).map (reqEntry p)).any (fun e => decide (2 ^ 40 ≤ e)) = false := by
  simpa using h

theorem serveBegin_refuses (h : s.turnRefused v.parcel st) : s.serveBegin v = s.nackServe v.id st := by
  unfold State.serveBegin
  dsimp only
  rcases h with ⟨rfl, hnone⟩ | ⟨rfl, y, hy, hsmall, i, hi, hrange⟩
  · rw [hnone]
  · have hany : ((List.range v.parcel.count.toNat).map (reqEntry v.parcel)).any (fun e => decide (tbNLocal y.desc ≤ e)) = true :=
      List.any_eq_true.2 ⟨_, List.mem_map_of_mem (List.mem_range.2 hi), by simpa using hrange⟩
    rw [hy]
    dsimp only
    rw [entries_small hsmall, hany]
    rfl

/-- The turn's checks pass: the version is kept. -/
theorem serveBegin_passes {y : Version} (hy : (s.table (bits v.parcel.table 0 12)).version v.parcel.epoch = some y)
    (hsmall : ∀ i < v.parcel.count.toNat, reqEntry v.parcel i < 2 ^ 40)
    (hrange : ∀ i < v.parcel.count.toNat, reqEntry v.parcel i < tbNLocal y.desc) :
    s.serveBegin v = s.updServe v.id (fun v => { v with version := some (y.asid, y.desc) }) := by
  have hnone : ((List.range v.parcel.count.toNat).map (reqEntry v.parcel)).any (fun e => decide (tbNLocal y.desc ≤ e)) = false := by
    simpa using hrange
  unfold State.serveBegin
  dsimp only
  rw [hy]
  dsimp only
  rw [entries_small hsmall, hnone]
  rfl

-- A refusal.

/-- The NACK that answers a parcel which came in on port `x`. -/
def State.nackFor (s : State) (x : Nat) (p : Parcel) (st : Byte) : TxParcel :=
  let r : Parcel := { (default : Parcel) with
    ptype := 0x06#8, src := BitVec.ofNat 8 s.devid, dst := p.src, pseq := p.pseq, batch := p.batch, status := st }
  { port := s.xroute p.src.toNat, cls := true, q := none, parcel := r, flits := parcelFlits r, begun := false, stream := 0
    heldFor := none, answers := some x }

/-- An answer to a device that is reachable in the same wing joins the parcels of its port. -/
theorem respond_nack (hsrc : p.src.toNat < 64) (hr : s.reachable p.src.toNat = true)
    (he : xportEast (s.xroute p.src.toNat) = xportEast x) : s.respond x p 0x06#8 st =
      s.updXport (s.xroute p.src.toNat) (fun v => { v with tx := v.tx ++ [s.nackFor x p st] }) := by
  have hstranded : s.strandedParcel (s.nackFor x p st) = false := rfl
  have hwing : (xportEast (s.nackFor x p st).port == xportEast x) = true := by simpa [State.nackFor] using he
  have hmod : p.src.toNat % 64 = p.src.toNat := Nat.mod_eq_of_lt hsrc
  have hsend : s.respond x p 0x06#8 st = s.enqueueParcel (xportEast x) (s.nackFor x p st) := by
    unfold State.respond State.sendResponse
    dsimp only
    rw [hmod, if_pos hr]
    rfl
  rw [hsend, State.enqueueParcel, hstranded, hwing]
  rfl

/-- The only parcel that is served is refused: nothing is served any more, and its NACK joins the parcels of its port. -/
theorem nackServe_only (h : s.remote.serves = [v]) (hm : v.mute = false) (hsrc : v.parcel.src.toNat < 64)
    (hr : s.reachable v.parcel.src.toNat = true) (he : xportEast (s.xroute v.parcel.src.toNat) = xportEast v.port) :
    (s.nackServe v.id st) = { s with
      remote := { s.remote with
        serves := []
        ports := (s.updXport (s.xroute v.parcel.src.toNat) (fun y => { y with
          tx := y.tx ++ [s.nackFor v.port v.parcel st] })).remote.ports }
      readings := s.readings.filter (fun r => r.who != .serve v.id) } := by
  unfold State.nackServe
  rw [h]
  simp only [List.find?_cons, beq_self_eq_true, hm, Bool.false_eq_true, if_false]
  refine (respond_nack (s := { s with
    remote := { s.remote with serves := [v].filter (fun x => x.id != v.id) }
    readings := s.readings.filter (fun r => r.who != .serve v.id) }) (p := v.parcel) (x := v.port) hsrc hr he).trans ?_
  simp
  rfl

-- The arrival.

theorem credited_counted (h : Credited x p s u) (c : Bool) (k ev qual n : Nat) :
    Credited x p s (if c then u.count k ev qual n else u) := by
  split
  · have hcount := count_eq u k ev qual n
    refine ⟨by rw [hcount, h.eq], fun off ho => ?_⟩
    rw [hcount]
    exact h.regs off ho
  · exact h

/-- What is served of an LKUP_REQ when it is accepted. -/
def State.newServe (s : State) (x : Nat) (p : Parcel) : Serve :=
  { id := s.nextId, port := x, parcel := p, version := none, sent := 0, asked := false, mute := false }

/-- An LKUP_REQ waits for its turn. -/
def State.serveQueued (s : State) (x : Nat) (p : Parcel) : State :=
  { s.bump with remote := { s.remote with serves := s.remote.serves ++ [s.newServe x p] } }

theorem accept_lkup (h : s.power.st = .n0) (hty : p.ptype = 0x01#8) :
    s.accept { port := x, parcel := p } = (s.serveQueued x p).serveAll := by
  have hlk : (p.ptype == 0x01#8) = true := by simpa using hty
  rw [accept_n0 h, State.serveParcel]
  exact if_pos hlk

/-- In N0 a good LKUP_REQ waits for its turn, and the Porters go on. -/
theorem lkupReq_served (ha : s.xportAlive x = true) (hl : s.flag offXportLink x = true) (hb : s.parcelBad p = false)
    (hty : p.ptype = 0x01#8) (hn0 : s.power.st = .n0) (hc : s.creditsGo x p) :
    ∃ u, exec (.lkupReq x p) s = .next (u.serveQueued x p).serveAll ∧ Credited x p s u := by
  obtain ⟨u, hrun, hu⟩ := arrive_credited (fun s => s.lkupTaken x p) ha hl hb hty hc
  have hcounted := credited_counted hu (bitAt p.flags 0) (unitXport x) 0x05 0 1
  refine ⟨_, ?_, hcounted⟩
  refine (show exec (.lkupReq x p) s = _ from hrun).trans (congrArg Host.Outcome.next ?_)
  exact accept_lkup (by rw [hcounted.eq]; exact hn0) hty

theorem parcelBad_src (h : s.parcelBad p = false) : p.src.toNat < 64 := by
  by_contra hbig
  have hbad : s.parcelBad p = true := by simp [State.parcelBad, State.parcelMalformed, Nat.le_of_not_lt hbig]
  simp [hbad] at h

theorem Credited.xroute (h : Credited x p s u) {d : Nat} (hd : d < 64) : u.xroute d = s.xroute d := by
  have hreg : u.reg (offXroute (d / 16)) = s.reg (offXroute (d / 16)) := h.regs _ (by
    simp only [offXroute, offTlyTraceDrop, List.mem_singleton]
    omega)
  simp only [State.xroute, State.fld, hreg]

theorem Credited.reachable (h : Credited x p s u) {d : Nat} (hd : d < 64) : u.reachable d = s.reachable d := by
  have hcfg : u.cfg = s.cfg := by rw [h.eq]
  simp only [State.reachable, h.xroute hd, hcfg, State.flag, h.regs offXportLink (by decide)]

/-- The Porters refuse the only parcel they serve. -/
theorem serveAll_refuses (h : s.remote.serves = []) (hrefused : s.turnRefused p st) (hsrc : p.src.toNat < 64)
    (hr : s.reachable p.src.toNat = true) (he : xportEast (s.xroute p.src.toNat) = xportEast x) :
    (s.serveQueued x p).serveAll = { s.bump with
      remote := { s.remote with
        serves := [], owed := (s.serveQueued x p).serveAll.remote.owed
        ports := (s.updXport (s.xroute p.src.toNat) (fun y => { y with tx := y.tx ++ [s.nackFor x p st] })).remote.ports }
      readings := s.readings.filter (fun r => r.who != .serve s.nextId), out := (s.serveQueued x p).serveAll.out } := by
  have hq : (s.serveQueued x p).remote.serves = [s.newServe x p] := by simp [State.serveQueued, h]
  have hbegin := serveOne_begins hq rfl
  rw [serveBegin_refuses (s := s.serveQueued x p) (v := s.newServe x p) hrefused] at hbegin
  have hnack := nackServe_only (s := s.serveQueued x p) (v := s.newServe x p) (st := st) hq rfl hsrc hr he
  generalize (s.serveQueued x p).nackServe (s.newServe x p).id st = t at hbegin hnack
  have hnone : t.remote.serves = [] := by rw [hnack]
  have hround : (s.serveQueued x p).serveRound = t :=
    serveRound_eq (e := xportEast x) (fun v hv => by rw [hq] at hv; rw [List.mem_singleton.1 hv]; rfl) hbegin (by simp [hnone])
  have hrest : t.serveRound = t :=
    serveRound_eq (e := xportEast x) (by simp [hnone]) (serveOne_idle (by simp [hnone])) (by simp [hnone])
  have hall := serveAll_rests (by rw [hq]; rfl) (by rw [hround, hrest]) hrest
  have hpaid := paid_eq t
  rw [hall]
  generalize (t.payCredits false).payCredits true = w at hpaid ⊢
  rw [hpaid, hnack]
  rfl

/-- An LKUP_REQ whose turn's checks fail is refused with NACK (R270). -/
theorem lkupReq_refused (ha : s.xportAlive x = true) (hl : s.flag offXportLink x = true) (hb : s.parcelBad p = false)
    (hty : p.ptype = 0x01#8) (hn0 : s.power.st = .n0) (hc : s.creditsGo x p) (hserves : s.remote.serves = [])
    (hrefused : s.turnRefused p st) (hr : s.reachable p.src.toNat = true) (he : xportEast (s.xroute p.src.toNat) = xportEast x) :
    ∃ t y, exec (.lkupReq x p) s = .next t ∧
      (t.xport (s.xroute p.src.toNat)).tx = (s.xport (s.xroute p.src.toNat)).tx ++ [y] ∧ y.cls = true ∧
      y.parcel.ptype = 0x06#8 ∧ y.parcel.status = st ∧ y.parcel.dst = p.src ∧ y.parcel.pseq = p.pseq ∧
      t.remote.serves = [] ∧ t.waiting = s.waiting ∧ t.queues = s.queues ∧ t.tables = s.tables := by
  have hsrc := parcelBad_src hb
  obtain ⟨u, hrun, hu⟩ := lkupReq_served ha hl hb hty hn0 hc
  have hroute := hu.xroute hsrc
  have hall := serveAll_refuses (s := u) (x := x) (p := p) (st := st) (by rw [hu.eq]; exact hserves)
    (by rw [hu.eq]; exact hrefused) hsrc (by rw [hu.reachable hsrc]; exact hr) (by rw [hroute]; exact he)
  generalize State.serveAll _ = t at hrun hall
  refine ⟨t, u.nackFor x p st, hrun, ?_, rfl, rfl, rfl, rfl, rfl, ?_, ?_, ?_, ?_⟩
  · have hports : u.xport (s.xroute p.src.toNat) = s.xport (s.xroute p.src.toNat) := by rw [hu.eq]; rfl
    rw [← hports, ← hroute, hall]
    simp [State.xport, State.updXport]
  · rw [hall]
  · rw [hall, hu.eq]
    rfl
  · rw [hall, hu.eq]
    rfl
  · rw [hall, hu.eq]
    rfl

end

end Sys2Proof.Machine
end

section
/-!
PROOFS. How a reading asks for a stretch that lies in one 512-byte window (R23, R267).
-/

namespace Sys2Proof.Machine

section
variable {s t u : State} {r : Reading} {va len : Nat}

-- The pieces of a stretch.

theorem piecesOf_mem {p : Nat × Nat} (h : p ∈ piecesOf va len) : va ≤ p.1 ∧ 0 < p.2 ∧ p.1 + p.2 ≤ va + len := by
  unfold piecesOf at h
  split at h
  · cases h
  next hl =>
    simp only [unitsOf, List.map_map, List.mem_map, List.mem_range, Function.comp_apply] at h
    obtain ⟨i, hi, rfl⟩ := h
    dsimp only
    omega

theorem piecesOf_eq (hl : 0 < len) : piecesOf va len =
    (List.range ((va + len - 1) / 128 - va / 128 + 1)).map (fun i =>
      (max va ((va / 128 + i) * 128), min (va + len) ((va / 128 + i) * 128 + 128) - max va ((va / 128 + i) * 128))) := by
  have hne : len ≠ 0 := by omega
  simp [piecesOf, hne, unitsOf]

theorem piecesOf_first (hl : 0 < len) : ∃ p ∈ piecesOf va len, p.1 = va := by
  rw [piecesOf_eq hl]
  refine ⟨_, List.mem_map_of_mem (List.mem_range.2 (Nat.succ_pos _)), ?_⟩
  dsimp only
  omega

theorem piecesOf_last (hl : 0 < len) : ∃ p ∈ piecesOf va len, p.1 + p.2 = va + len := by
  rw [piecesOf_eq hl]
  refine ⟨_, List.mem_map_of_mem (List.mem_range.2 (Nat.lt_succ_self _)), ?_⟩
  dsimp only
  omega

/-- Nothing of a stretch has come. -/
theorem bytes_none (hg : r.got = []) (hl : 0 < len) : r.bytes va len = none := by
  obtain ⟨n, rfl⟩ : ∃ n, len = n + 1 := ⟨len - 1, by omega⟩
  unfold Reading.bytes
  rw [List.range_succ_eq_map]
  simp [Reading.byte, hg]

theorem stretchesMeet_self {p : Nat × Nat} (h : 0 < p.2) : stretchesMeet p p = true := by
  simp [stretchesMeet, h]

/-- All pieces of a new reading are missing. -/
theorem missing_new (hg : r.got = []) (ha : r.away = []) (hf : r.failed = []) : r.missing va len = piecesOf va len := by
  refine List.filter_eq_self.2 fun p hp => ?_
  simp [bytes_none hg (piecesOf_mem hp).2.1, ha, hf]

/-- No piece is missing that has been asked for. -/
theorem missing_away (h : ∀ p ∈ piecesOf va len, p ∈ r.away) : r.missing va len = [] := by
  refine List.filter_eq_nil_iff.2 fun p hp => ?_
  have hmeet : r.away.any (stretchesMeet p) = true :=
    List.any_eq_true.2 ⟨p, h p hp, stretchesMeet_self (piecesOf_mem hp).2.1⟩
  simp [hmeet]

-- The least and the greatest of a list.

theorem foldl_min_le {α : Type} (f : α → Nat) (l : List α) (a : Nat) :
    l.foldl (fun m x => min m (f x)) a ≤ a ∧ ∀ x ∈ l, l.foldl (fun m x => min m (f x)) a ≤ f x := by
  induction l generalizing a with
  | nil => simp
  | cons y l ih =>
    obtain ⟨h1, h2⟩ := ih (min a (f y))
    refine ⟨h1.trans (min_le_left _ _), fun x hx => ?_⟩
    rcases List.mem_cons.1 hx with rfl | hx
    · exact h1.trans (min_le_right _ _)
    · exact h2 x hx

theorem foldl_min_eq {α : Type} {f : α → Nat} {l : List α} {a m : Nat} (ha : m ≤ a) (hle : ∀ x ∈ l, m ≤ f x)
    (hmem : ∃ x ∈ l, f x = m) : l.foldl (fun m x => min m (f x)) a = m := by
  obtain ⟨x, hx, rfl⟩ := hmem
  refine le_antisymm ((foldl_min_le f l a).2 x hx) ?_
  clear hx
  induction l generalizing a with
  | nil => exact ha
  | cons y l ih => exact ih (le_min ha (hle y (List.mem_cons_self ..))) fun z hz => hle z (List.mem_cons_of_mem _ hz)

theorem le_foldl_max {α : Type} (f : α → Nat) (l : List α) (a : Nat) :
    a ≤ l.foldl (fun m x => max m (f x)) a ∧ ∀ x ∈ l, f x ≤ l.foldl (fun m x => max m (f x)) a := by
  induction l generalizing a with
  | nil => simp
  | cons y l ih =>
    obtain ⟨h1, h2⟩ := ih (max a (f y))
    refine ⟨(le_max_left _ _).trans h1, fun x hx => ?_⟩
    rcases List.mem_cons.1 hx with rfl | hx
    · exact (le_max_right _ _).trans h1
    · exact h2 x hx

theorem foldl_max_eq {α : Type} {f : α → Nat} {l : List α} {a m : Nat} (ha : a ≤ m) (hle : ∀ x ∈ l, f x ≤ m)
    (hmem : ∃ x ∈ l, f x = m) : l.foldl (fun m x => max m (f x)) a = m := by
  obtain ⟨x, hx, rfl⟩ := hmem
  refine le_antisymm ?_ ((le_foldl_max f l a).2 x hx)
  clear hx
  induction l generalizing a with
  | nil => exact ha
  | cons y l ih => exact ih (max_le ha (hle y (List.mem_cons_self ..))) fun z hz => hle z (List.mem_cons_of_mem _ hz)

/-- The different values of a list of one value. -/
theorem firsts_const {α : Type} [BEq α] [LawfulBEq α] {c : α} {l : List α} (hne : l ≠ []) (h : ∀ x ∈ l, x = c) : firsts l = [c] := by
  obtain ⟨y, l, rfl⟩ := List.exists_cons_of_ne_nil hne
  have hy : y = c := h y (List.mem_cons_self ..)
  have hkeep : ∀ l : List α, (∀ x ∈ l, x = c) → l.foldl keepFirst [c] = [c] := by
    intro l hl
    induction l with
    | nil => rfl
    | cons z l ih =>
      have hz : keepFirst [c] z = [c] := by
        rw [hl z (List.mem_cons_self ..)]
        simp [keepFirst]
      rw [List.foldl_cons, hz]
      exact ih fun x hx => hl x (List.mem_cons_of_mem _ hx)
  rw [firsts_eq, List.foldl_cons, hy]
  have hfirst : keepFirst [] c = [c] := rfl
  rw [hfirst, hkeep l fun x hx => h x (List.mem_cons_of_mem _ hx)]
  rfl

end

end Sys2Proof.Machine
end

section
/-!
PROOFS. How the Porter asks for a row of an LKUP_REQ that it serves (R23, R267, R270).
-/

namespace Sys2Proof.Machine

section
variable {s t u : State} {r : Reading} {v : Serve} {rg : Range} {asid : BitVec 16} {d : BitVec 512} {va len pa page pp : Nat}

-- Pages.

/-- A covered page is found in the L2, whose order of use may change. -/
theorem lookupL2_covered {e : Bool} (h : s.findL2 e asid page = some rg) :
    ∃ l2, s.lookupL2 e asid page = ({ s with l2 := l2 }, some rg) := by
  simp [State.lookupL2, h]

/-- The Porter finds a page of its own device covered (R309). -/
theorem lookPage_covered {i : Issuer} (hphys : i.physical = false) (hh : i.holder = .porter) (hm : s.misses = []) (hp : page < 2 ^ 44)
    (hrg : s.findL2 i.looks i.asid page = some rg) (hallow : rg.allows accRead = true)
    (hdev : paDevice (rg.ppage page * 4096) = s.devid) :
    ∃ l2, ∀ who item, s.lookPage i accRead page who item = ({ s with l2 := l2 }, .found (rg.ppage page)) := by
  obtain ⟨l2, hlook⟩ := lookupL2_covered hrg
  refine ⟨l2, fun who item => ?_⟩
  unfold State.lookPage
  rw [Nat.mod_eq_of_lt hp]
  dsimp only
  rw [hm, hphys, hh]
  rw [if_neg Bool.false_ne_true, if_neg (by simp)]
  dsimp only
  rw [hlook]
  simp [hallow, hdev, hm]

/-- Pieces of one page that is covered. -/
theorem fetchPages_one {ps : List (Nat × Nat)} {item : Nat → Nat} (hfind : s.readings.find? (fun x => x.id == r.id) = some r)
    (hne : ps ≠ []) (hpage : ∀ p ∈ ps, p.1 / 4096 = page)
    (hlook : ∀ who item, s.lookPage (s.issuer r) accRead page who item = (u, .found pp)) :
    s.fetchPages r ps item = (u, [(page, pp)]) := by
  have hfirst : firsts (ps.map (fun p => p.1 / 4096)) = [page] :=
    firsts_const (by simpa using hne) fun x hx => by
      obtain ⟨p, hp, rfl⟩ := List.mem_map.1 hx
      exact hpage p hp
  have hmine : ps.filter (fun p => p.1 / 4096 == page) = ps := List.filter_eq_self.2 fun p hp => by simpa using hpage p hp
  obtain ⟨p, l, rfl⟩ := List.exists_cons_of_ne_nil hne
  unfold State.fetchPages
  rw [hfirst, List.foldl_cons, List.foldl_nil]
  dsimp only
  rw [hfind, hmine]
  dsimp only
  rw [hlook]
  rfl

-- Destinations.

/-- The destinations of a stretch that memory holds from `pa` on. -/
def windowDests (id va len pa : Nat) (item : Nat → Nat) : List Dest :=
  (piecesOf va len).map (fun p => .fetch id p.1 (pa + (p.1 - va)) p.2 (item p.1))

/-- A new reading asks for all pieces of a stretch in one covered page. -/
theorem fetchDests_window {item : Nat → Nat} (hfind : s.readings.find? (fun x => x.id == r.id) = some r) (hg : r.got = [])
    (ha : r.away = []) (hf : r.failed = []) (hl : 0 < len) (hwin : va % 512 + len ≤ 512)
    (hlook : ∀ who item, s.lookPage (s.issuer r) accRead (va / 4096) who item = (u, .found pp)) :
    s.fetchDests r va len item = (u.piecesAway r.id (piecesOf va len), windowDests r.id va len (pp * 4096 + va % 4096) item) := by
  have hpiece (p : Nat × Nat) (hp : p ∈ piecesOf va len) : p.1 / 4096 = va / 4096 ∧ p.1 % 4096 = va % 4096 + (p.1 - va) := by
    obtain ⟨h1, h2, h3⟩ := piecesOf_mem hp
    omega
  obtain ⟨p0, hp0, -⟩ := piecesOf_first (va := va) hl
  have hpages := fetchPages_one (item := item) hfind (List.ne_nil_of_mem hp0) (fun p hp => (hpiece p hp).1) hlook
  have hmap : (piecesOf va len).filterMap (fun p =>
      (([(va / 4096, pp)] : List (Nat × Nat)).find? (fun x => x.1 == p.1 / 4096)).map (fun x =>
        (p, Dest.fetch r.id p.1 (x.2 * 4096 + p.1 % 4096) p.2 (item p.1)))) =
      (piecesOf va len).map (fun p => (p, Dest.fetch r.id p.1 (pp * 4096 + va % 4096 + (p.1 - va)) p.2 (item p.1))) := by
    rw [← List.filterMap_eq_map]
    refine List.filterMap_congr fun p hp => ?_
    obtain ⟨h1, h2⟩ := hpiece p hp
    simp [h1, h2, Nat.add_assoc]
  unfold State.fetchDests
  rw [missing_new hg ha hf]
  dsimp only
  rw [hpages]
  dsimp only
  rw [hmap]
  simp [windowDests, Function.comp_def]

/-- Destinations of one window of a reading are brought by one request. -/
theorem readDests_window {id : Nat} {item : Nat → Nat} (hfind : s.readings.find? (fun x => x.id == id) = some r) (hl : 0 < len)
    (hwin : pa % 512 + len ≤ 512) :
    s.readDests (windowDests id va len pa item) false = s.bump.submit (s.fetchReq r (windowDests id va len pa item) pa (pa + len)) := by
  have hspan (x : Dest) (hx : x ∈ windowDests id va len pa item) : pa ≤ x.span.1 ∧ x.span.1 < x.span.2 ∧ x.span.2 ≤ pa + len := by
    obtain ⟨p, hp, rfl⟩ := List.mem_map.1 hx
    obtain ⟨h1, h2, h3⟩ := piecesOf_mem hp
    dsimp only [Dest.span]
    omega
  have hwindow (x : Dest) (hx : x ∈ windowDests id va len pa item) : x.span.1 / 512 = pa / 512 := by
    have := hspan x hx
    omega
  obtain ⟨p0, hp0, hfirst⟩ := piecesOf_first (va := va) hl
  obtain ⟨p1, hp1, hlast⟩ := piecesOf_last (va := va) hl
  have hmin : ∃ x ∈ windowDests id va len pa item, x.span.1 = pa :=
    ⟨_, List.mem_map_of_mem hp0, by simp [Dest.span, hfirst]⟩
  have hmax : ∃ x ∈ windowDests id va len pa item, x.span.2 = pa + len := by
    refine ⟨_, List.mem_map_of_mem hp1, ?_⟩
    have := (piecesOf_mem hp1).1
    dsimp only [Dest.span]
    omega
  have hne : windowDests id va len pa item ≠ [] := List.ne_nil_of_mem (List.mem_map_of_mem hp0)
  have hfirsts : firsts ((windowDests id va len pa item).map (fun x => x.span.1 / 512)) = [pa / 512] :=
    firsts_const (by simpa using hne) fun x hx => by
      obtain ⟨y, hy, rfl⟩ := List.mem_map.1 hx
      exact hwindow y hy
  have hmine : (windowDests id va len pa item).filter (fun x => x.span.1 / 512 == pa / 512) = windowDests id va len pa item :=
    List.filter_eq_self.2 fun x hx => by simpa using hwindow x hx
  have hlo : (windowDests id va len pa item).foldl (fun m x => min m x.span.1) (pa / 512 * 512 + 511) = pa :=
    foldl_min_eq (by omega) (fun x hx => (hspan x hx).1) hmin
  have hhi : (windowDests id va len pa item).foldl (fun m x => max m x.span.2) pa = pa + len :=
    foldl_max_eq (by omega) (fun x hx => (hspan x hx).2.2) hmax
  have hreq : s.destReq (windowDests id va len pa item) pa (pa + len) =
      some (s.fetchReq r (windowDests id va len pa item) pa (pa + len)) := by
    generalize hds : windowDests id va len pa item = ds at hne ⊢
    obtain ⟨x, l, rfl⟩ := List.exists_cons_of_ne_nil hne
    have hx : x ∈ windowDests id va len pa item := by rw [hds]; exact List.mem_cons_self ..
    obtain ⟨p, -, rfl⟩ := List.mem_map.1 hx
    simp [State.destReq, hfind]
  unfold State.readDests
  rw [hfirsts, List.foldl_cons, List.foldl_nil]
  dsimp only
  rw [hmine, hlo, hhi, hreq]
  rfl

end

end Sys2Proof.Machine
end

section
/-!
PROOFS. The row of an LKUP_REQ is read (R23, R267, R270, log 63).
-/

namespace Sys2Proof.Machine

section
variable {s t u : State} {r : Reading} {v : Serve} {rg : Range} {asid : BitVec 16} {d : BitVec 512} {va len pa : Nat} {item : Nat → Nat}

/-- The reads for a served parcel are the Porter's, in the remote category, with the ASID of the version (R270, log 63). -/
def State.serveIssuer (s : State) (v : Serve) (asid : BitVec 16) : Issuer :=
  { s.porterIssuer 64 with
    east := xportEast v.port, looks := xportEast v.port, asid := asid, prio := 1#2, cat := .remote, q := none }

theorem issuer_serve (hs : s.remote.serves = [v]) (hv : v.version = some (asid, d)) (hw : r.who = .serve v.id) :
    s.issuer r = s.serveIssuer v asid := by
  simp [State.issuer, hw, hs, hv, State.serveIssuer]

/-- A stretch of a reading whose page the L2 of its wing covers, in one 512-byte window that its port takes (R309). -/
structure RowCovered (s : State) (e : Bool) (asid : BitVec 16) (va len pa : Nat) (rg : Range) : Prop where
  nonempty : 0 < len
  small : va < 2 ^ 56
  window : va % 512 + len ≤ 512
  noMiss : s.misses = []
  found : s.findL2 e asid (va / 4096) = some rg
  allows : rg.allows accRead = true
  place : pa = rg.ppage (va / 4096) * 4096 + va % 4096
  device : paDevice pa = s.devid
  takes : s.portTakes e pa

/-- What covers a row is in registers, the L2, the misses and the repair state. -/
theorem RowCovered.carried {e : Bool} (h : RowCovered s e asid va len pa rg) (hm : t.misses = s.misses) (hl2 : t.l2 = s.l2)
    (hpins : t.pins = s.pins) (hregs : s.regsBut t [offTlyTraceDrop]) (hcfg : t.cfg = s.cfg) (hboot : t.boot = s.boot)
    (hrel : t.rel = s.rel) : RowCovered t e asid va len pa rg := by
  obtain ⟨hup, hwing, hbank⟩ := h.takes
  have hport := regs_portFor hregs hcfg hboot pa
  refine { h with noMiss := hm.trans h.noMiss, found := ?_, device := ?_, takes := ⟨?_, ?_, ?_⟩ }
  · rw [State.findL2, hl2]
    exact h.found
  · rw [State.devid, hpins]
    exact h.device
  · rw [hport, regs_mportUp hregs hcfg]
    exact hup
  · rw [hport]
    exact hwing
  · rw [State.banksOut, hrel, hcfg]
    exact hbank

theorem paDevice_page (pp ofs : Nat) (h : ofs < 4096) : paDevice (pp * 4096 + ofs) = paDevice (pp * 4096) := by
  unfold paDevice
  omega

/-- A read request of a served parcel for the bytes from `pa` on (R22, R23). -/
structure RowRequest (asid : BitVec 16) (pa len : Nat) (q : Req) : Prop where
  op : q.op = 0#3
  start : q.pa = pa / 16 * 16
  stop : q.pa + q.len = (pa + len + 15) / 16 * 16
  space : q.asid = asid
  prio : q.prio = 1#2
  cat : q.cat = .remote
  holder : q.holder = .porter

/-- The row of a served parcel is asked for by one request, which waits at its port. -/
theorem askFor_served (hs : s.remote.serves = [v]) (hv : v.version = some (asid, d)) (hread : s.readings = [r])
    (hw : r.who = .serve v.id) (hg : r.got = []) (ha : r.away = []) (hf : r.failed = [])
    (hrow : RowCovered s (xportEast v.port) asid va len pa rg) :
    ∃ l2 q, s.askFor r va len item = { s with
      l2 := l2, readings := [{ r with away := piecesOf va len }], nextId := s.nextId + 1, waiting := s.waiting ++ [q] } ∧
      RowRequest asid pa len q := by
  obtain ⟨hl, hsmall, hwin, hmiss, hfound, hallow, rfl, hdev, hup, hwing, hbank⟩ := hrow
  have hissuer := issuer_serve hs hv hw
  obtain ⟨l2, hlook⟩ := lookPage_covered (s := s) (i := s.serveIssuer v asid) (page := va / 4096) (rg := rg) rfl rfl hmiss (by omega) hfound
    hallow ((paDevice_page _ _ (Nat.mod_lt _ (by decide))).symm.trans hdev)
  rw [← hissuer] at hlook
  have hdests := fetchDests_window (item := item) (by simp [hread]) hg ha hf hl hwin hlook
  have haway : ({ s with l2 := l2 } : State).piecesAway r.id (piecesOf va len) =
      { s with l2 := l2, readings := [{ r with away := piecesOf va len }] } := by
    simp [State.piecesAway, hread, ha]
  generalize hw' : ({ s with l2 := l2, readings := [{ r with away := piecesOf va len }] } : State) = w at haway
  have hfind : w.readings.find? (fun x => x.id == r.id) = some { r with away := piecesOf va len } := by
    rw [← hw']
    simp
  have hreads := readDests_window (s := w) (va := va) (item := item) hfind hl
    (pa := rg.ppage (va / 4096) * 4096 + va % 4096) (by omega)
  have hissue : w.issuer { r with away := piecesOf va len } = w.serveIssuer v asid :=
    issuer_serve (by rw [← hw']; exact hs) hv hw
  have hask : s.askFor r va len item = w.bump.submit (w.fetchReq { r with away := piecesOf va len }
      (windowDests r.id va len (rg.ppage (va / 4096) * 4096 + va % 4096) item) (rg.ppage (va / 4096) * 4096 + va % 4096)
      (rg.ppage (va / 4096) * 4096 + va % 4096 + len)) := by
    unfold State.askFor
    rw [hdests, haway]
    exact hreads
  generalize hq : w.fetchReq _ _ _ _ = q at hask
  have hcall : q.east = xportEast v.port ∧ RowRequest asid (rg.ppage (va / 4096) * 4096 + va % 4096) len q := by
    rw [← hq]
    unfold State.fetchReq
    rw [hissue]
    refine ⟨rfl, rfl, rfl, ?_, rfl, rfl, rfl, rfl⟩
    dsimp only
    omega
  have hport : q.port = s.portFor (rg.ppage (va / 4096) * 4096 + va % 4096) := by
    rw [← hq, ← hw']
    rfl
  have hheld : q.heldFor = none ∧ q.isFinal = false := by
    rw [← hq]
    exact ⟨rfl, rfl⟩
  have hpath : w.bump.pathOf q = .enter := by
    refine pathOf_enters hheld.1 hheld.2 (fun _ => ?_) ?_ ?_
    · rw [hcall.1, ← hw']
      exact hbank
    · rw [hport, ← hw']
      exact hup
    · rw [hport, hcall.1]
      exact hwing
  refine ⟨l2, q, ?_, hcall.2⟩
  rw [hask, submit_enters hpath hcall.2.holder, ← hw']
  rfl

-- The Porter's turn.

theorem piecesAway_nil (s : State) (id : Nat) : s.piecesAway id [] = s := by
  have hmap : s.readings.map (fun x => if x.id == id then { x with away := x.away ++ [] } else x) = s.readings := by
    refine List.map_id'' (fun x => ?_) s.readings
    split
    · simp
    · rfl
  unfold State.piecesAway
  rw [hmap]

/-- Where all pieces of a stretch are on their way nothing is asked for. -/
theorem askFor_away (h : ∀ p ∈ piecesOf va len, p ∈ r.away) : s.askFor r va len item = s := by
  unfold State.askFor State.fetchDests
  rw [missing_away h]
  exact piecesAway_nil s r.id

/-- A row of a table whose rows the Larder does not hold is read from memory. -/
theorem fetchRow_memory (h : tbLarder d = false) (ds : List Dest) (table row mult : Nat) :
    s.fetchRow ds d table row mult = s.readDests ds false := by
  cases ds with
  | nil => rfl
  | cons x l => simp [State.fetchRow, h]

/-- A parcel of one entry has one part of one row. -/
theorem part_one (hsent : v.sent = 0) (hcount : v.parcel.count = 1#16) (hrow : tbRowBytes d ≤ 512) : v.part d = (0, 1) := by
  have hpos : 0 < rowsPerReply (tbRowBytes d) := Nat.div_pos (by omega) (by omega)
  simp only [Serve.part, hsent, hcount, Nat.zero_mul]
  refine Prod.ext rfl ?_
  change min (rowsPerReply (tbRowBytes d)) 1 = 1
  omega

/-- The stretch of the one row of a served parcel. -/
def Serve.row (v : Serve) (d : BitVec 512) : Nat := tbRowVa d (reqEntry v.parcel 0)

/-- The one row of a part is asked for. -/
theorem serveAsk_one {w : Serve} (hs : s.remote.serves = [w]) (hid : w.id = v.id) (hpart : v.part d = (0, 1))
    (hlarder : tbLarder d = false) : s.serveAsk v d =
      (s.openReading (.serve v.id)).1.askFor (s.openReading (.serve v.id)).2 (v.row d) (tbRowBytes d) (fun _ => v.row d) := by
  have hthere : s.remote.serves.all (fun x => x.id != v.id) = false := by simp [hs, hid]
  unfold State.serveAsk
  rw [hpart]
  dsimp only
  rw [List.range_one, List.foldl_cons, List.foldl_nil, hthere, if_neg Bool.false_ne_true]
  rw [fetchRow_memory hlarder]
  rfl

/-- A part that the reply buffer has room for is asked for. -/
theorem serveOne_asks (hs : s.remote.serves = [v]) (hv : v.version = some (asid, d)) (hasked : v.asked = false)
    (hfull : s.replyFull (xportEast v.port) = false) :
    s.serveOne (xportEast v.port) = (s.updServe v.id (fun v => { v with asked := true })).serveAsk v d := by
  unfold State.serveOne
  rw [hs]
  simp [hv, hasked, hfull]

/-- A part waits while its row has not come. -/
theorem serveOne_waits (hs : s.remote.serves = [v]) (hv : v.version = some (asid, d)) (hasked : v.asked = true)
    (hpart : v.part d = (0, 1)) (hread : s.reading (.serve v.id) = some r) (hg : r.got = []) (hrow : 0 < tbRowBytes d) :
    s.serveOne (xportEast v.port) = s.serveAsk v d := by
  unfold State.serveOne
  rw [hs]
  simp [hv, hasked, hpart, hread, bytes_none hg hrow]

-- The rounds.

/-- The Porters serve `v` alone. -/
def State.serveWith (s : State) (v : Serve) : State := { s with remote := { s.remote with serves := [v] } }

theorem serveQueued_eq {x : Nat} {p : Parcel} (h : s.remote.serves = []) :
    s.serveQueued x p = s.bump.serveWith (s.newServe x p) := by
  simp [State.serveQueued, h, State.serveWith]

theorem updServe_only (s : State) (v : Serve) (f : Serve → Serve) : (s.serveWith v).updServe v.id f = s.serveWith (f v) := by
  simp [State.updServe, State.serveWith]

/-- A parcel that has not been asked for takes no room in the reply buffer. -/
theorem replyFull_unasked (h : s.remote.serves = []) (ha : v.asked = false) (e : Bool) :
    (s.bump.serveWith v).replyFull e = s.replyFull e := by
  have hitems : (s.bump.serveWith v).corItems = s.corItems := rfl
  have hports : (s.bump.serveWith v).remote.ports = s.remote.ports := rfl
  have hserves : (s.bump.serveWith v).remote.serves = [v] := rfl
  have hcfg : (s.bump.serveWith v).cfg = s.cfg := rfl
  unfold State.replyFull State.replyUsed
  rw [hitems, hports, hserves, hcfg, h]
  simp [ha]

/-- A reading that has asked for nothing. -/
def State.newReading (s : State) (who : Reader) : Reading :=
  { id := s.nextId, who := who, stream := s.readStream who, away := [], got := [], failed := [] }

theorem openReading_new (h : s.readings = []) (who : Reader) :
    s.openReading who = ({ s.bump with readings := [s.newReading who] }, s.newReading who) := by
  simp [State.openReading, State.reading, h, State.newReading]

theorem openReading_open {who : Reader} (h : s.reading who = some r) : s.openReading who = (s, r) := by
  simp [State.openReading, h]

/-- What the Porters come to rest with: the one row of the parcel has been asked for. -/
structure RowAsked (v : Serve) (d : BitVec 512) (s : State) (r : Reading) : Prop where
  serves : s.remote.serves = [v]
  asked : v.asked = true
  readings : s.readings = [r]
  who : r.who = .serve v.id
  got : r.got = []
  away : r.away = piecesOf (v.row d) (tbRowBytes d)

/-- A row that has been asked for is waited for. -/
theorem serveOne_rests (h : RowAsked v d s r) (hv : v.version = some (asid, d)) (hpart : v.part d = (0, 1)) (hrow : 0 < tbRowBytes d)
    (hlarder : tbLarder d = false) : s.serveOne (xportEast v.port) = s := by
  obtain ⟨hs, hasked, hread, hw, hg, haway⟩ := h
  have hthere : s.reading (.serve v.id) = some r := by simp [State.reading, hread, hw]
  rw [serveOne_waits hs hv hasked hpart hthere hg hrow, serveAsk_one hs rfl hpart hlarder, openReading_open hthere]
  exact askFor_away fun p hp => haway ▸ hp

/-- The parcel whose part has been asked for. -/
def Serve.askedFor (v : Serve) : Serve := { v with asked := true }

/-- The second round asks for the row. -/
theorem serveOne_reads (hserves : s.remote.serves = []) (hread : s.readings = []) (hv : v.version = some (asid, d))
    (hasked : v.asked = false) (hpart : v.part d = (0, 1)) (hlarder : tbLarder d = false)
    (hfull : s.replyFull (xportEast v.port) = false) (hrow : RowCovered s (xportEast v.port) asid (v.row d) (tbRowBytes d) pa rg) :
    ∃ l2 q r t, (s.bump.serveWith v).serveOne (xportEast v.port) = t ∧ RowAsked v.askedFor d t r ∧ RowRequest asid pa (tbRowBytes d) q ∧
      t = { (s.bump.serveWith v.askedFor) with
        l2 := l2, readings := [r], nextId := s.nextId + 3, waiting := s.waiting ++ [q] } := by
  have hask : (s.bump.serveWith v).serveOne (xportEast v.port) = (s.bump.serveWith v.askedFor).serveAsk v d := by
    rw [serveOne_asks (s := s.bump.serveWith v) rfl hv hasked (by rw [replyFull_unasked hserves hasked]; exact hfull), updServe_only]
    rfl
  generalize hw : s.bump.serveWith v.askedFor = w at hask
  have hws : w.remote.serves = [v.askedFor] := by rw [← hw]; rfl
  have hwr : w.readings = [] := by rw [← hw]; exact hread
  rw [serveAsk_one (v := v) hws rfl hpart hlarder, openReading_new hwr] at hask
  generalize ht : ({ w.bump with readings := [w.newReading (.serve v.id)] } : State) = t at hask
  have hcovered : RowCovered t (xportEast v.port) asid (v.row d) (tbRowBytes d) pa rg := by
    refine hrow.carried ?_ ?_ ?_ (fun _ _ => ?_) ?_ ?_ ?_
    all_goals
      rw [← ht, ← hw]
      rfl
  have hts : t.remote.serves = [v.askedFor] := by rw [← ht]; exact hws
  have htr : t.readings = [w.newReading (.serve v.id)] := by rw [← ht]
  obtain ⟨l2, q, hrun, hq⟩ := askFor_served (v := v.askedFor) (d := d) (item := fun _ => v.row d) hts hv htr rfl rfl rfl
    rfl hcovered
  rw [hrun] at hask
  refine ⟨l2, q, { w.newReading (.serve v.id) with away := piecesOf (v.row d) (tbRowBytes d) }, _, hask, ?_, hq, ?_⟩
  · exact ⟨hts, rfl, rfl, rfl, rfl, rfl⟩
  · rw [← ht, ← hw]
    rfl

end

end Sys2Proof.Machine
end

section
/-!
PROOFS. Parcels are sent and served (O39).
-/

namespace Sys2Proof.Machine

section
variable {s t u : State} {x : Nat} {p : Parcel} {rg : Range} {pa : Nat} {y : Version}

/-- What is served of an LKUP_REQ whose turn's checks have passed. -/
def State.servePassed (s : State) (x : Nat) (p : Parcel) (y : Version) : Serve :=
  { s.newServe x p with version := some (y.asid, y.desc) }

/-- An LKUP_REQ of one local row: its version is served, the row lies in the table and memory holds it (R270). -/
structure RowServed (s : State) (p : Parcel) (y : Version) : Prop where
  version : (s.table (bits p.table 0 12)).version p.epoch = some y
  larder : tbLarder y.desc = false
  count : p.count = 1#16
  small : reqEntry p 0 < 2 ^ 40
  range : reqEntry p 0 < tbNLocal y.desc

/-- The first round checks the parcel: its version is kept. -/
theorem serveOne_checks (hserves : s.remote.serves = []) (h : RowServed s p y) :
    (s.serveQueued x p).serveOne (xportEast x) = s.bump.serveWith (s.servePassed x p y) := by
  have hone (i : Nat) (hi : i < p.count.toNat) : i = 0 := by
    rw [h.count] at hi
    simpa using hi
  rw [serveQueued_eq hserves]
  refine (serveOne_begins (v := s.newServe x p) rfl rfl).trans ?_
  rw [serveBegin_passes (s := s.bump.serveWith (s.newServe x p)) (v := s.newServe x p) (y := y) h.version
    (fun i hi => by rw [hone i hi]; exact h.small) (fun i hi => by rw [hone i hi]; exact h.range), updServe_only]
  rfl

/-- The Porters ask for the row of the only parcel they serve, and wait for it. -/
theorem serveAll_reads (hserves : s.remote.serves = []) (hread : s.readings = []) (h : RowServed s p y)
    (hfull : s.replyFull (xportEast x) = false)
    (hrow : RowCovered s (xportEast x) y.asid (tbRowVa y.desc (reqEntry p 0)) (tbRowBytes y.desc) pa rg) :
    ∃ t q, (s.serveQueued x p).serveAll = t ∧ RowRequest y.asid pa (tbRowBytes y.desc) q ∧ t.waiting = s.waiting ++ [q] ∧
      t.remote.serves = [(s.servePassed x p y).askedFor] ∧ t.queues = s.queues ∧ t.tables = s.tables ∧ t.regs = s.regs := by
  have hwin := hrow.window
  have hpart : (s.servePassed x p y).part y.desc = (0, 1) := part_one rfl h.count (by omega)
  have hfirst := serveOne_checks (x := x) hserves h
  obtain ⟨l2, q, r, t, hsecond, hasked, hq, ht⟩ := serveOne_reads (v := s.servePassed x p y) hserves hread rfl rfl hpart h.larder hfull hrow
  have hthird := serveOne_rests (v := (s.servePassed x p y).askedFor) (asid := y.asid) hasked rfl hpart hrow.nonempty h.larder
  have hround1 : (s.serveQueued x p).serveRound = s.bump.serveWith (s.servePassed x p y) :=
    serveRound_eq (e := xportEast x) (fun v hv => by
      rw [serveQueued_eq hserves] at hv
      rw [List.mem_singleton.1 hv]
      rfl) hfirst (fun v hv => by rw [List.mem_singleton.1 hv]; rfl)
  have hwing (v : Serve) (hv : v ∈ t.remote.serves) : xportEast v.port = xportEast x := by
    rw [hasked.serves] at hv
    rw [List.mem_singleton.1 hv]
    rfl
  have hround2 : (s.bump.serveWith (s.servePassed x p y)).serveRound = t :=
    serveRound_eq (e := xportEast x) (fun v hv => by rw [List.mem_singleton.1 hv]; rfl) hsecond hwing
  have hround3 : t.serveRound = t := serveRound_eq (e := xportEast x) hwing hthird hwing
  have hall := serveAll_rests (s := s.serveQueued x p) (by rw [serveQueued_eq hserves]; rfl) (by rw [hround1, hround2]) hround3
  have hpaid := paid_eq t
  rw [hall]
  generalize (t.payCredits false).payCredits true = w at hpaid ⊢
  refine ⟨w, q, rfl, hq, ?_, ?_, ?_, ?_, ?_⟩
  · rw [hpaid, ht]
  · rw [hpaid]
    exact hasked.serves
  · rw [hpaid, ht]
    rfl
  · rw [hpaid, ht]
    rfl
  · rw [hpaid, ht]
    rfl

/-- The row of an LKUP_REQ that is served is read with the ASID of the version, in the remote category (R270, log 63). -/
theorem lkupReq_reads (ha : s.xportAlive x = true) (hl : s.flag offXportLink x = true) (hb : s.parcelBad p = false)
    (hty : p.ptype = 0x01#8) (hn0 : s.power.st = .n0) (hfull : s.replyFull (xportEast x) = false) (hserves : s.remote.serves = [])
    (hread : s.readings = []) (h : RowServed s p y)
    (hrow : RowCovered s (xportEast x) y.asid (tbRowVa y.desc (reqEntry p 0)) (tbRowBytes y.desc) pa rg) :
    ∃ t q, exec (.lkupReq x p) s = .next t ∧ t.waiting = s.waiting ++ [q] ∧ RowRequest y.asid pa (tbRowBytes y.desc) q ∧
      t.remote.serves = [⟨s.nextId, x, p, some (y.asid, y.desc), 0, true, false⟩] ∧ t.queues = s.queues ∧ t.tables = s.tables ∧
      s.regsBut t [offTlyTraceDrop] := by
  obtain ⟨u, hrun, hu⟩ := lkupReq_served ha hl hb hty hn0 (.inr hfull)
  have hid : u.nextId = s.nextId := by rw [hu.eq]
  have hufull : u.replyFull (xportEast x) = false := by
    rw [hu.eq]
    exact hfull
  have hucovered := hrow.carried (t := u) (by rw [hu.eq]) (by rw [hu.eq]) (by rw [hu.eq]) hu.regs (by rw [hu.eq]) (by rw [hu.eq])
    (by rw [hu.eq])
  have hserved : RowServed u p y := { h with version := by rw [hu.eq]; exact h.version }
  obtain ⟨t, q, hall, hq, hwait, hserve, hqueues, htables, hregs⟩ := serveAll_reads (s := u) (x := x) (by rw [hu.eq]; exact hserves)
    (by rw [hu.eq]; exact hread) hserved hufull hucovered
  refine ⟨t, q, hrun.trans (congrArg Host.Outcome.next hall), ?_, hq, ?_, ?_, ?_, fun off ho => ?_⟩
  · rw [hwait, hu.eq]
  · rw [hserve, ← hid]
    rfl
  · rw [hqueues, hu.eq]
  · rw [htables, hu.eq]
  · rw [← hu.regs off ho]
    exact State.reg_of_regs (by rw [hregs])

end

/-- Settles O39: the flits of a parcel leave by `parcelSend_sends`; what arrives gives its credits back and is discarded, refused by the one
Porter whose turn it is, asked for in the second of its rounds, or becomes a write request. -/
theorem parcelsAreSentAndServed : Obligations.ParcelsAreSentAndServed := by
  unfold Obligations.ParcelsAreSentAndServed
  intro s x ha hl
  refine ⟨fun cls p n hp hn h0 hans => parcelSend_sends ha hl hp hn h0 hans, fun p h hc m hm => reserved_discarded ha hl h hc hm,
    fun p hty hb hn0 hidle hfull => ⟨fun st hst hr he => ?_, fun v va pa r hver hlarder hcount hsmall hrange hva hva56 hrow hwin hmiss hfound
      hallow hpa hdev htakes => ?_⟩, fun p hb hn0 hd hpay hup he hc m hm => ?_⟩
  · obtain ⟨-, -, -, -, hserves, -, -⟩ := hidle
    exact lkupReq_refused ha hl hb hty hn0 (.inr hfull) hserves hst hr he
  · obtain ⟨-, -, -, -, hserves, -, hread⟩ := hidle
    subst hva
    obtain ⟨t, q, hrun, hwait, hq, hserve, hqueues, htables, hregs⟩ := lkupReq_reads ha hl hb hty hn0 hfull hserves hread
      ⟨hver, hlarder, hcount, hsmall, hrange⟩ ⟨hrow, hva56, hwin, hmiss, hfound, hallow, hpa, hdev, htakes⟩
    exact ⟨t, q, hrun, hwait, hq.op, hq.start, hq.stop, hq.space, hq.prio, hq.cat, hq.holder, hserve, hqueues, htables, hregs⟩
  · split at hm
    next hty =>
      cases List.mem_singleton.1 hm
      exact write_requested ha hl hb hn0 hd hpay hup he hc hty (by decide) rfl
    next =>
      split at hm
      next hty =>
        cases List.mem_singleton.1 hm
        exact write_requested ha hl hb hn0 hd hpay hup he hc hty (by decide) rfl
      next => cases hm

end Sys2Proof.Machine
end

section
/-!
PROOFS. What the resets leave, and how a start begins after them (R78, R79, R211, R352).
-/

namespace Sys2Proof.Machine

/-- Gating the lanes' clocks changes the lanes alone. -/
theorem gateAll_eq (s : State) : s.gateAll = { s with lanes := s.gateAll.lanes } :=
  foldl_keeps (P := fun a => a = { s with lanes := a.lanes }) (fun a i h => by rw [h]; rfl) _ rfl

/-- A start has been counted, for a cause; no step is entered yet. -/
def State.startCounted (s : State) (cause : BitVec 4) : State :=
  { s with boot := { s.boot with starts := min 255 (s.boot.starts + 1), cause := cause, booting := true } }

/-- A start enters step 0, which is always required (R352). -/
theorem beginStart_enters (s : State) (cause : BitVec 4) : s.beginStart cause = (s.gateAll.startCounted cause).stepEntered 0 := by
  have h0 : (s.gateAll.startCounted cause).policyNow 0 = 0 := by simp [State.policyNow, stepPolicy]
  obtain h | ⟨hp, -⟩ := enterStep_cases (s.gateAll.startCounted cause) 17 0
  · exact h
  · simp [h0] at hp

/-- Beside the lanes a start changes the boot state alone. -/
theorem beginStart_eq (s : State) (cause : BitVec 4) :
    s.beginStart cause = { s with boot := (s.beginStart cause).boot, lanes := (s.beginStart cause).lanes } := by
  rw [beginStart_enters, gateAll_eq]
  rfl

theorem beginStart_boot (s : State) (cause : BitVec 4) : (s.beginStart cause).boot.booting = true ∧
    (s.beginStart cause).boot.step = 0 ∧ (s.beginStart cause).boot.cause = cause ∧
    (s.beginStart cause).boot.starts = min 255 (s.boot.starts + 1) ∧ (s.beginStart cause).boot.ready = s.boot.ready ∧
    (s.beginStart cause).boot.ret = s.boot.ret := by
  rw [beginStart_enters, gateAll_eq]
  exact ⟨rfl, rfl, rfl, rfl, rfl, rfl⟩

/-- After a warm reset a client port is as in reset but for the POISONs that its link-up will carry (R211). -/
theorem warmed_cport (s : State) (c : Nat) :
    s.warmed.cport c = { (default : CPort) with poisonDue := decide (c < s.cfg.cports) } := by
  have key : ∀ (l : List Nat) (b : Bank CPort),
      (l.foldl (fun a c => a.set c { (default : CPort) with poisonDue := true }) b).get c =
        if c ∈ l then { (default : CPort) with poisonDue := true } else b.get c := by
    intro l
    induction l with
    | nil => simp
    | cons d l ih =>
      intro b
      rw [List.foldl_cons, ih, Bank.get_set]
      by_cases hc : c = d <;> by_cases hl : c ∈ l <;> simp [hc, hl]
  refine (key (List.range s.cfg.cports) .empty).trans ?_
  by_cases hc : c < s.cfg.cports
  · simp [hc]
  · simp [hc]
    rfl

/-- What the journal keeps of a step over a warm reset (R362). -/
theorem warmed_jrnl (s : State) (n : Nat) : s.warmed.boot.jrnl.get n = (s.boot.jrnl.get n).carried :=
  Bank.get_each s.boot.jrnl (fun _ e => e.carried) n rfl

/-- The block while WARMRESET_N has been asserted, or has just been released. -/
def State.warmHeld (s : State) (level : Bool) : State := { s.warmed with pins := { s.warmed.pins with warmreset := level } }

/-- The block as PORESET_N is released, with DEVID and TAP_MFR sampled (R69, R84). -/
def State.coldSampled (s : State) (devid : BitVec 6) (mfr : BitVec 11) : State :=
  { s.cold with pins := { s.cold.pins with poreset := false, devid := devid, mfr := mfr } }

theorem warmresetNAssert_runs {s : State} (h : s.power.st ≠ .n3) : execWarmresetNAssert s = .next (s.warmHeld true) := by
  unfold execWarmresetNAssert
  rw [whenever_pos (by simpa using h)]
  rfl

theorem warmresetNRelease_runs {s : State} (hw : s.pins.warmreset = true) (hp : s.pins.poreset = false) :
    execWarmresetNRelease s = .next ((s.warmHeld false).beginStart 1#4) := by
  unfold execWarmresetNRelease
  rw [whenever_pos hw]
  exact congrArg Host.Outcome.next (if_neg (Bool.eq_false_iff.1 hp))

theorem poresetNRelease_runs {s : State} (devid : BitVec 6) (mfr : BitVec 11) (hp : s.pins.poreset = true) :
    execPoresetNRelease devid mfr s = .next ((s.coldSampled devid mfr).beginStart 0#4) := by
  unfold execPoresetNRelease
  rw [whenever_pos hp]
  rfl

/-- Settles O8: the states that the resets leave are read off `State.cold` and `State.warmed`; a start then enters step 0. -/
theorem resetsClearTheBlockAndBeginAStart : Obligations.ResetsClearTheBlockAndBeginAStart := by
  unfold Obligations.ResetsClearTheBlockAndBeginAStart
  refine ⟨fun s => ⟨rfl, fun hn3 => ?_⟩, fun s devid mfr => ⟨fun hpo => ?_, fun hwarm hpo => ?_⟩⟩
  · have hjrnl (n : Nat) : (s.warmHeld true).boot.jrnl.get n = (s.boot.jrnl.get n).carried := warmed_jrnl s n
    exact ⟨_, warmresetNAssert_runs hn3, rfl, rfl, rfl, rfl, rfl, rfl, rfl, rfl, fun n => by rw [hjrnl]; exact ⟨rfl, rfl⟩,
      warmed_cport s, rfl⟩
  · obtain ⟨hbooting, hstep, hcause, hstarts, hready, -⟩ := beginStart_boot (s.coldSampled devid mfr) 0#4
    refine ⟨_, poresetNRelease_runs devid mfr hpo, ?_, ?_, ?_, hbooting, hstep, hcause, hstarts, hready, ?_⟩
    all_goals
      rw [beginStart_eq]
      rfl
  · obtain ⟨hbooting, hstep, hcause, hstarts, -, hret⟩ := beginStart_boot (s.warmHeld false) 1#4
    refine ⟨_, warmresetNRelease_runs hwarm hpo, ?_, ?_, ?_, hret, hbooting, hstep, hcause, hstarts, fun c hc => ?_, ?_⟩
    case refine_4 =>
      rw [beginStart_eq]
      exact (congrArg CPort.poisonDue (warmed_cport s c)).trans (decide_eq_true hc)
    all_goals
      rw [beginStart_eq]
      rfl

end Sys2Proof.Machine
end

section
/-!
PROOFS. The PLL and the debug TAP (R78, R84, R85).
-/

namespace Sys2Proof.Machine

/-- The TAP's instruction register holds `code`. -/
def State.tapHolds (s : State) (code : Byte) : State := { s with tap := { s.tap with ir := code } }

/-- The identification word, as R84 lays it out. -/
theorem tapIdcode_identifies {s : State} (h : s.power.st ≠ .n3) : execTapIdcode 0x01#8 s =
    .next ((s.tapHolds 0x01#8).drive (.tdo 32 (BitVec.ofNat 64 (0x34E33001 + 2 * s.pins.mfr.toNat)))) := by
  have hword : 0x3 * 2 ^ 28 + 0x4E33 * 2 ^ 12 + s.pins.mfr.toNat * 2 + 1 = 0x34E33001 + 2 * s.pins.mfr.toNat := by omega
  unfold execTapIdcode
  rw [whenever_pos (by simpa using h), ← hword]
  rfl

/-- A code of neither data register selects the bypass bit, which captures 0 (log 59). -/
theorem tapIdcode_bypasses {s : State} {code : Byte} (h : s.power.st ≠ .n3) (hid : code ≠ 0x01#8) (hcp : code ≠ 0x10#8) :
    execTapIdcode code s = .next ((s.tapHolds code).drive (.tdo 1 0#64)) := by
  unfold execTapIdcode
  rw [whenever_pos (by simpa using h)]
  simp [tapIdcode, tapCpacc, hid, hcp, State.tapHolds]

/-- CPACC has captures of its own. -/
theorem tapIdcode_cpacc {s : State} (h : s.power.st ≠ .n3) : execTapIdcode 0x10#8 s = .next (s.tapHolds 0x10#8) := by
  unfold execTapIdcode
  rw [whenever_pos (by simpa using h)]
  rfl

/-- While DBG_LOCK is 1 CPACC acts as BYPASS. -/
theorem cpaccCaptureDr_locked {s : State} (h : s.power.st ≠ .n3) :
    execCpaccCaptureDr true s = .next ((s.tapHolds 0x10#8).drive (.tdo 1 0#64)) := by
  unfold execCpaccCaptureDr
  rw [whenever_pos (by simpa using h)]
  rfl

/-- The word that CPACC captures of a read that has been answered: done, the data above it, and open bits above those (R85). -/
def State.tapCapture (s : State) : Nat := Config.freeNat (s.free + 1) % 2 ^ 25 * 2 ^ 33 + (2 * s.tap.rdata.toNat + 1)

theorem tapCapture_answer (s : State) : (BitVec.ofNat 64 s.tapCapture).toNat % 2 ^ 33 = 2 * s.tap.rdata.toNat + 1 := by
  have hdata := s.tap.rdata.isLt
  have hopen : Config.freeNat (s.free + 1) % 2 ^ 25 < 2 ^ 25 := Nat.mod_lt _ (by decide)
  unfold State.tapCapture
  rw [BitVec.toNat_ofNat]
  omega

/-- An access that has been answered is captured. -/
theorem cpaccCaptureDr_done {s : State} (h : s.power.st ≠ .n3) (hd : s.tap.done = true) (hb : s.tap.busy = false)
    (he : s.tap.err = 0#2) : execCpaccCaptureDr false s =
      .next ({ (s.tapHolds 0x10#8) with free := s.free + 2 }.drive (.tdo 58 (BitVec.ofNat 64 s.tapCapture))) := by
  unfold execCpaccCaptureDr
  rw [whenever_pos (by simpa using h)]
  simp [hd, hb, he, State.tapHolds, State.tick, State.tapCapture, tapCpacc, Nat.mul_comm 2]

/-- A CPACC access has begun: the TAP waits for its answer. -/
def State.tapBusy (s : State) : State := { s with tap := { ir := 0x10#8, busy := true, done := false, rdata := 0, err := 0#2 } }

/-- Update-DR of an access that the TAP may make. -/
theorem cpaccUpdateDr_asks {s : State} (dr : BitVec 58) (hr : s.portRuns = true) (ha : s.tapAway = false) :
    execCpaccUpdateDr dr false s = .next (s.tapBusy.tapAccess (tapRequest dr)) := by
  have hn3 : s.power.st ≠ .n3 := by
    intro h
    simp [State.portRuns, h] at hr
  have hruns : s.tapBusy.portRuns = true := hr
  unfold execCpaccUpdateDr
  rw [whenever_pos (by simpa using hn3)]
  simp only [ha, Bool.or_self, Bool.false_eq_true, if_false]
  exact congrArg Host.Outcome.next (if_pos hruns)

/-- No register shows the TAP: none of the units' parts of the window reads it. -/
theorem readRegister_tap (s : State) (t : Tap) (off : Nat) : ({ s with tap := t } : State).readRegister off = s.readRegister off := by
  have hpresent : ({ s with tap := t } : State).offPresent = s.offPresent := rfl
  have hreg : ({ s with tap := t } : State).reg = s.reg := rfl
  have hqueue : ({ s with tap := t } : State).readQueue = s.readQueue := rfl
  have hsummary : ({ s with tap := t } : State).readSummary = s.readSummary := rfl
  have hflagsum : ({ s with tap := t } : State).readFlagsum = s.readFlagsum := rfl
  have hsem : ({ s with tap := t } : State).readSem = s.readSem := rfl
  have hring : ({ s with tap := t } : State).readRing = s.readRing := rfl
  have hxlt : ({ s with tap := t } : State).readXltStatus = s.readXltStatus := rfl
  have htable : ({ s with tap := t } : State).readTable = s.readTable := rfl
  have hexpander : ({ s with tap := t } : State).readExpander = s.readExpander := rfl
  have hlarder : ({ s with tap := t } : State).readLarder = s.readLarder := rfl
  have hpgh : ({ s with tap := t } : State).readPgh = s.readPgh := rfl
  have htally : ({ s with tap := t } : State).readTally = s.readTally := rfl
  have hledger : ({ s with tap := t } : State).readLedger = s.readLedger := rfl
  have hsteward : ({ s with tap := t } : State).readSteward = s.readSteward := rfl
  have hpower : ({ s with tap := t } : State).readPower = s.readPower := rfl
  have hrel : ({ s with tap := t } : State).readReliability = s.readReliability := rfl
  have hirq : ({ s with tap := t } : State).readIrq = s.readIrq := rfl
  simp only [State.readRegister, hpresent, hreg, hqueue, hsummary, hflagsum, hsem, hring, hxlt, htable, hexpander, hlarder, hpgh, htally,
    hledger, hsteward, hpower, hrel, hirq]

/-- The access of a CPACC word that reads (R58, R85). -/
theorem tapRequest_read {dr : BitVec 58} (h : bitAt dr 57 = false) :
    tapRequest dr = { write := none, off := bits dr 33 24, tap := true } := by
  simp [tapRequest, h]

/-- A read that is answered at once brings the register's word. -/
theorem tapAccess_reads {s : State} {off : Nat} (h : s.cpAnswer (BitVec.ofNat 24 off) = .ok) (hl : off ≠ offTlyCcycLo) :
    s.tapAccess { write := none, off := off, tap := true } =
      { s with tap := { s.tap with done := true, rdata := s.readRegister off, err := 0#2 } } := by
  simp [State.tapAccess, h, State.accessRegister, State.cpRead, hl, State.accessAnswered]

/-- A read of the East wing crosses. -/
theorem tapAccess_crosses {s : State} {off : Nat} (h : s.cpAnswer (BitVec.ofNat 24 off) = .crosses) :
    s.tapAccess { write := none, off := off, tap := true } =
      s.corPush true corControl (.access { write := none, off := off, tap := true }) := by
  simp [State.tapAccess, h, State.cpSend]

theorem pllLock_locks {s : State} (hp : s.pins.poreset = false) (hl : s.pins.pllLocked = false) :
    execPllLock s = .next { s with pins := { s.pins with pllLocked := true } } := by
  unfold execPllLock
  rw [whenever_pos (by simp [hp, hl])]

/-- Settles O9: each command's outcome; the word captured is taken apart by `tapCapture_answer`. -/
theorem pllAndTapCommandsComplete : Obligations.PllAndTapCommandsComplete := by
  unfold Obligations.PllAndTapCommandsComplete
  refine fun s => ⟨pllLock_locks, tapIdcode_identifies, fun _ => tapIdcode_bypasses, tapIdcode_cpacc, cpaccCaptureDr_locked,
    fun h hd hb he => ⟨_, cpaccCaptureDr_done h hd hb he, tapCapture_answer s⟩, fun dr hr ha hread hl => ⟨fun hok => ?_, fun hc => ?_⟩⟩
  · refine (cpaccUpdateDr_asks dr hr ha).trans ?_
    rw [tapRequest_read hread, tapAccess_reads (s := s.tapBusy) hok hl, State.tapBusy, readRegister_tap]
  · refine (cpaccUpdateDr_asks dr hr ha).trans ?_
    rw [tapRequest_read hread, tapAccess_crosses (s := s.tapBusy) hc]
    rfl

end Sys2Proof.Machine
end

section
/-!
PROOFS. Why O10 fails: a queue that THERM_CRIT finds Running may be Idle when its turn comes to suspend.
-/

namespace Sys2Proof.Machine

/-- The MARKER of queue 1 waits for its record. -/
def waitingMarker : Cmd := { idx := 0, bytes := 5#512, started := true, done := false, failed := false, pages := 0 }

/-- A tile of queue 0 is issued with its marking undecided. -/
def undecidedTile : Tile := { (default : Tile) with id := 1, stage := .issued }

/-- A write that waits for the tile's marking is the last request of the MARKER's record. -/
def markedRecordWrite : Req := { (default : Req) with id := 2, op := 1#3, heldFor := some 1, record := some 3 }

/-- Queues 0 and 1 are Running in N0, and no memory port is up. -/
def markerBesideUndecided : State := { State.reset with
  pins := { State.reset.pins with poreset := false, pllLocked := true }
  queues := (Bank.empty.set 0 { (default : Queue) with st := .running }).set 1
    { (default : Queue) with st := .running, tail := 1, cmds := [waitingMarker] }
  tiles := [undecidedTile]
  waiting := [markedRecordWrite]
  records := [{ id := 3, note := .done 1 false (some 0), left := [2], bad := false }] }

/-- Queue 0 suspends first: the write goes out and fails, the MARKER completes with its record, and queue 1 is Idle (R96, R104). -/
theorem markerBesideUndecided_skips_queue1 :
    ((stateAfter markerBesideUndecided (exec .thermCritRise markerBesideUndecided)).queue 1).suspTherm = false := by
  decide +kernel

/-- Refutes O10: its second clause says that every queue Running at the edge has SUSP_THERMAL, in any state. The queues suspend one
after another, and nothing it asks for keeps the writes held for a tile of queue 0 apart from the record that a MARKER of queue 1
completes with. -/
theorem not_thermalEdgesActOnTheQueues : ¬ Obligations.ThermalEdgesActOnTheQueues := by
  unfold Obligations.ThermalEdgesActOnTheQueues
  intro h
  obtain ⟨-, rise, -⟩ := h markerBesideUndecided (by decide +kernel) rfl
  obtain ⟨t, ht, -, -, suspends⟩ := rise rfl
  obtain ⟨hterm, -⟩ := suspends 1 (by decide) (by decide +kernel)
  have hskip := markerBesideUndecided_skips_queue1
  rw [ht] at hskip
  exact absurd hterm (ne_true_of_eq_false hskip)

end Sys2Proof.Machine
end

section
/-!
PROOFS. Why O43 fails: the probe that hits may use up a free value, which its frame does not allow for.
-/

namespace Sys2Proof.Machine

/-- The row of set 0 as the tier returned it: way 0 is valid and holds tag 0. -/
def heldEntryRow : BitVec 1024 := 0x80000000#1024

/-- A probe of granule 0 whose directory row is known. -/
def knownProbe : Probe :=
  { east := false, granule := 0, dests := [], row := 0, table := 0, mult := 0, missed := false, seen := some (some heldEntryRow) }

/-- The granule of the probe is held by a way of tier 0, for which an injection is armed (R75, R386). -/
def hitBesideInjection : State := { State.reset with
  pins := { State.reset.pins with poreset := false, pllLocked := true }
  regs := (Bank.empty.set offLdgTiers (some 1#32)).set offRelInject (some 0xB0000000#32)
  larder := { State.reset.larder with
    tiersUp := 1#8, dir := Bank.empty.set 0 (Bank.empty.set 0 { valid := true, heat := 0#2, tag := 0#26 })
    probes := [knownProbe] } }

/-- Raising HEAT stores the directory row of the armed tier: which of its bits are flipped is a free value (log 125). -/
theorem hitBesideInjection_uses_free :
    (stateAfter hitBesideInjection (exec (.larderProbe .west) hitBesideInjection)).free ≠ hitBesideInjection.free := by
  decide +kernel

/-- Refutes O43: its clause of the hit lets LARDER_PROBE change only the Larder, what is driven, the Tally, REL_INJECT and the repair
state. With an injection armed for the tier of the way that is hit, the directory row is stored flipped, and the choice of the
bits moves the model's counter of free values on. -/
theorem not_probesInstallsAndWindows : ¬ Obligations.ProbesInstallsAndWindows := by
  unfold Obligations.ProbesInstallsAndWindows
  intro h
  obtain ⟨probes, -⟩ := h hitBesideInjection .west (by decide +kernel)
  obtain ⟨-, -, hit, -⟩ := probes knownProbe 0 (by decide +kernel) (by decide +kernel)
  obtain ⟨t, ht, -, -, -, -, -, frame⟩ := hit heldEntryRow 0 (by decide +kernel) rfl (by decide +kernel) (by decide +kernel)
  have hfree := congrArg State.free frame
  have hne := hitBesideInjection_uses_free
  rw [ht] at hne
  exact hne hfree

end Sys2Proof.Machine
end

section
/-!
PROOFS. Why O42 fails: the sweep after a tier's row has been delivered drops a descriptor's reading that nothing waits for.
-/

namespace Sys2Proof.Machine

/-- Of granule 0, way 0 of tier 0 is read for tile 1. -/
def wayBeingRead : TierRead :=
  { data := 0#1024, tier := 0, row := 0, set := 0, way := 0, granule := 0, dests := [.tile 1 0 0 16] }

/-- Tile 1 waits for that piece and for another one. -/
def tileOfTwoPieces : Tile := { (default : Tile) with id := 1, want := [(0, 16), (16, 16)] }

/-- A descriptor has been read for a stream whose itinerary is gone. -/
def orphanReading : Reading := { id := 2, who := .desc 0, stream := 0, away := [], got := [], failed := [] }

/-- No itinerary is left, and the way's row is on its way to the tile. -/
def wayBesideReading : State := { State.reset with
  pins := { State.reset.pins with poreset := false, pllLocked := true }
  larder := { State.reset.larder with reads := [wayBeingRead] }
  tiles := [tileOfTwoPieces]
  readings := [orphanReading] }

/-- A row that returns as it was stored has no flipped bit. -/
theorem rowFlips_self (data : BitVec 1024) : rowFlips data data (Config.checkBits data) = 0 := by
  unfold rowFlips
  simp only [BitVec.xor_self]
  decide +kernel

/-- A way's row without a flipped bit passes the check, and its read goes on with it. -/
theorem tierReadData_passes {s : State} {k : Nat} {b : BitVec 3} {data : BitVec 1024} {chk : BitVec 128} {r : TierRead}
    (found : s.larder.reads.find? (fun r => r.tier == k && r.row % 8 == b.toNat) = some r) (ha : s.alive = true)
    (hway : r.dir = false) (hflips : rowFlips r.data data chk = 0) :
    exec (.tierReadData k b data chk) s =
      .next (State.wayRead { s.tick with larder := { s.larder with reads := s.larder.reads.erase r } } r (some r.data)) := by
  have checked : s.tierChecked r.data data chk = some r.data := by
    unfold State.tierChecked
    rw [hflips]
    rfl
  show execTierReadData k b data chk s = _
  unfold execTierReadData
  rw [found]
  dsimp only
  rw [whenever_pos (by exact ha), checked, if_neg (by simp [hway])]

/-- The delivery is followed by the sweep, which drops the reading. -/
theorem wayBesideReading_drops_reading :
    (stateAfter wayBesideReading
      (exec (.tierReadData 0 0#3 wayBeingRead.data (Config.checkBits wayBeingRead.data)) wayBesideReading)).readings ≠
      wayBesideReading.readings := by
  rw [tierReadData_passes (r := wayBeingRead) (by decide +kernel) (by decide +kernel) rfl (rowFlips_self _)]
  decide +kernel

/-- Refutes O42: its last clause lets a delivered row change only the Larder, the tile and the counter of free values, whatever
readings there are. The sweep that follows a delivery also drops the reading of a descriptor whose itinerary is not resident. -/
theorem not_tiersServeOrAreMappedOut : ¬ Obligations.TiersServeOrAreMappedOut := by
  unfold Obligations.TiersServeOrAreMappedOut
  intro h
  obtain ⟨-, -, -, rows⟩ := h wayBesideReading 0 (by decide +kernel)
  obtain ⟨-, -, -, delivered⟩ := rows 0#3 wayBeingRead wayBeingRead.data (Config.checkBits wayBeingRead.data) (by decide +kernel)
  obtain ⟨t, ht, -, -, frame⟩ := delivered 1 0 0 16 tileOfTwoPieces rfl (by rw [rowFlips_self]; decide) rfl rfl
    rfl (by decide +kernel) rfl rfl rfl rfl rfl (by decide +kernel) (by decide +kernel)
  have hreadings := congrArg State.readings frame
  have hne := wayBesideReading_drops_reading
  rw [ht] at hne
  exact hne hreadings

end Sys2Proof.Machine
end

section
/-!
PROOFS. O37: an invalidation filters the caches of both wings, and its end the read-cache lines of every lane.
-/

namespace Sys2Proof.Machine

variable {s : State}

/-- The lines that a run over lanes leaves in each of them. -/
theorem foldl_dropLines (f : Nat → Nat) (p : CacheLine → Bool) (ls : List Nat) (s : State) :
    ∃ lanes, ls.foldl (fun a i => a.dropLines (f i) p) s = { s with lanes := lanes } ∧
      ∀ l, (lanes.get l).cache =
        if l ∈ ls.map f then (s.lane l).cache.filter (fun c => !p c) else (s.lane l).cache := by
  induction ls generalizing s with
  | nil => exact ⟨s.lanes, rfl, fun _ => rfl⟩
  | cons i ls ih =>
    obtain ⟨lanes, hrun, hcache⟩ := ih (s.dropLines (f i) p)
    refine ⟨lanes, by rw [List.foldl_cons, hrun]; rfl, fun l => ?_⟩
    have first : ((s.dropLines (f i) p).lane l).cache =
        if l = f i then (s.lane l).cache.filter (fun c => !p c) else (s.lane l).cache := by
      show ((s.lanes.set (f i) _).get l).cache = _
      rw [Bank.get_set]
      split
      next h => rw [h]
      next => rfl
    rw [hcache, first, List.map_cons]
    by_cases hi : l = f i <;> by_cases hl : l ∈ ls.map f <;> simp [hi, hl]

/-- In every lane of both wings no line of a queue with a named ASID is left; nothing but the lanes changes. -/
theorem dropAsidLines_lanes (s : State) (all : Bool) (asid : BitVec 16) :
    ∃ lanes, s.dropAsidLines all asid = { s with lanes := lanes } ∧
      ∀ east, ∀ i < s.cfg.wingLanes, ∀ c ∈ (lanes.get (wingLane0 east + i)).cache, asidMeets all asid (s.qAsid c.q) = false := by
  obtain ⟨west, hwest, hcw⟩ := foldl_dropLines (fun i => wingLane0 false + i) (fun c => asidMeets all asid (s.qAsid c.q))
    (List.range s.cfg.wingLanes) s
  obtain ⟨both, heast, hcb⟩ := foldl_dropLines (fun i => wingLane0 true + i) (fun c => asidMeets all asid (s.qAsid c.q))
    (List.range s.cfg.wingLanes) { s with lanes := west }
  refine ⟨both, ?_, fun east i hi c hc => ?_⟩
  · show (s.dropWingLines false _).dropWingLines true _ = _
    unfold State.dropWingLines
    rw [hwest]
    exact heast
  · have hmem : wingLane0 east + i ∈ (List.range s.cfg.wingLanes).map (fun i => wingLane0 east + i) :=
      List.mem_map.2 ⟨i, List.mem_range.2 hi, rfl⟩
    rw [hcb] at hc
    cases east with
    | true =>
      rw [if_pos hmem] at hc
      simpa using (List.mem_filter.1 hc).2
    | false =>
      have kept : c ∈ (west.get (wingLane0 false + i)).cache := by
        split at hc
        · exact (List.mem_filter.1 hc).1
        · exact hc
      rw [hcw, if_pos hmem] at kept
      simpa using (List.mem_filter.1 kept).2

/-- The range is overlapped by the pages that an invalidation names. -/
def invalidates (all : Bool) (asid : BitVec 16) (vstart pages : Nat) (r : Range) : Bool :=
  r.overlaps (if all then r.asid else asid) vstart pages

/-- Both caches of the invalidated state lack the overlapped ranges. -/
theorem State.invalidate_l1 (s : State) (all : Bool) (asid : BitVec 16) (vstart pages g : Nat) :
    (s.invalidate all asid vstart pages).l1.get g = (s.l1.get g).filter (fun r => !invalidates all asid vstart pages r) :=
  Bank.get_each s.l1 (fun _ l => l.filter (fun r => !invalidates all asid vstart pages r)) g rfl

theorem State.invalidate_l2 (s : State) (all : Bool) (asid : BitVec 16) (vstart pages w : Nat) :
    (s.invalidate all asid vstart pages).l2.get w = (s.l2.get w).filter (fun r => !invalidates all asid vstart pages r) :=
  Bank.get_each s.l2 (fun _ l => l.filter (fun r => !invalidates all asid vstart pages r)) w rfl

/-- A miss that an invalidation of the named pages has crossed gets a stale answer when it, or the answered range, meets them. -/
theorem Miss.stale_of_crossed {m : Miss} {va n : Nat} (h : (va, n) ∈ m.crossed) {st : BitVec 2} {vstart : BitVec 44}
    {len : BitVec 28} (hmeet : pagesMeet m.page.toNat 1 va n = true ∨
      (st = 0#2 ∧ pagesMeet vstart.toNat (len.toNat + 1) va n = true)) : m.stale st vstart len = true := by
  refine List.any_eq_true.2 ⟨(va, n), h, ?_⟩
  obtain hpage | ⟨hst, hrange⟩ := hmeet
  · simp [hpage]
  · simp [hst, hrange]

/-- A miss already sent that the invalidation names notes its pages. -/
def Miss.crossedBy (all : Bool) (asid : BitVec 16) (va n : Nat) (m : Miss) : Miss :=
  if m.sent && asidMeets all asid m.asid then { m with crossed := m.crossed ++ [(va, n)] } else m

theorem Miss.crossedBy_of_named {all : Bool} {asid : BitVec 16} {va n : Nat} {m : Miss}
    (hsent : (m.crossedBy all asid va n).sent = true) (hasid : asidMeets all asid (m.crossedBy all asid va n).asid = true) :
    (va, n) ∈ (m.crossedBy all asid va n).crossed := by
  by_cases h : (m.sent && asidMeets all asid m.asid) = true
  · simp [Miss.crossedBy, h]
  · rw [Miss.crossedBy, if_neg h] at hsent hasid
    exact absurd (by rw [hsent, hasid]; rfl) h

/-- The issued tiles that an invalidation waits for. -/
def State.tilesMet (s : State) (all : Bool) (asid : BitVec 16) (va n : Nat) : List Nat :=
  (s.tiles.filter (fun t => t.stage == .issued && asidMeets all asid (s.qAsid t.q) && t.meets va n)).map (fun t => t.id)

/-- The requests that it waits for: those of these tiles, and those that belong to no tile any more. -/
def State.reqsMet (s : State) (all : Bool) (asid : BitVec 16) (tiles : List Nat) : List Nat :=
  (s.liveReqs.filter (fun r => asidMeets all asid r.asid && (r.tiles.any (fun t => tiles.contains t) ||
    r.tiles.all (fun t => (s.tile t).isNone)))).map (fun r => r.id)

/-- The tiles not yet issued lose the checks of the named pages. -/
def State.uncovered (s : State) (all : Bool) (asid : BitVec 16) (va n : Nat) : List Tile :=
  s.tiles.map (fun t => if t.stage != .issued && asidMeets all asid (s.qAsid t.q) then
    { t with cover := t.cover.filter (fun c => !pagesMeet c.vstart c.pages va n) } else t)

/-- INVALIDATION_ACCEPT when an entry is free and no accepted invalidation has its number. -/
theorem invalidationAccept_runs {id : BitVec 4} {all : Bool} {asid : BitVec 16} {va : BitVec 44} {len : BitVec 28}
    (h : s.alive = true) (hroom : s.invals.length < 16) (hid : ∀ v ∈ s.invals, v.id ≠ id) :
    exec (.invalidationAccept id all asid va len) s = .next { s.invalidate all asid va.toNat (len.toNat + 1) with
      invals := s.invals ++ [⟨id, all, asid, va, len, s.reqsMet all asid (s.tilesMet all asid va.toNat (len.toNat + 1)),
        s.tilesMet all asid va.toNat (len.toNat + 1)⟩]
      tiles := s.uncovered all asid va.toNat (len.toNat + 1)
      misses := s.misses.map (Miss.crossedBy all asid va.toNat (len.toNat + 1)) } := by
  show execInvalidationAccept id all asid va len s = _
  unfold execInvalidationAccept
  dsimp only
  rw [whenever_pos (by simpa [h, hroom] using hid)]
  rfl

/-- INVALIDATION_COMPLETE once no affected tile and no affected request is left. -/
theorem invalidationComplete_runs {id : BitVec 4} {v : Inval} (h : s.alive = true)
    (hv : s.invals.find? (fun v => v.id == id) = some v) (htiles : ∀ x ∈ v.tiles, s.tile x = none)
    (hreqs : ∀ x ∈ s.liveReqs, x.id ∉ v.reqs ∧ ∀ y ∈ x.tiles, y ∉ v.tiles) :
    exec (.invalidationComplete id) s = .next (State.drive
      { s.dropAsidLines v.all v.asid with invals := (s.dropAsidLines v.all v.asid).invals.filter (fun x => x.id != id) }
      (.invDone id)) := by
  show execInvalidationComplete id s = _
  unfold execInvalidationComplete
  rw [hv]
  dsimp only
  rw [whenever_pos (by simpa [h, List.all_eq_true] using ⟨htiles, hreqs⟩)]

/-- Settles O37: the accepted invalidation filters both caches and notes its pages in the misses it crosses; its completion drops the
lines of every lane. -/
theorem invalidationsClearTheCaches : Obligations.InvalidationsClearTheCaches := by
  unfold Obligations.InvalidationsClearTheCaches
  intro s id h
  refine ⟨fun all asid va len hroom hid => ?_, fun v hv htiles hreqs => ?_⟩
  · refine ⟨_, invalidationAccept_runs h hroom hid, ?_, ?_, ?_, ?_, rfl⟩
    · rintro _ rfl
      rfl
    · intro g r hr
      have hr := State.invalidate_l1 s all asid va.toNat (len.toNat + 1) g ▸ hr
      simpa [invalidates] using (List.mem_filter.1 hr).2
    · intro w r hr
      have hr := State.invalidate_l2 s all asid va.toNat (len.toNat + 1) w ▸ hr
      simpa [invalidates] using (List.mem_filter.1 hr).2
    · intro m hm hsent hasid st vs n hmeet
      obtain ⟨m, -, rfl⟩ := List.mem_map.1 hm
      exact Miss.stale_of_crossed (Miss.crossedBy_of_named hsent hasid) hmeet
  · obtain ⟨lanes, hlanes, hdropped⟩ := dropAsidLines_lanes s v.all v.asid
    have hrun := invalidationComplete_runs h hv htiles hreqs
    rw [hlanes] at hrun
    exact ⟨_, hrun, rfl, rfl, hdropped, rfl⟩

end Sys2Proof.Machine
end

section
/-!
PROOFS. The operations that leave the time, the pins, the power state and the booting mark alone: the fault of a command and all that it
stops, the serving of held parcels, the suspension and resumption of queues, records, and what runs in every cycle beside TLY_CCYC.
-/

namespace Sys2Proof.Machine

@[simp] theorem ite_ccyc (c : Prop) [Decidable c] (a b : State) : (if c then a else b).ccyc = if c then a.ccyc else b.ccyc := by
  split <;> rfl

@[simp] theorem ite_pins (c : Prop) [Decidable c] (a b : State) : (if c then a else b).pins = if c then a.pins else b.pins := by
  split <;> rfl

@[simp] theorem ite_power (c : Prop) [Decidable c] (a b : State) : (if c then a else b).power = if c then a.power else b.power := by
  split <;> rfl

@[simp] theorem ite_boot (c : Prop) [Decidable c] (a b : State) : (if c then a else b).boot = if c then a.boot else b.boot := by
  split <;> rfl

@[simp] theorem ite_booting (c : Prop) [Decidable c] (a b : Boot) :
    (if c then a else b).booting = if c then a.booting else b.booting := by
  split <;> rfl

@[simp] theorem foldl_ccyc {β : Type} (g : State → β → State) (h : ∀ a x, (g a x).ccyc = a.ccyc) (l : List β) (s : State) :
    (l.foldl g s).ccyc = s.ccyc := by
  induction l generalizing s with
  | nil => rfl
  | cons x t ih => simp [List.foldl_cons, ih, h]

@[simp] theorem foldlFst_ccyc {β γ : Type} (g : State × γ → β → State × γ) (h : ∀ a x, (g a x).1.ccyc = a.1.ccyc)
    (l : List β) (s : State × γ) : (l.foldl g s).1.ccyc = s.1.ccyc := by
  induction l generalizing s with
  | nil => rfl
  | cons x t ih => simp [List.foldl_cons, ih, h]

@[simp] theorem foldl_pins {β : Type} (g : State → β → State) (h : ∀ a x, (g a x).pins = a.pins) (l : List β) (s : State) :
    (l.foldl g s).pins = s.pins := by
  induction l generalizing s with
  | nil => rfl
  | cons x t ih => simp [List.foldl_cons, ih, h]

@[simp] theorem foldlFst_pins {β γ : Type} (g : State × γ → β → State × γ) (h : ∀ a x, (g a x).1.pins = a.1.pins)
    (l : List β) (s : State × γ) : (l.foldl g s).1.pins = s.1.pins := by
  induction l generalizing s with
  | nil => rfl
  | cons x t ih => simp [List.foldl_cons, ih, h]

@[simp] theorem foldl_power {β : Type} (g : State → β → State) (h : ∀ a x, (g a x).power = a.power) (l : List β)
    (s : State) : (l.foldl g s).power = s.power := by
  induction l generalizing s with
  | nil => rfl
  | cons x t ih => simp [List.foldl_cons, ih, h]

@[simp] theorem foldlFst_power {β γ : Type} (g : State × γ → β → State × γ) (h : ∀ a x, (g a x).1.power = a.1.power)
    (l : List β) (s : State × γ) : (l.foldl g s).1.power = s.1.power := by
  induction l generalizing s with
  | nil => rfl
  | cons x t ih => simp [List.foldl_cons, ih, h]

@[simp] theorem foldl_booting {β : Type} (g : State → β → State) (h : ∀ a x, (g a x).boot.booting = a.boot.booting)
    (l : List β) (s : State) : (l.foldl g s).boot.booting = s.boot.booting := by
  induction l generalizing s with
  | nil => rfl
  | cons x t ih => simp [List.foldl_cons, ih, h]

@[simp] theorem foldlFst_booting {β γ : Type} (g : State × γ → β → State × γ)
    (h : ∀ a x, (g a x).1.boot.booting = a.1.boot.booting) (l : List β) (s : State × γ) : (l.foldl g s).1.boot.booting = s.1.boot.booting := by
  induction l generalizing s with
  | nil => rfl
  | cons x t ih => simp [List.foldl_cons, ih, h]

theorem calm_foldl {β : Type} (g : State → β → State) (l : List β) (s s0 : State)
    (h : ∀ a x, (g a x).ccyc = a.ccyc ∧ (g a x).pins = a.pins ∧ (g a x).power = a.power ∧
      (g a x).boot.booting = a.boot.booting)
    (h0 : s.ccyc = s0.ccyc ∧ s.pins = s0.pins ∧ s.power = s0.power ∧ s.boot.booting = s0.boot.booting) :
    (l.foldl g s).ccyc = s0.ccyc ∧ (l.foldl g s).pins = s0.pins ∧ (l.foldl g s).power = s0.power ∧
      (l.foldl g s).boot.booting = s0.boot.booting := by
  obtain ⟨hc, hp, hw, hb⟩ := h0
  rw [← hc, ← hp, ← hw, ← hb]
  exact ⟨foldl_ccyc g (fun a x => (h a x).1) l s, foldl_pins g (fun a x => (h a x).2.1) l s,
    foldl_power g (fun a x => (h a x).2.2.1) l s, foldl_booting g (fun a x => (h a x).2.2.2) l s⟩

theorem calm_foldlFst {β γ : Type} (g : State × γ → β → State × γ) (l : List β) (s : State × γ) (s0 : State)
    (h : ∀ a x, (g a x).1.ccyc = a.1.ccyc ∧ (g a x).1.pins = a.1.pins ∧ (g a x).1.power = a.1.power ∧
      (g a x).1.boot.booting = a.1.boot.booting)
    (h0 : s.1.ccyc = s0.ccyc ∧ s.1.pins = s0.pins ∧ s.1.power = s0.power ∧ s.1.boot.booting = s0.boot.booting) :
    (l.foldl g s).1.ccyc = s0.ccyc ∧ (l.foldl g s).1.pins = s0.pins ∧ (l.foldl g s).1.power = s0.power ∧
      (l.foldl g s).1.boot.booting = s0.boot.booting := by
  obtain ⟨hc, hp, hw, hb⟩ := h0
  rw [← hc, ← hp, ← hw, ← hb]
  exact ⟨foldlFst_ccyc g (fun a x => (h a x).1) l s, foldlFst_pins g (fun a x => (h a x).2.1) l s,
    foldlFst_power g (fun a x => (h a x).2.2.1) l s, foldlFst_booting g (fun a x => (h a x).2.2.2) l s⟩

@[simp] theorem State.setBits_calm (s : State) (off : Nat) (m : Word) :
    (s.setBits off m).ccyc = s.ccyc ∧ (s.setBits off m).pins = s.pins ∧ (s.setBits off m).power = s.power ∧
      (s.setBits off m).boot.booting = s.boot.booting := by
  simp [State.setBits]

@[simp] theorem State.clearBits_calm (s : State) (off : Nat) (m : Word) :
    (s.clearBits off m).ccyc = s.ccyc ∧ (s.clearBits off m).pins = s.pins ∧ (s.clearBits off m).power = s.power ∧
      (s.clearBits off m).boot.booting = s.boot.booting := by
  simp [State.clearBits]

@[simp] theorem State.putBit_calm (s : State) (off i : Nat) (v : Bool) :
    (s.putBit off i v).ccyc = s.ccyc ∧ (s.putBit off i v).pins = s.pins ∧ (s.putBit off i v).power = s.power ∧
      (s.putBit off i v).boot.booting = s.boot.booting := by
  simp [State.putBit]

@[simp] theorem State.countReg_calm (s : State) (off lo len n : Nat) :
    (s.countReg off lo len n).ccyc = s.ccyc ∧
      (s.countReg off lo len n).pins = s.pins ∧ (s.countReg off lo len n).power = s.power ∧
      (s.countReg off lo len n).boot.booting = s.boot.booting := by
  simp [State.countReg]

@[simp] theorem State.raiseEvent_calm (s : State) (off i : Nat) :
    (s.raiseEvent off i).ccyc = s.ccyc ∧ (s.raiseEvent off i).pins = s.pins ∧ (s.raiseEvent off i).power = s.power ∧
      (s.raiseEvent off i).boot.booting = s.boot.booting := by
  simp [State.raiseEvent]

@[simp] theorem State.raiseQueue_calm (s : State) (q i : Nat) :
    (s.raiseQueue q i).ccyc = s.ccyc ∧ (s.raiseQueue q i).pins = s.pins ∧ (s.raiseQueue q i).power = s.power ∧
      (s.raiseQueue q i).boot.booting = s.boot.booting := by
  simp [State.raiseQueue]

@[simp] theorem State.countOne_calm (s : State) (u k n : Nat) :
    (s.countOne u k n).ccyc = s.ccyc ∧ (s.countOne u k n).pins = s.pins ∧ (s.countOne u k n).power = s.power ∧
      (s.countOne u k n).boot.booting = s.boot.booting := by
  simp [State.countOne]

@[simp] theorem State.count_calm (s : State) (u ev qual n : Nat) :
    (s.count u ev qual n).ccyc = s.ccyc ∧ (s.count u ev qual n).pins = s.pins ∧ (s.count u ev qual n).power = s.power ∧
      (s.count u ev qual n).boot.booting = s.boot.booting := by
  simp [State.count]

@[simp] theorem State.trace_calm (s : State) (type unit : Nat) (q : Option Nat) (payload : Nat) :
    (s.trace type unit q payload).ccyc = s.ccyc ∧
      (s.trace type unit q payload).pins = s.pins ∧ (s.trace type unit q payload).power = s.power ∧
      (s.trace type unit q payload).boot.booting = s.boot.booting := by
  simp [State.trace]

@[simp] theorem State.askTally_calm (s : State) (a : TallyAsk) :
    (s.askTally a).ccyc = s.ccyc ∧ (s.askTally a).pins = s.pins ∧ (s.askTally a).power = s.power ∧
      (s.askTally a).boot.booting = s.boot.booting := by
  simp [State.askTally]

@[simp] theorem State.recordDone_calm (s : State) :
    (s.recordDone).ccyc = s.ccyc ∧ (s.recordDone).pins = s.pins ∧ (s.recordDone).power = s.power ∧
      (s.recordDone).boot.booting = s.boot.booting := by
  simp [State.recordDone]

@[simp] theorem State.takeSnapshot_calm (s : State) (asks : List TallyAsk) :
    (s.takeSnapshot asks).1.ccyc = s.ccyc ∧ (s.takeSnapshot asks).1.pins = s.pins ∧ (s.takeSnapshot asks).1.power = s.power ∧
      (s.takeSnapshot asks).1.boot.booting = s.boot.booting := by
  simp [State.takeSnapshot]

@[simp] theorem State.traceFree_calm (s : State) (type payload : Nat) :
    (s.traceFree type payload).ccyc = s.ccyc ∧
      (s.traceFree type payload).pins = s.pins ∧ (s.traceFree type payload).power = s.power ∧
      (s.traceFree type payload).boot.booting = s.boot.booting := by
  simp [State.traceFree]

@[simp] theorem State.tallyEdge_calm (s : State) :
    (s.tallyEdge).ccyc = s.ccyc ∧ (s.tallyEdge).pins = s.pins ∧ (s.tallyEdge).power = s.power ∧
      (s.tallyEdge).boot.booting = s.boot.booting := by
  simp [State.tallyEdge]

@[simp] theorem State.stored_calm (s : State) (c : Nat) (east : Bool) (unit : Nat) :
    (s.stored c east unit).ccyc = s.ccyc ∧ (s.stored c east unit).pins = s.pins ∧ (s.stored c east unit).power = s.power ∧
      (s.stored c east unit).boot.booting = s.boot.booting := by
  simp [State.stored]

@[simp] theorem State.progress_calm (s : State) (q : Nat) :
    (s.progress q).ccyc = s.ccyc ∧ (s.progress q).pins = s.pins ∧ (s.progress q).power = s.power ∧
      (s.progress q).boot.booting = s.boot.booting := by
  simp [State.progress]

@[simp] theorem State.advanceHead_calm (s : State) (q : Nat) :
    (s.advanceHead q).ccyc = s.ccyc ∧ (s.advanceHead q).pins = s.pins ∧ (s.advanceHead q).power = s.power ∧
      (s.advanceHead q).boot.booting = s.boot.booting := by
  simp [State.advanceHead]

@[simp] theorem State.settle_calm (s : State) (q : Nat) :
    (s.settle q).ccyc = s.ccyc ∧ (s.settle q).pins = s.pins ∧ (s.settle q).power = s.power ∧
      (s.settle q).boot.booting = s.boot.booting := by
  simp [State.settle]

@[simp] theorem State.closeCmd_calm (s : State) (q : Nat) (idx : BitVec 16) :
    (s.closeCmd q idx).ccyc = s.ccyc ∧ (s.closeCmd q idx).pins = s.pins ∧ (s.closeCmd q idx).power = s.power ∧
      (s.closeCmd q idx).boot.booting = s.boot.booting := by
  simp [State.closeCmd]

@[simp] theorem State.endCmd_calm (s : State) (q : Nat) (c : Cmd) :
    (s.endCmd q c).ccyc = s.ccyc ∧ (s.endCmd q c).pins = s.pins ∧ (s.endCmd q c).power = s.power ∧
      (s.endCmd q c).boot.booting = s.boot.booting := by
  simp [State.endCmd]

@[simp] theorem State.updSnap_calm (s : State) (q : Nat) (idx : BitVec 16) (u : Nat) (f : UnitSnap → UnitSnap) :
    (s.updSnap q idx u f).ccyc = s.ccyc ∧ (s.updSnap q idx u f).pins = s.pins ∧ (s.updSnap q idx u f).power = s.power ∧
      (s.updSnap q idx u f).boot.booting = s.boot.booting := by
  simp [State.updSnap]

@[simp] theorem State.snapUnits_calm (s : State) (q : Nat) (idx : BitVec 16) :
    (s.snapUnits q idx).ccyc = s.ccyc ∧ (s.snapUnits q idx).pins = s.pins ∧ (s.snapUnits q idx).power = s.power ∧
      (s.snapUnits q idx).boot.booting = s.boot.booting := by
  simp [State.snapUnits]

@[simp] theorem State.streamSnap_calm (s : State) (q stream u : Nat) (f : UnitSnap → UnitSnap) :
    (s.streamSnap q stream u f).ccyc = s.ccyc ∧
      (s.streamSnap q stream u f).pins = s.pins ∧ (s.streamSnap q stream u f).power = s.power ∧
      (s.streamSnap q stream u f).boot.booting = s.boot.booting := by
  unfold State.streamSnap
  (repeat' split) <;> simp_all

@[simp] theorem State.snapDetail_calm (s : State) (q stream u : Nat) (d : Word) :
    (s.snapDetail q stream u d).ccyc = s.ccyc ∧
      (s.snapDetail q stream u d).pins = s.pins ∧ (s.snapDetail q stream u d).power = s.power ∧
      (s.snapDetail q stream u d).boot.booting = s.boot.booting := by
  simp [State.snapDetail]

@[simp] theorem State.corPush_calm (s : State) (toEast : Bool) (cls : Nat) (i : CorItem) :
    (s.corPush toEast cls i).ccyc = s.ccyc ∧ (s.corPush toEast cls i).pins = s.pins ∧ (s.corPush toEast cls i).power = s.power ∧
      (s.corPush toEast cls i).boot.booting = s.boot.booting := by
  simp [State.corPush]

@[simp] theorem State.cacheWritten_calm (s : State) (lane pa len : Nat) :
    (s.cacheWritten lane pa len).ccyc = s.ccyc ∧
      (s.cacheWritten lane pa len).pins = s.pins ∧ (s.cacheWritten lane pa len).power = s.power ∧
      (s.cacheWritten lane pa len).boot.booting = s.boot.booting := by
  simp [State.cacheWritten]

@[simp] theorem State.leavesLane_calm (s : State) (r : Req) :
    (s.leavesLane r).ccyc = s.ccyc ∧ (s.leavesLane r).pins = s.pins ∧ (s.leavesLane r).power = s.power ∧
      (s.leavesLane r).boot.booting = s.boot.booting := by
  unfold State.leavesLane
  (repeat' split) <;> simp_all

@[simp] theorem State.sendReq_calm (s : State) (r : Req) (x0 : ReqPath) :
    (s.sendReq r x0).ccyc = s.ccyc ∧ (s.sendReq r x0).pins = s.pins ∧ (s.sendReq r x0).power = s.power ∧
      (s.sendReq r x0).boot.booting = s.boot.booting := by
  unfold State.sendReq
  (repeat' split) <;> simp_all

@[simp] theorem State.extraFault_calm (s : State) (q : Nat) :
    (s.extraFault q).ccyc = s.ccyc ∧ (s.extraFault q).pins = s.pins ∧ (s.extraFault q).power = s.power ∧
      (s.extraFault q).boot.booting = s.boot.booting := by
  unfold State.extraFault
  dsimp only
  (repeat' split) <;> simp_all

@[simp] theorem State.letGo_calm (s : State) (q : Nat) (r : Req) :
    (s.letGo q r).ccyc = s.ccyc ∧ (s.letGo q r).pins = s.pins ∧ (s.letGo q r).power = s.power ∧
      (s.letGo q r).boot.booting = s.boot.booting := by
  unfold State.letGo
  split <;> simp

@[simp] theorem State.stopLanes_calm (s : State) (q : Nat) :
    (s.stopLanes q).ccyc = s.ccyc ∧ (s.stopLanes q).pins = s.pins ∧ (s.stopLanes q).power = s.power ∧
      (s.stopLanes q).boot.booting = s.boot.booting := by
  simp [State.stopLanes]

@[simp] theorem State.stopWaiters_calm (s : State) (q : Nat) :
    (s.stopWaiters q).ccyc = s.ccyc ∧ (s.stopWaiters q).pins = s.pins ∧ (s.stopWaiters q).power = s.power ∧
      (s.stopWaiters q).boot.booting = s.boot.booting := by
  simp [State.stopWaiters]

@[simp] theorem State.letGoParcel_calm (s : State) (q : Nat) (x : TxParcel) :
    (s.letGoParcel q x).ccyc = s.ccyc ∧ (s.letGoParcel q x).pins = s.pins ∧ (s.letGoParcel q x).power = s.power ∧
      (s.letGoParcel q x).boot.booting = s.boot.booting := by
  simp [State.letGoParcel]

@[simp] theorem State.stopPorter_calm (s : State) (q : Nat) :
    (s.stopPorter q).ccyc = s.ccyc ∧ (s.stopPorter q).pins = s.pins ∧ (s.stopPorter q).power = s.power ∧
      (s.stopPorter q).boot.booting = s.boot.booting := by
  simp [State.stopPorter]

@[simp] theorem State.stopPushes_calm (s : State) (q : Nat) :
    (s.stopPushes q).ccyc = s.ccyc ∧ (s.stopPushes q).pins = s.pins ∧ (s.stopPushes q).power = s.power ∧
      (s.stopPushes q).boot.booting = s.boot.booting := by
  simp [State.stopPushes]

@[simp] theorem State.stopReads_calm (s : State) (q : Nat) :
    (s.stopReads q).ccyc = s.ccyc ∧ (s.stopReads q).pins = s.pins ∧ (s.stopReads q).power = s.power ∧
      (s.stopReads q).boot.booting = s.boot.booting := by
  simp [State.stopReads]

@[simp] theorem State.stopUnits_calm (s : State) (q : Nat) :
    (s.stopUnits q).ccyc = s.ccyc ∧ (s.stopUnits q).pins = s.pins ∧ (s.stopUnits q).power = s.power ∧
      (s.stopUnits q).boot.booting = s.boot.booting := by
  simp [State.stopUnits]

@[simp] theorem State.ledgerResult_calm (s : State) (st : Byte) (check off : Nat) :
    (s.ledgerResult st check off).ccyc = s.ccyc ∧
      (s.ledgerResult st check off).pins = s.pins ∧ (s.ledgerResult st check off).power = s.power ∧
      (s.ledgerResult st check off).boot.booting = s.boot.booting := by
  simp [State.ledgerResult]

@[simp] theorem State.commitStopped_calm (s : State) (q : Nat) (st : Byte) :
    (s.commitStopped q st).ccyc = s.ccyc ∧ (s.commitStopped q st).pins = s.pins ∧ (s.commitStopped q st).power = s.power ∧
      (s.commitStopped q st).boot.booting = s.boot.booting := by
  simp [State.commitStopped]

@[simp] theorem State.snapInstr_calm (s : State) (q : Nat) (idx : BitVec 16) (f : FaultInfo) :
    (s.snapInstr q idx f).ccyc = s.ccyc ∧ (s.snapInstr q idx f).pins = s.pins ∧ (s.snapInstr q idx f).power = s.power ∧
      (s.snapInstr q idx f).boot.booting = s.boot.booting := by
  simp [State.snapInstr]

@[simp] theorem State.failCmd_calm (s : State) (q : Nat) (idx : BitVec 16) (f : FaultInfo) :
    (s.failCmd q idx f).ccyc = s.ccyc ∧ (s.failCmd q idx f).pins = s.pins ∧ (s.failCmd q idx f).power = s.power ∧
      (s.failCmd q idx f).boot.booting = s.boot.booting := by
  unfold State.failCmd
  dsimp only
  (repeat' split) <;> simp_all

@[simp] theorem State.abort_calm (s : State) (q : Nat) (f : FaultInfo) :
    (s.abort q f).ccyc = s.ccyc ∧ (s.abort q f).pins = s.pins ∧ (s.abort q f).power = s.power ∧
      (s.abort q f).boot.booting = s.boot.booting := by
  simp [State.abort]

@[simp] theorem State.noteActs_calm (s : State) (n : Note) (bad : Bool) :
    (s.noteActs n bad).ccyc = s.ccyc ∧ (s.noteActs n bad).pins = s.pins ∧ (s.noteActs n bad).power = s.power ∧
      (s.noteActs n bad).boot.booting = s.boot.booting := by
  unfold State.noteActs
  dsimp only
  (repeat' split) <;> simp_all

@[simp] theorem State.recordPart_calm (s : State) (rid id : Nat) (bad : Bool) :
    (s.recordPart rid id bad).ccyc = s.ccyc ∧
      (s.recordPart rid id bad).pins = s.pins ∧ (s.recordPart rid id bad).power = s.power ∧
      (s.recordPart rid id bad).boot.booting = s.boot.booting := by
  unfold State.recordPart
  (repeat' split) <;> simp_all

@[simp] theorem State.recordFails_calm (s : State) (rid id : Nat) (f : FaultInfo) :
    (s.recordFails rid id f).ccyc = s.ccyc ∧ (s.recordFails rid id f).pins = s.pins ∧ (s.recordFails rid id f).power = s.power ∧
      (s.recordFails rid id f).boot.booting = s.boot.booting := by
  unfold State.recordFails
  (repeat' split) <;> simp_all

@[simp] theorem State.sendPart_calm (s : State) (r : Req) :
    (s.sendPart r).ccyc = s.ccyc ∧ (s.sendPart r).pins = s.pins ∧ (s.sendPart r).power = s.power ∧
      (s.sendPart r).boot.booting = s.boot.booting := by
  unfold State.sendPart
  split <;> simp

@[simp] theorem State.openRecord_calm (s : State) (n : Note) (chunks : List (Nat × List Byte)) :
    (s.openRecord n chunks).1.ccyc = s.ccyc ∧
      (s.openRecord n chunks).1.pins = s.pins ∧ (s.openRecord n chunks).1.power = s.power ∧
      (s.openRecord n chunks).1.boot.booting = s.boot.booting := by
  simp [State.openRecord]

@[simp] theorem State.writeRecord_calm (s : State) (n : Note) (w : Writer) (chunks : List (Nat × List Byte)) :
    (s.writeRecord n w chunks).ccyc = s.ccyc ∧
      (s.writeRecord n w chunks).pins = s.pins ∧ (s.writeRecord n w chunks).power = s.power ∧
      (s.writeRecord n w chunks).boot.booting = s.boot.booting := by
  simp [State.writeRecord]

@[simp] theorem State.sendSemo_calm (s : State) (i : Nat) (op : BitVec 2) (cnt : BitVec 20) :
    (s.sendSemo i op cnt).ccyc = s.ccyc ∧ (s.sendSemo i op cnt).pins = s.pins ∧ (s.sendSemo i op cnt).power = s.power ∧
      (s.sendSemo i op cnt).boot.booting = s.boot.booting := by
  simp [State.sendSemo]

@[simp] theorem State.sendFull_calm (s : State) (i : Nat) :
    (s.sendFull i).ccyc = s.ccyc ∧ (s.sendFull i).pins = s.pins ∧ (s.sendFull i).power = s.power ∧
      (s.sendFull i).boot.booting = s.boot.booting := by
  simp [State.sendFull]

@[simp] theorem State.sendDue_calm (s : State) (m : Nat × Option (BitVec 20)) :
    (s.sendDue m).ccyc = s.ccyc ∧ (s.sendDue m).pins = s.pins ∧ (s.sendDue m).power = s.power ∧
      (s.sendDue m).boot.booting = s.boot.booting := by
  unfold State.sendDue
  (repeat' split) <;> simp_all

@[simp] theorem State.flushIncs_calm (s : State) (p : Nat × Option (BitVec 20) → Bool) :
    (s.flushIncs p).ccyc = s.ccyc ∧ (s.flushIncs p).pins = s.pins ∧ (s.flushIncs p).power = s.power ∧
      (s.flushIncs p).boot.booting = s.boot.booting := by
  simp [State.flushIncs]

@[simp] theorem State.takePoisoned_calm (s : State) (i : Nat) (q : Nat) (num : Option Nat) :
    (s.takePoisoned i q num).ccyc = s.ccyc ∧ (s.takePoisoned i q num).pins = s.pins ∧ (s.takePoisoned i q num).power = s.power ∧
      (s.takePoisoned i q num).boot.booting = s.boot.booting := by
  simp [State.takePoisoned]

@[simp] theorem State.semQueue_calm (s : State) (i : Nat) (w : SemWaiter) :
    (s.semQueue i w).ccyc = s.ccyc ∧ (s.semQueue i w).pins = s.pins ∧ (s.semQueue i w).power = s.power ∧
      (s.semQueue i w).boot.booting = s.boot.booting := by
  simp [State.semQueue]

@[simp] theorem State.porterSnap_calm (s : State) (t : Tile) :
    (s.porterSnap t).ccyc = s.ccyc ∧ (s.porterSnap t).pins = s.pins ∧ (s.porterSnap t).power = s.power ∧
      (s.porterSnap t).boot.booting = s.boot.booting := by
  simp [State.porterSnap]

@[simp] theorem State.streamFault_calm (s : State) (q stream : Nat) (f : FaultInfo) :
    (s.streamFault q stream f).ccyc = s.ccyc ∧
      (s.streamFault q stream f).pins = s.pins ∧ (s.streamFault q stream f).power = s.power ∧
      (s.streamFault q stream f).boot.booting = s.boot.booting := by
  unfold State.streamFault
  (repeat' split) <;> simp_all

@[simp] theorem State.outSnap_calm (s : State) (o : OutParcel) :
    (s.outSnap o).ccyc = s.ccyc ∧ (s.outSnap o).pins = s.pins ∧ (s.outSnap o).power = s.power ∧
      (s.outSnap o).boot.booting = s.boot.booting := by
  unfold State.outSnap
  (repeat' split) <;> simp_all

@[simp] theorem State.outFails_calm (s : State) (o : OutParcel) (f : FaultInfo) :
    (s.outFails o f).ccyc = s.ccyc ∧ (s.outFails o f).pins = s.pins ∧ (s.outFails o f).power = s.power ∧
      (s.outFails o f).boot.booting = s.boot.booting := by
  simp [State.outFails]

@[simp] theorem State.forgetParcel_calm (s : State) (x : TxParcel) :
    (s.forgetParcel x).ccyc = s.ccyc ∧ (s.forgetParcel x).pins = s.pins ∧ (s.forgetParcel x).power = s.power ∧
      (s.forgetParcel x).boot.booting = s.boot.booting := by
  simp [State.forgetParcel]

@[simp] theorem State.parcelFails_calm (s : State) (x : TxParcel) (f : FaultInfo) :
    (s.parcelFails x f).ccyc = s.ccyc ∧ (s.parcelFails x f).pins = s.pins ∧ (s.parcelFails x f).power = s.power ∧
      (s.parcelFails x f).boot.booting = s.boot.booting := by
  unfold State.parcelFails
  (repeat' split) <;> simp_all

@[simp] theorem State.enqueueParcel_calm (s : State) (east : Bool) (x : TxParcel) :
    (s.enqueueParcel east x).ccyc = s.ccyc ∧ (s.enqueueParcel east x).pins = s.pins ∧ (s.enqueueParcel east x).power = s.power ∧
      (s.enqueueParcel east x).boot.booting = s.boot.booting := by
  simp [State.enqueueParcel]

@[simp] theorem State.sendResponse_calm (s : State) (x : Nat) (r : Parcel) :
    (s.sendResponse x r).ccyc = s.ccyc ∧ (s.sendResponse x r).pins = s.pins ∧ (s.sendResponse x r).power = s.power ∧
      (s.sendResponse x r).boot.booting = s.boot.booting := by
  simp [State.sendResponse]

@[simp] theorem State.respond_calm (s : State) (x : Nat) (p : Parcel) (ptype status : Byte) :
    (s.respond x p ptype status).ccyc = s.ccyc ∧
      (s.respond x p ptype status).pins = s.pins ∧ (s.respond x p ptype status).power = s.power ∧
      (s.respond x p ptype status).boot.booting = s.boot.booting := by
  simp [State.respond]

@[simp] theorem State.nackService_calm (s : State) (id : Nat) (st : Byte) :
    (s.nackService id st).ccyc = s.ccyc ∧ (s.nackService id st).pins = s.pins ∧ (s.nackService id st).power = s.power ∧
      (s.nackService id st).boot.booting = s.boot.booting := by
  unfold State.nackService
  (repeat' split) <;> simp_all

@[simp] theorem State.nackServe_calm (s : State) (id : Nat) (st : Byte) :
    (s.nackServe id st).ccyc = s.ccyc ∧ (s.nackServe id st).pins = s.pins ∧ (s.nackServe id st).power = s.power ∧
      (s.nackServe id st).boot.booting = s.boot.booting := by
  unfold State.nackServe
  (repeat' split) <;> simp_all

@[simp] theorem State.readFails_calm (s : State) (id : Nat) (pieces : List (Nat × Nat)) (f : FaultInfo) :
    (s.readFails id pieces f).ccyc = s.ccyc ∧
      (s.readFails id pieces f).pins = s.pins ∧ (s.readFails id pieces f).power = s.power ∧
      (s.readFails id pieces f).boot.booting = s.boot.booting := by
  unfold State.readFails
  (repeat' split) <;> simp_all

@[simp] theorem State.reqSnap_calm (s : State) (r : Req) :
    (s.reqSnap r).ccyc = s.ccyc ∧ (s.reqSnap r).pins = s.pins ∧ (s.reqSnap r).power = s.power ∧
      (s.reqSnap r).boot.booting = s.boot.booting := by
  unfold State.reqSnap
  (repeat' split) <;> simp_all

@[simp] theorem State.requestFault_calm (s : State) (r : Req) (f : FaultInfo) :
    (s.requestFault r f).ccyc = s.ccyc ∧ (s.requestFault r f).pins = s.pins ∧ (s.requestFault r f).power = s.power ∧
      (s.requestFault r f).boot.booting = s.boot.booting := by
  unfold State.requestFault
  (repeat' split) <;> simp_all

@[simp] theorem State.submit_calm (s : State) (r : Req) :
    (s.submit r).ccyc = s.ccyc ∧ (s.submit r).pins = s.pins ∧ (s.submit r).power = s.power ∧
      (s.submit r).boot.booting = s.boot.booting := by
  unfold State.submit
  split <;> simp

@[simp] theorem State.enterPort_calm (s : State) (r : Req) :
    (s.enterPort r).ccyc = s.ccyc ∧ (s.enterPort r).pins = s.pins ∧ (s.enterPort r).power = s.power ∧
      (s.enterPort r).boot.booting = s.boot.booting := by
  simp [State.enterPort]

@[simp] theorem State.installL1_calm (s : State) (g : Nat) (r : Range) :
    (s.installL1 g r).ccyc = s.ccyc ∧ (s.installL1 g r).pins = s.pins ∧ (s.installL1 g r).power = s.power ∧
      (s.installL1 g r).boot.booting = s.boot.booting := by
  simp [State.installL1]

@[simp] theorem State.lookupL2_calm (s : State) (east : Bool) (asid : BitVec 16) (page : Nat) :
    (s.lookupL2 east asid page).1.ccyc = s.ccyc ∧
      (s.lookupL2 east asid page).1.pins = s.pins ∧ (s.lookupL2 east asid page).1.power = s.power ∧
      (s.lookupL2 east asid page).1.boot.booting = s.boot.booting := by
  unfold State.lookupL2
  (repeat' split) <;> simp_all

@[simp] theorem State.lookupLane_calm (s : State) (lane : Nat) (asid : BitVec 16) (page : Nat) :
    (s.lookupLane lane asid page).1.ccyc = s.ccyc ∧
      (s.lookupLane lane asid page).1.pins = s.pins ∧ (s.lookupLane lane asid page).1.power = s.power ∧
      (s.lookupLane lane asid page).1.boot.booting = s.boot.booting := by
  unfold State.lookupLane
  dsimp only
  (repeat' split) <;> simp_all [eq_pair]

@[simp] theorem State.waiterFails_calm (s : State) (w : MissWaiter) (f : FaultInfo) :
    (s.waiterFails w f).ccyc = s.ccyc ∧ (s.waiterFails w f).pins = s.pins ∧ (s.waiterFails w f).power = s.power ∧
      (s.waiterFails w f).boot.booting = s.boot.booting := by
  unfold State.waiterFails
  (repeat' split) <;> simp_all

@[simp] theorem State.openMiss_calm (s : State) (east : Bool) (h : MissHolder) (asid : BitVec 16) (page : Nat) (w : MissWaiter) :
    (s.openMiss east h asid page w).1.ccyc = s.ccyc ∧
      (s.openMiss east h asid page w).1.pins = s.pins ∧ (s.openMiss east h asid page w).1.power = s.power ∧
      (s.openMiss east h asid page w).1.boot.booting = s.boot.booting := by
  unfold State.openMiss
  (repeat' split) <;> simp_all

@[simp] theorem State.openReading_calm (s : State) (who : Reader) :
    (s.openReading who).1.ccyc = s.ccyc ∧ (s.openReading who).1.pins = s.pins ∧ (s.openReading who).1.power = s.power ∧
      (s.openReading who).1.boot.booting = s.boot.booting := by
  unfold State.openReading
  (repeat' split) <;> simp_all

@[simp] theorem State.lookPage_calm (s : State) (i : Issuer) (acc : BitVec 2) (page : Nat) (who : MissWho) (item : Nat) :
    (s.lookPage i acc page who item).1.ccyc = s.ccyc ∧
      (s.lookPage i acc page who item).1.pins = s.pins ∧ (s.lookPage i acc page who item).1.power = s.power ∧
      (s.lookPage i acc page who item).1.boot.booting = s.boot.booting := by
  unfold State.lookPage
  dsimp only
  split
  · simp
  · split
    · simp
    · split
      · rename_i t r h
        have k : t.ccyc = s.ccyc ∧ t.pins = s.pins ∧ t.power = s.power ∧ t.boot.booting = s.boot.booting := by
          split at h <;> (rw [eq_pair] at h; obtain ⟨rfl, -⟩ := h; simp)
        (repeat' split) <;> exact k
      · rename_i t h
        have k : t.ccyc = s.ccyc ∧ t.pins = s.pins ∧ t.power = s.power ∧ t.boot.booting = s.boot.booting := by
          split at h <;> (rw [eq_pair] at h; obtain ⟨rfl, -⟩ := h; simp)
        simpa using k

@[simp] theorem State.readDests_calm (s : State) (ds : List Dest) (crossed : Bool) :
    (s.readDests ds crossed).ccyc = s.ccyc ∧ (s.readDests ds crossed).pins = s.pins ∧ (s.readDests ds crossed).power = s.power ∧
      (s.readDests ds crossed).boot.booting = s.boot.booting := by
  unfold State.readDests
  refine calm_foldl _ _ _ _ (fun a x => ?_) (by simp)
  dsimp only
  split
  · simp
  · split <;> simp

@[simp] theorem State.piecesAway_calm (s : State) (id : Nat) (ps : List (Nat × Nat)) :
    (s.piecesAway id ps).ccyc = s.ccyc ∧ (s.piecesAway id ps).pins = s.pins ∧ (s.piecesAway id ps).power = s.power ∧
      (s.piecesAway id ps).boot.booting = s.boot.booting := by
  simp [State.piecesAway]

@[simp] theorem State.fetchPages_calm (s : State) (r : Reading) (ps : List (Nat × Nat)) (item : Nat → Nat) :
    (s.fetchPages r ps item).1.ccyc = s.ccyc ∧
      (s.fetchPages r ps item).1.pins = s.pins ∧ (s.fetchPages r ps item).1.power = s.power ∧
      (s.fetchPages r ps item).1.boot.booting = s.boot.booting := by
  unfold State.fetchPages
  refine calm_foldlFst _ _ _ _ (fun a x => ?_) (by simp)
  split
  · generalize hk : State.lookPage _ _ _ _ _ _ = k
    have h2 : k.1.ccyc = a.1.ccyc ∧ k.1.pins = a.1.pins ∧ k.1.power = a.1.power ∧
        k.1.boot.booting = a.1.boot.booting := by rw [← hk]; simp
    obtain ⟨v, l⟩ := k
    cases l <;> simpa using h2
  · simp

@[simp] theorem State.fetchDests_calm (s : State) (r : Reading) (va len : Nat) (item : Nat → Nat) :
    (s.fetchDests r va len item).1.ccyc = s.ccyc ∧
      (s.fetchDests r va len item).1.pins = s.pins ∧ (s.fetchDests r va len item).1.power = s.power ∧
      (s.fetchDests r va len item).1.boot.booting = s.boot.booting := by
  simp [State.fetchDests]

@[simp] theorem State.countLoad_calm (s : State) (table : Nat) (east : Bool) (f : LoadCount → LoadCount) :
    (s.countLoad table east f).ccyc = s.ccyc ∧
      (s.countLoad table east f).pins = s.pins ∧ (s.countLoad table east f).power = s.power ∧
      (s.countLoad table east f).boot.booting = s.boot.booting := by
  simp [State.countLoad]

@[simp] theorem State.rowMissed_calm (s : State) (p0 : Probe) (crossed : Bool) :
    (s.rowMissed p0 crossed).ccyc = s.ccyc ∧ (s.rowMissed p0 crossed).pins = s.pins ∧ (s.rowMissed p0 crossed).power = s.power ∧
      (s.rowMissed p0 crossed).boot.booting = s.boot.booting := by
  simp [State.rowMissed]

@[simp] theorem State.askLarder_calm (s : State) (ps : List Probe) :
    (s.askLarder ps).ccyc = s.ccyc ∧ (s.askLarder ps).pins = s.pins ∧ (s.askLarder ps).power = s.power ∧
      (s.askLarder ps).boot.booting = s.boot.booting := by
  unfold State.askLarder
  (repeat' split) <;> simp_all

@[simp] theorem State.fetchRow_calm (s : State) (ds : List Dest) (d : BitVec 512) (table row mult : Nat) :
    (s.fetchRow ds d table row mult).ccyc = s.ccyc ∧
      (s.fetchRow ds d table row mult).pins = s.pins ∧ (s.fetchRow ds d table row mult).power = s.power ∧
      (s.fetchRow ds d table row mult).boot.booting = s.boot.booting := by
  unfold State.fetchRow
  dsimp only
  (repeat' split) <;> simp_all

@[simp] theorem State.updServe_calm (s : State) (id : Nat) (f : Serve → Serve) :
    (s.updServe id f).ccyc = s.ccyc ∧ (s.updServe id f).pins = s.pins ∧ (s.updServe id f).power = s.power ∧
      (s.updServe id f).boot.booting = s.boot.booting := by
  simp [State.updServe]

@[simp] theorem State.serveBegin_calm (s : State) (v : Serve) :
    (s.serveBegin v).ccyc = s.ccyc ∧ (s.serveBegin v).pins = s.pins ∧ (s.serveBegin v).power = s.power ∧
      (s.serveBegin v).boot.booting = s.boot.booting := by
  unfold State.serveBegin
  dsimp only
  (repeat' split) <;> simp_all

@[simp] theorem State.serveAsk_calm (s : State) (v : Serve) (d : BitVec 512) :
    (s.serveAsk v d).ccyc = s.ccyc ∧ (s.serveAsk v d).pins = s.pins ∧ (s.serveAsk v d).power = s.power ∧
      (s.serveAsk v d).boot.booting = s.boot.booting := by
  simp [State.serveAsk]

@[simp] theorem State.servePart_calm (s : State) (v : Serve) (d : BitVec 512) (rows : List (List Byte)) :
    (s.servePart v d rows).ccyc = s.ccyc ∧ (s.servePart v d rows).pins = s.pins ∧ (s.servePart v d rows).power = s.power ∧
      (s.servePart v d rows).boot.booting = s.boot.booting := by
  simp [State.servePart]

@[simp] theorem State.serveOne_calm (s : State) (east : Bool) :
    (s.serveOne east).ccyc = s.ccyc ∧ (s.serveOne east).pins = s.pins ∧ (s.serveOne east).power = s.power ∧
      (s.serveOne east).boot.booting = s.boot.booting := by
  unfold State.serveOne
  dsimp only
  (repeat' split) <;> simp_all

@[simp] theorem State.payCredits_calm (s : State) (east : Bool) :
    (s.payCredits east).ccyc = s.ccyc ∧ (s.payCredits east).pins = s.pins ∧ (s.payCredits east).power = s.power ∧
      (s.payCredits east).boot.booting = s.boot.booting := by
  simp [State.payCredits]

@[simp] theorem State.serveAll_calm (s : State) :
    (s.serveAll).ccyc = s.ccyc ∧ (s.serveAll).pins = s.pins ∧ (s.serveAll).power = s.power ∧
      (s.serveAll).boot.booting = s.boot.booting := by
  simp [State.serveAll]

@[simp] theorem State.fillQueue_calm (s : State) (lane : Nat) :
    (s.fillQueue lane).ccyc = s.ccyc ∧ (s.fillQueue lane).pins = s.pins ∧ (s.fillQueue lane).power = s.power ∧
      (s.fillQueue lane).boot.booting = s.boot.booting := by
  simp [State.fillQueue]

@[simp] theorem State.markTiles_calm (s : State) (among : Tile → Bool) (final : Bool) :
    (s.markTiles among final).ccyc = s.ccyc ∧
      (s.markTiles among final).pins = s.pins ∧ (s.markTiles among final).power = s.power ∧
      (s.markTiles among final).boot.booting = s.boot.booting := by
  unfold State.markTiles
  dsimp only
  split
  · simp
  · refine calm_foldl _ _ _ _ (fun a x => ?_) (by simp)
    split <;> simp

@[simp] theorem State.watchGroup_calm (s : State) (g : Nat) :
    (s.watchGroup g).ccyc = s.ccyc ∧ (s.watchGroup g).pins = s.pins ∧ (s.watchGroup g).power = s.power ∧
      (s.watchGroup g).boot.booting = s.boot.booting := by
  unfold State.watchGroup
  (repeat' split) <;> simp_all

@[simp] theorem State.watchLaggards_calm (s : State) :
    (s.watchLaggards).ccyc = s.ccyc ∧ (s.watchLaggards).pins = s.pins ∧ (s.watchLaggards).power = s.power ∧
      (s.watchLaggards).boot.booting = s.boot.booting := by
  simp [State.watchLaggards]

@[simp] theorem State.putBack_calm (s : State) (q : Nat) (p : Nat × Nat × Nat) :
    (s.putBack q p).ccyc = s.ccyc ∧ (s.putBack q p).pins = s.pins ∧ (s.putBack q p).power = s.power ∧
      (s.putBack q p).boot.booting = s.boot.booting := by
  unfold State.putBack
  (repeat' split) <;> simp_all

@[simp] theorem State.placeAside_calm (s : State) (q : Nat) :
    (s.placeAside q).ccyc = s.ccyc ∧ (s.placeAside q).pins = s.pins ∧ (s.placeAside q).power = s.power ∧
      (s.placeAside q).boot.booting = s.boot.booting := by
  unfold State.placeAside
  (repeat' split) <;> simp_all

@[simp] theorem State.judge_calm (s : State) (u k m : Nat) :
    (s.judge u k m).ccyc = s.ccyc ∧ (s.judge u k m).pins = s.pins ∧ (s.judge u k m).power = s.power ∧
      (s.judge u k m).boot.booting = s.boot.booting := by
  unfold State.judge
  dsimp only
  (repeat' split) <;> simp_all

@[simp] theorem State.judgeAll_calm (s : State) (n : Nat) :
    (s.judgeAll n).ccyc = s.ccyc ∧ (s.judgeAll n).pins = s.pins ∧ (s.judgeAll n).power = s.power ∧
      (s.judgeAll n).boot.booting = s.boot.booting := by
  simp [State.judgeAll]

@[simp] theorem State.runTimers_calm (s : State) (n : Nat) :
    (s.runTimers n).ccyc = s.ccyc ∧ (s.runTimers n).pins = s.pins ∧ (s.runTimers n).power = s.power ∧
      (s.runTimers n).boot.booting = s.boot.booting := by
  simp [State.runTimers]

@[simp] theorem State.runLaggards_calm (s : State) (n : Nat) :
    (s.runLaggards n).ccyc = s.ccyc ∧ (s.runLaggards n).pins = s.pins ∧ (s.runLaggards n).power = s.power ∧
      (s.runLaggards n).boot.booting = s.boot.booting := by
  unfold State.runLaggards
  refine calm_foldl _ _ _ _ (fun a x => ?_) (by simp)
  (repeat' split) <;> simp_all

@[simp] theorem State.driveTrace_calm (s : State) (n : Nat) :
    (s.driveTrace n).ccyc = s.ccyc ∧ (s.driveTrace n).pins = s.pins ∧ (s.driveTrace n).power = s.power ∧
      (s.driveTrace n).boot.booting = s.boot.booting := by
  simp [State.driveTrace]

@[simp] theorem State.switchCycle_calm (s : State) :
    (s.switchCycle).ccyc = s.ccyc ∧ (s.switchCycle).pins = s.pins ∧ (s.switchCycle).power = s.power ∧
      (s.switchCycle).boot.booting = s.boot.booting := by
  simp [State.switchCycle]

@[simp] theorem State.stwReply_calm (s : State) (p : Nat) (req : BitVec 512) (st : StwStatus) (extra : Nat) :
    (s.stwReply p req st extra).ccyc = s.ccyc ∧
      (s.stwReply p req st extra).pins = s.pins ∧ (s.stwReply p req st extra).power = s.power ∧
      (s.stwReply p req st extra).boot.booting = s.boot.booting := by
  simp [State.stwReply]

@[simp] theorem State.serveWrite_calm (s : State) (x : Nat) (p : Parcel) (mute : Bool) :
    (s.serveWrite x p mute).ccyc = s.ccyc ∧ (s.serveWrite x p mute).pins = s.pins ∧ (s.serveWrite x p mute).power = s.power ∧
      (s.serveWrite x p mute).boot.booting = s.boot.booting := by
  simp [State.serveWrite]

@[simp] theorem State.serveParcel_calm (s : State) (h : HeldParcel) :
    (s.serveParcel h).ccyc = s.ccyc ∧ (s.serveParcel h).pins = s.pins ∧ (s.serveParcel h).power = s.power ∧
      (s.serveParcel h).boot.booting = s.boot.booting := by
  simp [State.serveParcel]

@[simp] theorem State.serveHeld_calm (s : State) :
    (s.serveHeld).ccyc = s.ccyc ∧ (s.serveHeld).pins = s.pins ∧ (s.serveHeld).power = s.power ∧
      (s.serveHeld).boot.booting = s.boot.booting := by
  simp [State.serveHeld]

@[simp] theorem State.rejoin_calm (s : State) (q : Nat) :
    (s.rejoin q).ccyc = s.ccyc ∧ (s.rejoin q).pins = s.pins ∧ (s.rejoin q).power = s.power ∧
      (s.rejoin q).boot.booting = s.boot.booting := by
  unfold State.rejoin
  (repeat' split) <;> simp_all

@[simp] theorem State.leaveSuspended_calm (s : State) (q : Nat) :
    (s.leaveSuspended q).ccyc = s.ccyc ∧ (s.leaveSuspended q).pins = s.pins ∧ (s.leaveSuspended q).power = s.power ∧
      (s.leaveSuspended q).boot.booting = s.boot.booting := by
  simp [State.leaveSuspended]

@[simp] theorem State.beginSuspend_calm (s : State) (q : Nat) :
    (s.beginSuspend q).ccyc = s.ccyc ∧ (s.beginSuspend q).pins = s.pins ∧ (s.beginSuspend q).power = s.power ∧
      (s.beginSuspend q).boot.booting = s.boot.booting := by
  simp [State.beginSuspend]

@[simp] theorem State.gateIfQuiet_calm (s : State) :
    (s.gateIfQuiet).ccyc = s.ccyc ∧ (s.gateIfQuiet).pins = s.pins ∧ (s.gateIfQuiet).power = s.power ∧
      (s.gateIfQuiet).boot.booting = s.boot.booting := by
  simp [State.gateIfQuiet]

@[simp] theorem State.thermalRespond_calm (s : State) :
    (s.thermalRespond).ccyc = s.ccyc ∧ (s.thermalRespond).pins = s.pins ∧ (s.thermalRespond).power = s.power ∧
      (s.thermalRespond).boot.booting = s.boot.booting := by
  simp [State.thermalRespond]

@[simp] theorem State.ungateLanes_calm (s : State) :
    (s.ungateLanes).ccyc = s.ccyc ∧ (s.ungateLanes).pins = s.pins ∧ (s.ungateLanes).power = s.power ∧
      (s.ungateLanes).boot.booting = s.boot.booting := by
  simp [State.ungateLanes]

@[simp] theorem State.thermalRelease_calm (s : State) :
    (s.thermalRelease).ccyc = s.ccyc ∧ (s.thermalRelease).pins = s.pins ∧ (s.thermalRelease).power = s.power ∧
      (s.thermalRelease).boot.booting = s.boot.booting := by
  simp [State.thermalRelease]

end Sys2Proof.Machine
end

section
/-!
PROOFS. O12: the ramp enables one unit after another, and reaches N0 after the last.
-/

namespace Sys2Proof.Machine

variable {s t : State}

/-- A run of cycles that moves TLY_CCYC on by `n` and leaves what decides whether the clocks run. -/
structure Passes (n : Nat) (s t : State) : Prop where
  ccyc : t.ccyc = s.ccyc + BitVec.ofNat 48 n
  pins : t.pins = s.pins
  power : t.power = s.power
  booting : t.boot.booting = s.boot.booting
  cfg : t.cfg = s.cfg

namespace Passes

theorem alive {n : Nat} (h : Passes n s t) : t.alive = s.alive := by
  simp only [State.alive, State.inReset, State.clocksStopped, h.pins, h.power]

theorem trans {m n : Nat} {u : State} (h : Passes m s t) (k : Passes n t u) : Passes (m + n) s u where
  ccyc := by rw [k.ccyc, h.ccyc, BitVec.add_assoc, BitVec.ofNat_add]
  pins := k.pins.trans h.pins
  power := k.power.trans h.power
  booting := k.booting.trans h.booting
  cfg := k.cfg.trans h.cfg

theorem liveCycles (h : s.alive = true) (n : Nat) : Passes n s (s.liveCycles n) := by
  unfold State.liveCycles
  split
  next hn => 
    have hn : n = 0 := by simpa [h] using hn
    exact ⟨by simp [hn], rfl, rfl, rfl, rfl⟩
  next => constructor <;> simp

theorem switchCycle (s : State) : Passes 0 s s.switchCycle := by
  constructor <;> simp

theorem runSwitches (k n : Nat) (h : s.alive = true) : Passes n s (State.runSwitches k n s) := by
  induction k generalizing n s with
  | zero => cases n <;> exact liveCycles h _
  | succ k ih =>
    cases n with
    | zero => exact liveCycles h _
    | succ n =>
      have first : Passes 1 s (s.switchCycle.liveCycles 1) := by
        simpa using (switchCycle s).trans (liveCycles ((switchCycle s).alive.trans h) 1)
      have all := first.trans (ih n (first.alive.trans h))
      rwa [Nat.add_comm] at all

theorem runCycles (h : s.alive = true) (n : Nat) : Passes n s (s.runCycles n) := by
  rw [State.runCycles, if_pos h]
  exact runSwitches _ n h

theorem tallyEdge (s : State) : Passes 0 s s.tallyEdge := by
  constructor <;> simp

theorem runEdges (k n : Nat) (h : s.alive = true) : Passes n s (State.runEdges k n s) := by
  induction k generalizing n s with
  | zero => exact runCycles h n
  | succ k ih =>
    unfold State.runEdges
    split
    next m _ =>
      split
      next hm =>
        have hle : m ≤ n := by simp at hm; omega
        have edge : Passes m s (s.runCycles m).tallyEdge := (runCycles h m).trans (tallyEdge _)
        have rest := edge.trans (ih (n - m) (edge.alive.trans h))
        rwa [Nat.add_sub_of_le hle] at rest
      next => exact runCycles h n
    next => exact runCycles h n

/-- While the block is alive `n` cycles pass. -/
theorem passCycles (h : s.alive = true) (n : Nat) : Passes n s (s.passCycles n) := runEdges _ n h

end Passes

@[simp] theorem raisePower_power (s : State) (i : Nat) : (s.raisePower i).power = s.power := by
  unfold State.raisePower
  dsimp only
  split <;> rfl

@[simp] theorem raisePower_ccyc (s : State) (i : Nat) : (s.raisePower i).ccyc = s.ccyc := by
  unfold State.raisePower
  dsimp only
  split <;> rfl

/-- Answering POWER requests takes them off the list and leaves the time, the pins and the rest of the power state. -/
@[simp] theorem answerPower_clock (s : State) (which : PowerReq → Bool) (st : StwStatus) :
    (s.answerPower which st).power = { s.power with reqs := s.power.reqs.filter (fun r => !which r) } ∧
      (s.answerPower which st).ccyc = s.ccyc ∧ (s.answerPower which st).pins = s.pins := by
  simp [State.answerPower]

@[simp] theorem powerKick_st (s : State) : s.powerKick.power.st = s.power.st ∧ s.powerKick.ccyc = s.ccyc := by
  unfold State.powerKick
  (repeat' split) <;> exact ⟨rfl, rfl⟩

/-- Reaching a state does not change which one it is, and takes no time. -/
@[simp] theorem transitionDone_st (s : State) : s.transitionDone.power.st = s.power.st ∧ s.transitionDone.ccyc = s.ccyc := by
  unfold State.transitionDone
  dsimp only
  split <;> simp

theorem reachN0_st (s : State) : s.reachN0.power.st = .n0 ∧ s.reachN0.ccyc = s.ccyc := by
  simp [State.reachN0, State.putWakeCyc]

/-- Enabling a unit's lanes is no matter of the time, the pins, the power state or the boot. -/
def State.unitStarts (s : State) (k : Nat) : State :=
  if k < s.cfg.laneGroups then (List.range 8).foldl (fun a i =>
    if 8 * k + i < a.cfg.lanes && !bitAt a.rel.lanesOut (8 * k + i) then
      a.updLane (8 * k + i) (fun v => { v with gated := false }) else a) s else s

@[simp] theorem unitStarts_calm (s : State) (k : Nat) :
    (s.unitStarts k).ccyc = s.ccyc ∧ (s.unitStarts k).pins = s.pins ∧ (s.unitStarts k).power = s.power ∧
      (s.unitStarts k).boot.booting = s.boot.booting ∧ (s.unitStarts k).cfg = s.cfg := by
  simp [State.unitStarts]

/-- The power state once unit `k` runs. -/
def State.nextUnit (s : State) (k : Nat) : State :=
  { s with power := { s.power with running := k + 1, due := s.ccyc + 24, phase := .ramp (k + 1) } }

/-- The last unit runs: PM_LOADUP falls. -/
def State.rampEnds (s : State) (k : Nat) : State :=
  { (s.nextUnit k).unitStarts k with
    pins := { ((s.nextUnit k).unitStarts k).pins with loadup := false }
    power := { ((s.nextUnit k).unitStarts k).power with phase := .rest } }

theorem unitRuns_more {k : Nat} (h : k + 1 < s.cfg.rampUnits) : s.unitRuns k = (s.nextUnit k).unitStarts k := by
  unfold State.unitRuns
  dsimp only
  exact if_pos (by simpa [State.nextUnit] using h)

theorem unitRuns_last {k : Nat} (h : s.cfg.rampUnits ≤ k + 1) :
    s.unitRuns k = if s.boot.booting then s.rampEnds k else (s.rampEnds k).reachN0 := by
  have last : s.unitRuns k = if (s.rampEnds k).boot.booting then s.rampEnds k else (s.rampEnds k).reachN0 := by
    unfold State.unitRuns
    dsimp only
    exact if_neg (c := k + 1 < ((s.nextUnit k).unitStarts k).cfg.rampUnits) (by simpa [State.nextUnit] using h)
  rw [last, show (s.rampEnds k).boot.booting = s.boot.booting from (unitStarts_calm (s.nextUnit k) k).2.2.2.1]

theorem unitRuns_ccyc (s : State) (k : Nat) : (s.unitRuns k).ccyc = s.ccyc := by
  have ended : (s.rampEnds k).ccyc = s.ccyc := (unitStarts_calm (s.nextUnit k) k).1
  by_cases h : k + 1 < s.cfg.rampUnits
  · rw [unitRuns_more h]
    exact (unitStarts_calm (s.nextUnit k) k).1
  · rw [unitRuns_last (Nat.le_of_not_lt h)]
    split
    · exact ended
    · exact (reachN0_st _).2.trans ended

/-- RAMP_UNIT_ENABLE with nothing that holds the ramp. -/
theorem rampUnitEnable_runs {k : Nat} (hk : s.power.phase = .ramp k) (h : s.alive = true) (hhold : s.pins.hold = false)
    (hcrit : s.pins.thermCrit = false) :
    exec (.rampUnitEnable false) s = .next ((s.passCycles (s.rampWait + 232)).unitRuns k) := by
  show execRampUnitEnable false s = _
  unfold execRampUnitEnable
  rw [hk]
  have same : { s with pins := { s.pins with hold := false } } = s := by
    rw [← hhold]
  dsimp only at same ⊢
  rw [whenever_pos h, same]
  simp [hhold, hcrit]

/-- Settles O12: cycles pass up to the unit's enabling, and `unitRuns` then sets the next wait, ends the ramp or reaches N0. -/
theorem laneRampEnablesUnitsInTurn : Obligations.LaneRampEnablesUnitsInTurn := by
  unfold Obligations.LaneRampEnablesUnitsInTurn
  intro s k hk
  refine ⟨fun hhold hcrit => ?_, fun h => ?_, fun h hhold hcrit => ?_⟩
  · show execPmLoadupHoldFall s = _
    unfold execPmLoadupHoldFall
    rw [whenever_pos hhold]
    simp [State.resumeRamp, hk, hcrit]
  · show execRampUnitEnable true s = _
    unfold execRampUnitEnable
    rw [hk]
    dsimp only
    rw [whenever_pos h]
    simp
  · refine ⟨_, rampUnitEnable_runs hk h hhold hcrit, ?_⟩
    have passed := Passes.passCycles h (s.rampWait + 232)
    generalize s.passCycles (s.rampWait + 232) = u at passed
    refine ⟨?_, fun hmore => ?_, fun hlast hboot => ?_, fun hlast hboot => ?_⟩
    · rw [unitRuns_ccyc, passed.ccyc]
    · rw [← passed.cfg] at hmore
      rw [unitRuns_more hmore]
      simp [State.nextUnit, passed.power, passed.pins]
    · rw [← passed.cfg] at hlast
      rw [← passed.booting] at hboot
      rw [unitRuns_last hlast, if_pos hboot]
      simp [State.rampEnds, State.nextUnit, passed.power, passed.pins]
    · rw [← passed.cfg] at hlast
      rw [← passed.booting] at hboot
      rw [unitRuns_last hlast, if_neg (by simp [hboot])]
      exact (reachN0_st _).1

end Sys2Proof.Machine
end

section
/-!
PROOFS. O11: the supply handshake. What raising every LINK_REQ and answering POWER requests leave of the power state.
-/

namespace Sys2Proof.Machine

variable {s : State}

-- Every LINK_REQ rises.

/-- The entries of the listed numbers are changed, one after another. -/
def updAll {α : Type} [Inhabited α] [DecidableEq α] (f : α → α) (l : List Nat) (b : Bank α) : Bank α :=
  l.foldl (fun a i => a.set i (f (a.get i))) b

/-- What is done once and for all is done once to each of them. -/
theorem updAll_get {α : Type} [Inhabited α] [DecidableEq α] {f : α → α} (hf : ∀ v, f (f v) = f v) (l : List Nat)
    (b : Bank α) (i : Nat) : (updAll f l b).get i = if i ∈ l then f (b.get i) else b.get i := by
  induction l generalizing b with
  | nil => rfl
  | cons j l ih =>
    rw [updAll, List.foldl_cons]
    refine (ih (b.set j (f (b.get j)))).trans ?_
    rw [Bank.get_set]
    by_cases hj : i = j <;> by_cases hl : i ∈ l <;> simp [hj, hl, hf]

theorem foldl_updMport (f : MPort → MPort) (l : List Nat) (s : State) :
    l.foldl (fun a p => a.updMport p f) s = { s with mports := updAll f l s.mports } := by
  induction l generalizing s with
  | nil => rfl
  | cons p l ih => exact ih (s.updMport p f)

theorem foldl_updCport (f : CPort → CPort) (l : List Nat) (s : State) :
    l.foldl (fun a c => a.updCport c f) s = { s with cports := updAll f l s.cports } := by
  induction l generalizing s with
  | nil => rfl
  | cons c l ih => exact ih (s.updCport c f)

theorem foldl_updXport (f : XPort → XPort) (l : List Nat) (s : State) :
    l.foldl (fun a x => a.updXport x f) s = { s with remote := { s.remote with ports := updAll f l s.remote.ports } } := by
  induction l generalizing s with
  | nil => rfl
  | cons x l ih => exact ih (s.updXport x f)

/-- A port has raised LINK_REQ. -/
def mportAsked (v : MPort) : MPort := { v with linkReq := true }
def cportAsked (v : CPort) : CPort := { v with linkReq := true }
def xportAsked (v : XPort) : XPort := { v with linkReq := true }

/-- Every port's LINK_REQ has risen. -/
def State.linksAsked (s : State) : State :=
  { s with
    mports := updAll mportAsked (List.range s.cfg.mports) s.mports
    cports := updAll cportAsked (List.range s.cfg.cports) s.cports
    remote := { s.remote with ports := updAll xportAsked (List.range s.cfg.xports) s.remote.ports } }

theorem raisePorts_eq (s : State) : s.raiseMports.raiseCports.raiseXports = s.linksAsked := by
  unfold State.raiseXports State.raiseCports State.raiseMports
  rw [foldl_updMport, foldl_updCport, foldl_updXport]
  rfl

theorem linksAsked_mport (s : State) (p : Nat) :
    s.linksAsked.mport p = if p < s.cfg.mports then { s.mport p with linkReq := true } else s.mport p := by
  refine (updAll_get (f := mportAsked) (fun _ => rfl) _ s.mports p).trans ?_
  simp only [List.mem_range]
  rfl

/-- Whether a link has settled does not depend on its LINK_REQ. -/
theorem linksAsked_settled (s : State) (x : LinkPort) : s.linksAsked.linkSettled x = s.linkSettled x := by
  cases x with
  | mem p =>
    simp only [State.linkSettled, linksAsked_mport]
    split <;> rfl
  | client c =>
    have h : s.linksAsked.cport c = _ := updAll_get (f := cportAsked) (fun _ => rfl) _ s.cports c
    simp only [State.linkSettled, h]
    split <;> rfl
  | remote x =>
    have h : s.linksAsked.xport x = _ := updAll_get (f := xportAsked) (fun _ => rfl) _ s.remote.ports x
    simp only [State.linkSettled, h]
    split <;> rfl

-- What a transition leaves of the pins and of the power state.

/-- PM_VLVL and PM_VREQ are as they were. -/
def State.sameSupply (s t : State) : Prop := t.pins.pmVlvl = s.pins.pmVlvl ∧ t.pins.pmVreq = s.pins.pmVreq

theorem raisePower_supply (s : State) (i : Nat) : s.sameSupply (s.raisePower i) := by
  unfold State.raisePower
  dsimp only
  split <;> exact ⟨rfl, rfl⟩

theorem powerKick_supply (s : State) : s.sameSupply s.powerKick := by
  unfold State.powerKick
  (repeat' split) <;> exact ⟨rfl, rfl⟩

theorem State.sameSupply.trans {s t u : State} (h : s.sameSupply t) (k : t.sameSupply u) : s.sameSupply u :=
  ⟨k.1.trans h.1, k.2.trans h.2⟩

theorem transitionDone_supply (s : State) : s.sameSupply s.transitionDone := by
  unfold State.transitionDone
  dsimp only
  refine State.sameSupply.trans ?_ (powerKick_supply _)
  refine State.sameSupply.trans (raisePower_supply s 0) ?_
  split
  · unfold State.sameSupply
    simp
  · exact ⟨rfl, rfl⟩

/-- In N2 no transition begins by itself. -/
theorem powerKick_of_n2 (h : s.power.st = .n2) : s.powerKick = s := by
  unfold State.powerKick
  rw [h]
  split <;> rfl

/-- Reaching N2 leaves the phase: no POWER request is answered, and nothing begins. -/
theorem transitionDone_phase_of_n2 (h : s.power.st = .n2) : s.transitionDone.power.phase = s.power.phase := by
  have hcode : ¬pwrCode s.power.st ≤ 1 := by rw [h]; decide
  unfold State.transitionDone
  dsimp only
  rw [powerKick_of_n2 (by simp [h, pwrCode])]
  simp [hcode]

/-- The wait for links keeps the state it was left in, and the supply's levels. -/
theorem wakeGoes_st (s : State) : s.wakeGoes.power.st = s.power.st ∧ s.sameSupply s.wakeGoes := by
  unfold State.wakeGoes
  split
  · split
    · exact ⟨rfl, rfl, rfl⟩
    · split
      · exact ⟨rfl, rfl, rfl⟩
      · exact ⟨(transitionDone_st _).1, transitionDone_supply _⟩
  · exact ⟨rfl, rfl, rfl⟩

theorem wakeGoes_unsettled {ps : List LinkPort} (hp : s.power.phase = .linkUp ps) (h : ∃ x ∈ ps, s.linkSettled x = false) :
    s.wakeGoes = s := by
  obtain ⟨x, hx, hs⟩ := h
  have hall : ps.all s.linkSettled = false := List.all_eq_false.2 ⟨x, hx, by simp [hs]⟩
  unfold State.wakeGoes
  simp only [hp, hall]
  rfl

theorem wakeGoes_mports {ps : List LinkPort} (hp : s.power.phase = .linkUp ps) : s.wakeGoes.mports = s.mports := by
  by_cases h : ∀ x ∈ ps, s.linkSettled x = true
  · exact (wakeGoes_settled hp h).1
  · rw [wakeGoes_unsettled hp (by simpa using h)]

/-- The supply has come: the clocks run again, and every link is asked for. -/
def State.waking (s : State) : State :=
  ({ s with
    pins := { s.pins with pmVlvl := s.pins.pmVreq }
    power := { s.power with
      st := .n1, phase := .linkUp s.power.lowered, before := Config.freeNat s.free + 512, wakeAt := s.ccyc }
    free := s.free + 1 } : State).linksAsked

theorem pmVlvlMatch_wakes (h : s.power.phase = .wakeVolt) : exec .pmVlvlMatch s = .next s.waking.wakeGoes := by
  show execPmVlvlMatch s = _
  unfold execPmVlvlMatch
  dsimp only
  rw [h]
  unfold State.wake
  dsimp only
  rw [raisePorts_eq]
  rfl

-- PWR_CTRL while POWER requests are answered.

/-- PWR_CTRL reads as before. -/
def State.sameCtrl (s t : State) : Prop := t.reg offPwrCtrl = s.reg offPwrCtrl

namespace State.sameCtrl
variable {s t u : State}

theorem refl (s : State) : s.sameCtrl s := rfl

theorem trans (h : s.sameCtrl t) (k : t.sameCtrl u) : s.sameCtrl u := Eq.trans k h

theorem of_regs (h : t.regs = s.regs) : s.sameCtrl t := State.reg_of_regs (congrArg (fun b => b.get offPwrCtrl) h)

theorem foldl {β : Type} {g : State → β → State} (h : ∀ a x, State.sameCtrl a (g a x)) (l : List β) (s : State) :
    s.sameCtrl (l.foldl g s) :=
  foldl_keeps (P := s.sameCtrl) (fun a x ha => ha.trans (h a x)) l (refl s)

theorem setReg (s : State) {off : Nat} (v : Word) (h : off ≠ offPwrCtrl) : s.sameCtrl (s.setReg off v) :=
  s.setReg_reg_other v h.symm

theorem raiseQueue (s : State) (q i : Nat) : s.sameCtrl (s.raiseQueue q i) :=
  setReg s _ (by simp only [offQ, qEvents, offPwrCtrl]; omega)

theorem raises (s : State) (q i : Nat) (c : Bool) : s.sameCtrl (if c then s.raiseQueue q i else s) := by
  cases c
  · exact refl s
  · exact raiseQueue s q i

theorem setQueue (s : State) (q : Nat) (v : Queue) : s.sameCtrl (s.setQueue q v) := of_regs rfl

theorem settle (s : State) (q : Nat) : s.sameCtrl (s.settle q) := by
  unfold State.settle
  dsimp only
  split
  · exact of_regs rfl
  · exact refl s

theorem endCmd (s : State) (q : Nat) (c : Cmd) : s.sameCtrl (s.endCmd q c) := by
  unfold State.endCmd State.closeCmd
  refine trans ?_ (settle _ q)
  refine trans ?_ (setQueue _ q _)
  refine trans ?_ (setQueue _ q _)
  exact trans (trace_regsBut s _ _ _ _ _ (by decide)) (setQueue _ q _)

theorem failCmd (s : State) (q : Nat) (idx : BitVec 16) (f : FaultInfo) : s.sameCtrl (s.failCmd q idx f) :=
  (Stops.failCmd s q idx f).regs _ (by decide)

theorem noteActs (s : State) (n : Note) (bad : Bool) : s.sameCtrl (s.noteActs n bad) := by
  cases n with
  | done q irq marker =>
    unfold State.noteActs
    dsimp only
    have hraise := (raises s q 5 bad).trans (raises _ q 0 irq)
    split
    · split
      · exact hraise.trans (endCmd _ q _)
      · exact hraise
    · exact hraise
  | fault q => exact raises s q 4 bad
  | log _ =>
    cases bad
    · exact refl s
    · exact setReg s _ (by decide)
  | load => exact setReg s _ (by decide)
  | tally => exact (setReg s (off := offTlyStatus) _ (by decide)).trans (of_regs rfl)
  | snap q _ => cases bad <;> exact of_regs rfl
  | reply _ _ => cases bad <;> exact of_regs rfl

theorem recordPart (s : State) (rid id : Nat) (bad : Bool) : s.sameCtrl (s.recordPart rid id bad) := by
  unfold State.recordPart
  split
  · exact refl s
  · dsimp only
    split
    · refine trans ?_ (noteActs _ _ _)
      exact of_regs rfl
    · exact of_regs rfl

theorem recordFails (s : State) (rid id : Nat) (f : FaultInfo) : s.sameCtrl (s.recordFails rid id f) := by
  unfold State.recordFails
  split
  · split
    · refine trans ?_ (failCmd _ _ _ _)
      exact of_regs rfl
    · exact recordPart s _ _ _
  · exact refl s

theorem leavesLane (s : State) (r : Req) : s.sameCtrl (s.leavesLane r) := by
  unfold State.leavesLane
  (repeat' split) <;> exact of_regs rfl

theorem sendPart (s : State) (r : Req) : s.sameCtrl (s.sendPart r) := by
  unfold State.sendPart
  split
  · exact recordFails s _ _ _
  · cases s.pathOf r with
    | hold | gone | fail _ => exact of_regs rfl
    | enter | cross => exact leavesLane s r

theorem stwReply (s : State) (p : Nat) (req : BitVec 512) (st : StwStatus) (extra : Nat) :
    s.sameCtrl (s.stwReply p req st extra) := by
  unfold State.stwReply State.writeRecord
  refine trans ?_ (foldl (fun a x => sendPart a _) _ _)
  exact of_regs rfl

theorem answerPower (s : State) (which : PowerReq → Bool) (st : StwStatus) : s.sameCtrl (s.answerPower which st) := by
  unfold State.answerPower
  refine trans ?_ (foldl (fun a r => stwReply a _ _ _ _) _ _)
  exact of_regs rfl

end State.sameCtrl

-- A failed request for the supply.

/-- The two low bits of a masked write are those written. -/
theorem bits_low_masked (w : Word) {n : Nat} (hn : n < 4) :
    bits ((w &&& ~~~3#32) ||| (BitVec.ofNat 32 n &&& 3#32)) 0 2 = n := by
  refine Nat.eq_of_testBit_eq fun i => ?_
  rw [bits, pow_zero, Nat.div_one, Nat.testBit_mod_two_pow, BitVec.testBit_toNat]
  by_cases hi : i < 2
  · have h32 : i < 32 := by omega
    have hmask : Nat.testBit 3 i = true := by
      revert i
      decide
    simp only [BitVec.getLsbD_or, BitVec.getLsbD_and, BitVec.getLsbD_not, BitVec.getLsbD_ofNat, hi, h32, hmask, decide_true,
      Bool.true_and, Bool.not_true, Bool.and_false, Bool.and_true, Bool.false_or]
  · have hsmall : n < 2 ^ i := Nat.lt_of_lt_of_le hn (Nat.pow_le_pow_right (n := 2) (by omega) (by omega : 2 ≤ i))
    simp [hi, Nat.testBit_lt_two_pow hsmall]

/-- The TARGET that is written is read. -/
theorem putTarget_target (s : State) {n : Nat} (hn : n < 4) : (s.putTarget n).target = n := by
  have hreg : (s.putTarget n).reg offPwrCtrl = (s.reg offPwrCtrl &&& ~~~3#32) ||| (BitVec.ofNat 32 n &&& 3#32) :=
    s.putMasked_reg_same offPwrCtrl _ _
  rw [State.target, State.fld, hreg, bits_low_masked _ hn]

/-- The block stays in a state: VLVL_FAIL is set and TARGET names it; the supply's levels stay. -/
theorem supplyFailed_sets (s : State) {stay : Nat} (h : stay < 4) :
    (s.supplyFailed stay).power = { s.power with phase := .rest } ∧ s.sameSupply (s.supplyFailed stay) ∧
      (s.supplyFailed stay).flag offPwrEvents 2 = true ∧ (s.supplyFailed stay).target = stay := by
  refine ⟨?_, ?_, ?_, putTarget_target _ h⟩
  · exact raisePower_power (s.setPhase .rest) 2
  · exact raisePower_supply (s.setPhase .rest) 2
  · have hset := (raisePower_sets (s.setPhase .rest) (i := 2) (by decide)).1
    have hkept := State.putMasked_regsBut ((s.setPhase .rest).raisePower 2) offPwrCtrl 3#32 (BitVec.ofNat 32 stay) offPwrEvents
      (by decide)
    exact (congrArg (fun w => bitAt w 2) hkept).trans hset

/-- Giving up POWER requests leaves the state, the phase, the supply's levels, PWR_EVENTS and TARGET. -/
theorem abandonPower_leaves (s : State) (least : Nat) :
    (s.abandonPower least).power.st = s.power.st ∧ (s.abandonPower least).power.phase = s.power.phase ∧
      s.sameSupply (s.abandonPower least) ∧ (s.abandonPower least).flag offPwrEvents 2 = s.flag offPwrEvents 2 ∧
      (s.abandonPower least).target = s.target := by
  unfold State.abandonPower
  obtain ⟨hpower, -, hpins⟩ := answerPower_clock s (fun r => !r.reached && decide (least ≤ r.target.toNat)) .abandoned
  refine ⟨by rw [hpower], by rw [hpower], ⟨congrArg Pins.pmVlvl hpins, congrArg Pins.pmVreq hpins⟩, ?_, ?_⟩
  · exact congrArg (fun w => bitAt w 2) (RepliesKept.answerPower s _ _).events
  · exact congrArg (fun w => bits w 0 2) (State.sameCtrl.answerPower s _ _)

theorem pmVlvlTimeout_runs {lvl : BitVec 2} (h : lvl ≠ s.pins.pmVreq)
    (hp : s.power.phase = .wakeVolt ∨ s.power.phase = .offVolt) :
    exec (.pmVlvlTimeout lvl) s = .next (State.supplyFailed { s with pins := { s.pins with pmVlvl := lvl } } 2) := by
  show execPmVlvlTimeout lvl s = _
  unfold execPmVlvlTimeout
  rw [whenever_pos (by simpa using h)]
  obtain hp | hp := hp <;> simp only [hp]

theorem pmVlvlTimeout_retention {lvl : BitVec 2} (h : lvl ≠ s.pins.pmVreq) (hp : s.power.phase = .retentionVolt) :
    exec (.pmVlvlTimeout lvl) s =
      .next ((State.supplyFailed { s with pins := { s.pins with pmVlvl := lvl } } 1).linksAsked.abandonPower 2) := by
  show execPmVlvlTimeout lvl s = _
  unfold execPmVlvlTimeout
  rw [whenever_pos (by simpa using h)]
  simp only [hp, raisePorts_eq]

/-- N2 is reached: the supply stands at the retention level. -/
def State.retained (s : State) : State :=
  { s with pins := { s.pins with pmVlvl := s.pins.pmVreq }, power := { s.power with st := .n2, phase := .rest } }

theorem pmVlvlMatch_retains (h : s.power.phase = .retentionVolt) : exec .pmVlvlMatch s = .next s.retained.transitionDone := by
  show execPmVlvlMatch s = _
  unfold execPmVlvlMatch
  dsimp only
  rw [h]
  rfl

/-- Settles O11: each level that comes lets its change proceed, and each that does not leaves the block where it is. -/
theorem supplyHandshakeMovesThePowerState : Obligations.SupplyHandshakeMovesThePowerState := by
  unfold Obligations.SupplyHandshakeMovesThePowerState
  intro s
  refine ⟨fun h => ?off, fun h => ?retention, fun h => ?wake, fun lvl hlvl h => ?late, fun lvl hlvl h => ?lateRetention⟩
  case off =>
    show execPmVlvlMatch s = _
    unfold execPmVlvlMatch
    simp only [h]
  case retention =>
    exact ⟨_, pmVlvlMatch_retains h, (transitionDone_st _).1, transitionDone_phase_of_n2 rfl, (transitionDone_supply _).1,
      (transitionDone_sets _).1⟩
  case wake =>
    have hphase : s.waking.power.phase = .linkUp s.power.lowered := rfl
    have hsettled (x : LinkPort) : s.waking.linkSettled x = s.linkSettled x := linksAsked_settled _ x
    have hports (p : Nat) (hp : p < s.cfg.mports) : (s.waking.mport p).linkReq = true := by
      unfold State.waking
      rw [linksAsked_mport, if_pos hp]
    obtain ⟨hst, hlvl, -⟩ := wakeGoes_st s.waking
    refine ⟨_, pmVlvlMatch_wakes h, hst, hlvl, ?_, ?_, ?_, ?_⟩
    · intro p hp
      have kept : s.waking.wakeGoes.mport p = s.waking.mport p := congrArg (fun b => b.get p) (wakeGoes_mports hphase)
      rw [kept, hports p hp]
    · intro hopen
      rw [wakeGoes_unsettled hphase (by simpa only [hsettled] using hopen), hphase]
    · intro hall
      exact (wakeGoes_settled hphase (by simpa only [hsettled] using hall)).2.1
    · intro hall
      exact (wakeGoes_settled hphase (by simpa only [hsettled] using hall)).2.2
  case late =>
    obtain ⟨hpower, ⟨hpvlvl, hpreq⟩, hflag, htarget⟩ := supplyFailed_sets { s with pins := { s.pins with pmVlvl := lvl } }
      (stay := 2) (by decide)
    exact ⟨_, pmVlvlTimeout_runs hlvl h, hpower, hpvlvl, hpreq, hflag, htarget⟩
  case lateRetention =>
    obtain ⟨hpower, ⟨hpvlvl, -⟩, hflag, htarget⟩ := supplyFailed_sets { s with pins := { s.pins with pmVlvl := lvl } }
      (stay := 1) (by decide)
    obtain ⟨hst, hphase, ⟨hlvl', -⟩, hflag', htarget'⟩ := abandonPower_leaves
      (State.supplyFailed { s with pins := { s.pins with pmVlvl := lvl } } 1).linksAsked 2
    refine ⟨_, pmVlvlTimeout_retention hlvl h, hst.trans ?_, hphase.trans ?_,
      hlvl'.trans hpvlvl, hflag'.trans hflag, htarget'.trans htarget⟩
    · exact (congrArg Power.st hpower).trans rfl
    · exact (congrArg Power.phase hpower).trans rfl

end Sys2Proof.Machine
end

section
/-!
PROOFS. What O38 needs of a stop of a queue's work: no parcel that has not begun is handed to a remote port whose link has fallen.
-/

namespace Sys2Proof.Machine

-- Every entry of a bank.

/-- What holds of every entry of a bank. -/
def Every {α : Type} (P : α → Prop) (b : Bank α) : Prop := ∀ c ∈ b.cells, P c.2

theorem Bank.mem_set {α : Type} [Inhabited α] [DecidableEq α] {b : Bank α} {i : Nat} {v : α} {c : Nat × α}
    (h : c ∈ (b.set i v).cells) : c = (i, v) ∨ (c ∈ b.cells ∧ c.1 ≠ i) := by
  unfold Bank.set at h
  split at h
  · exact .inr (Bank.mem_without h)
  · exact (Bank.mem_place h).imp_right Bank.mem_without

theorem Every.set {α : Type} [Inhabited α] [DecidableEq α] {P : α → Prop} {b : Bank α} (h : Every P b) (i : Nat) {v : α}
    (hv : P v) : Every P (b.set i v) := by
  intro c hc
  obtain rfl | ⟨hc, -⟩ := Bank.mem_set hc
  · exact hv
  · exact h c hc

theorem Bank.mem_of_find {α : Type} {i : Nat} {v : α} {l : List (Nat × α)} (h : Bank.find i l = some v) : (i, v) ∈ l := by
  induction l with
  | nil => cases h
  | cons c l ih =>
    obtain ⟨j, w⟩ := c
    by_cases hj : j = i
    · subst hj
      simp [Bank.find] at h
      simp [h]
    · rw [Bank.find, if_neg hj] at h
      exact List.mem_cons_of_mem _ (ih h)

theorem Every.get {α : Type} [Inhabited α] {P : α → Prop} {b : Bank α} (h : Every P b) (hd : P default) (i : Nat) :
    P (b.get i) := by
  unfold Bank.get
  cases hf : Bank.find i b.cells with
  | none => exact hd
  | some v => exact h _ (Bank.mem_of_find hf)

/-- A change of every entry: what it makes of each holds of all. -/
theorem every_each {α : Type} [Inhabited α] [DecidableEq α] {P : α → Prop} {b : Bank α} {f : Nat → α → α}
    (h : ∀ i, P (f i (b.get i))) : Every P (b.each f) := by
  have key : ∀ (l : List (Nat × α)) (a : Bank α), ∀ c ∈ (l.foldl (fun a d => a.set d.1 (f d.1 (b.get d.1))) a).cells,
      P c.2 ∨ (c ∈ a.cells ∧ c.1 ∉ l.map (fun d => d.1)) := by
    intro l
    induction l with
    | nil => exact fun a c hc => .inr ⟨hc, by simp⟩
    | cons d l ih =>
      intro a c hc
      obtain hP | ⟨hc, hl⟩ := ih _ c hc
      · exact .inl hP
      · obtain rfl | ⟨hmem, hne⟩ := Bank.mem_set hc
        · exact .inl (h d.1)
        · exact .inr ⟨hmem, by simpa using ⟨hne, by simpa using hl⟩⟩
  intro c hc
  obtain hP | ⟨hc, hl⟩ := key b.cells b c hc
  · exact hP
  · exact absurd (List.mem_map_of_mem hc) hl

-- Parcels and a fallen port.

/-- A parcel that no stop hands to port `x`. -/
def spares (x : Nat) (t : TxParcel) : Prop := t.begun = true ∨ t.port ≠ x

def txSpares (x : Nat) (v : XPort) : Prop := ∀ t ∈ v.tx, spares x t

def itemsSpare (x : Nat) (l : List CorItem) : Prop := ∀ t, CorItem.parcel t ∈ l → spares x t

theorem txSpares_default (x : Nat) : txSpares x default := fun _ ht => absurd ht List.not_mem_nil

theorem itemsSpare_default (x : Nat) : itemsSpare x default := fun _ ht => absurd ht List.not_mem_nil

theorem itemsSpare.filter {x : Nat} {l : List CorItem} (h : itemsSpare x l) (keep : CorItem → Bool) :
    itemsSpare x (l.filter keep) :=
  fun t ht => h t (List.mem_filter.1 ht).1

/-- Port `x` is down and has nothing to send, and no parcel of it that has not begun is anywhere. -/
structure PortClear (x : Nat) (s : State) : Prop where
  ack : (s.xport x).linkAck = false
  tx : (s.xport x).tx = []
  ports : Every (txSpares x) s.remote.ports
  east : Every (itemsSpare x) s.corridor.toEast
  west : Every (itemsSpare x) s.corridor.toWest

namespace PortClear
variable {x : Nat} {s t : State}

theorem of_same (h : PortClear x s) (hp : t.remote.ports = s.remote.ports) (hc : t.corridor = s.corridor) : PortClear x t where
  ack := by rw [State.xport, hp]; exact h.ack
  tx := by rw [State.xport, hp]; exact h.tx
  ports := hp ▸ h.ports
  east := hc ▸ h.east
  west := hc ▸ h.west

theorem foldl {β : Type} {g : State → β → State} {l : List β} (hg : ∀ a, ∀ y ∈ l, PortClear x a → PortClear x (g a y))
    (h : PortClear x s) : PortClear x (l.foldl g s) := by
  induction l generalizing s with
  | nil => exact h
  | cons y l ih => exact ih (fun a z hz => hg a z (List.mem_cons_of_mem _ hz)) (hg s y (List.mem_cons_self ..) h)

/-- Items are taken off the Corridor. -/
theorem retain (h : PortClear x s) {keep : CorItem → Bool} (hp : t.remote.ports = s.remote.ports)
    (hc : t.corridor = s.corridor.retain keep) : PortClear x t where
  ack := (h.of_same hp rfl : PortClear x { t with corridor := s.corridor }).ack
  tx := (h.of_same hp rfl : PortClear x { t with corridor := s.corridor }).tx
  ports := hp ▸ h.ports
  east := by
    rw [hc]
    exact every_each (fun i => (h.east.get (itemsSpare_default x) i).filter keep)
  west := by
    rw [hc]
    exact every_each (fun i => (h.west.get (itemsSpare_default x) i).filter keep)

/-- Parcels are taken from what the ports send. -/
theorem filterTx (h : PortClear x s) {keep : TxParcel → Bool}
    (hp : t.remote.ports = s.remote.ports.each (fun _ v => { v with tx := v.tx.filter keep }))
    (hc : t.corridor = s.corridor) : PortClear x t := by
  have hget : t.xport x = { s.xport x with tx := (s.xport x).tx.filter keep } := by
    rw [State.xport, hp]
    exact Bank.get_each _ _ _ rfl
  exact {
    ack := by rw [hget]; exact h.ack
    tx := by rw [hget, h.tx]; rfl
    ports := by
      rw [hp]
      exact every_each (fun i t ht => h.ports.get (txSpares_default x) i t (List.mem_filter.1 ht).1)
    east := hc ▸ h.east
    west := hc ▸ h.west }

/-- Both at once. -/
theorem filtered (h : PortClear x s) {keepTx : TxParcel → Bool} {keep : CorItem → Bool}
    (hp : t.remote.ports = s.remote.ports.each (fun _ v => { v with tx := v.tx.filter keepTx }))
    (hc : t.corridor = s.corridor.retain keep) : PortClear x t :=
  (h.filterTx hp rfl : PortClear x { t with corridor := s.corridor }).retain rfl hc

/-- An item enters the Corridor. -/
theorem corPush (h : PortClear x s) (toEast : Bool) (cls : Nat) {i : CorItem} (hi : ∀ t, i = .parcel t → spares x t) :
    PortClear x (s.corPush toEast cls i) := by
  have more {b : Bank (List CorItem)} (hb : Every (itemsSpare x) b) :
      Every (itemsSpare x) (b.set cls (b.get cls ++ [i])) := by
    refine hb.set cls (fun t ht => ?_)
    obtain ht | ht := List.mem_append.1 ht
    · exact hb.get (itemsSpare_default x) cls t ht
    · exact hi t (List.mem_singleton.1 ht).symm
  unfold State.corPush
  cases toEast
  · exact { h with west := more h.west }
  · exact { h with east := more h.east }

theorem setQueue (h : PortClear x s) (q : Nat) (v : Queue) : PortClear x (s.setQueue q v) := h.of_same rfl rfl

theorem setReg (h : PortClear x s) (off : Nat) (v : Word) : PortClear x (s.setReg off v) := h.of_same rfl rfl

theorem extraFault (h : PortClear x s) (q : Nat) : PortClear x (s.extraFault q) := by
  unfold State.extraFault
  dsimp only
  split
  · exact h.setQueue q _
  · exact h

theorem updSnap (h : PortClear x s) (q : Nat) (idx : BitVec 16) (u : Nat) (f : UnitSnap → UnitSnap) :
    PortClear x (s.updSnap q idx u f) := h.setQueue q _

theorem snapUnits (h : PortClear x s) (q : Nat) (idx : BitVec 16) : PortClear x (s.snapUnits q idx) :=
  foldl (fun _ _ _ ha => ha.updSnap q idx _ _) h

theorem snapInstr (h : PortClear x s) (q : Nat) (idx : BitVec 16) (f : FaultInfo) : PortClear x (s.snapInstr q idx f) := by
  unfold State.snapInstr
  split
  · exact h.updSnap q idx 1 _
  · exact h

theorem leavesLane (h : PortClear x s) (r : Req) : PortClear x (s.leavesLane r) := by
  unfold State.leavesLane
  (repeat' split) <;> exact h.of_same rfl rfl

/-- A request is no parcel. -/
theorem sendReq (h : PortClear x s) (r : Req) (p : ReqPath) : PortClear x (s.sendReq r p) := by
  cases p with
  | hold => exact h.of_same rfl rfl
  | enter => exact (h.leavesLane r).of_same rfl rfl
  | cross => exact (h.leavesLane r).corPush _ _ (fun _ ht => nomatch ht)
  | gone | fail _ => exact h

theorem letGo (h : PortClear x s) (q : Nat) (r : Req) : PortClear x (s.letGo q r) := by
  unfold State.letGo
  split
  · exact h.extraFault q
  · exact h.sendReq _ _

theorem stopLanes (h : PortClear x s) (q : Nat) : PortClear x (s.stopLanes q) := by
  unfold State.stopLanes
  exact foldl (fun _ _ _ ha => ha.letGo q _) (h.of_same rfl rfl)

theorem stopWaiters (h : PortClear x s) (q : Nat) : PortClear x (s.stopWaiters q) := h.retain rfl rfl

/-- A held parcel of another port goes there, or over the Corridor. -/
theorem letGoParcel (h : PortClear x s) (q : Nat) {y : TxParcel} (hy : y.port ≠ x) : PortClear x (s.letGoParcel q y) := by
  have hspares : spares x { y with heldFor := none } := .inr hy
  unfold State.letGoParcel
  dsimp only
  split
  · have hget : State.xport (s.updXport y.port (fun v => { v with tx := v.tx ++ [{ y with heldFor := none }] })) x = s.xport x :=
      Bank.get_set_other _ hy.symm _
    exact { h with
      ack := by rw [hget]; exact h.ack
      tx := by rw [hget]; exact h.tx
      ports := h.ports.set _ (fun t ht => by
        obtain ht | ht := List.mem_append.1 ht
        · exact h.ports.get (txSpares_default x) _ t ht
        · exact List.mem_singleton.1 ht ▸ hspares) }
  · split
    · exact (h.extraFault q).of_same (by rw [extraFault_remote]) rfl
    · exact h.corPush _ _ (fun t ht => CorItem.parcel.inj ht ▸ hspares)

/-- The parcels that a stop of queue `q` lets go: those that wait to be sent or cross the Corridor. -/
theorem waits_spare (h : PortClear x s) {y : TxParcel} (hy : y ∈ s.remote.ports.cells.flatMap (fun c => c.2.tx) ++
    s.corItems.filterMap (fun i => match i with
      | .parcel x => some x
      | _ => none)) : spares x y := by
  obtain hy | hy := List.mem_append.1 hy
  · obtain ⟨c, hc, hy⟩ := List.mem_flatMap.1 hy
    exact h.ports c hc y hy
  · obtain ⟨i, hi, hiy⟩ := List.mem_filterMap.1 hy
    obtain ⟨c, hc, hi⟩ := List.mem_flatMap.1 hi
    cases i with
    | parcel z =>
      obtain rfl := Option.some.inj hiy
      obtain hc | hc := List.mem_append.1 hc
      · exact h.east c hc z hi
      · exact h.west c hc z hi
    | _ => cases hiy

theorem stopPorter (h : PortClear x s) (q : Nat) : PortClear x (s.stopPorter q) := by
  unfold State.stopPorter
  refine foldl (fun a y hy ha => ha.letGoParcel q ?_) ?_
  · obtain ⟨hwaits, -⟩ := List.mem_filter.1 hy
    obtain ⟨hmem, hq⟩ := List.mem_filter.1 hwaits
    refine (h.waits_spare hmem).resolve_left ?_
    simp at hq
    simp [hq]
  · exact h.filtered rfl rfl

theorem stopReads (h : PortClear x s) (q : Nat) : PortClear x (s.stopReads q) := h.of_same rfl rfl

theorem stopPushes (h : PortClear x s) (q : Nat) : PortClear x (s.stopPushes q) := h.of_same rfl rfl

theorem setLedger (h : PortClear x s) (l : Ledger) : PortClear x { s with ledger := l } := h.of_same rfl rfl

/-- The units' parts of a stop, one after another. -/
theorem stopWork (h : PortClear x s) (q : Nat) :
    PortClear x (((((s.stopReads q).stopWaiters q).stopPorter q).stopLanes q).stopPushes q) :=
  ((((h.stopReads q).stopWaiters q).stopPorter q).stopLanes q).stopPushes q

theorem stopUnits (h : PortClear x s) (q : Nat) : PortClear x (s.stopUnits q) := by
  unfold State.stopUnits
  dsimp only
  generalize ht : (s.taskRings q).foldl (fun a r => a.updRing r Ring.abandon) s = t
  have rings : PortClear x t := ht ▸ foldl (fun _ _ _ ha => ha.of_same rfl rfl) h
  split
  · exact (rings.stopWork q).setLedger _
  · exact rings.stopWork q

theorem commitStopped (h : PortClear x s) (q : Nat) (st : Byte) : PortClear x (s.commitStopped q st) := by
  unfold State.commitStopped
  split
  · exact (h.setReg _ _).setReg _ _
  · exact h

theorem failCmd (h : PortClear x s) (q : Nat) (idx : BitVec 16) (f : FaultInfo) : PortClear x (s.failCmd q idx f) := by
  unfold State.failCmd
  dsimp only
  split
  · exact h.extraFault q
  · split
    · exact (((h.snapUnits q idx).snapInstr q idx f).setQueue q _ |>.commitStopped q _).stopUnits q
    · exact h

end PortClear

end Sys2Proof.Machine
end

section
/-!
PROOFS. O38: remote links and credits, and what the fall of a link in use takes along.
-/

namespace Sys2Proof.Machine

variable {s : State}

-- Links that come up, and credits.

/-- The fabric has answered, and granted its credits. -/
def State.xlinkUp (s : State) (x : Nat) (c0 c1 : BitVec 8) : State :=
  (((s.updXport x (fun v => { v with linkAck := true, absent := false, cred0 := c0.toNat, cred1 := c1.toNat })).putBit
    offXportLink x true).drive (.flitCredits x false flitGrant)).drive (.flitCredits x true flitGrant)

/-- The link has not come up in time. -/
def State.xlinkAbsent (s : State) (x : Nat) : State := s.updXport x (fun v => { v with absent := true })

theorem xlinkUp_eq (s : State) (x : Nat) (c0 c1 : BitVec 8) :
    s.xlinkUp x c0 c1 = { s with
      remote := { s.remote with ports := (s.remote.ports.set x
        { s.xport x with linkAck := true, absent := false, cred0 := c0.toNat, cred1 := c1.toNat }) }
      regs := (s.xlinkUp x c0 c1).regs
      out := .flitCredits x true 128 :: .flitCredits x false 128 :: s.out } := by
  unfold State.xlinkUp
  rw [State.putBit_eq]
  rfl

theorem xlinkUp_regsBut (s : State) (x : Nat) (c0 c1 : BitVec 8) : s.regsBut (s.xlinkUp x c0 c1) [offXportLink] :=
  State.putBit_regsBut (s.updXport x _) offXportLink x true

theorem remoteLinkUp_runs {x : Nat} (c0 c1 : BitVec 8) (hx : s.xportAlive x = true) (hreq : (s.xport x).linkReq = true)
    (hack : (s.xport x).linkAck = false) : exec (.remoteLinkUp x c0 c1) s = .next (s.xlinkUp x c0 c1).wakeGoes := by
  show execRemoteLinkUp x c0 c1 s = _
  unfold execRemoteLinkUp
  exact whenever_pos (by simp [hx, hreq, hack]) _ _

theorem remoteLinkAbsent_runs {x : Nat} (hx : s.xportAlive x = true) (hreq : (s.xport x).linkReq = true)
    (hack : (s.xport x).linkAck = false) : exec (.remoteLinkAbsent x) s = .next (s.xlinkAbsent x).wakeGoes := by
  show execRemoteLinkAbsent x s = _
  unfold execRemoteLinkAbsent
  exact whenever_pos (by simp [hx, hreq, hack]) _ _

/-- A remote port's entry changes; whatever counts as settled stays so, and the port itself when its entry does. -/
theorem settled_of_xport {t : State} {x : Nat} (hm : t.mports = s.mports) (hc : t.cports = s.cports)
    (hother : ∀ j, j ≠ x → t.xport j = s.xport j) (hself : t.linkSettled (.remote x) = true) {y : LinkPort}
    (h : y = .remote x ∨ s.linkSettled y = true) : t.linkSettled y = true := by
  cases y with
  | mem p => simpa [State.linkSettled, State.mport, hm] using h
  | client c => simpa [State.linkSettled, State.cport, hc] using h
  | remote j =>
    by_cases hj : j = x
    · exact hj ▸ hself
    · have hs := h.resolve_left (by simpa using hj)
      simpa [State.linkSettled, hother j hj] using hs

theorem xportAlive_lt {x : Nat} (hx : s.xportAlive x = true) : s.alive = true ∧ x < s.cfg.xports ∧ x < 32 := by
  unfold State.xportAlive at hx
  obtain ⟨ha, hlt⟩ := Bool.and_eq_true_iff.1 hx
  have hlt := of_decide_eq_true hlt
  have hmax : s.cfg.xports ≤ 4 := by cases s.cfg <;> decide
  exact ⟨ha, hlt, by omega⟩

/-- Nothing but the memory of which entries a port has depends on another port. -/
theorem xlinkUp_xport (s : State) (x : Nat) (c0 c1 : BitVec 8) : (s.xlinkUp x c0 c1).xport x =
    { s.xport x with linkAck := true, absent := false, cred0 := c0.toNat, cred1 := c1.toNat } := by
  rw [State.xport, xlinkUp_eq]
  exact Bank.get_set_same _ _ _

theorem xlinkUp_xport_other (s : State) {x j : Nat} (c0 c1 : BitVec 8) (h : j ≠ x) :
    (s.xlinkUp x c0 c1).xport j = s.xport j := by
  rw [State.xport, xlinkUp_eq]
  exact Bank.get_set_other _ h _

theorem xlinkAbsent_xport_other (s : State) {x j : Nat} (h : j ≠ x) : (s.xlinkAbsent x).xport j = s.xport j :=
  Bank.get_set_other _ h _

/-- A link that settles as the last one of a wait lets the exit from N2 go on. -/
theorem lastLink_goes {x : Nat} {ps : List LinkPort} (hx : s.xportAlive x = true) (hps : s.power.phase = .linkUp ps)
    (hall : ∀ y ∈ ps, y = .remote x ∨ s.linkSettled y = true) (hreq : (s.xport x).linkReq = true)
    (hack : (s.xport x).linkAck = false) {m : Instr} {c0 c1 : BitVec 8}
    (hm : m ∈ [Instr.remoteLinkUp x c0 c1, .remoteLinkAbsent x]) : ∃ t, exec m s = .next t ∧
      (s.target = 0 → t.power.phase = .ramp 0 ∧ t.pins.loadup = true) ∧ (s.target ≠ 0 → t.flag offPwrEvents 0 = true) := by
  have goes {t : State} (ht : t.target = s.target) (hp : t.power = s.power) (hset : ∀ y ∈ ps, t.linkSettled y = true) :
      (s.target = 0 → t.wakeGoes.power.phase = .ramp 0 ∧ t.wakeGoes.pins.loadup = true) ∧
        (s.target ≠ 0 → t.wakeGoes.flag offPwrEvents 0 = true) := by
    have h := (wakeGoes_settled (hp ▸ hps) hset).2
    rwa [ht] at h
  obtain rfl | hm := List.mem_cons.1 hm
  · refine ⟨_, remoteLinkUp_runs c0 c1 hx hreq hack, goes ?_ ?_ (fun y hy => settled_of_xport ?_ ?_ ?_ ?_ (hall y hy))⟩
    · exact congrArg (fun w => bits w 0 2) (xlinkUp_regsBut s x c0 c1 offPwrCtrl (by decide))
    · rw [xlinkUp_eq]
    · rw [xlinkUp_eq]
    · rw [xlinkUp_eq]
    · exact fun j hj => xlinkUp_xport_other s c0 c1 hj
    · simp [State.linkSettled, xlinkUp_xport]
  · obtain rfl := List.mem_singleton.1 hm
    refine ⟨_, remoteLinkAbsent_runs hx hreq hack, goes rfl rfl (fun y hy =>
      settled_of_xport (s := s) (t := s.xlinkAbsent x) rfl rfl ?_ ?_ (hall y hy))⟩
    · exact fun j hj => xlinkAbsent_xport_other s hj
    · simp [State.linkSettled, State.xlinkAbsent]

theorem remoteCreditReturn_runs {x : Nat} (cls : Bool) (hx : s.xportAlive x = true) (hack : (s.xport x).linkAck = true) :
    exec (.remoteCreditReturn x cls) s = .next (s.updXport x (fun v =>
      if cls then { v with cred1 := min 255 (v.cred1 + 1) } else { v with cred0 := min 255 (v.cred0 + 1) })) := by
  show execRemoteCreditReturn x cls s = _
  unfold execRemoteCreditReturn
  exact whenever_pos (by simp [hx, hack]) _ _

-- A link that the engine lowered.

/-- The port is down without credits, and reads so. -/
def State.xlinkLowered (s : State) (x : Nat) : State :=
  (s.updXport x (fun v => { v with linkAck := false, cred0 := 0, cred1 := 0 })).putBit offXportLink x false

theorem xlinkLowered_eq (s : State) (x : Nat) : s.xlinkLowered x = { s with
    remote := { s.remote with ports := s.remote.ports.set x { s.xport x with linkAck := false, cred0 := 0, cred1 := 0 } }
    regs := (s.xlinkLowered x).regs } := by
  unfold State.xlinkLowered
  rw [State.putBit_eq]
  rfl

theorem remoteLinkDown_lowered {x : Nat} (hx : s.xportAlive x = true) (hack : (s.xport x).linkAck = true)
    (hreq : (s.xport x).linkReq = false) (hphase : s.power.phase ≠ .linkDrop) :
    exec (.remoteLinkDown x) s = .next (s.xlinkLowered x) := by
  have stays : (s.xlinkLowered x).handOver = s.xlinkLowered x := by
    unfold State.handOver
    rw [xlinkLowered_eq]
    exact if_neg (by simp [hphase])
  show execRemoteLinkDown x s = _
  unfold execRemoteLinkDown
  rw [whenever_pos (by simp [hx, hack]), if_pos (by simp [hreq])]
  exact congrArg _ stays

-- A link in use that falls.

/-- A parcel that leaves by port `x`, or answers one that came in there. -/
def ofPort (x : Nat) (t : TxParcel) : Bool := t.port == x || t.answers == some x

/-- Port `x` is down; its parcels are gone, and requests accepted from it are served without an answer (R73). -/
def State.portDropped (s : State) (x : Nat) : State :=
  { s.updXport x (fun v => { v with linkAck := false, cred0 := 0, cred1 := 0, tx := [] }) with
    corridor := s.corridor.retain (fun i => match i with
      | .parcel t => !ofPort x t
      | _ => true)
    remote := { s.remote with
      ports := (s.remote.ports.set x { s.xport x with linkAck := false, cred0 := 0, cred1 := 0, tx := [] }).each (fun _ v =>
        { v with tx := v.tx.filter (fun t => t.begun || !ofPort x t) })
      outs := s.remote.outs.filter (fun o => o.port != x)
      service := s.remote.service.map (fun w => if w.port == x then { w with mute := true } else w)
      serves := s.remote.serves.map (fun v => if v.port == x then { v with mute := true } else v)
      owed := s.remote.owed.set x 0
      held := s.remote.held.map (fun h => if h.port == x then { h with mute := true } else h) } }

/-- The requests that wait for an answer by port `x`. -/
def State.outsOf (s : State) (x : Nat) : List OutParcel := s.remote.outs.filter (fun o => o.port == x)

/-- The final writes behind lost ones are discarded, and the fall is noted. -/
def State.portFallen (s : State) (x : Nat) : State :=
  (((s.portDropped x).loseWrites (((s.outsOf x).filter (fun o => isWriteParcel o.parcel)).map lostParcel)).putBit offXportLink x
    false).raiseEvent offRelEvents 9

/-- Each queue's request fails once. -/
def State.outsFail (s : State) (work : List OutParcel) : State :=
  work.foldl (fun a o => a.outFails o (a.unreachable 0x5#8 o.dst.toNat)) s

theorem remoteLinkDown_falls {x : Nat} (hx : s.xportAlive x = true) (hack : (s.xport x).linkAck = true)
    (hreq : (s.xport x).linkReq = true) :
    exec (.remoteLinkDown x) s = .next ((s.portFallen x).outsFail (s.xportWork x)).sweep := by
  show execRemoteLinkDown x s = _
  unfold execRemoteLinkDown
  rw [whenever_pos (by simp [hx, hack]), if_neg (by simp [hreq])]
  rfl

-- The first request of each queue.

/-- A request is listed unless its queue has one. -/
def addFirst (a : List OutParcel) (o : OutParcel) : List OutParcel := if a.any (fun w => w.q == o.q) then a else a ++ [o]

theorem mem_foldl_addFirst {q : Nat} (l : List OutParcel) {a : List OutParcel} (h : ∃ w ∈ a ++ l, w.q = q) :
    ∃ w ∈ l.foldl addFirst a, w.q = q := by
  induction l generalizing a with
  | nil => simpa using h
  | cons o l ih =>
    refine ih ?_
    obtain ⟨w, hw, hq⟩ := h
    unfold addFirst
    split
    next hany =>
      obtain ⟨v, hv, hvq⟩ := List.any_eq_true.1 hany
      obtain hw | hw := List.mem_append.1 hw
      · exact ⟨w, List.mem_append_left _ hw, hq⟩
      · obtain rfl | hw := List.mem_cons.1 hw
        · exact ⟨v, List.mem_append_left _ hv, (beq_iff_eq.1 hvq).trans hq⟩
        · exact ⟨w, List.mem_append_right _ hw, hq⟩
    next => exact ⟨w, by simpa using hw, hq⟩

/-- The queue of each request of the port has one that fails. -/
theorem mem_xportWork {x : Nat} {o : OutParcel} (ho : o ∈ s.outsOf x) : ∃ w ∈ s.xportWork x, w.q = o.q :=
  mem_foldl_addFirst (s.outsOf x) ⟨o, by simpa using ho, rfl⟩

-- What the failure of a request leaves.

theorem Stops.snapDetail (s : State) (q stream u : Nat) (d : Word) : Stops s (s.snapDetail q stream u d) := by
  unfold State.snapDetail State.streamSnap
  split
  · exact .updSnap s q _ u _
  · exact .refl s

/-- What snapshot 3 notes of a parcel changes at most one snapshot. -/
theorem outSnap_cases (s : State) (o : OutParcel) :
    s.outSnap o = s ∨ ∃ q stream u d, s.outSnap o = s.snapDetail q stream u d := by
  unfold State.outSnap
  split
  · exact .inl rfl
  · split
    next => exact .inr ⟨_, _, _, _, rfl⟩
    next t _ _ =>
      unfold State.porterSnap
      split
      · exact .inl rfl
      · exact .inr ⟨_, _, _, _, rfl⟩
    next => exact .inl rfl

theorem Stops.outSnap (s : State) (o : OutParcel) : Stops s (s.outSnap o) := by
  obtain h | ⟨q, stream, u, d, h⟩ := outSnap_cases s o
  · rw [h]
    exact .refl s
  · rw [h]
    exact .snapDetail s q stream u d

/-- A stream's fault is the failure of a command, with the status of the fault. -/
theorem streamFault_fails (s : State) (q stream : Nat) (f : FaultInfo) :
    ∃ idx g, g.status = f.status ∧ s.streamFault q stream f = s.failCmd q idx g := by
  unfold State.streamFault
  split
  next b _ => exact ⟨_, _, portFault_status b f, rfl⟩
  next => exact ⟨_, _, by split <;> rfl, rfl⟩
  next => exact ⟨_, _, rfl, rfl⟩

theorem Stops.outFails (s : State) (o : OutParcel) (f : FaultInfo) : Stops s (s.outFails o f) := by
  obtain ⟨idx, g, -, heq⟩ := streamFault_fails (s.outSnap o) o.q o.stream f
  unfold State.outFails
  rw [heq]
  exact (Stops.outSnap s o).trans (.failCmd _ _ _ _)

theorem PortClear.outFails {x : Nat} (h : PortClear x s) (o : OutParcel) (f : FaultInfo) : PortClear x (s.outFails o f) := by
  obtain ⟨idx, g, -, heq⟩ := streamFault_fails (s.outSnap o) o.q o.stream f
  unfold State.outFails
  rw [heq]
  refine PortClear.failCmd ?_ _ _ _
  obtain hsnap | ⟨q, stream, u, d, hsnap⟩ := outSnap_cases s o
  · rw [hsnap]
    exact h
  · rw [hsnap]
    unfold State.snapDetail State.streamSnap
    split
    · exact h.updSnap _ _ _ _
    · exact h

theorem outFails_fallsWith {q : Nat} (o : OutParcel) (f : FaultInfo) (h : s.fallsWith q f.status) :
    (s.outFails o f).fallsWith q f.status ∧ (o.q = q → (s.outFails o f).stopsWith q f.status) := by
  obtain ⟨idx, g, hg, heq⟩ := streamFault_fails (s.outSnap o) o.q o.stream f
  have hsnap : (s.outSnap o).fallsWith q g.status :=
    hg ▸ h.imp (outSnap_mayFail o) ((Stops.outSnap s o).stopped q _)
  unfold State.outFails
  rw [heq, ← hg]
  exact failCmd_fallsWith idx g hsnap

/-- Of the queues whose requests fail, each that could fail stops. -/
theorem outsFail_stopsWith {work : List OutParcel} {w : OutParcel} (hw : w ∈ work) (h : s.fallsWith w.q stUnreachable) :
    (s.outsFail work).stopsWith w.q stUnreachable := by
  induction work generalizing s with
  | nil => cases hw
  | cons o work ih =>
    obtain ⟨hfall, hself⟩ := outFails_fallsWith o (s.unreachable 0x5#8 o.dst.toNat) h
    obtain rfl | hw := List.mem_cons.1 hw
    · exact foldl_keeps (P := fun a => a.stopsWith w.q stUnreachable)
        (fun a o ha => (Stops.outFails a o _).stopped _ _ ha) work (hself rfl)
    · exact ih hw hfall

-- What the fall leaves.

theorem portDropped_clear (s : State) (x : Nat) : PortClear x (s.portDropped x) := by
  have gone {v : TxParcel} (h : (v.begun || !ofPort x v) = true) : spares x v := by
    unfold ofPort at h
    unfold spares
    grind
  have items (l : List CorItem) : itemsSpare x (l.filter (fun i => match i with
      | .parcel t => !ofPort x t
      | _ => true)) := fun v hv => gone (by simpa using .inr (by simpa using (List.mem_filter.1 hv).2))
  have hget : (s.portDropped x).xport x = { s.xport x with linkAck := false, cred0 := 0, cred1 := 0, tx := [] } := by
    unfold State.portDropped State.xport
    dsimp only
    rw [Bank.get_each _ _ _ rfl, Bank.get_set_same]
    rfl
  exact {
    ack := by rw [hget]
    tx := by rw [hget]
    ports := every_each (fun i v hv => gone (List.mem_filter.1 hv).2)
    east := every_each (fun i => items _)
    west := every_each (fun i => items _) }

theorem PortClear.putBit {x : Nat} (h : PortClear x s) (off i : Nat) (v : Bool) : PortClear x (s.putBit off i v) := by
  unfold State.putBit
  split <;> exact h.setReg _ _

theorem portFallen_clear (s : State) (x : Nat) : PortClear x (s.portFallen x) := by
  have lost : PortClear x ((s.portDropped x).loseWrites (((s.outsOf x).filter (fun o => isWriteParcel o.parcel)).map lostParcel)) :=
    (portDropped_clear s x).filtered rfl rfl
  exact (lost.putBit offXportLink x false).setReg _ _

theorem portFallen_flags (s : State) {x : Nat} (hx : x < 32) :
    (s.portFallen x).flag offXportLink x = false ∧ (s.portFallen x).flag offRelEvents 9 = true := by
  refine ⟨?_, State.raiseEvent_flag_same _ _ _ (by decide)⟩
  have hkept := State.raiseEvent_regsBut (((s.portDropped x).loseWrites (((s.outsOf x).filter (fun o =>
    isWriteParcel o.parcel)).map lostParcel)).putBit offXportLink x false) offRelEvents 9 offXportLink (by decide)
  exact (congrArg (fun w => bitAt w x) hkept).trans (State.putBit_flag _ _ _ _ hx)

/-- The parcels that still wait for an answer leave by other ports. -/
theorem portFallen_outs {x : Nat} {o : OutParcel} (ho : o ∈ (s.portFallen x).remote.outs) : o.port ≠ x := by
  unfold State.portFallen at ho
  rw [State.putBit_eq] at ho
  have hmem := (List.mem_filter.1 ho).1
  simpa using (List.mem_filter.1 hmem).2

theorem portFallen_queues (s : State) (x : Nat) : (s.portFallen x).queues = s.queues := by
  unfold State.portFallen
  rw [State.putBit_eq]
  rfl

theorem portDropped_idle {x : Nat} (h : s.noLaneWork) : (s.portDropped x).noLaneWork := by
  obtain ⟨hi, ht, hp, hb, hs, ho, hr⟩ := h
  have hserves : (s.portDropped x).remote.serves = [] := congrArg (List.map _) hs
  have howed : (s.portDropped x).remote.owed = .empty := by
    show s.remote.owed.set x 0 = .empty
    rw [ho]
    rfl
  exact ⟨hi, ht, hp, hb, hserves, howed, hr⟩

theorem portFallen_idle {x : Nat} (h : s.noLaneWork) : (s.portFallen x).noLaneWork := by
  have lost := (Stops.loseWrites _ (((s.outsOf x).filter (fun o => isWriteParcel o.parcel)).map lostParcel)).noLaneWork
    (portDropped_idle (x := x) h)
  unfold State.portFallen
  rw [State.putBit_eq]
  exact lost

/-- A link in use falls: its port is down, its parcels are gone, and the queues that waited for an answer stop. -/
theorem remoteLinkDown_faults {x : Nat} (hx : s.xportAlive x = true) (hack : (s.xport x).linkAck = true)
    (hreq : (s.xport x).linkReq = true) (hidle : s.noLaneWork) : ∃ t, exec (.remoteLinkDown x) s = .next t ∧
      (t.xport x).linkAck = false ∧ (t.xport x).tx = [] ∧ t.flag offXportLink x = false ∧ t.flag offRelEvents 9 = true ∧
      (∀ o ∈ t.remote.outs, o.port ≠ x) ∧
      ∀ o ∈ s.remote.outs, o.port = x → s.mayFail o.q → t.stopsWith o.q stUnreachable := by
  have hstops : Stops (s.portFallen x) ((s.portFallen x).outsFail (s.xportWork x)) := .foldl (fun a o => .outFails a o _) _ _
  have hclear : PortClear x ((s.portFallen x).outsFail (s.xportWork x)) :=
    PortClear.foldl (fun _ o _ ha => ha.outFails o _) (portFallen_clear s x)
  obtain ⟨hlink, hevent⟩ := portFallen_flags s (xportAlive_lt hx).2.2
  refine ⟨_, remoteLinkDown_falls hx hack hreq, ?_⟩
  rw [sweep_of_noLaneWork (hstops.noLaneWork (portFallen_idle hidle))]
  refine ⟨hclear.ack, hclear.tx, ?_, ?_, fun o ho => portFallen_outs (hstops.outs o ho), fun o ho hport hq => ?_⟩
  · exact (congrArg (fun w => bitAt w x) (hstops.regs offXportLink (by decide))).trans hlink
  · exact (congrArg (fun w => bitAt w 9) (hstops.regs offRelEvents (by decide))).trans hevent
  · obtain ⟨w, hw, hwq⟩ := mem_xportWork (s := s) (x := x) (o := o) (List.mem_filter.2 ⟨ho, by simp [hport]⟩)
    have hmay : (s.portFallen x).mayFail w.q := by
      unfold State.mayFail State.queue
      rw [portFallen_queues, hwq]
      exact hq
    exact hwq ▸ outsFail_stopsWith hw (.inl hmay)

/-- Settles O38: each case by what its command leaves; the fall of a link in use by what a stop can hand to a port. -/
theorem remoteLinksAndCreditsAreKept : Obligations.RemoteLinksAndCreditsAreKept := by
  unfold Obligations.RemoteLinksAndCreditsAreKept
  intro s x hx
  refine ⟨fun c0 c1 hno hreq hack => ?up, fun hno hreq hack => ?absent, fun ps hps hall hreq hack m c0 c1 hm => ?last,
    fun cls hack => ?credits, fun hack hreq hphase => ?lowered, fun hack hreq hidle _ => ?falls⟩
  case up =>
    have hno' : (s.xlinkUp x c0 c1).noLinkWait := by rw [xlinkUp_eq]; exact hno
    refine ⟨_, remoteLinkUp_runs c0 c1 hx hreq hack, ?_⟩
    rw [wakeGoes_noLinkWait hno']
    refine ⟨xlinkUp_xport s x c0 c1, ?_, xlinkUp_regsBut s x c0 c1, ?_, fun j hj => xlinkUp_xport_other s c0 c1 hj, ?_⟩
    · exact State.putBit_flag (s.updXport x _) _ _ _ (xportAlive_lt hx).2.2
    · rw [xlinkUp_eq]
    · rw [xlinkUp_eq]
  case absent =>
    refine ⟨_, remoteLinkAbsent_runs hx hreq hack, ?_⟩
    rw [wakeGoes_noLinkWait (s := s.xlinkAbsent x) hno]
    exact ⟨State.updXport_xport s x _, fun j hj => xlinkAbsent_xport_other s hj, rfl⟩
  case last => exact lastLink_goes hx hps hall hreq hack hm
  case credits =>
    exact ⟨_, remoteCreditReturn_runs cls hx hack, State.updXport_xport s x _, fun j hj => Bank.get_set_other _ hj _, rfl⟩
  case lowered =>
    refine ⟨_, remoteLinkDown_lowered hx hack hreq hphase, ?_, ?_, ?_, ?_⟩
    · rw [State.xport, xlinkLowered_eq]
      exact Bank.get_set_same _ _ _
    · exact State.putBit_flag (s.updXport x _) _ _ _ (xportAlive_lt hx).2.2
    · exact State.putBit_regsBut (s.updXport x _) offXportLink x false
    · rw [xlinkLowered_eq]
  case falls => exact remoteLinkDown_faults hx hack hreq hidle

end Sys2Proof.Machine
end

section
/-!
PROOFS. Why O44 fails: the doorbell of a Running queue may make it Idle.
-/

namespace Sys2Proof.Machine

/-- Queue 0 is Running in N0 with one command that has not been read. -/
def runningUnread : State := { State.reset with
  pins := { State.reset.pins with poreset := false, pllLocked := true }
  boot := { State.reset.boot with ready := true }
  regs := Bank.empty.set (offQ 0 qCfg) (some 0x80000000#32)
  queues := Bank.empty.set 0 { (default : Queue) with st := .running, tail := 1 } }

/-- A doorbell takes TAIL back to HEAD, and the queue, with nothing left to run, is Idle (R104). -/
theorem runningUnread_idles :
    ((stateAfter runningUnread (exec (.qctlDoorbell 0 0#32) runningUnread)).queue 0).st = .idle := by
  decide +kernel

/-- Refutes O44: its fourth clause says that a doorbell leaves the state of a queue that is not Idle. One that takes TAIL back to HEAD
before any command of a Running queue has been read makes the queue Idle. -/
theorem not_queuesAreEnabledRungAndRead : ¬ Obligations.QueuesAreEnabledRungAndRead := by
  unfold Obligations.QueuesAreEnabledRungAndRead
  intro h
  obtain ⟨-, -, -, doorbell, -⟩ := h runningUnread 0 0#32 (by decide)
  obtain ⟨t, ht, -, -, hst, -⟩ := doorbell ⟨by decide +kernel, by decide +kernel, by decide +kernel⟩ (by decide +kernel)
    (by decide +kernel) (by decide +kernel)
  have hidle := runningUnread_idles
  rw [ht] at hidle
  have hrun : (t.queue 0).st = .running := hst
  exact absurd (hidle.symm.trans hrun) (by decide)

end Sys2Proof.Machine
end

section
/-!
PROOFS. Why O45 fails: a queue that SUSPEND finds Running may lose a command that completes on the way.
-/

namespace Sys2Proof.Machine

/-- Queue 0 takes actions and is Running; a write that waits for the marking of its tile is the last request of its own MARKER's
record, and no memory port is up. -/
def markerHeldByItsQueue : State := { markerBesideUndecided with
  boot := { State.reset.boot with ready := true }
  queues := Bank.empty.set 0 { (default : Queue) with st := .running, tail := 1, cmds := [waitingMarker] }
  records := [{ id := 3, note := .done 0 false (some 0), left := [2], bad := false }] }

/-- SUSPEND marks the tile: the write goes out and fails, and the MARKER completes with its record (R96, R225). -/
theorem markerHeldByItsQueue_ends :
    ((stateAfter markerHeldByItsQueue (exec (.suspend 0) markerHeldByItsQueue)).queue 0).cmds ≠
      (markerHeldByItsQueue.queue 0).cmds := by
  decide +kernel

/-- Refutes O45: its first clause says that SUSPEND leaves the queue's commands, in any state, and nothing it asks for keeps the
writes held for a tile apart from the record that a MARKER completes with. -/
theorem not_actionsFollowTheQueueState : ¬ Obligations.ActionsFollowTheQueueState := by
  unfold Obligations.ActionsFollowTheQueueState
  intro h
  obtain ⟨suspend, -⟩ := h markerHeldByItsQueue 0 (by decide) ⟨by decide +kernel, by decide +kernel, by decide +kernel⟩
  obtain ⟨t, ht, -, -, -, hcmds⟩ := suspend (by decide +kernel)
  have hends := markerHeldByItsQueue_ends
  rw [ht] at hends
  exact hends hcmds

end Sys2Proof.Machine
end

section
/-!
PROOFS. Why O48 fails: its frame of the queues does not hold of every state it speaks of.
-/

namespace Sys2Proof.Machine

/-- The NOP of queue 0, read and not started, that asks for a completion record. -/
def recordedNop : Cmd :=
  { idx := 0, bytes := BitVec.ofNat 512 (0x3F + 2 ^ 8), started := false, done := false, failed := false, pages := 0 }

/-- Queue 0's NOP may start, with no memory port up, while the record of queue 1's SNAPSHOT task has the number that is to be given
next. -/
def nopBesideRecord : State := { prewarmBesideRecord with
  queues := prewarmBesideRecord.queues.set 0 { (default : Queue) with st := .running, cmds := [recordedNop] } }

/-- The NOP's own record takes the number that is in use. No port takes it, and the SNAPSHOT task fails for it (R397). -/
theorem nopBesideRecord_stops_queue1 :
    (stateAfter nopBesideRecord (exec (.nopCommand 0) nopBesideRecord)).queue 1 ≠ nopBesideRecord.queue 1 := by
  decide +kernel

/-- Refutes O48: its first clause says that a NOP leaves every other queue as it was, in any state, and nothing it asks for keeps
`nextId` apart from the numbers of the records under way. With a SNAPSHOT task's record of that number beside it, the failing
write of the NOP's record stops the SNAPSHOT task's queue. -/
theorem not_smallCommandsComplete : ¬ Obligations.SmallCommandsComplete := by
  unfold Obligations.SmallCommandsComplete
  intro h
  obtain ⟨nop, -⟩ := h nopBesideRecord 0 recordedNop
  obtain ⟨t, ht, -, others, -⟩ := nop (by decide +kernel)
  have hne := nopBesideRecord_stops_queue1
  rw [ht] at hne
  exact hne (others 1 (by decide))

end Sys2Proof.Machine
end

section
/-!
PROOFS. How suspensions complete and pre-emptions are released (R102, R103).
-/

namespace Sys2Proof.Machine

-- Itineraries set aside.

theorem asides_nil_iff (s : State) (q : Nat) :
    s.asides q = [] ↔ ∀ n < 16, ∀ i ∈ s.itins, (i.q == q && i.place == .aside && i.num == n) = false := by
  simp only [State.asides, List.filterMap_eq_nil_iff, List.mem_range, List.find?_eq_none, Bool.not_eq_true]

/-- A queue that is not executing, or has no itinerary aside, places none. -/
theorem placeAside_stays {s : State} {q : Nat} (h : (s.queue q).executing = false ∨ s.asides q = []) : s.placeAside q = s := by
  unfold State.placeAside
  refine if_pos ?_
  obtain h | h := h <;> simp [h]

theorem placeAsides_stays {s : State} (h : ∀ q, (s.queue q).executing = false ∨ s.asides q = []) : s.placeAsides = s :=
  foldl_keeps (P := fun a => a = s) (fun a q ha => by rw [ha]; exact placeAside_stays (h q)) _ rfl

-- SUSPENSION_COMPLETE.

/-- A reason to be suspended that is left keeps the queue so. -/
theorem leaveSuspended_of_suspSw {s : State} {q : Nat} (h : (s.queue q).suspSw = true) : s.leaveSuspended q = s :=
  if_pos (by simp [h])

theorem gateIfQuiet_of_cool {s : State} (h : s.thermalStop = false) : s.gateIfQuiet = s := if_neg (by simp [h])

/-- The queue's work has been set aside, and the queue is Suspended. -/
def State.workSuspended (s : State) (q : Nat) : State :=
  ((s.dropWaits q).setAside q).updQueue q (fun v => { v with st := .suspended, suspending := false })

theorem workSuspended_queue (s : State) (q : Nat) :
    (s.workSuspended q).queue q = { s.queue q with st := .suspended, suspending := false } :=
  State.updQueue_queue _ q _

theorem workSuspended_queuesBut (s : State) (q : Nat) : s.queuesBut (s.workSuspended q) q :=
  fun j hj => State.setQueue_queue_other ((s.dropWaits q).setAside q) q j _ hj

/-- Setting a queue's work aside leaves the itineraries that other queues have aside. -/
theorem workSuspended_asides {s : State} {p q : Nat} (hp : p ≠ q) (h : s.asides p = []) : (s.workSuspended q).asides p = [] := by
  rw [asides_nil_iff] at *
  intro n hn i hi
  obtain ⟨j, hj, rfl⟩ := List.mem_map.1 hi
  split
  next hmine =>
    have hq : j.q = q := by simp at hmine; exact hmine.1
    simp [hq, Ne.symm hp]
  next => exact h n hn j hj

theorem workSuspended_place {s : State} {q : Nat} {i : Itin} (hi : i ∈ (s.workSuspended q).itins) (hq : i.q = q) :
    i.place ≠ .resident := by
  obtain ⟨j, -, rfl⟩ := List.mem_map.1 hi
  by_cases hmine : (j.q == q && j.place == .resident) = true
  · simp [hmine]
  · rw [if_neg hmine] at hq ⊢
    exact fun hres => hmine (by simp [hq, hres])

/-- SUSPENSION_COMPLETE of a queue that stays Suspended, where no other queue waits for slots. -/
theorem suspensionComplete_runs {s : State} {q : Nat} (ha : s.alive = true) (hst : (s.queue q).st = .running)
    (hsusp : (s.queue q).suspending = true) (hstop : (s.queue q).stop = none) (hbound : s.atBoundary q = true)
    (hsw : (s.queue q).suspSw = true) (hcool : s.thermalStop = false) (hothers : ∀ p, p ≠ q → s.asides p = []) :
    exec (.suspensionComplete q) s = .next (s.workSuspended q) := by
  have hquiet (p : Nat) : ((s.workSuspended q).queue p).executing = false ∨ (s.workSuspended q).asides p = [] := by
    by_cases hp : p = q
    · subst hp
      exact .inl (by rw [workSuspended_queue]; rfl)
    · exact .inr (workSuspended_asides hp (hothers p hp))
  have hgo : (s.alive && (s.queue q).st == .running && (s.queue q).suspending && !(s.queue q).stopping && s.atBoundary q) = true := by
    simp [ha, hst, hsusp, hstop, hbound, Queue.stopping]
  show execSuspensionComplete q s = _
  unfold execSuspensionComplete
  refine (whenever_pos hgo _ _).trans (congrArg Host.Outcome.next ?_)
  calc (((s.workSuspended q).leaveSuspended q).gateIfQuiet).placeAsides
    _ = ((s.workSuspended q).gateIfQuiet).placeAsides := by
      rw [leaveSuspended_of_suspSw (by rw [workSuspended_queue]; exact hsw)]
    _ = (s.workSuspended q).placeAsides := by rw [gateIfQuiet_of_cool (s := s.workSuspended q) hcool]
    _ = s.workSuspended q := placeAsides_stays hquiet

-- PREEMPT_RELEASE.

/-- The first queue that `q` has suspended is let go of; whether it is released depends on who else holds it. -/
theorem preemptRelease_runs {s : State} {q w : Nat} {rest : List (Nat × Nat)} (ha : s.alive = true)
    (hpre : s.preempted = (q, w) :: rest) (htask : (s.queue q).taskStarted = true) (hsusp : (s.queue w).suspending = true) :
    exec (.preemptRelease q) s = .next (if rest.any (fun p => p.2 == w) then { s with preempted := rest } else
      (({ s with preempted := rest } : State).updQueue w (fun v => { v with suspPre := false })).leaveSuspended w) := by
  show execPreemptRelease q s = _
  unfold execPreemptRelease
  have hfind : s.preempted.find? (fun p => p.1 == q) = some (q, w) := by simp [hpre]
  have herase : s.preempted.erase (q, w) = rest := by simp [hpre]
  have hgo : (s.alive && (s.queue q).taskStarted && ((s.queue w).suspending || (s.asidePlaces w).isSome)) = true := by
    simp [ha, htask, hsusp]
  simp only [hfind]
  rw [whenever_pos hgo, herase]

end Sys2Proof.Machine
end

section
/-!
PROOFS. What the passing of cycles leaves of the queues and the semaphores, and the progress timeout (R106).
-/

namespace Sys2Proof.Machine

variable {s t : State}

/-- Cycles pass: of the queues only progress timers run, and the semaphores stay. -/
structure Ticks (s t : State) : Prop where
  sems : t.sems = s.sems
  queue : ∀ q, ∃ n, t.queue q = { s.queue q with timer := n }

namespace Ticks

theorem same (hs : t.sems = s.sems) (hq : t.queues = s.queues) : Ticks s t :=
  ⟨hs, fun q => ⟨(s.queue q).timer, by simp [State.queue, hq]⟩⟩

theorem refl (s : State) : Ticks s s := same rfl rfl

theorem trans {u : State} (h : Ticks s t) (k : Ticks t u) : Ticks s u where
  sems := k.sems.trans h.sems
  queue q := by
    obtain ⟨n, hn⟩ := h.queue q
    obtain ⟨m, hm⟩ := k.queue q
    rw [hn] at hm
    exact ⟨m, hm⟩

theorem foldl {β : Type} {g : State → β → State} (h : ∀ a x, Ticks a (g a x)) (l : List β) (s : State) : Ticks s (l.foldl g s) :=
  foldl_keeps (P := Ticks s) (fun a x ha => ha.trans (h a x)) l (refl s)

theorem judge (s : State) (u k m : Nat) : Ticks s (s.judge u k m) := by
  unfold State.judge
  dsimp only
  (repeat' split) <;> exact same rfl rfl

theorem judgeAll (s : State) (n : Nat) : Ticks s (s.judgeAll n) := by
  unfold State.judgeAll
  split
  · exact refl s
  · exact foldl (fun a x => judge a _ _ _) _ s

theorem runTimers (s : State) (n : Nat) : Ticks s (s.runTimers n) where
  sems := rfl
  queue q := by
    by_cases hq : q ∈ s.queues.cells.map (fun c => c.1)
    · refine ⟨if s.timerStands q then (s.queue q).timer else (s.queue q).timer + n, ?_⟩
      unfold State.runTimers State.queue Bank.each
      simp only
      rw [Bank.foldl_set_get (fun j => if s.timerStands j then s.queues.get j else { s.queues.get j with
        timer := (s.queues.get j).timer + n }), if_pos hq]
      split <;> rfl
    · refine ⟨(s.queue q).timer, ?_⟩
      unfold State.runTimers State.queue Bank.each
      simp only
      rw [Bank.foldl_set_get (fun j => if s.timerStands j then s.queues.get j else { s.queues.get j with
        timer := (s.queues.get j).timer + n }), if_neg hq]

theorem watchGroup (s : State) (g : Nat) : Ticks s (s.watchGroup g) := by
  unfold State.watchGroup
  (repeat' split) <;> exact same rfl rfl

theorem watchLaggards (s : State) : Ticks s s.watchLaggards := foldl (fun a g => watchGroup a g) _ s

theorem runLaggards (s : State) (n : Nat) : Ticks s (s.runLaggards n) := by
  refine foldl (fun a c => ?_) _ s
  dsimp only
  (repeat' split) <;> exact same rfl rfl

theorem drive (s : State) (o : Out) : Ticks s (s.drive o) := same rfl rfl

theorem driveTrace (s : State) (n : Nat) : Ticks s (s.driveTrace n) := by
  unfold State.driveTrace
  split
  · exact refl s
  · exact foldl_keeps (P := Ticks s) (fun a p ha => ha.trans (drive a _)) _ (same rfl rfl)

theorem flushIncs (s : State) (p : Nat × Option (BitVec 20) → Bool) : Ticks s (s.flushIncs p) :=
  same (flushIncs_told s p).sems (flushIncs_told s p).queues

theorem liveCycles (s : State) (n : Nat) : Ticks s (s.liveCycles n) := by
  unfold State.liveCycles
  split
  · exact refl s
  · have timers := (judgeAll s n).trans (runTimers _ n)
    have laggards := (timers.trans (watchLaggards _)).trans (runLaggards _ n)
    exact ((laggards.trans (driveTrace _ n)).trans (flushIncs _ _)).trans (same rfl rfl)

theorem switchCycle (s : State) : Ticks s s.switchCycle := by
  refine trans (foldl (fun a l => ?_) _ s) (same rfl rfl)
  rw [count_eq]
  exact same rfl rfl

theorem runSwitches (k n : Nat) (s : State) : Ticks s (State.runSwitches k n s) := by
  induction k generalizing n s with
  | zero => cases n <;> exact liveCycles s _
  | succ k ih =>
    cases n with
    | zero => exact liveCycles s _
    | succ n => exact ((switchCycle s).trans (liveCycles _ 1)).trans (ih n _)

theorem runCycles (s : State) (n : Nat) : Ticks s (s.runCycles n) := by
  unfold State.runCycles
  split
  · exact runSwitches _ n s
  · exact refl s

theorem trace (s : State) (ty u : Nat) (q : Option Nat) (p : Nat) : Ticks s (s.trace ty u q p) := by
  rw [trace_eq]
  exact same rfl rfl

theorem takeSnapshot (s : State) (asks : List TallyAsk) : Ticks s (s.takeSnapshot asks).1 := same rfl rfl

theorem askTally (s : State) (a : TallyAsk) : Ticks s (s.askTally a) := same rfl rfl

theorem traceFree (s : State) (ty p : Nat) : Ticks s (s.traceFree ty p) := (trace s ty _ none p).trans (same rfl rfl)

theorem tallyEdge (s : State) : Ticks s s.tallyEdge := by
  unfold State.tallyEdge
  extract_lets due asks _ edge snap clear frz
  split
  next taken later htaken =>
    have snapped : Ticks s taken := by
      rw [← show _ = taken from congrArg Prod.fst htaken]
      split
      · exact trans (show Ticks s edge from same rfl rfl) (takeSnapshot edge asks)
      · exact same rfl rfl
    extract_lets asked _ cleared _ frozen
    have asks : Ticks taken asked := foldl (fun a q => askTally a (.user q)) later taken
    have clears : Ticks asked cleared := by
      show Ticks asked (if _ then _ else _)
      split <;> exact same rfl rfl
    have freezes : Ticks cleared frozen := same rfl rfl
    exact ((snapped.trans asks).trans (clears.trans freezes)).trans (traceFree frozen 5 _)

theorem runEdges (k n : Nat) (s : State) : Ticks s (State.runEdges k n s) := by
  induction k generalizing n s with
  | zero => exact runCycles s n
  | succ k ih =>
    unfold State.runEdges
    split
    · split
      · exact ((runCycles s _).trans (tallyEdge _)).trans (ih _ _)
      · exact runCycles s n
    · exact runCycles s n

theorem passCycles (s : State) (n : Nat) : Ticks s (s.passCycles n) := runEdges _ n s

theorem inTurn (s : State) (i rank : Nat) (k : BitVec 20) : Ticks s (s.inTurn i rank k) := by
  unfold State.inTurn
  split
  · exact passCycles s 1
  · exact refl s

/-- A queue whose work a fault may stop stays one. -/
theorem mayFail {q : Nat} (h : Ticks s t) (hq : s.mayFail q) : t.mayFail q := by
  obtain ⟨n, hn⟩ := h.queue q
  unfold State.mayFail
  rw [hn]
  exact hq

end Ticks

/-- A queue whose progress timer runs is Running, and no stop of its work is in progress. -/
theorem mayFail_of_timer {q : Nat} (h : s.timerStands q = false) : s.mayFail q := by
  simp only [State.timerStands, Queue.stopping, Bool.or_eq_false_iff, bne_eq_false_iff_eq, Option.isSome_eq_false_iff,
    Option.isNone_iff_eq_none] at h
  obtain ⟨⟨⟨⟨⟨⟨hst, -⟩, -⟩, hstop⟩, -⟩, -⟩, -⟩ := h
  exact ⟨.inl hst, hstop⟩

theorem timeoutFault_status (s : State) (q : Nat) : (s.timeoutFault q).status = stQueueTimeout := by
  unfold State.timeoutFault
  dsimp only
  (repeat' split) <;> rfl

/-- The progress timer's limit comes: the cycles up to it pass, and the queue's work stops with ST_QUEUE_TIMEOUT. -/
theorem progressTimeout_stops {q : Nat} (ha : s.alive = true) (hq : q < s.cfg.queues) (htimer : s.timerStands q = false)
    (htmo : (s.queue q).tmo < 31) : ∃ t, exec (.progressTimeout q) s = .next t ∧ t.stopsWith q stQueueTimeout ∧
      t.ccyc = s.ccyc + BitVec.ofNat 48 ((s.queue q).limit - (s.queue q).timer) := by
  have hgo : (s.alive && decide (q < s.cfg.queues) && !s.timerStands q && decide ((s.queue q).tmo < 31)) = true := by
    simp [ha, hq, htimer, htmo]
  show ∃ t, execProgressTimeout q s = _ ∧ _
  unfold execProgressTimeout
  refine ⟨_, whenever_pos hgo s _, ?_, ?_⟩
  · rw [← timeoutFault_status]
    exact failCmd_stopsWith _ _ ((Ticks.passCycles s _).mayFail (mayFail_of_timer htimer))
  · exact (State.failCmd_calm _ _ _ _).1.trans (Passes.passCycles ha _).ccyc

end Sys2Proof.Machine
end

section
/-!
PROOFS. What the stops of queues' work and the records that are written leave of a queue that reports its own fault (R107, R109, R110):
`Reported q s t` says that between `s` and `t` queue `q` keeps its SEQ and the status of its last fault, no batch comes or goes, the pointer
of the fault log stays, and no event of the queue's or of translation is lost.
-/

namespace Sys2Proof.Machine

structure Reported (q : Nat) (s t : State) : Prop where
  seq : (t.queue q).seq = (s.queue q).seq
  lastSt : (t.queue q).lastSt = (s.queue q).lastSt
  batches : t.porter.batches = s.porter.batches
  flogWp : t.reg offFlogWp = s.reg offFlogWp
  events : ∀ off ∈ [offQ q qEvents, offXltEvents], ∀ i < 32, s.flag off i = true → t.flag off i = true

namespace Reported
variable {q : Nat} {s t u : State}

-- What is written besides.

/-- What touches no batch and neither register leaves the rest to the queue. -/
theorem of_regs (hseq : (t.queue q).seq = (s.queue q).seq) (hlast : (t.queue q).lastSt = (s.queue q).lastSt)
    (hb : t.porter.batches = s.porter.batches) (hr : t.regs = s.regs) : Reported q s t := by
  have hreg (off : Nat) : t.reg off = s.reg off := State.reg_of_regs (congrArg (fun b => b.get off) hr)
  exact ⟨hseq, hlast, hb, hreg _, fun off _ i _ h => by rwa [State.flag, hreg]⟩

theorem same (hq : t.queues = s.queues) (hb : t.porter.batches = s.porter.batches) (hr : t.regs = s.regs) : Reported q s t := by
  have hqueue : t.queue q = s.queue q := congrArg (fun b => b.get q) hq
  exact of_regs (by rw [hqueue]) (by rw [hqueue]) hb hr

theorem refl (q : Nat) (s : State) : Reported q s s := same rfl rfl rfl

theorem trans (h : Reported q s t) (k : Reported q t u) : Reported q s u where
  seq := k.seq.trans h.seq
  lastSt := k.lastSt.trans h.lastSt
  batches := k.batches.trans h.batches
  flogWp := k.flogWp.trans h.flogWp
  events off ho i hi hs := k.events off ho i hi (h.events off ho i hi hs)

theorem foldl {β : Type} {g : State → β → State} (h : ∀ a x, Reported q a (g a x)) (l : List β) (s : State) :
    Reported q s (l.foldl g s) :=
  foldl_keeps (P := Reported q s) (fun a x ha => ha.trans (h a x)) l (refl q s)

/-- A queue is written, but for SEQ and the status of its last fault. -/
theorem setQueue (s : State) {j : Nat} {v : Queue} (hseq : v.seq = (s.queue j).seq) (hlast : v.lastSt = (s.queue j).lastSt) :
    Reported q s (s.setQueue j v) := by
  by_cases hj : q = j
  · subst hj
    exact of_regs (by rw [State.setQueue_queue, hseq]) (by rw [State.setQueue_queue, hlast]) rfl rfl
  · have hother := State.setQueue_queue_other s j q v hj
    exact of_regs (by rw [hother]) (by rw [hother]) rfl rfl

/-- A register that is neither the log's pointer nor one of the event registers is written. -/
theorem setReg (s : State) {off : Nat} (v : Word) (hwp : off ≠ offFlogWp) (hev : off ∉ [offQ q qEvents, offXltEvents]) :
    Reported q s (s.setReg off v) := by
  refine ⟨rfl, rfl, rfl, s.setReg_reg_other v hwp.symm, fun o ho i _ h => ?_⟩
  have hreg : (s.setReg off v).reg o = s.reg o := s.setReg_reg_other v (fun he => hev (he ▸ ho))
  rwa [State.flag, hreg]

theorem raiseEvent (s : State) {off : Nat} (i : Nat) (hwp : off ≠ offFlogWp) : Reported q s (s.raiseEvent off i) := by
  refine ⟨rfl, rfl, rfl, s.setReg_reg_other _ hwp.symm, fun o _ j hj h => ?_⟩
  by_cases ho : o = off
  · rw [ho] at h ⊢
    rw [State.raiseEvent_flag s off i j hj, h]
    rfl
  · rw [State.flag, State.raiseEvent_regsBut s off i o (by simpa using ho)]
    exact h

theorem raiseQueue (s : State) (j i : Nat) : Reported q s (s.raiseQueue j i) :=
  raiseEvent s i (by simp only [offQ, qEvents, offFlogWp]; omega)

theorem trace (s : State) (ty u : Nat) (k : Option Nat) (p : Nat) : Reported q s (s.trace ty u k p) := by
  unfold State.trace
  dsimp only
  split
  · exact refl q s
  · split
    · exact setReg s _ (by decide) (by simp only [List.mem_cons, offQ, qEvents, offXltEvents, offTlyTraceDrop]; simp; omega)
    · exact same rfl rfl rfl

-- The stop of a queue's work.

theorem extraFault (s : State) (j : Nat) : Reported q s (s.extraFault j) := by
  unfold State.extraFault
  dsimp only
  split
  · exact setQueue s rfl rfl
  · exact refl q s

theorem leavesLane (s : State) (r : Req) : Reported q s (s.leavesLane r) := by
  unfold State.leavesLane
  (repeat' split) <;> exact same rfl rfl rfl

theorem corPush (s : State) (toEast : Bool) (cls : Nat) (i : CorItem) : Reported q s (s.corPush toEast cls i) := same rfl rfl rfl

theorem sendReq (s : State) (r : Req) (p : ReqPath) : Reported q s (s.sendReq r p) := by
  cases p with
  | hold => exact same rfl rfl rfl
  | enter => exact (leavesLane s r).trans (same rfl rfl rfl)
  | cross => exact (leavesLane s r).trans (corPush _ _ _ _)
  | gone | fail _ => exact refl q s

theorem letGo (s : State) (j : Nat) (r : Req) : Reported q s (s.letGo j r) := by
  unfold State.letGo
  split
  · exact extraFault s j
  · exact sendReq s _ _

theorem letGoParcel (s : State) (j : Nat) (x : TxParcel) : Reported q s (s.letGoParcel j x) := by
  unfold State.letGoParcel
  dsimp only
  split
  · exact same rfl rfl rfl
  · split
    · exact (extraFault s j).trans (same rfl rfl rfl)
    · exact corPush s _ _ _

theorem stopLanes (s : State) (j : Nat) : Reported q s (s.stopLanes j) := by
  unfold State.stopLanes
  refine trans ?_ (foldl (fun a r => letGo a j r) _ _)
  exact same rfl rfl rfl

theorem stopPorter (s : State) (j : Nat) : Reported q s (s.stopPorter j) := by
  unfold State.stopPorter
  refine trans ?_ (foldl (fun a x => letGoParcel a j x) _ _)
  exact same rfl rfl rfl

/-- The units' parts of a stop, one after another. -/
theorem stopWork (s : State) (j : Nat) : Reported q s (((((s.stopReads j).stopWaiters j).stopPorter j).stopLanes j).stopPushes j) := by
  have waits : Reported q s ((s.stopReads j).stopWaiters j) := same rfl rfl rfl
  exact ((waits.trans (stopPorter _ j)).trans (stopLanes _ j)).trans (same rfl rfl rfl)

theorem updRing (s : State) (r : Nat) (f : Ring → Ring) : Reported q s (s.updRing r f) := same rfl rfl rfl

theorem stopUnits (s : State) (j : Nat) : Reported q s (s.stopUnits j) := by
  unfold State.stopUnits
  dsimp only
  generalize ht : (s.taskRings j).foldl (fun a r => a.updRing r Ring.abandon) s = t
  have rings : Reported q s t := ht ▸ foldl (fun a r => updRing a r _) _ s
  have units := rings.trans (stopWork t j)
  split
  · exact units.trans (same rfl rfl rfl)
  · exact units

theorem commitStopped (s : State) (j : Nat) (st : Byte) : Reported q s (s.commitStopped j st) := by
  unfold State.commitStopped
  split
  · refine trans (setReg s (off := offLdgResult) _ (by decide) ?_) (raiseEvent _ 1 (by decide))
    simp only [List.mem_cons, offQ, qEvents, offXltEvents, offLdgResult]; simp; omega
  · exact refl q s

theorem updSnap (s : State) (j : Nat) (idx : BitVec 16) (u : Nat) (f : UnitSnap → UnitSnap) : Reported q s (s.updSnap j idx u f) :=
  setQueue s rfl rfl

theorem snapInstr (s : State) (j : Nat) (idx : BitVec 16) (f : FaultInfo) : Reported q s (s.snapInstr j idx f) := by
  unfold State.snapInstr
  split
  · exact updSnap s j idx 1 _
  · exact refl q s

theorem failCmd (s : State) (j : Nat) (idx : BitVec 16) (f : FaultInfo) : Reported q s (s.failCmd j idx f) := by
  unfold State.failCmd
  dsimp only
  split
  · exact extraFault s j
  · split
    · have snaps : Reported q s (s.snapUnits j idx) := foldl (fun a u => updSnap a j idx u _) _ s
      refine trans ?_ (stopUnits _ j)
      refine trans ?_ (commitStopped _ j f.status)
      exact (snaps.trans (snapInstr _ j idx f)).trans (setQueue _ rfl rfl)
    · exact refl q s

-- Records.

theorem settle (s : State) (j : Nat) : Reported q s (s.settle j) := by
  unfold State.settle
  dsimp only
  split
  · exact setQueue s rfl rfl
  · exact refl q s

theorem advanceHead (s : State) (j : Nat) : Reported q s (s.advanceHead j) := setQueue s rfl rfl

theorem progress (s : State) (j : Nat) : Reported q s (s.progress j) := setQueue s rfl rfl

theorem endCmd (s : State) (j : Nat) (c : Cmd) : Reported q s (s.endCmd j c) := by
  unfold State.endCmd State.closeCmd
  refine trans ?_ (settle _ j)
  refine trans ?_ (advanceHead _ j)
  refine trans ?_ (progress _ j)
  exact (trace s _ _ _ _).trans (setQueue _ rfl rfl)

theorem recordDone (s : State) : Reported q s s.recordDone := same rfl rfl rfl

theorem raises (s : State) (j i : Nat) (c : Bool) : Reported q s (if c then s.raiseQueue j i else s) := by
  cases c
  · exact refl q s
  · exact raiseQueue s j i

theorem noteActs (s : State) (n : Note) (bad : Bool) : Reported q s (s.noteActs n bad) := by
  cases n with
  | done j irq marker =>
    unfold State.noteActs
    dsimp only
    have hraise := (raises (q := q) s j 5 bad).trans (raises _ j 0 irq)
    split
    · split
      · exact hraise.trans (endCmd _ j _)
      · exact hraise
    · exact hraise
  | fault j => exact raises s j 4 bad
  | log _ =>
    cases bad
    · exact refl q s
    · exact raiseEvent s 2 (by decide)
  | load => exact raiseEvent s _ (by decide)
  | tally => exact (raiseEvent s (off := offTlyStatus) _ (by decide)).trans (recordDone _)
  | snap j _ =>
    cases bad
    · exact (recordDone s).trans (setQueue _ rfl rfl)
    · exact recordDone s
  | reply _ _ => cases bad <;> exact same rfl rfl rfl

theorem recordPart (s : State) (rid id : Nat) (bad : Bool) : Reported q s (s.recordPart rid id bad) := by
  unfold State.recordPart
  split
  · exact refl q s
  · dsimp only
    split
    · refine trans ?_ (noteActs _ _ _)
      exact same rfl rfl rfl
    · exact same rfl rfl rfl

theorem recordFails (s : State) (rid id : Nat) (f : FaultInfo) : Reported q s (s.recordFails rid id f) := by
  unfold State.recordFails
  split
  · split
    · refine trans ?_ (failCmd _ _ _ _)
      exact same rfl rfl rfl
    · exact recordPart s _ _ _
  · exact refl q s

theorem sendPart (s : State) (r : Req) : Reported q s (s.sendPart r) := by
  unfold State.sendPart
  split
  · exact recordFails s _ _ _
  · exact sendReq s r _

theorem writeRecord (s : State) (n : Note) (w : Writer) (chunks : List (Nat × List Byte)) :
    Reported q s (s.writeRecord n w chunks) := by
  unfold State.writeRecord
  refine trans ?_ (foldl (fun a p => sendPart a _) _ _)
  exact same rfl rfl rfl

/-- EN of a queue, in its QCTL_CFG, is no event. -/
theorem putEn (s : State) (j : Nat) (v : Bool) : Reported q s (s.putBit (offQ j qCfg) 31 v) := by
  have hwp : offQ j qCfg ≠ offFlogWp := by simp only [offQ, qCfg, offFlogWp]; omega
  unfold State.putBit
  split
  · exact raiseEvent s 31 hwp
  · refine setReg s _ hwp ?_
    simp only [List.mem_cons, offQ, qCfg, qEvents, offXltEvents]; simp; omega

theorem beginRetire (s : State) (j : Nat) : Reported q s (s.beginRetire j) := by
  unfold State.beginRetire
  dsimp only
  refine trans ?_ (putEn _ j false)
  refine trans ?_ (setQueue _ rfl rfl)
  refine (stopUnits s j).trans ?_
  split <;> exact same rfl rfl rfl

end Reported

-- Itineraries that are put back.

/-- Itineraries set aside take slots again: of the queues only the lane groups they are noted on change, and no record, request,
register or batch does. -/
structure Placed (s t : State) : Prop where
  queue : ∀ q, ∃ g, t.queue q = { s.queue q with groups := g }
  regs : t.regs = s.regs
  waiting : t.waiting = s.waiting
  records : t.records = s.records
  porter : t.porter = s.porter

namespace Placed
variable {s t u : State}

theorem refl (s : State) : Placed s s := ⟨fun q => ⟨(s.queue q).groups, rfl⟩, rfl, rfl, rfl, rfl⟩

theorem trans (h : Placed s t) (k : Placed t u) : Placed s u where
  queue q := by
    obtain ⟨g, hg⟩ := h.queue q
    obtain ⟨g', hg'⟩ := k.queue q
    rw [hg] at hg'
    exact ⟨g', hg'⟩
  regs := k.regs.trans h.regs
  waiting := k.waiting.trans h.waiting
  records := k.records.trans h.records
  porter := k.porter.trans h.porter

theorem foldl {β : Type} {g : State → β → State} (h : ∀ a x, Placed a (g a x)) (l : List β) (s : State) : Placed s (l.foldl g s) :=
  foldl_keeps (P := Placed s) (fun a x ha => ha.trans (h a x)) l (refl s)

theorem fillQueue (s : State) (lane : Nat) : Placed s (s.fillQueue lane) := by
  unfold State.fillQueue
  dsimp only
  split
  · exact refl s
  · exact { refl s with }

theorem putBack (s : State) (q : Nat) (p : Nat × Nat × Nat) : Placed s (s.putBack q p) := by
  unfold State.putBack
  split
  · exact refl s
  · refine trans ?_ (fillQueue _ _)
    exact { refl s with }

theorem updGroups (s : State) (q : Nat) (f : Queue → List Nat) : Placed s (s.updQueue q (fun v => { v with groups := f v })) :=
  { refl s with
    queue := by
      intro j
      by_cases hj : j = q
      · subst hj
        exact ⟨_, State.updQueue_queue s j _⟩
      · exact ⟨(s.queue j).groups, State.setQueue_queue_other s q j _ hj⟩ }

theorem placeAside (s : State) (q : Nat) : Placed s (s.placeAside q) := by
  unfold State.placeAside
  split
  · exact refl s
  · split
    · exact refl s
    · exact (foldl (fun a p => putBack a q p) _ s).trans (updGroups _ q _)

theorem placeAsides (s : State) : Placed s s.placeAsides := foldl (fun a q => placeAside a q) _ s

theorem reported (h : Placed s t) (q : Nat) : Reported q s t := by
  obtain ⟨g, hg⟩ := h.queue q
  exact .of_regs (by rw [hg]) (by rw [hg]) (congrArg (fun p => p.batches) h.porter) h.regs

end Placed

end Sys2Proof.Machine
end

section
/-!
PROOFS. How the stop of a queue's work ends: its fault record, its log entry, and the queue Faulted or Retiring (R107-R110, R321).
-/

namespace Sys2Proof.Machine

variable {s : State} {q : Nat} {p : Stop} {f : FaultInfo}

-- The parts of the end of a stop.

/-- Batches, lost writes, blocks and a snapshot's record of the queue are over. -/
def State.workGone (s : State) (q : Nat) : State :=
  ({ s with
    porter := { s.porter with batches := s.porter.batches.filter (fun b => b.q != q) }
    lost := s.lost.filter (fun l => l.q != q)
    blocks := s.blocks.filter (fun b => b.q != q) } : State).dropSnap q

theorem workGone_eq (s : State) (q : Nat) : s.workGone q = { s with
    porter := { s.porter with batches := s.porter.batches.filter (fun b => b.q != q) }
    lost := s.lost.filter (fun l => l.q != q)
    blocks := s.blocks.filter (fun b => b.q != q)
    records := (s.workGone q).records, tally := (s.workGone q).tally } := by
  unfold State.workGone State.dropSnap
  dsimp only
  split <;> rfl

/-- SEQ has counted the fault record (R109). -/
def State.recordCounted (s : State) (q : Nat) : State := (s.workGone q).updQueue q (fun v => { v with seq := v.seq + 1 })

/-- The fault record has been written or dropped, and FAULT is raised. -/
def State.faultTold (s : State) (q : Nat) (f : FaultInfo) (p : Stop) : State :=
  ((s.workGone q).writeFaultRecord q f p).raiseQueue q 1

/-- The queue is Faulted with the status of its fault; its commands stand as they do after a stop (R105). -/
def State.markedFaulted (s : State) (q : Nat) (f : FaultInfo) (failed : Option (BitVec 16)) : State :=
  let t := (s.updQueue q (fun v => { v.afterStop (failed.getD v.head) with
    lastSt := f.status, task := none, stop := none, snaps := .empty, suspSw := false, suspPre := false, suspending := false
    st := .faulted })).advanceHead q
  { t with preempted := t.preempted.filter (fun x => x.2 != q) }

/-- The queue is Faulted, or goes on with a RETIRE; slots may have become free. -/
def State.endsFaulted (s : State) (q : Nat) (f : FaultInfo) (failed : Option (BitVec 16)) (retire : Bool) : State :=
  (if retire then (s.markedFaulted q f failed).beginRetire q else s.markedFaulted q f failed).placeAsides

theorem stopEnds_fault (s : State) (q : Nat) (hf : p.fault = some f) : ∃ payload,
    s.stopEnds q p = ((s.faultTold q f p).trace 3 unitFront (some q) payload).endsFaulted q f p.failed p.retire := by
  refine ⟨cmdPayload q (((((s.faultTold q f p).queue q).cmd (p.failed.getD ((s.workGone q).queue q).head)).map
    (fun c => cmdOp c.bytes)).getD 0) true f.status ((s.workGone q).queue q).seq, ?_⟩
  unfold State.stopEnds State.endsFaulted State.markedFaulted State.faultTold State.workGone
  simp only [hf]

theorem stopEnds_retire (s : State) (q : Nat) (hf : p.fault = none) :
    s.stopEnds q p = ((s.workGone q).updQueue q (fun v => { v with stop := none, snaps := .empty })).placeAsides := by
  unfold State.stopEnds
  simp only [hf]
  rfl

-- The fault record.

theorem workGone_batches {b : Batch} (hb : b ∈ (s.workGone q).porter.batches) : b.q ≠ q := by
  rw [workGone_eq] at hb
  simpa using (List.mem_filter.1 hb).2

/-- Where the fault record goes, and what it says, are not changed by what is over. -/
theorem workGone_record (s : State) (q : Nat) (f : FaultInfo) (p : Stop) : (s.workGone q).frecBase q = s.frecBase q ∧
    (s.workGone q).devid = s.devid ∧ (s.workGone q).faultBytes q f p = s.faultBytes q f p ∧
    (s.workGone q).feWriter q = s.feWriter q := by
  rw [workGone_eq]
  exact ⟨rfl, rfl, rfl, rfl⟩

theorem workGone_writes (s : State) (q : Nat) (f : FaultInfo) (p : Stop) : (s.workGone q).writeFaultRecord q f p =
    if paDevice (s.frecBase q) != s.devid then (s.recordCounted q).raiseQueue q 4
    else (s.recordCounted q).writeRecord (.fault q) (s.feWriter q) [(s.frecBase q, s.faultBytes q f p)] := by
  obtain ⟨hbase, hdev, hbytes, hwriter⟩ := workGone_record s q f p
  unfold State.writeFaultRecord
  rw [hbase, hdev, hbytes, ← hwriter]
  rfl

theorem faultTold_reported (s : State) (q : Nat) (f : FaultInfo) (p : Stop) : Reported q (s.recordCounted q) (s.faultTold q f p) := by
  unfold State.faultTold
  rw [workGone_writes]
  refine Reported.trans ?_ (.raiseQueue _ q 1)
  split
  · exact .raiseQueue _ q 4
  · exact .writeRecord _ _ _ _

/-- A record whose slot lies on another device is lost (R110). -/
theorem faultTold_lost (hdev : paDevice (s.frecBase q) ≠ s.devid) : (s.faultTold q f p).flag (offQ q qEvents) 4 = true := by
  unfold State.faultTold
  rw [workGone_writes, if_pos (bne_iff_ne.2 hdev)]
  exact (Reported.raiseQueue (q := q) _ q 1).events _ (List.mem_cons_self ..) 4 (by decide) (State.raiseEvent_flag_same _ _ _ (by decide))

/-- A record that its ports take is on its way to memory. -/
theorem faultTold_waits (hdev : paDevice (s.frecBase q) = s.devid) (hgo : s.recordGoes [(s.frecBase q, s.faultBytes q f p)]) :
    (s.faultTold q f p).recordWaits (.fault q) (s.qAsid q) (s.qPrio q) [(s.frecBase q, s.faultBytes q f p)] := by
  have hgo' : (s.recordCounted q).recordGoes [(s.frecBase q, s.faultBytes q f p)] := by
    unfold State.recordCounted
    rw [workGone_eq]
    exact hgo
  unfold State.faultTold
  rw [workGone_writes, if_neg (by simpa using hdev), writeRecord_goes _ _ hgo']
  exact recordWaits_of_pieces (s.recordCounted q) _ _ (s.feWriter q)

-- The queue after it.

theorem markedFaulted_queue (s : State) (q : Nat) (f : FaultInfo) (failed : Option (BitVec 16)) :
    ((s.markedFaulted q f failed).queue q).st = .faulted ∧ ((s.markedFaulted q f failed).queue q).stop = none ∧
      ((s.markedFaulted q f failed).queue q).lastSt = f.status ∧ ((s.markedFaulted q f failed).queue q).seq = (s.queue q).seq := by
  have hqueue : (s.markedFaulted q f failed).queue q = _ := State.setQueue_queue _ q _
  rw [hqueue, State.updQueue_queue]
  exact ⟨rfl, rfl, rfl, rfl⟩

theorem putBit_queue (s : State) (off i : Nat) (v : Bool) (q : Nat) : (s.putBit off i v).queue q = s.queue q := by
  rw [State.putBit_eq]
  rfl

theorem beginRetire_st (s : State) (q : Nat) : ((s.beginRetire q).queue q).st = .retiring :=
  congrArg Queue.st ((putBit_queue _ _ _ _ q).trans (State.updQueue_queue _ q _))

theorem endsFaulted_reported (s : State) (q : Nat) (f : FaultInfo) (failed : Option (BitVec 16)) (retire : Bool) :
    Reported q (s.markedFaulted q f failed) (s.endsFaulted q f failed retire) := by
  refine Reported.trans ?_ ((Placed.placeAsides _).reported q)
  split
  · exact .beginRetire _ q
  · exact .refl q _

theorem endsFaulted_st (s : State) (q : Nat) (f : FaultInfo) (failed : Option (BitVec 16)) (retire : Bool) :
    ((s.endsFaulted q f failed retire).queue q).st = if retire then .retiring else .faulted := by
  have placed : Placed _ (s.endsFaulted q f failed retire) := .placeAsides _
  obtain ⟨g, hg⟩ := placed.queue q
  rw [hg]
  cases retire
  · exact (markedFaulted_queue s q f failed).1
  · exact beginRetire_st _ q

/-- The commands' marking and the new state are the queue's alone. -/
theorem markedFaulted_same (s : State) (q : Nat) (f : FaultInfo) (failed : Option (BitVec 16)) :
    (s.markedFaulted q f failed).regs = s.regs ∧ (s.markedFaulted q f failed).porter = s.porter ∧
      (s.markedFaulted q f failed).waiting = s.waiting ∧ (s.markedFaulted q f failed).records = s.records :=
  ⟨rfl, rfl, rfl, rfl⟩

theorem markedFaulted_reg (s : State) (q : Nat) (f : FaultInfo) (failed : Option (BitVec 16)) (off : Nat) :
    (s.markedFaulted q f failed).reg off = s.reg off :=
  State.reg_of_regs (congrArg (fun b => b.get off) (markedFaulted_same s q f failed).1)

/-- No event of the queue's or of translation is lost at the end of its stop. -/
theorem endsFaulted_events (s : State) (q : Nat) (f : FaultInfo) (failed : Option (BitVec 16)) (retire : Bool) {off i : Nat}
    (ho : off ∈ [offQ q qEvents, offXltEvents]) (hi : i < 32) (h : s.flag off i = true) :
    (s.endsFaulted q f failed retire).flag off i = true := by
  refine (endsFaulted_reported s q f failed retire).events off ho i hi ?_
  rwa [State.flag, markedFaulted_reg]

/-- Without a RETIRE to follow, the stop is over, and the records and requests are left. -/
theorem endsFaulted_over (s : State) (q : Nat) (f : FaultInfo) (failed : Option (BitVec 16)) :
    ((s.endsFaulted q f failed false).queue q).stop = none ∧ (s.endsFaulted q f failed false).waiting = s.waiting ∧
      (s.endsFaulted q f failed false).records = s.records := by
  have placed : Placed (s.markedFaulted q f failed) (s.endsFaulted q f failed false) := .placeAsides _
  obtain ⟨-, -, hwait, hrec⟩ := markedFaulted_same s q f failed
  obtain ⟨g, hg⟩ := placed.queue q
  refine ⟨?_, placed.waiting.trans hwait, placed.records.trans hrec⟩
  rw [hg]
  exact (markedFaulted_queue s q f failed).2.1

/-- What the end of a stop for fault `f` leaves: the queue Faulted or Retiring with the status of its fault, SEQ counted, FAULT raised, no
batch of the queue's; the log's pointer and the events of translation stay. -/
structure FaultEnds (q : Nat) (f : FaultInfo) (retire : Bool) (s t : State) : Prop where
  st : (t.queue q).st = if retire then .retiring else .faulted
  lastSt : (t.queue q).lastSt = f.status
  seq : (t.queue q).seq = (s.queue q).seq + 1
  told : t.flag (offQ q qEvents) 1 = true
  batches : ∀ b ∈ t.porter.batches, b.q ≠ q
  flogWp : t.reg offFlogWp = s.reg offFlogWp
  xlt : ∀ i < 32, s.flag offXltEvents i = true → t.flag offXltEvents i = true

theorem recordCounted_queue (s : State) (q : Nat) : (s.recordCounted q).queue q = { s.queue q with seq := (s.queue q).seq + 1 } := by
  unfold State.recordCounted
  rw [State.updQueue_queue, workGone_eq]
  rfl

theorem recordCounted_regs (s : State) (q : Nat) : (s.recordCounted q).regs = s.regs := by
  unfold State.recordCounted
  rw [workGone_eq]
  rfl

/-- The end of a stop, from what has been told when the queue's commands are marked. -/
theorem endsFaulted_faultEnds {t : State} (told : Reported q (s.recordCounted q) t) (hfault : t.flag (offQ q qEvents) 1 = true)
    (failed : Option (BitVec 16)) (retire : Bool) : FaultEnds q f retire s (t.endsFaulted q f failed retire) := by
  have ended := endsFaulted_reported t q f failed retire
  obtain ⟨-, -, hlast, hseq⟩ := markedFaulted_queue t q f failed
  have hreg (off : Nat) : (s.recordCounted q).reg off = s.reg off :=
    State.reg_of_regs (congrArg (fun b => b.get off) (recordCounted_regs s q))
  refine ⟨endsFaulted_st t q f failed retire, ended.lastSt.trans hlast, ?_, ?_, fun b hb => ?_, ?_, fun i hi h => ?_⟩
  · rw [ended.seq, hseq, told.seq, recordCounted_queue]
  · exact endsFaulted_events t q f failed retire (List.mem_cons_self ..) (by decide) hfault
  · rw [ended.batches, (markedFaulted_same t q f failed).2.1, told.batches] at hb
    exact workGone_batches hb
  · rw [ended.flogWp, markedFaulted_reg, told.flogWp, hreg]
  · refine endsFaulted_events t q f failed retire (by simp) hi (told.events _ (by simp) i hi ?_)
    rwa [State.flag, hreg]

/-- FAULT is told, and the trace packet of the command's end does not take it back. -/
theorem faultTold_traced (s : State) (q : Nat) (f : FaultInfo) (p : Stop) (payload : Nat) :
    Reported q (s.faultTold q f p) ((s.faultTold q f p).trace 3 unitFront (some q) payload) := .trace _ _ _ _ _

theorem stopEnds_faultEnds (s : State) (q : Nat) (hf : p.fault = some f) : FaultEnds q f p.retire s (s.stopEnds q p) := by
  obtain ⟨payload, hends⟩ := stopEnds_fault s q hf
  have traced := faultTold_traced s q f p payload
  have hfault : (s.faultTold q f p).flag (offQ q qEvents) 1 = true := State.raiseEvent_flag_same _ _ _ (by decide)
  rw [hends]
  generalize (s.faultTold q f p).trace 3 unitFront (some q) payload = t at traced
  exact endsFaulted_faultEnds ((faultTold_reported s q f p).trans traced)
    (traced.events _ (List.mem_cons_self ..) 1 (by decide) hfault) _ _

theorem recordWaits_of_eq {t u : State} {n : Note} {asid : BitVec 16} {prio : BitVec 2} {chunks : List (Nat × List Byte)}
    (hw : u.waiting = t.waiting) (hr : u.records = t.records) (h : t.recordWaits n asid prio chunks) :
    u.recordWaits n asid prio chunks := by
  unfold State.recordWaits
  rw [hw, hr]
  exact h

theorem trace_requests (s : State) (ty u : Nat) (k : Option Nat) (n : Nat) :
    (s.trace ty u k n).waiting = s.waiting ∧ (s.trace ty u k n).records = s.records := by
  rw [trace_eq]
  exact ⟨rfl, rfl⟩

/-- Without a RETIRE to follow, the stop is over; the fault record is on its way, or lost with FREC_LOST. -/
theorem stopEnds_record (hf : p.fault = some f) (hret : p.retire = false) : ((s.stopEnds q p).queue q).stop = none ∧
    (paDevice (s.frecBase q) ≠ s.devid → (s.stopEnds q p).flag (offQ q qEvents) 4 = true) ∧
    (paDevice (s.frecBase q) = s.devid → s.recordGoes [(s.frecBase q, s.faultBytes q f p)] →
      (s.stopEnds q p).recordWaits (.fault q) (s.qAsid q) (s.qPrio q) [(s.frecBase q, s.faultBytes q f p)]) := by
  obtain ⟨payload, hends⟩ := stopEnds_fault s q hf
  have traced := faultTold_traced s q f p payload
  obtain ⟨hwait, hrec⟩ := trace_requests (s.faultTold q f p) 3 unitFront (some q) payload
  rw [hends, hret]
  generalize (s.faultTold q f p).trace 3 unitFront (some q) payload = t at traced hwait hrec
  obtain ⟨hstop, hwait', hrec'⟩ := endsFaulted_over t q f p.failed
  refine ⟨hstop, fun hdev => ?_, fun hdev hgo => ?_⟩
  · exact endsFaulted_events t q f _ false (List.mem_cons_self ..) (by decide)
      (traced.events _ (List.mem_cons_self ..) 4 (by decide) (faultTold_lost hdev))
  · exact recordWaits_of_eq (hwait'.trans hwait) (hrec'.trans hrec) (faultTold_waits hdev hgo)

end Sys2Proof.Machine
end

section
/-!
PROOFS. STOP_COMPLETE: the log entry comes first, then the end of the stop (R107, R321).
-/

namespace Sys2Proof.Machine

variable {s : State} {q : Nat} {p : Stop} {f : FaultInfo} {l : LogInfo}

-- The log entry.

/-- The log entry has its number (R321); which wing met the fault is free where it is not known. -/
def State.logNumbered (s : State) (l : LogInfo) : State :=
  (if l.east.isSome then s else s.tick).setReg offFlogWp (BitVec.ofNat 32 ((s.reg offFlogWp).toNat + 1))

theorem logNumbered_eq (s : State) (l : LogInfo) :
    s.logNumbered l = { s with regs := (s.logNumbered l).regs, free := (s.logNumbered l).free } := by
  unfold State.logNumbered
  split <;> rfl

theorem logNumbered_regsBut (s : State) (l : LogInfo) : s.regsBut (s.logNumbered l) [offFlogWp] := by
  intro off ho
  unfold State.logNumbered
  split <;> exact State.setReg_reg_other _ _ (by simpa using ho)

theorem logNumbered_flogWp (s : State) (l : LogInfo) : (s.logNumbered l).reg offFlogWp = s.reg offFlogWp + 1 := by
  unfold State.logNumbered
  rw [State.setReg_reg_same]
  bv_omega

/-- The number of a log entry has nothing to do with where writes go. -/
theorem logNumbered_portFor (s : State) (l : LogInfo) (pa : Nat) : (s.logNumbered l).portFor pa = s.portFor pa := by
  have hreg := logNumbered_regsBut s l
  unfold State.portFor State.portOf State.interleave State.lowestPort State.flag
  rw [hreg offLdgIlv (by decide), hreg offMportLink (by decide), logNumbered_eq]
  rfl

theorem logNumbered_mportUp (s : State) (l : LogInfo) (k : Nat) : (s.logNumbered l).mportUp k = s.mportUp k := by
  have hreg := logNumbered_regsBut s l
  unfold State.mportUp State.flag
  rw [hreg offMportLink (by decide), hreg offMportFailed (by decide), logNumbered_eq]

theorem logNumbered_recordGoes {chunks : List (Nat × List Byte)} (h : s.recordGoes chunks) : (s.logNumbered l).recordGoes chunks := by
  intro w hw
  rw [logNumbered_portFor, logNumbered_mportUp]
  exact h w hw

/-- Where the fault log stands, and where its next entry goes (R321). -/
def State.logBase (s : State) : Nat := s.fld offFlogHi 0 20 * 2 ^ 32 + (s.reg offFlogLo).toNat
def State.logNext (s : State) : Nat := s.logBase + 32 * ((s.reg offFlogWp).toNat % 2 ^ max 4 (s.fld offFlogHi 28 4))

/-- An entry is lost with FLOG_LOST without the Steward or with the log on another device; else its 32 bytes are written. -/
theorem writeLog_eq (s : State) (q : Nat) (f : FaultInfo) (l : LogInfo) : ∃ b, b.length = 32 ∧ s.writeLog q f l =
    if !s.stwRunning || paDevice s.logBase != s.devid then (s.logNumbered l).raiseEvent offXltEvents 2
    else (s.logNumbered l).writeRecord (.log q) (s.logNumbered l).stwWriter [(s.logNext, b)] := by
  have hboot : (s.logNumbered l).stwRunning = s.stwRunning ∧ (s.logNumbered l).devid = s.devid := by
    rw [logNumbered_eq]
    exact ⟨rfl, rfl⟩
  rw [← hboot.1, ← hboot.2]
  refine ⟨record [((s.queue q).seq.toNat, 4), (q, 1), (f.status.toNat, 1), (f.unit.toNat, 1),
    (l.acc.toNat + (if l.east.getD (s.freeBelow 2 == 1) then 4 else 0) + (if l.shared then 8 else 0), 1), (l.page.toNat * 4096, 8),
    (l.asid.toNat, 2), (l.missId.toNat, 2), (0, 4), (l.ccyc.toNat, 8)], ?_, rfl⟩
  simp [record]

/-- The log entry of the queue's fault has been written, dropped, or is on its way. -/
def State.logTold (s : State) (q : Nat) (f : FaultInfo) (l : LogInfo) (p : Stop) : State :=
  (s.writeLog q f l).updQueue q (fun v => { v with stop := some { p with logged := true } })

theorem logTold_reported (s : State) (q : Nat) (f : FaultInfo) (l : LogInfo) (p : Stop) :
    Reported q (s.logNumbered l) (s.logTold q f l p) := by
  obtain ⟨b, -, hlog⟩ := writeLog_eq s q f l
  refine Reported.trans (t := s.writeLog q f l) ?_ (.setQueue _ rfl rfl)
  rw [hlog]
  split
  · exact .raiseEvent _ 2 (by decide)
  · exact .writeRecord _ _ _ _

theorem updQueue_flag (s : State) (q : Nat) (g : Queue → Queue) (off i : Nat) : (s.updQueue q g).flag off i = s.flag off i := rfl

theorem raiseEvent_records (s : State) (off i : Nat) : (s.raiseEvent off i).records = s.records := rfl

/-- A lost entry leaves no record, and FLOG_LOST. -/
theorem logTold_lost (h : s.stwRunning = false ∨ paDevice s.logBase ≠ s.devid) :
    (s.logTold q f l p).records = s.records ∧ (s.logTold q f l p).flag offXltEvents 2 = true := by
  obtain ⟨b, -, hlog⟩ := writeLog_eq s q f l
  unfold State.logTold
  rw [hlog, if_pos (by simpa using h)]
  refine ⟨?_, ?_⟩
  · rw [State.updQueue_records, raiseEvent_records, logNumbered_eq]
  · rw [updQueue_flag]
    exact State.raiseEvent_flag_same _ offXltEvents 2 (by decide)

/-- A record that its ports take leaves the queues, and is on its way. -/
theorem writeRecord_leaves (n : Note) (w : Writer) {chunks : List (Nat × List Byte)} (h : s.recordGoes chunks) :
    (s.writeRecord n w chunks).queues = s.queues ∧ (s.writeRecord n w chunks).recordWaits n w.asid w.prio chunks := by
  rw [writeRecord_goes n w h]
  exact ⟨rfl, recordWaits_of_pieces s n chunks w⟩

theorem logAway_of_waits {asid : BitVec 16} {prio : BitVec 2} {chunks : List (Nat × List Byte)}
    (h : s.recordWaits (.log q) asid prio chunks) : s.logAway q = true := by
  obtain ⟨x, hx, hnote, -⟩ := h
  exact List.any_eq_true.2 ⟨x, hx, by simp [hnote]⟩

/-- An entry that the ports take is on its way, and the queue waits for it. -/
theorem logTold_waits (hstw : s.stwRunning = true) (hdev : paDevice s.logBase = s.devid)
    (hgo : ∀ b : List Byte, b.length = 32 → s.recordGoes [(s.logNext, b)]) :
    (s.logTold q f l p).queue q = { s.queue q with stop := some { p with logged := true } } ∧
      ∃ b, b.length = 32 ∧ (s.logTold q f l p).recordWaits (.log q) s.stwAsid 1#2 [(s.logNext, b)] := by
  obtain ⟨b, hlen, hlog⟩ := writeLog_eq s q f l
  rw [if_neg (by simp [hstw, hdev])] at hlog
  obtain ⟨hqueues, hwaits⟩ := writeRecord_leaves (.log q) (s.logNumbered l).stwWriter (logNumbered_recordGoes (l := l) (hgo b hlen))
  rw [← hlog] at hqueues hwaits
  have hasid : (s.logNumbered l).stwWriter.asid = s.stwAsid ∧ (s.logNumbered l).queues = s.queues := by
    rw [logNumbered_eq]
    exact ⟨rfl, rfl⟩
  have hqueue : (s.writeLog q f l).queue q = s.queue q := congrArg (fun b => b.get q) (hqueues.trans hasid.2)
  unfold State.logTold
  refine ⟨?_, b, hlen, recordWaits_of_eq rfl rfl (hasid.1 ▸ hwaits)⟩
  rw [State.updQueue_queue, hqueue]

-- STOP_COMPLETE.

/-- STOP_COMPLETE when every unit has reported. -/
theorem stopComplete_runs (ha : s.alive = true) (hp : (s.queue q).stop = some p) (hst : s.stopped q = true)
    (hlog : s.logAway q = false) : exec (.stopComplete q) s =
      .next (if (s.stopLogs q p).logAway q then s.stopLogs q p else (s.stopLogs q p).stopEnds q p) := by
  show execStopComplete q s = _
  unfold execStopComplete
  simp only [hp]
  have hgo : (s.alive && s.stopped q && !s.logAway q) = true := by simp [ha, hst, hlog]
  exact whenever_pos hgo s _

/-- Nothing is to be logged. -/
theorem stopLogs_none (h : p.fault = none ∨ ∃ f, p.fault = some f ∧ (f.log = none ∨ p.logged = true)) : s.stopLogs q p = s := by
  unfold State.stopLogs
  obtain h | ⟨f, hf, h | h⟩ := h
  · simp [h]
  · simp [hf, h]
  · split
    · simp [h]
    · rfl

theorem stopLogs_told (hf : p.fault = some f) (hl : f.log = some l) (hlogged : p.logged = false) :
    s.stopLogs q p = s.logTold q f l p := by
  unfold State.stopLogs
  simp [hf, hl, hlogged, State.logTold]

theorem logAway_of_records {t : State} (h : t.records = s.records) : t.logAway q = s.logAway q := by
  unfold State.logAway
  rw [h]

/-- A stop for a fault whose log entry is settled ends. -/
theorem stopComplete_ends (ha : s.alive = true) (hp : (s.queue q).stop = some p) (hst : s.stopped q = true)
    (hlog : s.logAway q = false) (h : p.fault = none ∨ ∃ f, p.fault = some f ∧ (f.log = none ∨ p.logged = true)) :
    exec (.stopComplete q) s = .next (s.stopEnds q p) := by
  rw [stopComplete_runs ha hp hst hlog, stopLogs_none h, if_neg (by simp [hlog])]

/-- A stop for a fault that is to be logged: the entry comes first. -/
theorem stopComplete_logs (ha : s.alive = true) (hp : (s.queue q).stop = some p) (hf : p.fault = some f) (hl : f.log = some l)
    (hlogged : p.logged = false) (hst : s.stopped q = true) (hlog : s.logAway q = false) : ∃ t, exec (.stopComplete q) s = .next t ∧
      t.reg offFlogWp = s.reg offFlogWp + 1 ∧
      (s.stwRunning = false ∨ paDevice s.logBase ≠ s.devid → t.flag offXltEvents 2 = true ∧
        (t.queue q).st = (if p.retire then .retiring else .faulted)) ∧
      (s.stwRunning = true → paDevice s.logBase = s.devid → (∀ b : List Byte, b.length = 32 → s.recordGoes [(s.logNext, b)]) →
        (t.queue q).st = (s.queue q).st ∧ (t.queue q).stop = some { p with logged := true } ∧
        ∃ b, b.length = 32 ∧ t.recordWaits (.log q) s.stwAsid 1#2 [(s.logNext, b)]) := by
  have ends := stopEnds_faultEnds (s.logTold q f l p) q hf
  have wp : (s.logTold q f l p).reg offFlogWp = s.reg offFlogWp + 1 :=
    (logTold_reported s q f l p).flogWp.trans (logNumbered_flogWp s l)
  refine ⟨_, stopComplete_runs ha hp hst hlog, ?_, fun hlost => ?_, fun hstw hdev hgo => ?_⟩
  · rw [stopLogs_told hf hl hlogged]
    split
    · exact wp
    · exact ends.flogWp.trans wp
  · obtain ⟨hrec, hevent⟩ := logTold_lost (q := q) (f := f) (l := l) (p := p) hlost
    rw [stopLogs_told hf hl hlogged, if_neg (by rw [logAway_of_records hrec, hlog]; decide)]
    exact ⟨ends.xlt 2 (by decide) hevent, ends.st⟩
  · obtain ⟨hqueue, b, hlen, hwaits⟩ := logTold_waits (q := q) (f := f) (l := l) (p := p) hstw hdev hgo
    rw [stopLogs_told hf hl hlogged, if_pos (logAway_of_waits hwaits), hqueue]
    exact ⟨rfl, rfl, b, hlen, hwaits⟩

/-- A stop that a RETIRE began ends, with no itinerary set aside anywhere. -/
theorem stopEnds_retires (hf : p.fault = none) (hasides : ∀ j, s.asides j = []) : (s.stopEnds q p).regs = s.regs ∧
    s.queuesBut (s.stopEnds q p) q ∧ ((s.stopEnds q p).queue q).stop = none ∧
    ((s.stopEnds q p).queue q).st = (s.queue q).st := by
  rw [stopEnds_retire s q hf, placeAsides_stays, workGone_eq]
  · refine ⟨rfl, fun j hj => State.setQueue_queue_other _ q j _ hj, ?_, ?_⟩
    · rw [State.updQueue_queue]
    · rw [State.updQueue_queue]
      rfl
  · intro j
    rw [workGone_eq]
    exact .inr (hasides j)

end Sys2Proof.Machine
end

section
/-!
PROOFS. RETIRE_COMPLETE: every semaphore of the queue is poisoned and released (R108, R214).
-/

namespace Sys2Proof.Machine

variable {s t : State}

/-- The semaphores are as they were, but that waiters may be gone. -/
def State.semsDrop (s t : State) : Prop := ∀ i, ∃ l, t.sem i = { s.sem i with waiters := l }

namespace State.semsDrop

theorem of_sems (h : t.sems = s.sems) : s.semsDrop t := fun i => ⟨(s.sem i).waiters, by simp [State.sem, h]⟩

theorem trans {u : State} (h : s.semsDrop t) (k : t.semsDrop u) : s.semsDrop u := by
  intro i
  obtain ⟨l, hl⟩ := h i
  obtain ⟨l', hl'⟩ := k i
  rw [hl] at hl'
  exact ⟨l', hl'⟩

theorem foldl {β : Type} {g : State → β → State} (h : ∀ a x, State.semsDrop a (g a x)) (l : List β) (s : State) :
    s.semsDrop (l.foldl g s) :=
  foldl_keeps (P := s.semsDrop) (fun a x ha => ha.trans (h a x)) l (of_sems rfl)

theorem abort (s : State) (q : Nat) (f : FaultInfo) : s.semsDrop (s.abort q f) := (StopLeaves.abort s q f).sem

theorem dropWaiters (s : State) (ws : List SemWaiter) : s.semsDrop (s.dropWaiters ws) := fun i =>
  ⟨(s.sem i).waiters.filter (fun w => !ws.contains w), by
    unfold State.dropWaiters State.sem
    rw [Bank.get_each _ _ _ rfl]⟩

/-- Failing a waiter, or sending it the notice, takes it from other semaphores at most. -/
theorem toWaiter (s : State) (i : Nat) (w : SemWaiter) (item : CorItem) :
    s.semsDrop (s.toWaiter i w item (fun a => a.takePoisoned i w.q (a.waiterNum w.who))) := by
  unfold State.toWaiter
  split
  · exact abort s w.q _
  · split
    · exact abort s w.q _
    · exact of_sems rfl

end State.semsDrop

/-- Semaphore `i` is poisoned, holds nothing, and belongs to no queue. -/
def State.released (s : State) (i : Nat) : Prop :=
  (s.sem i).poisoned = true ∧ (s.sem i).owned = false ∧ (s.sem i).count = 0#20

theorem State.semsDrop.released (h : s.semsDrop t) {i : Nat} (hi : s.released i) : t.released i := by
  obtain ⟨l, hl⟩ := h i
  unfold State.released
  rw [hl]
  exact hi

/-- What poisoning writes of the semaphore itself. -/
def State.semPoisoned (s : State) (i : Nat) (release : Bool) : State :=
  (s.takeTurn i rankPoison).setSem i
    { s.sem i with count := 0#20, poisoned := true, owned := (s.sem i).owned && !release, waiters := [] }

/-- The semaphore's waiters on whole groups leave every member, and POISON goes to the client. -/
def State.poisonTold (s : State) (i : Nat) (ws : List SemWaiter) (k : Option Nat) : State :=
  ((((s.dropWaiters (ws.filter (fun w => match w.who with
    | .group _ _ _ => true
    | _ => false))).flushEarlier i).raiseEvent offSemEvents 2).sendSemo i 1#2 0#20).trace 4 (unitSem (semEast i)) k (semPayload i 3 0)

theorem semPoison_eq (s : State) (i : Nat) (release : Bool) : s.semPoison i release = (s.sem i).waiters.foldl
    (fun a w => a.toWaiter i w (.semNotice i w) (fun a => a.takePoisoned i w.q (a.waiterNum w.who)))
    ((s.semPoisoned i release).poisonTold i (s.sem i).waiters (if release then some (s.sem i).owner.toNat else none)) := rfl

theorem poisonTold_drops (s : State) (i : Nat) (ws : List SemWaiter) (k : Option Nat) : s.semsDrop (s.poisonTold i ws k) := by
  unfold State.poisonTold
  refine State.semsDrop.trans ?_ (.of_sems (Ticks.trace _ _ _ _ _).sems)
  refine State.semsDrop.trans ?_ (.of_sems (sendSemo_told _ i 1#2 0#20).sems)
  refine State.semsDrop.trans ?_ (.of_sems (s := State.flushEarlier _ i) rfl)
  exact (State.semsDrop.dropWaiters s _).trans (.of_sems (flushIncs_told _ _).sems)

/-- Poisoning a semaphore writes it, and takes waiters from the others. -/
theorem semPoison_drops (s : State) (i : Nat) (release : Bool) : (s.semPoisoned i release).semsDrop (s.semPoison i release) := by
  rw [semPoison_eq]
  exact (poisonTold_drops _ i _ _).trans (.foldl (fun a w => .toWaiter a i w _) _ _)

theorem semPoison_releases (s : State) (i : Nat) : (s.semPoison i true).released i := by
  refine (semPoison_drops s i true).released ?_
  unfold State.semPoisoned State.released
  rw [State.setSem_sem]
  simp

theorem semPoison_keeps {j : Nat} (i : Nat) (h : s.released j) : (s.semPoison i true).released j := by
  by_cases hj : j = i
  · rw [hj]
    exact semPoison_releases s i
  · refine (semPoison_drops s i true).released ?_
    unfold State.semPoisoned State.released
    rw [State.setSem_sem_other _ i j _ hj]
    exact h

/-- What each element of a list brings about and no other undoes holds at the end. -/
theorem foldl_reaches {β : Type} {P : β → State → Prop} {g : State → β → State} (make : ∀ a x, P x (g a x))
    (keep : ∀ a x y, P y a → P y (g a x)) {l : List β} {x : β} (hx : x ∈ l) (s : State) : P x (l.foldl g s) := by
  induction l generalizing s with
  | nil => cases hx
  | cons y l ih =>
    rw [List.foldl_cons]
    obtain rfl | hx := List.mem_cons.1 hx
    · exact foldl_keeps (P := P x) (fun a y ha => keep a y x ha) l (make s x)
    · exact ih hx _

theorem mem_cells_of_get {α : Type} [Inhabited α] {b : Bank α} {i : Nat} (h : b.get i ≠ default) : (i, b.get i) ∈ b.cells := by
  obtain ⟨l⟩ := b
  unfold Bank.get at h ⊢
  induction l with
  | nil => exact absurd rfl h
  | cons c l ih =>
    obtain ⟨j, v⟩ := c
    by_cases hj : j = i
    · simp [Bank.find, hj]
    · simp only [Bank.find, if_neg hj] at h ⊢
      exact List.mem_cons_of_mem _ (ih h)

/-- The semaphores a queue owns are among those listed. -/
theorem owned_listed {q i : Nat} (ho : (s.sem i).owned = true) (hq : (s.sem i).owner.toNat = q) :
    i ∈ (s.sems.cells.filter (fun c => c.2.owned && c.2.owner.toNat == q)).map (fun c => c.1) := by
  have hne : s.sems.get i ≠ default := fun h => by
    unfold State.sem at ho
    rw [h] at ho
    cases ho
  have hown : ((s.sems.get i).owned && (s.sems.get i).owner.toNat == q) = true := by
    rw [show (s.sems.get i).owned = true from ho, show (s.sems.get i).owner.toNat = q from hq]
    simp
  exact List.mem_map.2 ⟨_, List.mem_filter.2 ⟨mem_cells_of_get hne, hown⟩, rfl⟩

/-- RETIRE_COMPLETE: the queue is Idle without a task, and its semaphores are poisoned and released. -/
theorem retireComplete_releases {q : Nat} (ha : s.alive = true) (hst : (s.queue q).st = .retiring) (hstop : (s.queue q).stop = none) :
    ∃ t, exec (.retireComplete q) s = .next t ∧ (t.queue q).st = .idle ∧ (t.queue q).task = none ∧
      ∀ i, (s.sem i).owned = true → (s.sem i).owner.toNat = q → t.released i := by
  have hgo : (s.alive && (s.queue q).st == .retiring && !(s.queue q).stopping) = true := by simp [ha, hst, hstop, Queue.stopping]
  show ∃ t, execRetireComplete q s = _ ∧ _
  unfold execRetireComplete
  refine ⟨_, whenever_pos hgo s _, ?_, ?_, fun i ho hq => ?_⟩
  · rw [State.updQueue_queue]
  · rw [State.updQueue_queue]
  · have keep (a : State) (x y : Nat) (hy : a.released y) : ((a.inTurn x rankPoison 0#20).semPoison x true).released y :=
      semPoison_keeps x ((State.semsDrop.of_sems (Ticks.inTurn a x rankPoison 0#20).sems).released hy)
    exact foldl_reaches (P := fun i a => a.released i) (g := fun a i => (a.inTurn i rankPoison 0#20).semPoison i true)
      (fun a x => semPoison_releases _ x) keep (owned_listed ho hq) s

end Sys2Proof.Machine
end

section
/-!
PROOFS. Suspensions, timeouts and stops end (O46).
-/

namespace Sys2Proof.Machine

/-- Settles O46: each end by what its command leaves. What a stop's records set going, other queues' faults among it, is told by `Reported`,
and what a RETIRE's poisoning does to other semaphores by `semsDrop`. -/
theorem suspensionsTimeoutsAndStopsEnd : Obligations.SuspensionsTimeoutsAndStopsEnd := by
  unfold Obligations.SuspensionsTimeoutsAndStopsEnd
  intro s q ha
  refine ⟨fun hst hsusp hstop hbound hsw hcool hothers => ?suspension, fun w rest hpre htask hsusp hrest => ?release,
    fun w rest hpre htask hsusp hrest => ?held, progressTimeout_stops ha, fun p f hp hf hlog hst haway => ?fault,
    fun p f l base n hp hf hl hlogged hst haway hbase hn => ?log, fun p hp hf hst haway hasides => ?retire,
    retireComplete_releases ha⟩
  case suspension =>
    refine ⟨_, suspensionComplete_runs ha hst hsusp hstop hbound hsw hcool hothers, ?_⟩
    rw [workSuspended_queue]
    exact ⟨rfl, rfl, hsw, rfl, workSuspended_queuesBut s q, fun i hi hq => workSuspended_place hi hq, fun _ _ => rfl⟩
  case release =>
    have hnone : rest.any (fun p => p.2 == w) = false := by simpa using hrest
    rw [preemptRelease_runs ha hpre htask hsusp, hnone]
    rfl
  case held =>
    rw [preemptRelease_runs ha hpre htask hsusp, hrest]
    rfl
  case fault =>
    have ends := stopEnds_faultEnds s q hf
    exact ⟨_, stopComplete_ends ha hp hst haway (.inr ⟨f, hf, hlog⟩), ends.st, ends.lastSt, ends.seq, ends.told, ends.batches,
      stopEnds_record hf⟩
  case log =>
    subst hn hbase
    exact stopComplete_logs ha hp hf hl hlogged hst haway
  case retire =>
    obtain ⟨hregs, hothers, hstop, hkeep⟩ := stopEnds_retires (p := p) hf hasides
    exact ⟨_, stopComplete_ends ha hp hst haway (.inl hf), hstop, hkeep, hothers, hregs⟩

end Sys2Proof.Machine
end

section
/-!
PROOFS. Why O58 fails: a descriptor's read may take the place of another reading's.
-/

namespace Sys2Proof.Machine

/-- Itinerary 0 of queue 0, resident in slot 0 of lane 0, at a MOVE from descriptor 0 to descriptor 0, which it has not read. -/
def descriptorUnread : Itin := { (default : Itin) with place := .resident, status := .ready, prog := [0x3000000000000000#64] }

/-- Lane 0 runs that itinerary, page 0 is mapped to page 1, and the Steward's reading of an image has the number that is to be given next. -/
def descriptorBesideImage : State := { State.reset with
  pins := { State.reset.pins with poreset := false, pllLocked := true }
  regs := Bank.empty.set offMportLink (some 1#32)
  queues := Bank.empty.set 0 { (default : Queue) with st := .running, task := some { (default : Task) with phase := .running } }
  itins := [descriptorUnread]
  l2 := Bank.empty.set 0 [⟨0#16, 0#44, 1, 1#40, 7#3⟩]
  readings := [{ id := State.reset.nextId, who := .image, stream := stwStream, away := [], got := [], failed := [] }] }

/-- Descriptor 0 is asked for by the image's reading, whose address is physical: memory is read at 0, not at page 1 (R345, R404). -/
theorem descriptorBesideImage_reads_untranslated :
    (stateAfter descriptorBesideImage (exec (.descriptorRead 0 0 0) descriptorBesideImage)).waiting.map (fun x => x.pa) = [0] := by
  decide +kernel

/-- Refutes O58: its clause of a descriptor that is asked for speaks of any state, and nothing it asks for keeps `nextId` apart from the
numbers of the readings under way. With a reading of that number before it, the pieces of the itinerary's own reading are asked for as the
other's, whose addresses are not translated. -/
theorem not_laneEventsAct : ¬ Obligations.LaneEventsAct := by
  unfold Obligations.LaneEventsAct
  intro h
  obtain ⟨resident, -⟩ := h descriptorBesideImage 0 0 descriptorUnread
  obtain ⟨-, descriptor, -⟩ := resident (by decide +kernel) (by decide +kernel) (by decide +kernel) (by decide +kernel)
  obtain ⟨-, asked⟩ := descriptor 0 0 (by decide +kernel) (by decide +kernel) (by decide +kernel)
  have hfound : ((descriptorBesideImage.openReading (.desc 0)).1.lookPage ((descriptorBesideImage.openReading (.desc 0)).1.issuer
      (descriptorBesideImage.openReading (.desc 0)).2) accRead (0 / 4096)
      (.reader (descriptorBesideImage.openReading (.desc 0)).2.id 0 0 128) 0).2 = .found 1 := by decide +kernel
  generalize hopen : descriptorBesideImage.openReading (.desc 0) = p at hfound
  obtain ⟨u, r⟩ := p
  dsimp only at hfound
  generalize hlook : u.lookPage (u.issuer r) accRead (0 / 4096) (.reader r.id 0 0 128) 0 = a at hfound
  obtain ⟨v, _⟩ := a
  subst hfound
  obtain ⟨t, x, ht, hwaiting, -, hpa, -⟩ := asked u v r 1 (by decide +kernel) (by decide) hopen hlook
    ⟨by decide +kernel, by decide +kernel, by decide +kernel⟩
  have hread := descriptorBesideImage_reads_untranslated
  have hempty : descriptorBesideImage.waiting = [] := rfl
  rw [ht, stateAfter_next, hwaiting, hempty, List.nil_append, List.map_singleton, hpa] at hread
  exact absurd hread (by decide)

end Sys2Proof.Machine
end

section
/-!
PROOFS. What an itinerary's instruction leaves of the itineraries, while no tile of its own is about (R149, R150, R225).
-/

namespace Sys2Proof.Machine

section
variable {s t u : State} {i j : Itin} {lane op : Nat} {f : Itin → Itin}

/-- An itinerary that keeps its stream is found under it, changed, and every other one as it was. -/
theorem updItin_itin (s : State) (n k : Nat) (hf : ∀ v, (f v).stream = v.stream) :
    (s.updItin n f).itin k = if k = n then (s.itin n).map f else s.itin k := by
  unfold State.itin State.updItin
  dsimp only
  induction s.itins with
  | nil => simp
  | cons v l ih =>
    rw [List.map_cons, List.find?_cons, List.find?_cons, List.find?_cons, ih]
    by_cases hv : v.stream = n
    · by_cases hk : k = n
      · simp [hv, hk, hf]
      · have hne : (n == k) = false := by simpa using Ne.symm hk
        simp [hv, hk, hf, hne]
    · by_cases hk : k = n
      · have hne : (v.stream == n) = false := by simpa using hv
        simp [hk, hne]
      · simp [hv, hk]

theorem itin_of_itins (h : t.itins = s.itins) (k : Nat) : t.itin k = s.itin k := by
  unfold State.itin
  rw [h]

/-- Only the itineraries matter to what an itinerary becomes. -/
theorem itinBecomes_of_itins (h : s.itinBecomes t i j) (ht : u.itins = t.itins) : s.itinBecomes u i j :=
  ⟨(itin_of_itins ht _).trans h.1, fun k hk => (itin_of_itins ht k).trans (h.2 k hk)⟩

theorem updItin_becomes (hi : s.itin i.stream = some i) (ht : t.itins = s.itins) (hf : ∀ v, (f v).stream = v.stream) :
    s.itinBecomes (t.updItin i.stream f) i (f i) := by
  refine ⟨?_, fun k hk => ?_⟩
  · rw [updItin_itin t _ _ hf, if_pos rfl, itin_of_itins ht, hi]
    rfl
  · rw [updItin_itin t _ _ hf, if_neg hk, itin_of_itins ht]

/-- An instruction that has executed writes its itinerary, and is counted. -/
theorem retired_eq (s : State) (i : Itin) (f : Itin → Itin) : s.retired i f =
    { s with
      itins := (s.updItin i.stream (fun v => f { v with pc := i.pc + 1, status := .ready })).itins
      tally := (s.retired i f).tally } := by
  unfold State.retired
  rw [count_eq]
  rfl

theorem retired_becomes (hi : s.itin i.stream = some i) (ht : t.itins = s.itins) (hf : ∀ v, (f v).stream = v.stream) :
    s.itinBecomes (t.retired i f) i (f i.past) := by
  have h := updItin_becomes (f := fun v => f { v with pc := i.pc + 1, status := .ready }) hi ht fun v => hf _
  exact itinBecomes_of_itins h (by rw [retired_eq])

-- The marking of tiles.

/-- With no tile of the itinerary there is nothing to mark (R225). -/
theorem mark_of_no_tiles {stream : Nat} (h : ∀ x ∈ s.tiles, x.stream ≠ stream) (final : Bool) : s.mark stream final = s := by
  have hids : s.tiles.filter (fun x => x.stream == stream && x.final.isNone && x.kind.ordered) = [] :=
    List.filter_eq_nil_iff.2 fun x hx => by simp [h x hx]
  simp [State.mark, State.markTiles, hids]

theorem State.runsIns.itin_eq (h : s.runsIns lane op i) : s.itin i.stream = some i := h.2.2.2.2

theorem State.runsIns.op_eq (h : s.runsIns lane op i) : insOp i.next = op := h.2.2.2.1

theorem State.runsIns.ready (h : s.runsIns lane op i) : s.itinReady i = true := h.2.2.1

/-- An instruction of an itinerary without tiles runs on the state as it is, whether it decides the marking or not. -/
theorem onIns_unmarked (f : State → Itin → BitVec 64 → Res) (h : s.runsIns lane op i) (hn : s.noTilesOf i) :
    s.onIns lane op f = f s i i.next := by
  obtain ⟨hrun, hon, hready, hop, hi⟩ := h
  simp [State.onIns, hrun, hon, hready, hop, mark_of_no_tiles hn.1, hi]

theorem closeWriteWindow_of_closed (hi : s.itin i.stream = some i) (hw : i.wwin = none) : s.closeWriteWindow i.stream = s := by
  simp [State.closeWriteWindow, hi, hw]

end

end Sys2Proof.Machine
end

section
/-!
PROOFS. Transfer instructions hand a tile to their lane, and DRAIN goes on (O57; R150, R157-R164, R171).
-/

namespace Sys2Proof.Machine

section
variable {s t : State} {i : Itin} {x : Tile} {f : Itin → Itin}

/-- With no injection armed nothing is flipped (R386). -/
theorem stored_unarmed (h : s.flag offRelInject 31 = false) (c : Nat) (east : Bool) (unit : Nat) : s.stored c east unit = s := by
  have hbit : bitAt (s.reg offRelInject) 31 = false := h
  simp [State.stored, State.injects, hbit]

/-- Of the repair state an injection changes the flips alone. -/
theorem stored_flips (s : State) (c : Nat) (east : Bool) (unit : Nat) :
    { (s.stored c east unit).rel with flips := s.rel.flips } = s.rel := by
  unfold State.stored
  split <;> rfl

/-- A tile enters its lane's queue, and the itinerary goes on. -/
theorem enqueue_handsOver (hi : s.itin i.stream = some i) (hlane : x.lane = i.lane) (hf : ∀ v, (f v).stream = v.stream) :
    s.handsOver ((s.enqueue x).retired i f) i (f i.past) x := by
  generalize hv : ({ s.bump with tiles := s.tiles ++ [x] } : State).stored 0 (laneEast x.lane) x.lane = v
  have hstored : v = { s with nextId := s.nextId + 1, tiles := s.tiles ++ [x], regs := v.regs, rel := v.rel } := by
    rw [← hv]
    exact stored_eq _ _ _ _
  have hentered : s.enqueue x = { s with
      nextId := s.nextId + 1, tiles := s.tiles ++ [x], regs := v.regs, rel := v.rel
      lanes := s.lanes.set i.lane { s.lane i.lane with tileq := (s.lane i.lane).tileq ++ [x.id] } } := by
    unfold State.enqueue
    dsimp only
    rw [hv, hlane, hstored]
    rfl
  have hflips : { v.rel with flips := s.rel.flips } = s.rel := by
    rw [← hv]
    exact stored_flips _ _ _ _
  have hunarmed (hoff : s.flag offRelInject 31 = false) : v.regs = s.regs ∧ v.rel = s.rel := by
    rw [← hv, stored_unarmed (s := { s.bump with tiles := s.tiles ++ [x] }) hoff]
    exact ⟨rfl, rfl⟩
  refine ⟨?_, ?_, retired_becomes hi (by rw [hentered]) hf, fun l hl => ?_, fun hoff => ?_, ?_, ?_⟩
  · rw [retired_eq, hentered]
  · rw [retired_eq, hentered]
    simp [State.lane]
  · rw [retired_eq, hentered]
    simp [State.lane, Bank.get_set_other _ hl]
  · rw [retired_eq, hentered]
    exact hunarmed hoff
  · have hregs : s.regsBut v [offRelInject] := by
      rw [← hv]
      exact stored_regsBut _ _ _ _
    rw [retired_eq, hentered]
    exact hregs
  · rw [retired_eq, hentered]
    dsimp only
    rw [hflips]

/-- A transfer that nothing stops or blocks hands its tile over. -/
theorem transfer_handsOver (hi : s.itin i.stream = some i) (hmay : s.mayHandOver i x) (hlane : x.lane = i.lane)
    (hf : ∀ v, (f v).stream = v.stream) :
    ∃ t, s.transfer i x none f = .next t ∧ s.handsOver t i (f i.past) x := by
  obtain ⟨-, hrole, hblocks⟩ := hmay
  refine ⟨_, ?_, enqueue_handsOver hi hlane hf⟩
  simp [State.transfer, hrole, hblocks]

-- Transfers.

variable {lane : Nat}

theorem descsRead_of_mayHandOver (h : s.mayHandOver i x) : (!i.descsRead) = false := by simp [h.1]

theorem move_handsOver (h : s.runsIns lane 0x30 i) (hn : s.noTilesOf i)
    (hx : x = s.newTile i .move (some (insRd i.next)) (some (insWd i.next)) (insRar i.next) (insWar i.next) (insT0 i.next) (insT1 i.next))
    (hmay : s.mayHandOver i x) : ∃ t, exec (.move lane) s = .next t ∧ s.handsOver t i i.past x := by
  have hlane : x.lane = i.lane := by rw [hx]; rfl
  show ∃ t, execMove lane s = .next t ∧ _
  rw [execMove, onIns_unmarked _ h hn, descsRead_of_mayHandOver hmay, ← hx]
  exact transfer_handsOver h.itin_eq hmay hlane fun _ => rfl

theorem xpand_handsOver (h : s.runsIns lane 0x32 i) (hn : s.noTilesOf i) (hsel : bitAt i.sel 0 = false)
    (hx : x = s.newTile i .xpand (some (insRd i.next)) (some (insWd i.next)) (insRar i.next) (insWar i.next) (insT0 i.next) (insT1 i.next))
    (hmay : s.mayHandOver i x) : ∃ t, exec (.xpand lane) s = .next t ∧ s.handsOver t i i.past x := by
  have hlane : x.lane = i.lane := by rw [hx]; rfl
  show ∃ t, execXpand lane s = .next t ∧ _
  rw [execXpand, onIns_unmarked _ h hn, descsRead_of_mayHandOver hmay, hsel, ← hx]
  exact transfer_handsOver h.itin_eq hmay hlane fun _ => rfl

theorem pastWeights_stream (j : Itin) (w : BitVec 64) (n : Nat) : (j.pastWeights w n).stream = j.stream := by
  unfold Itin.pastWeights
  split <;> rfl

/-- Nothing that a REDUCE meets when it executes stops it (R161, R173). -/
theorem reduce_handsOver {g : List Word} (h : s.runsIns lane 0x33 i) (hn : s.noTilesOf i) (hpool : i.poolBad (insT0 i.next) = false)
    (hsel : bitAt i.sel 0 = false) (hbound : insWgt i.next = true → (i.ix.get (insWix i.next)).bound = true)
    (hg : i.weights i.next (insT1 i.next) = some g)
    (hx : x = { s.newTile i .reduce (some (insRd i.next)) none (insRar i.next) 0 (insT0 i.next) (insT1 i.next) with wgts := g })
    (hmay : s.mayHandOver i x) : ∃ t, exec (.reduce lane) s = .next t ∧
      s.handsOver t i (({ i.past with accW := some (insT0 i.next) } : Itin).pastWeights i.next (insT1 i.next)) x := by
  have hlane : x.lane = i.lane := by rw [hx]; rfl
  have hwgt : (insWgt i.next && !(i.ix.get (insWix i.next)).bound) = false := by
    cases hw : insWgt i.next <;> simp [hw, hbound]
  show ∃ t, execReduce lane s = .next t ∧ _
  rw [execReduce, onIns_unmarked _ h hn, descsRead_of_mayHandOver hmay]
  rw [hpool, hsel, hwgt, hg]
  subst hx
  exact transfer_handsOver h.itin_eq hmay hlane fun _ => pastWeights_stream _ _ _

theorem poolout_handsOver {n : Nat} (h : s.runsIns lane 0x34 i) (hn : s.noTilesOf i) (hacc : i.accW = some n)
    (hsel : bitAt i.sel 0 = false)
    (hx : x = { s.newTile i .poolout none (some (insWd i.next)) 0 (insWar i.next) n 1 with
      mean := insMode i.next == 1, keep := insKeep i.next })
    (hmay : s.mayHandOver i x) : ∃ t, exec (.poolout lane) s = .next t ∧
      s.handsOver t i { i.past with accW := if insKeep i.next then some n else none } x := by
  have hlane : x.lane = i.lane := by rw [hx]; rfl
  show ∃ t, execPoolout lane s = .next t ∧ _
  rw [execPoolout, onIns_unmarked _ h hn, descsRead_of_mayHandOver hmay, hacc, hsel]
  dsimp only [Option.getD_some]
  rw [← hx]
  obtain ⟨t, ht, hands⟩ := transfer_handsOver (f := fun v => if insKeep i.next then v else { v with accW := none }) h.itin_eq hmay hlane
    fun v => by split <;> rfl
  refine ⟨t, ht, ?_⟩
  cases hk : insKeep i.next
  · simpa [hk] using hands
  · have hpast : { i.past with accW := some n } = i.past := by rw [← hacc]; rfl
    simpa [hk, hpast] using hands

-- GATHER.

/-- The accumulator takes the width that a pooling GATHER names (R161). -/
def gatherWidth (w : BitVec 64) (v : Itin) : Itin := if insPool w then { v with accW := some (insT0 w) } else v

theorem gatherWidth_eq (w : BitVec 64) (v : Itin) :
    gatherWidth w v = { v with accW := if insPool w then some (insT0 w) else v.accW } := by
  unfold gatherWidth
  split <;> rfl

/-- A GATHER passes its indices and its weights. -/
def Itin.pastRows (i : Itin) (w : BitVec 64) (v : Itin) : Itin :=
  (gatherWidth w { v with
    ix := v.ix.set (insGix w) ((i.ix.get (insGix w)).seek ((i.ix.get (insGix w)).pos + BitVec.ofNat 32 (i.rowsOf w))) }).pastWeights
      w (i.rowsOf w)

theorem pastRows_past (i : Itin) (w : BitVec 64) : i.pastRows w i.past = ({ i.past with
    accW := if insPool w then some (insT0 w) else i.accW
    ix := i.ix.set (insGix w) ((i.ix.get (insGix w)).seek ((i.ix.get (insGix w)).pos + BitVec.ofNat 32 (i.rowsOf w))) } :
      Itin).pastWeights w (i.rowsOf w) := by
  unfold Itin.pastRows
  rw [gatherWidth_eq]
  rfl

/-- The tile of a GATHER, with the rows and weights it takes. -/
def State.gatherTile (s : State) (i : Itin) (w : BitVec 64) (idx g : List Word) : Tile :=
  { s.newTile i (if insPool w then .pool else .gather) (some (insRd w)) (if insPool w then none else some (insWd w)) (insRar w) (insWar w)
      (insT0 w) 0 with rows := idx.map (fun v => v.toInt), wgts := g }

/-- What a GATHER asks for when it executes, so that nothing stops it (R158, R160, R161, R173). -/
structure Gathers (i : Itin) (w : BitVec 64) : Prop where
  rows : i.rowsOf w ≤ 4096
  bound : (i.ix.get (insGix w)).bound = true
  dtype : tdDtype (i.ix.get (insGix w)).desc = 0x4
  weights : insWgt w = true → (i.ix.get (insWix w)).bound = true ∧ tdDtype (i.ix.get (insWix w)).desc = 0x9
  pools : insPool w = true → i.poolBad (insT0 w) = false ∧ bitAt i.sel 0 = false

variable {idx g : List Word}

theorem gather_runs (h : s.runsIns lane 0x31 i) (hn : s.noTilesOf i) (hread : i.descsRead = true) (hok : Gathers i i.next)
    (hidx : (i.ix.get (insGix i.next)).takeElems (i.rowsOf i.next) = some idx) (hg : i.weights i.next (i.rowsOf i.next) = some g) :
    execGather lane s = if i.rowsOf i.next = 0 then .next (s.retired i (gatherWidth i.next))
      else s.transfer i (s.gatherTile i i.next idx g) none (i.pastRows i.next) := by
  have hrows : ¬ 4096 < i.rowsOf i.next := Nat.not_lt.2 hok.rows
  have hpool : (insPool i.next && (i.poolBad (insT0 i.next) || bitAt i.sel 0)) = false := by
    cases hp : insPool i.next <;> simp [hp, hok.pools]
  have hbound : (!(i.ix.get (insGix i.next)).bound || (insWgt i.next && !(i.ix.get (insWix i.next)).bound)) = false := by
    cases hw : insWgt i.next <;> simp [hw, hok.bound, hok.weights]
  have hdtype : ¬ (tdDtype (i.ix.get (insGix i.next)).desc ≠ 0x4 ∨
      (insWgt i.next = true ∧ tdDtype (i.ix.get (insWix i.next)).desc ≠ 0x9)) := by
    rintro (hne | ⟨hw, hne⟩)
    · exact hne hok.dtype
    · exact hne (hok.weights hw).2
  rw [execGather, onIns_unmarked _ h hn]
  dsimp only
  rw [hread, if_neg hrows, hpool, hbound, if_neg hdtype, hidx, hg]
  rfl

theorem gather_handsOver (h : s.runsIns lane 0x31 i) (hn : s.noTilesOf i) (hok : Gathers i i.next)
    (hidx : (i.ix.get (insGix i.next)).takeElems (i.rowsOf i.next) = some idx) (hg : i.weights i.next (i.rowsOf i.next) = some g)
    (hpos : 0 < i.rowsOf i.next) (hx : x = s.gatherTile i i.next idx g) (hmay : s.mayHandOver i x) :
    ∃ t, exec (.gather lane) s = .next t ∧ s.handsOver t i (i.pastRows i.next i.past) x := by
  have hlane : x.lane = i.lane := by rw [hx]; rfl
  show ∃ t, execGather lane s = .next t ∧ _
  rw [gather_runs h hn hmay.1 hok hidx hg, if_neg (Nat.ne_of_gt hpos), ← hx]
  refine transfer_handsOver h.itin_eq hmay hlane fun v => ?_
  unfold Itin.pastRows
  rw [pastWeights_stream, gatherWidth_eq]

/-- A GATHER of no rows moves nothing, and sets the width it names (R158). -/
theorem gather_nothing (h : s.runsIns lane 0x31 i) (hn : s.noTilesOf i) (hok : Gathers i i.next)
    (hidx : (i.ix.get (insGix i.next)).takeElems (i.rowsOf i.next) = some idx) (hg : i.weights i.next (i.rowsOf i.next) = some g)
    (hnone : i.rowsOf i.next = 0) (hread : i.descsRead = true) : ∃ t, exec (.gather lane) s = .next t ∧
      s.onlyItin t i { i.past with accW := if insPool i.next then some (insT0 i.next) else i.accW } := by
  refine ⟨_, (gather_runs h hn hread hok hidx hg).trans (if_pos hnone), ?_, ?_⟩
  · have hpast : gatherWidth i.next i.past = { i.past with accW := if insPool i.next then some (insT0 i.next) else i.accW } :=
      gatherWidth_eq _ _
    rw [← hpast]
    exact retired_becomes h.itin_eq rfl fun v => by rw [gatherWidth_eq]
  · rw [retired_eq]

-- DRAIN.

/-- With no tile, no sub-window and nothing served, a sweep lets itineraries go that have ended, and readings and blocks of no use. -/
theorem sweep_of_no_tiles (ht : s.tiles = []) (hp : s.porter.subs = []) (hs : s.remote.serves = []) :
    ∃ blocks readings remote out, s.sweep = { s with
      blocks := blocks, readings := readings, remote := remote, out := out
      itins := s.itins.filter (fun i => i.place != .ended || i.wwin.isSome) } := by
  have hfinish : s.freeBlocks.finishTiles = s.freeBlocks := finishTiles_of_no_tiles ht
  have hretire : ∃ readings, s.freeBlocks.retireTiles = { s with
      blocks := s.freeBlocks.blocks, readings := readings
      itins := s.itins.filter (fun i => i.place != .ended || i.wwin.isSome) } := by
    refine ⟨s.freeBlocks.retireTiles.readings, ?_⟩
    unfold State.retireTiles State.freeBlocks
    simp [ht]
  obtain ⟨readings, hretire⟩ := hretire
  have hsweep : s.sweep = s.freeBlocks.retireTiles.serveAll := by
    unfold State.sweep
    rw [hfinish, feed_of_no_subs (by rw [hretire]; exact hp)]
  rw [hretire] at hsweep
  exact ⟨_, _, _, _, hsweep.trans (serveAll_of_no_serves hs)⟩

/-- What is found first, and kept by a filter, is found first among what it keeps. -/
theorem find?_filter_of_kept {α : Type} {p q : α → Bool} {l : List α} {a : α} (h : l.find? q = some a) (ha : p a = true) :
    (l.filter p).find? q = some a := by
  obtain ⟨hq, before, after, rfl, hbefore⟩ := List.find?_eq_some_iff_append.1 h
  refine List.find?_eq_some_iff_append.2 ⟨hq, before.filter p, after.filter p, ?_, fun x hx => hbefore x (List.mem_filter.1 hx).1⟩
  rw [List.filter_append, List.filter_cons_of_pos ha]

theorem drain_goesOn (h : s.runsIns lane 0x2C i) (hn : s.noTilesOf i) (ht : s.tiles = []) (hp : s.porter.subs = [])
    (hs : s.remote.serves = []) : ∃ t, exec (.drain lane) s = .next t ∧
      t.itin i.stream = some i.past ∧ t.queues = s.queues ∧ t.regs = s.regs ∧ t.sems = s.sems ∧ t.waiting = s.waiting := by
  obtain ⟨blocks, readings, remote, out, hsweep⟩ := sweep_of_no_tiles ht hp hs
  have hready := h.ready
  have hi := h.itin_eq
  have hplace : (i.place != .ended || i.wwin.isSome) = true := by
    have hres : i.place = .resident := by simp [State.itinReady] at hready; exact hready.1.1
    simp [hres]
  have hkept : s.sweep.itin i.stream = some i := by
    rw [hsweep]
    exact find?_filter_of_kept hi hplace
  have hcovered : (s.sweep.covered i.stream).isEmpty = true := by
    rw [hsweep]
    simp [State.covered, ht]
  show ∃ t, execDrain lane s = .next t ∧ _
  rw [execDrain, onIns_unmarked _ h hn, closeWriteWindow_of_closed hi hn.2]
  dsimp only
  rw [hcovered]
  refine ⟨_, rfl, (retired_becomes hkept rfl fun _ => rfl).1, ?_⟩
  rw [retired_eq, hsweep]
  exact ⟨rfl, rfl, rfl, rfl⟩

end

/-- Settles O57: each transfer hands its tile over by `transfer_handsOver`, a GATHER of no rows sets its width, and DRAIN finds nothing
of the itinerary in the lanes. -/
theorem transfersHandOverATile : Obligations.TransfersHandOverATile := by
  unfold Obligations.TransfersHandOverATile
  intro s lane i w x hw hn
  subst hw
  refine ⟨fun h hx hmay => move_handsOver h hn hx hmay, fun h hsel hx hmay => xpand_handsOver h hn hsel hx hmay, ?gather,
    fun g h hpool hsel hbound hg hx hmay => reduce_handsOver h hn hpool hsel hbound hg hx hmay,
    fun n h hacc hsel hx hmay => poolout_handsOver h hn hacc hsel hx hmay, fun h ht hp hs _ => drain_goesOn h hn ht hp hs⟩
  intro idx n g h hrows hle hbound hdtype hwgt hpool hidx hg
  subst hrows
  have hok : Gathers i i.next := ⟨hle, hbound, hdtype, hwgt, hpool⟩
  refine ⟨fun hpos hx hmay => ?_, fun hnone hread => gather_nothing h hn hok hidx hg hnone hread⟩
  rw [← pastRows_past]
  exact gather_handsOver h hn hok hidx hg hpos hx hmay

end Sys2Proof.Machine
end

section
/-!
PROOFS. How CLAIM and TAKE obtain a slot (R167, R168, R182, R183, R197, R203, R223).
-/

namespace Sys2Proof.Machine

section
variable {s t u : State} {i j : Itin} {lane r q k : Nat}

theorem itinBecomes_from (h : t.itinBecomes u i j) (ht : t.itins = s.itins) : s.itinBecomes u i j :=
  ⟨h.1, fun k hk => (h.2 k hk).trans (itin_of_itins ht k)⟩

-- The slot.

/-- An acquire leaves the lane no shared line of the queue (R223). -/
def State.unshared (t : State) (lane q : Nat) : Prop := ∀ c ∈ (t.lane lane).cache, c.q = q → c.shared = false

theorem acquire_unshared (s : State) (lane q : Nat) : (s.acquire lane q).unshared lane q := by
  intro c hc hq
  unfold State.acquire State.dropLines at hc
  rw [State.updLane_lane] at hc
  have hkept := (List.mem_filter.1 hc).2
  simpa [hq] using hkept

theorem unshared_of_lanes (h : t.unshared lane q) (hu : u.lanes = t.lanes) : u.unshared lane q := by
  unfold State.unshared State.lane at *
  rw [hu]
  exact h

/-- A ring one of whose slots is claimed (R183). -/
def State.claimedRing (s : State) (m : Nat) (v : Ring) : Ring :=
  { v with claimp := advance v.claimp 1 (s.nslot m), claimed := v.claimed + 1 }

/-- Rings that change, each by itself, are all that changes. -/
theorem foldl_updRing_eq (f : Nat → Ring → Ring) (l : List Nat) (s : State) :
    l.foldl (fun a m => a.updRing m (f m)) s = { s with rings := (l.foldl (fun a m => a.updRing m (f m)) s).rings } := by
  induction l generalizing s with
  | nil => rfl
  | cons m l ih =>
    rw [List.foldl_cons, ih]
    rfl

theorem updRing_ring (s : State) (r k : Nat) (f : Ring → Ring) :
    (s.updRing r f).ring k = if k = r then f (s.ring k) else s.ring k := by
  split
  next h => rw [h, State.updRing_ring]
  next h => exact State.setRing_ring_other s r k _ h

theorem foldl_updRing_ring (f : Nat → Ring → Ring) {l : List Nat} (hl : l.Nodup) (s : State) (k : Nat) :
    (l.foldl (fun a m => a.updRing m (f m)) s).ring k = if k ∈ l then f k (s.ring k) else s.ring k := by
  induction l generalizing s with
  | nil => simp
  | cons m l ih =>
    obtain ⟨hm, hl⟩ := List.nodup_cons.1 hl
    rw [List.foldl_cons, ih hl, updRing_ring]
    by_cases hk : k = m
    · simp [hk, hm]
    · simp [hk]

/-- The rings of which a CLAIM of ring `r` claims a slot. -/
def State.ringsClaimed (s : State) (r : Nat) : Bank Ring :=
  ((s.slotRings r).foldl (fun a m => a.updRing m (s.claimedRing m)) s).rings

theorem claimSlot_eq (s : State) (i : Itin) (r : Nat) : ∃ lag,
    s.claimSlot i r = (({ s with rings := s.ringsClaimed r, lag := lag } : State).acquire i.lane i.q).retired i
      (fun v => { v with heldW := some ⟨r, (s.ring r).claimp⟩ }) := by
  unfold State.claimSlot
  dsimp only
  generalize hx : (s.slotRings r).foldl _ s = x
  have hrings : x = { s with rings := s.ringsClaimed r } := hx.symm.trans (foldl_updRing_eq s.claimedRing _ s)
  subst hrings
  split
  · exact ⟨_, rfl⟩
  · exact ⟨s.lag, rfl⟩

theorem claimSlot_becomes (hi : s.itin i.stream = some i) :
    s.itinBecomes (s.claimSlot i r) i { i.past with heldW := some ⟨r, (s.ring r).claimp⟩ } := by
  obtain ⟨lag, h⟩ := claimSlot_eq s i r
  rw [h]
  exact retired_becomes (f := fun v => { v with heldW := some ⟨r, (s.ring r).claimp⟩ }) hi rfl fun _ => rfl

theorem claimSlot_unshared (s : State) (i : Itin) (r : Nat) : (s.claimSlot i r).unshared i.lane i.q := by
  obtain ⟨lag, h⟩ := claimSlot_eq s i r
  rw [h]
  exact unshared_of_lanes (acquire_unshared _ _ _) (by rw [retired_eq])

theorem claimSlot_ring (hl : (s.slotRings r).Nodup) (k : Nat) :
    (s.claimSlot i r).ring k = if k ∈ s.slotRings r then s.claimedRing k (s.ring k) else s.ring k := by
  obtain ⟨lag, h⟩ := claimSlot_eq s i r
  rw [h, retired_eq]
  exact foldl_updRing_ring s.claimedRing hl s k

/-- What a CLAIM leaves as it is. -/
theorem claimSlot_frame (s : State) (i : Itin) (r : Nat) : { s.claimSlot i r with
    itins := s.itins, rings := s.rings, lag := s.lag, lanes := s.lanes, tally := s.tally } = s := by
  obtain ⟨lag, h⟩ := claimSlot_eq s i r
  rw [h, retired_eq]
  rfl

/-- A ring one of whose published slots is taken (R183). -/
def State.takenRing (s : State) (r : Nat) (v : Ring) : Ring := { v with takep := advance v.takep 1 (s.nslot r), avail := v.avail - 1 }

theorem takeSlot_eq (s : State) (i : Itin) (r : Nat) : s.takeSlot i r =
    ((s.updRing r (s.takenRing r)).acquire i.lane i.q).retired i (fun v => { v with heldR := some ⟨r, (s.ring r).takep⟩ }) := rfl

theorem takeSlot_becomes (hi : s.itin i.stream = some i) :
    s.itinBecomes (s.takeSlot i r) i { i.past with heldR := some ⟨r, (s.ring r).takep⟩ } :=
  retired_becomes (f := fun v => { v with heldR := some ⟨r, (s.ring r).takep⟩ }) hi rfl fun _ => rfl

theorem takeSlot_unshared (s : State) (i : Itin) (r : Nat) : (s.takeSlot i r).unshared i.lane i.q := by
  rw [takeSlot_eq]
  exact unshared_of_lanes (acquire_unshared _ _ _) (by rw [retired_eq])

theorem takeSlot_ring (s : State) (i : Itin) (r k : Nat) :
    (s.takeSlot i r).ring k = if k = r then s.takenRing r (s.ring k) else s.ring k := by
  rw [takeSlot_eq, retired_eq]
  exact updRing_ring s r k (s.takenRing r)

theorem takeSlot_frame (s : State) (i : Itin) (r : Nat) : { s.takeSlot i r with
    itins := s.itins, rings := s.rings, lanes := s.lanes, tally := s.tally } = s := by
  rw [takeSlot_eq, retired_eq]
  rfl

-- The semaphore.

/-- Takes are granted: semaphores count down, and of the registers only the count of dropped trace packets changes. -/
structure Granted (s t : State) : Prop where
  eq : t = { s with sems := t.sems, turns := t.turns, tally := t.tally, regs := t.regs }
  regs : s.regsBut t [offTlyTraceDrop]

theorem Granted.refl (s : State) : Granted s s := ⟨rfl, fun _ _ => rfl⟩

theorem Granted.trans (h : Granted s t) (hu : Granted t u) : Granted s u := by
  refine ⟨?_, fun off hoff => (hu.regs off hoff).trans (h.regs off hoff)⟩
  rw [hu.eq, h.eq]

theorem Granted.foldl {β : Type} {g : State → β → State} (h : ∀ a x, Granted a (g a x)) (l : List β) (s : State) :
    Granted s (l.foldl g s) :=
  foldl_keeps (P := Granted s) (fun a x ha => ha.trans (h a x)) l (.refl s)

theorem semRemove_granted (s : State) (k : Nat) (n : BitVec 20) (q : Nat) : Granted s (s.semRemove k n q) := by
  unfold State.semRemove
  refine ⟨?_, ?_⟩
  · rw [trace_eq, count_eq]
    rfl
  · intro off hoff
    rw [trace_regsBut _ _ _ _ _ off hoff, State.reg, count_regs]
    rfl

theorem semRemove_sems (s : State) (k : Nat) (n : BitVec 20) (q : Nat) :
    (s.semRemove k n q).sems = (s.updSem k (fun v => { v with count := v.count - n })).sems := by
  unfold State.semRemove
  rw [trace_eq, count_eq]
  rfl

theorem Granted.flag (h : Granted s t) {off : Nat} (hoff : off ≠ offTlyTraceDrop) (b : Nat) : t.flag off b = s.flag off b := by
  unfold State.flag
  rw [h.regs off (by simpa using hoff)]

theorem Granted.fld (h : Granted s t) {off : Nat} (hoff : off ≠ offTlyTraceDrop) (lo n : Nat) : t.fld off lo n = s.fld off lo n := by
  unfold State.fld
  rw [h.regs off (by simpa using hoff)]

theorem offRing_ne_traceDrop (r : Nat) : offRing r 0 ≠ offTlyTraceDrop := by
  unfold offRing offTlyTraceDrop
  omega

theorem offMg_ne_traceDrop (g : Nat) : offMg g 0 ≠ offTlyTraceDrop := by
  unfold offMg offTlyTraceDrop
  omega

theorem Granted.nslot (h : Granted s t) (r : Nat) : t.nslot r = s.nslot r := h.fld (offRing_ne_traceDrop r) _ _

theorem Granted.slotRings (h : Granted s t) (r : Nat) : t.slotRings r = s.slotRings r := by
  unfold State.slotRings State.groupRings State.ringValid
  simp only [h.flag (offRing_ne_traceDrop _), h.flag (offMg_ne_traceDrop _), h.fld (offRing_ne_traceDrop _)]

theorem Granted.itins (h : Granted s t) : t.itins = s.itins := by rw [h.eq]

theorem Granted.ring (h : Granted s t) (r : Nat) : t.ring r = s.ring r := by rw [h.eq]; rfl

theorem slotRings_nodup (s : State) (r : Nat) : (s.slotRings r).Nodup := by
  unfold State.slotRings State.groupRings
  split
  · exact List.nodup_range.filter _
  · exact List.nodup_singleton r

theorem semRemove_sem (s : State) (k : Nat) (n : BitVec 20) (q : Nat) :
    (s.semRemove k n q).sem k = { s.sem k with count := (s.sem k).count - n } ∧ s.semsBut (s.semRemove k n q) k := by
  have hsem (j : Nat) : (s.semRemove k n q).sem j = (s.updSem k (fun v => { v with count := v.count - n })).sem j := by
    unfold State.sem
    rw [semRemove_sems]
  refine ⟨?_, fun j hj => ?_⟩
  · rw [hsem, State.updSem_sem]
  · rw [hsem, State.updSem, State.setSem_sem_other _ _ _ _ hj]

theorem sem_of_sems (h : t.sems = s.sems) (k : Nat) : t.sem k = s.sem k := by
  unfold State.sem
  rw [h]

-- Takes.

variable {n : BitVec 20} {l : Nat × Nat}

/-- A take that COUNT covers is granted at once (R204). -/
theorem insTake_granted (heast : semEast k = laneEast i.lane) (hp : (s.sem k).poisoned = false) (hg : s.semGrantsNow k n = true) :
    s.insTake i k n = (s.semRemove k n i.q).granted i := by
  simp [State.insTake, heast, hp, hg]

/-- A take that COUNT does not cover joins the waiters (R204). -/
theorem insTake_waits (heast : semEast k = laneEast i.lane) (hp : (s.sem k).poisoned = false) (hg : s.semGrantsNow k n = false) :
    s.insTake i k n = (s.taking i).semQueue k ⟨.itin i.lane i.slot, i.q, n⟩ := by
  simp [State.insTake, heast, hp, hg]

theorem taking_becomes (hi : s.itin i.stream = some i) :
    s.itinBecomes (s.taking i) i { i with status := .taking, chosen := false } :=
  updItin_becomes (f := fun v => { v with status := .taking, chosen := false }) hi rfl fun _ => rfl

theorem granted_claim (h : insOp i.next = 0x20) (s : State) : s.granted i = s.claimSlot i (insRing i.next) := by
  simp [State.granted, h]

theorem granted_take (h : insOp i.next = 0x22) (s : State) : s.granted i = s.takeSlot i (insRing i.next) := by
  simp [State.granted, h]

theorem claimSlot_sems (s : State) (i : Itin) (r : Nat) : (s.claimSlot i r).sems = s.sems := by
  have h := congrArg State.sems (claimSlot_frame s i r)
  exact h

theorem takeSlot_sems (s : State) (i : Itin) (r : Nat) : (s.takeSlot i r).sems = s.sems := by
  have h := congrArg State.sems (takeSlot_frame s i r)
  exact h

/-- Once takes have been granted a slot is claimed as it was before. -/
theorem Granted.claimSlot_becomes (h : Granted s t) (hi : s.itin i.stream = some i) :
    s.itinBecomes (t.claimSlot i r) i { i.past with heldW := some ⟨r, (s.ring r).claimp⟩ } := by
  rw [← h.ring r]
  exact itinBecomes_from (Machine.claimSlot_becomes ((itin_of_itins h.itins _).trans hi)) h.itins

theorem Granted.takeSlot_becomes (h : Granted s t) (hi : s.itin i.stream = some i) :
    s.itinBecomes (t.takeSlot i r) i { i.past with heldR := some ⟨r, (s.ring r).takep⟩ } := by
  rw [← h.ring r]
  exact itinBecomes_from (Machine.takeSlot_becomes ((itin_of_itins h.itins _).trans hi)) h.itins

-- CLAIM.

theorem claim_beyond (h : s.runsIns lane 0x20 i) (hn : s.noTilesOf i) (hheld : i.heldW = none)
    (hfit : s.hallFits (insRing i.next) (s.ring (insRing i.next)).claimp = false) : exec (.claim lane) s = .fault .hallAddress := by
  show execClaim lane s = _
  rw [execClaim, onIns_unmarked _ h hn]
  simp [hheld, hfit]

theorem claim_unlinked (h : s.runsIns lane 0x20 i) (hn : s.noTilesOf i) (hheld : i.heldW = none)
    (hfit : s.hallFits (insRing i.next) (s.ring (insRing i.next)).claimp = true) (hl : s.linkOf i.q (insRing i.next) = none)
    (hfree : s.claimable (insRing i.next) = true) : exec (.claim lane) s = .next (s.claimSlot i (insRing i.next)) := by
  show execClaim lane s = _
  rw [execClaim, onIns_unmarked _ h hn]
  simp [hheld, hfit, hl, hfree]

theorem claim_linked (h : s.runsIns lane 0x20 i) (hn : s.noTilesOf i) (hheld : i.heldW = none)
    (hfit : s.hallFits (insRing i.next) (s.ring (insRing i.next)).claimp = true) (hl : s.linkOf i.q (insRing i.next) = some l)
    (hone : (s.slotRings (insRing i.next)).length ≤ 1) : exec (.claim lane) s = .next (s.insTake i l.2 1#20) := by
  show execClaim lane s = _
  rw [execClaim, onIns_unmarked _ h hn]
  simp [hheld, hfit, hl, hone]

/-- A CLAIM of a group's leader takes from the FREE_SEM of every member, or waits for all of them (R197). -/
theorem claim_group (h : s.runsIns lane 0x20 i) (hn : s.noTilesOf i) (hheld : i.heldW = none)
    (hfit : s.hallFits (insRing i.next) (s.ring (insRing i.next)).claimp = true) (hl : s.linkOf i.q (insRing i.next) = some l)
    (hmany : 1 < (s.slotRings (insRing i.next)).length) (hp : ∀ k, (s.sem k).poisoned = false)
    (heast : ∀ k ∈ s.groupSems i.q (insRing i.next), semEast k = laneEast i.lane) :
    exec (.claim lane) s = .next (if s.groupFree i.q (insRing i.next)
      then ((s.groupSems i.q (insRing i.next)).foldl (fun a k => a.semRemove k 1#20 i.q) s).claimSlot i (insRing i.next)
      else (s.groupTake i (insRing i.next)).watchLaggards) := by
  have hall : (s.groupSems i.q (insRing i.next)).all (fun k => semEast k == laneEast i.lane) = true :=
    List.all_eq_true.2 fun k hk => by simpa using heast k hk
  have hnone : (s.groupSems i.q (insRing i.next)).find? (fun k => (s.sem k).poisoned) = none :=
    List.find?_eq_none.2 fun k _ => by simp [hp k]
  show execClaim lane s = _
  rw [execClaim, onIns_unmarked _ h hn]
  simp only [hheld, hfit, hl, hnone, hall, Bool.and_true, Nat.not_le.2 hmany, Option.isSome_none, Bool.not_true, Bool.false_eq_true,
    if_false]
  split <;> rfl

-- A group's waiting CLAIM.

/-- A waiter joins the waiters of semaphores. -/
def State.queuedAt (s : State) (ks : List Nat) (w : SemWaiter) : State := ks.foldl (fun a k => a.semQueue k w) s

theorem queuedAt_rest (s : State) (ks : List Nat) (w : SemWaiter) : (s.queuedAt ks w).itins = s.itins ∧
    (s.queuedAt ks w).rings = s.rings ∧ (s.queuedAt ks w).queues = s.queues :=
  foldl_keeps (P := fun a => a.itins = s.itins ∧ a.rings = s.rings ∧ a.queues = s.queues) (g := fun a k => a.semQueue k w)
    (fun _ _ ha => ha) ks ⟨rfl, rfl, rfl⟩

theorem queuedAt_count (s : State) (ks : List Nat) (w : SemWaiter) (k : Nat) : ((s.queuedAt ks w).sem k).count = (s.sem k).count := by
  refine foldl_keeps (P := fun a => (a.sem k).count = (s.sem k).count) (fun a j ha => ?_) ks rfl
  by_cases hk : k = j
  · subst hk
    rw [State.semQueue, State.updSem_sem]
    exact ha
  · rw [(semQueue_sem a j w).2 k hk]
    exact ha

theorem queuedAt_waits (s : State) {ks : List Nat} (w : SemWaiter) (hk : k ∈ ks) : w ∈ ((s.queuedAt ks w).sem k).waiters := by
  refine foldl_reaches (P := fun j a => w ∈ (a.sem j).waiters) (g := fun a j => a.semQueue j w) (fun a j => ?_) (fun a j m hm => ?_) hk s
  · rw [(semQueue_sem a j w).1]
    exact List.mem_append_right _ (List.mem_singleton_self w)
  · by_cases hj : m = j
    · subst hj
      rw [(semQueue_sem a m w).1]
      exact List.mem_append_left _ hm
    · rw [(semQueue_sem a j w).2 m hj]
      exact hm

/-- In the wing of its lane a group's CLAIM waits at each member's FREE_SEM. -/
theorem groupTake_queued (heast : ∀ k ∈ s.groupSems i.q r, semEast k = laneEast i.lane) :
    s.groupTake i r = (s.taking i).queuedAt (s.groupSems i.q r) ⟨.group i.lane i.slot r, i.q, 1#20⟩ := by
  have hnone : (s.groupSems i.q r).any (fun k => semEast k != laneEast i.lane) = false :=
    List.any_eq_false.2 fun k hk => by simp [heast k hk]
  unfold State.groupTake State.queuedAt
  dsimp only
  rw [hnone, Bool.and_false, if_neg Bool.false_ne_true]
  exact List.foldl_ext _ _ _ fun a k hk => by simp [heast k hk]

/-- Watching for laggards touches their registers and stretches alone (R198). -/
theorem watchLaggards_rest (s : State) : s.watchLaggards.itins = s.itins ∧ s.watchLaggards.rings = s.rings ∧
    s.watchLaggards.queues = s.queues := by
  refine foldl_keeps (P := fun a => a.itins = s.itins ∧ a.rings = s.rings ∧ a.queues = s.queues) (fun a g ha => ?_) _
    ⟨rfl, rfl, rfl⟩
  unfold State.watchGroup
  split <;> exact ha

-- TAKE.

theorem take_beyond (h : s.runsIns lane 0x22 i) (hn : s.noTilesOf i) (hheld : i.heldR = none)
    (hfit : s.hallFits (insRing i.next) (s.ring (insRing i.next)).takep = false) : exec (.take lane) s = .fault .hallAddress := by
  show execTake lane s = _
  rw [execTake, onIns_unmarked _ h hn]
  simp [hheld, hfit]

theorem take_unlinked (h : s.runsIns lane 0x22 i) (hn : s.noTilesOf i) (hheld : i.heldR = none)
    (hfit : s.hallFits (insRing i.next) (s.ring (insRing i.next)).takep = true) (hl : s.linkOf i.q (insRing i.next) = none)
    (havail : 0 < (s.ring (insRing i.next)).avail) : exec (.take lane) s = .next (s.takeSlot i (insRing i.next)) := by
  show execTake lane s = _
  rw [execTake, onIns_unmarked _ h hn]
  simp [hheld, hfit, hl, havail]

theorem take_linked (h : s.runsIns lane 0x22 i) (hn : s.noTilesOf i) (hheld : i.heldR = none)
    (hfit : s.hallFits (insRing i.next) (s.ring (insRing i.next)).takep = true) (hl : s.linkOf i.q (insRing i.next) = some l) :
    exec (.take lane) s = .next (s.insTake i l.1 1#20) := by
  show execTake lane s = _
  rw [execTake, onIns_unmarked _ h hn]
  simp [hheld, hfit, hl]

end
end Sys2Proof.Machine
end

section
/-!
PROOFS. How PUBLISH and FREE give a slot up (R169, R183).
-/

namespace Sys2Proof.Machine

section
variable {s t : State} {i : Itin} {lane : Nat} {h : HeldSlot}

theorem covered_of_no_tiles (hn : s.noTilesOf i) : s.covered i.stream = [] := by
  have hnone : s.tiles.filter (fun x => x.stream == i.stream && x.wd.isSome) = [] :=
    List.filter_eq_nil_iff.2 fun x hx => by simp [hn.1 x hx]
  simp [State.covered, hnone]

/-- A release of an itinerary with no tile covers none. -/
theorem release_retired (hi : s.itin i.stream = some i) (kind : RelKind) {f : Itin → Itin} (hf : ∀ v, (f v).stream = v.stream) :
    s.itinBecomes ((s.release i kind []).retired i f) i (f i.past) ∧
      ((s.release i kind []).retired i f).releases = s.releases ++ [⟨s.nextId, i.q, i.num, laneEast i.lane, kind, []⟩] ∧
      { (s.release i kind []).retired i f with
        itins := s.itins, releases := s.releases, tally := s.tally, nextId := s.nextId } = s := by
  refine ⟨retired_becomes hi rfl hf, ?_, ?_⟩
  · rw [retired_eq]
    rfl
  · rw [retired_eq]
    rfl

theorem publish_runs (hr : s.runsIns lane 0x21 i) (hn : s.noTilesOf i) (hheld : i.heldW = some h) (hring : h.ring = insRing i.next)
    (hone : s.slotRings h.ring = [h.ring]) : exec (.publish lane) s = .next ((s.release i
      (.slotPublish h.ring h.slot ((s.linkOf i.q h.ring).map (fun l => l.1))) []).retired i (fun v => { v with heldW := none })) := by
  show execPublish lane s = _
  rw [execPublish, onIns_unmarked _ hr hn, closeWriteWindow_of_closed hr.itin_eq hn.2, hheld]
  dsimp only
  rw [if_neg (not_not.2 hring), hone, List.foldl_cons, List.foldl_nil, covered_of_no_tiles hn]

theorem free_runs (hr : s.runsIns lane 0x23 i) (hn : s.noTilesOf i) (hheld : i.heldR = some h) (hring : h.ring = insRing i.next) :
    exec (.free lane) s = .next ((s.release i (.slotFree h.ring ((s.linkOf i.q h.ring).map (fun l => l.2))) []).retired i
      (fun v => { v with heldR := none })) := by
  have hreads : s.tiles.filter (fun x => x.stream == i.stream && x.slotR == some h) = [] :=
    List.filter_eq_nil_iff.2 fun x hx => by simp [hn.1 x hx]
  show execFree lane s = _
  rw [execFree, onIns_unmarked _ hr hn, hheld]
  dsimp only
  rw [if_neg (not_not.2 hring), hreads, List.map_nil]

end

end Sys2Proof.Machine
end

section
/-!
PROOFS. Bytes that are written into a Hall slot (R128, R129, R219).
-/

namespace Sys2Proof.Machine

section
variable {s t : State} {x : Tile} {d : BitVec 1024} {h : HeldSlot} {bytes : List (Nat × Byte)}

-- Bytes at different addresses.

theorem groupIn_new {α : Type} {k : Nat} {l : List (Nat × List α)} (hk : k ∉ l.map (fun g => g.1)) (v : α) :
    groupIn k v l = l ++ [(k, [v])] := by
  induction l with
  | nil => rfl
  | cons g l ih =>
    obtain ⟨j, vs⟩ := g
    simp only [List.map_cons, List.mem_cons, not_or] at hk
    simp [groupIn, Ne.symm hk.1, ih hk.2]

theorem foldl_groupIn (hnd : (bytes.map (fun b => b.1)).Nodup) (gs : List (Nat × List Byte))
    (hgs : ∀ b ∈ bytes, b.1 ∉ gs.map (fun g => g.1)) :
    bytes.foldl (fun a b => groupIn b.1 b.2 a) gs = gs ++ bytes.map (fun b => (b.1, [b.2])) := by
  induction bytes generalizing gs with
  | nil => simp
  | cons b l ih =>
    obtain ⟨hb, hnd⟩ := List.nodup_cons.1 hnd
    have hrest : ∀ c ∈ l, c.1 ∉ (gs ++ [(b.1, [b.2])]).map (fun g => g.1) := by
      intro c hc
      have hne : c.1 ≠ b.1 := fun he => hb (List.mem_map.2 ⟨c, hc, he⟩)
      simpa [hne] using hgs c (List.mem_cons_of_mem _ hc)
    rw [List.foldl_cons, groupIn_new (hgs b List.mem_cons_self), ih hnd _ hrest]
    simp

/-- Where no two bytes have one address nothing is chosen. -/
theorem resolve_distinct (hnd : (bytes.map (fun b => b.1)).Nodup) : s.resolve bytes = (s, bytes) := by
  have hpick (l m : List (Nat × Byte)) : (l.map (fun b => (b.1, [b.2]))).foldl (fun (a : State × List (Nat × Byte)) g =>
      let (s, b) := a.1.pickAny g.2
      (s, a.2 ++ [(g.1, b)])) (s, m) = (s, m ++ l) := by
    induction l generalizing m with
    | nil => simp
    | cons b l ih =>
      rw [List.map_cons, List.foldl_cons]
      simpa [State.pickAny] using ih (m ++ [b])
  unfold State.resolve
  rw [foldl_groupIn hnd [] (fun _ _ => List.not_mem_nil), List.nil_append, hpick, List.nil_append]

-- The Hall.

/-- What a tile leaves in a Hall slot for bytes at different addresses: them, or the sums of an ACCUM descriptor. -/
def State.slotLeaves (s : State) (d : BitVec 1024) (h : HeldSlot) (bytes : List (Nat × Byte)) : List (Nat × Byte) :=
  if tdAccum d then s.hallSums h (tdDtype d) bytes else bytes

theorem hallStored_regsBut (s : State) (east : Bool) : s.regsBut (s.hallStored east) [offRelInject] := by
  unfold State.hallStored
  split
  · split
    · exact stored_regsBut s _ _ _
    · exact fun _ _ => rfl
  · exact fun _ _ => rfl

theorem hallStored_unarmed (hoff : s.flag offRelInject 31 = false) (east : Bool) : s.hallStored east = s := by
  simp [State.hallStored, hoff]

/-- No register of a ring is REL_INJECT. -/
theorem hallAddr_of_regsBut (hr : s.regsBut t [offRelInject]) (r slot off : Nat) : t.hallAddr r slot off = s.hallAddr r slot off := by
  have h0 : t.reg (offRing r 0) = s.reg (offRing r 0) := hr _ (by simp [offRing, offRelInject]; omega)
  have h4 : t.reg (offRing r 4) = s.reg (offRing r 4) := hr _ (by simp [offRing, offRelInject]; omega)
  have heast : t.ringEast r = s.ringEast r := by simp only [State.ringEast, State.flag, h0]
  have hbytes : t.slotBytes r = s.slotBytes r := by simp only [State.slotBytes, State.fld, h0]
  have hbase : t.ringBase r = s.ringBase r := by simp only [State.ringBase, State.fld, h4]
  unfold State.hallAddr
  rw [heast, hbytes, hbase]

/-- What is counted, and stored where an injection may be armed, before the bytes are written. -/
def State.hallCounted (s : State) (x : Tile) (h : HeldSlot) (n : Nat) : State :=
  ((s.count (unitLane x.lane) 0x0E x.q n).count (unitHall (s.ringEast h.ring)) 0x02 0 n).hallStored (s.ringEast h.ring)

theorem hallCounted_regsBut (s : State) (x : Tile) (h : HeldSlot) (n : Nat) : s.regsBut (s.hallCounted x h n) [offRelInject] := by
  intro off hoff
  unfold State.hallCounted
  rw [hallStored_regsBut _ _ off hoff, State.reg, count_regs, count_regs]
  rfl

theorem hallCounted_unarmed (hoff : s.flag offRelInject 31 = false) (n : Nat) :
    s.hallCounted x h n = { s with tally := (s.hallCounted x h n).tally } := by
  have hflag : ((s.count (unitLane x.lane) 0x0E x.q n).count (unitHall (s.ringEast h.ring)) 0x02 0 n).flag offRelInject 31 = false := by
    rw [← hoff]
    simp only [State.flag, State.reg, count_regs]
  unfold State.hallCounted
  rw [hallStored_unarmed hflag, count_eq, count_eq s]

theorem writeSlot_eq (hc : s.ringClient h.ring = false) (hnd : (bytes.map (fun b => b.1)).Nodup) :
    s.writeSlot x d h bytes = { s.hallCounted x h (s.slotLeaves d h bytes).length with
      hall := (s.slotLeaves d h bytes).foldl (fun a b => a.set (s.hallAddr h.ring h.slot b.1) b.2) s.hall } := by
  have hpair : (if tdAccum d then (s, if s.ringClient h.ring then bytes else s.hallSums h (tdDtype d) bytes)
      else s.resolve bytes) = (s, s.slotLeaves d h bytes) := by
    unfold State.slotLeaves
    rw [hc, resolve_distinct hnd]
    split <;> rfl
  unfold State.writeSlot
  rw [hpair]
  dsimp only
  generalize s.slotLeaves d h bytes = l
  have hregs : (s.count (unitLane x.lane) 0x0E x.q l.length).regs = s.regs := count_regs _ _ _ _ _
  have hclient : (s.count (unitLane x.lane) 0x0E x.q l.length).ringClient h.ring = false := by
    rw [← hc]
    simp only [State.ringClient, State.flag, State.reg, hregs]
  have heast : (s.count (unitLane x.lane) 0x0E x.q l.length).ringEast h.ring = s.ringEast h.ring := by
    simp only [State.ringEast, State.flag, State.reg, hregs]
  have haddr := hallAddr_of_regsBut (hallCounted_regsBut s x h l.length) h.ring h.slot
  have hhall : (s.hallCounted x h l.length).hall = s.hall := by
    unfold State.hallCounted
    rw [hallStored_hall, count_hall, count_hall]
  rw [hclient, if_neg Bool.false_ne_true, heast]
  change ({ s.hallCounted x h l.length with hall := l.foldl (fun a b =>
    a.set ((s.hallCounted x h l.length).hallAddr h.ring h.slot b.1) b.2) (s.hallCounted x h l.length).hall } : State) = _
  simp only [haddr, hhall]

theorem writeSlot_frame (hc : s.ringClient h.ring = false) (hnd : (bytes.map (fun b => b.1)).Nodup)
    (hoff : s.flag offRelInject 31 = false) : { s.writeSlot x d h bytes with hall := s.hall, tally := s.tally } = s := by
  rw [writeSlot_eq hc hnd, hallCounted_unarmed hoff]

theorem foldl_set_other {f : Nat → Nat} {l : List (Nat × Byte)} {a : Nat} (ha : ∀ b ∈ l, f b.1 ≠ a) (m : Bank Byte) :
    (l.foldl (fun m b => m.set (f b.1) b.2) m).get a = m.get a := by
  induction l generalizing m with
  | nil => rfl
  | cons b l ih =>
    rw [List.foldl_cons, ih fun c hc => ha c (List.mem_cons_of_mem _ hc), Bank.get_set_other _ (ha b List.mem_cons_self).symm]

theorem foldl_set_mem {f : Nat → Nat} (hf : Function.Injective f) {l : List (Nat × Byte)} (hl : (l.map (fun b => b.1)).Nodup) {b : Nat × Byte}
    (hb : b ∈ l) (m : Bank Byte) : (l.foldl (fun m b => m.set (f b.1) b.2) m).get (f b.1) = b.2 := by
  induction l generalizing m with
  | nil => cases hb
  | cons c l ih =>
    obtain ⟨hc, hl⟩ := List.nodup_cons.1 hl
    rw [List.foldl_cons]
    obtain rfl | hb := List.mem_cons.1 hb
    · rw [foldl_set_other, Bank.get_set_same]
      exact fun e he hfe => hc (List.mem_map.2 ⟨e, he, hf hfe⟩)
    · exact ih hl hb _

theorem hallAddr_injective (s : State) (r slot : Nat) : Function.Injective (s.hallAddr r slot) := by
  intro a b hab
  unfold State.hallAddr at hab
  omega

theorem writeSlot_leaves (hc : s.ringClient h.ring = false) (hnd : (bytes.map (fun b => b.1)).Nodup)
    (hl : ((s.slotLeaves d h bytes).map (fun b => b.1)).Nodup) {b : Nat × Byte} (hb : b ∈ s.slotLeaves d h bytes) :
    (s.writeSlot x d h bytes).hall.get (s.hallAddr h.ring h.slot b.1) = b.2 := by
  rw [writeSlot_eq hc hnd]
  exact foldl_set_mem (hallAddr_injective s _ _) hl hb _

theorem writeSlot_elsewhere (hc : s.ringClient h.ring = false) (hnd : (bytes.map (fun b => b.1)).Nodup) {a : Nat}
    (ha : ∀ b ∈ s.slotLeaves d h bytes, s.hallAddr h.ring h.slot b.1 ≠ a) : (s.writeSlot x d h bytes).hall.get a = s.hall.get a := by
  rw [writeSlot_eq hc hnd]
  exact foldl_set_other ha _

-- A binary32 element of an ACCUM descriptor.

/-- The bytes of a word at four addresses. -/
def wordAt (off : Nat) (v : Word) : List (Nat × Byte) := (List.range 4).map (fun j => (off + j, (natBytes 4 v.toNat).getD j 0))

theorem wordAt_addresses (off : Nat) (v : Word) : (wordAt off v).map (fun b => b.1) = (List.range 4).map (fun j => off + j) := by
  simp [wordAt]

theorem wordAt_distinct (off : Nat) (v : Word) : ((wordAt off v).map (fun b => b.1)).Nodup := by
  rw [wordAt_addresses]
  exact List.nodup_range.map fun a b hab => by simpa using hab

theorem wordAt_bytes (off : Nat) (v : Word) : (wordAt off v).map (fun b => b.2) = natBytes 4 v.toNat := by
  simp [wordAt, natBytes, List.range_succ]

theorem leNat_word (v : Word) : BitVec.ofNat 32 (leNat (natBytes 4 v.toNat)) = v := by
  have hlt : v.toNat < 256 ^ 4 := v.isLt
  rw [leNat_natBytes, Nat.mod_eq_of_lt hlt, BitVec.ofNat_toNat, BitVec.setWidth_eq]

/-- The word that stands at four addresses of a slot. -/
def State.hallWord (s : State) (h : HeldSlot) (off : Nat) : Word :=
  BitVec.ofNat 32 (leNat ((List.range 4).map (fun j => s.hall.get (s.hallAddr h.ring h.slot (off + j)))))

theorem wordAt_zip (off : Nat) (v w : Word) : ((wordAt off v).map (fun b => b.1)).zip (natBytes 4 w.toNat) = wordAt off w := by
  simp [wordAt, natBytes, List.range_succ]

theorem addElem_word (s : State) (h : HeldSlot) (off : Nat) (v : Word) :
    addElem 0x9 ((wordAt off v).map (fun b => s.hall.get (s.hallAddr h.ring h.slot b.1))) (natBytes 4 v.toNat) =
      natBytes 4 (addWord (s.hallWord h off) v).toNat := by
  have hold : (wordAt off v).map (fun b => s.hall.get (s.hallAddr h.ring h.slot b.1)) =
      (List.range 4).map (fun j => s.hall.get (s.hallAddr h.ring h.slot (off + j))) := by
    simp [wordAt]
  rw [addElem, if_pos rfl, leNat_word, hold]
  rfl

/-- An element is added to the one that stands at its addresses (R128). -/
theorem hallSums_word (s : State) (h : HeldSlot) (off : Nat) (v : Word) :
    s.hallSums h 0x9 (wordAt off v) = wordAt off (addWord (s.hallWord h off) v) := by
  have hpieces : pieces (dtypeSize 0x9) (wordAt off v) = [wordAt off v] := by
    have hsize : dtypeSize 0x9 = 4 := by decide
    rw [hsize]
    simp [pieces, wordAt, List.range_succ]
  unfold State.hallSums
  rw [hpieces, List.flatMap_cons, List.flatMap_nil, List.append_nil, wordAt_bytes, addElem_word, wordAt_zip]

end

end Sys2Proof.Machine
end

section
/-!
PROOFS. Slots are claimed, taken and given up (O54).
-/

namespace Sys2Proof.Machine

section
variable {s : State} {i : Itin} {lane : Nat} {l : Nat × Nat}

-- What each CLAIM and TAKE leaves.

theorem claim_obtains (h : s.runsIns lane 0x20 i) (hn : s.noTilesOf i) (hheld : i.heldW = none)
    (hfit : s.hallFits (insRing i.next) (s.ring (insRing i.next)).claimp = true) (hl : s.linkOf i.q (insRing i.next) = none)
    (hfree : s.claimable (insRing i.next) = true) (hone : s.slotRings (insRing i.next) = [insRing i.next]) :
    ∃ t, exec (.claim lane) s = .next t ∧ t.ring (insRing i.next) = s.claimedRing (insRing i.next) (s.ring (insRing i.next)) ∧
      s.itinBecomes t i { i.past with heldW := some ⟨insRing i.next, (s.ring (insRing i.next)).claimp⟩ } ∧
      (∀ j, j ≠ insRing i.next → t.ring j = s.ring j) ∧ t.unshared i.lane i.q ∧
      { t with itins := s.itins, rings := s.rings, lag := s.lag, lanes := s.lanes, tally := s.tally } = s := by
  have hring := claimSlot_ring (i := i) (slotRings_nodup s (insRing i.next))
  refine ⟨_, claim_unlinked h hn hheld hfit hl hfree, ?_, claimSlot_becomes h.itin_eq, fun j hj => ?_, claimSlot_unshared s i _,
    claimSlot_frame s i _⟩
  · rw [hring, if_pos (by rw [hone]; exact List.mem_singleton_self _)]
  · rw [hring, if_neg (by rw [hone]; simpa using hj)]

theorem claim_obtains_linked (h : s.runsIns lane 0x20 i) (hn : s.noTilesOf i) (hheld : i.heldW = none)
    (hfit : s.hallFits (insRing i.next) (s.ring (insRing i.next)).claimp = true) (hl : s.linkOf i.q (insRing i.next) = some l)
    (hone : (s.slotRings (insRing i.next)).length ≤ 1) (heast : semEast l.2 = laneEast i.lane) (hp : (s.sem l.2).poisoned = false)
    (hg : s.semGrantsNow l.2 1#20 = true) : ∃ t, exec (.claim lane) s = .next t ∧
      t.sem l.2 = { s.sem l.2 with count := (s.sem l.2).count - 1 } ∧ s.semsBut t l.2 ∧ t.unshared i.lane i.q ∧
      s.itinBecomes t i { i.past with heldW := some ⟨insRing i.next, (s.ring (insRing i.next)).claimp⟩ } := by
  have hgranted := semRemove_granted s l.2 1#20 i.q
  obtain ⟨hsem, hbut⟩ := semRemove_sem s l.2 1#20 i.q
  have hruns := claim_linked h hn hheld hfit hl hone
  rw [insTake_granted heast hp hg, granted_claim h.op_eq] at hruns
  have hsems := sem_of_sems (claimSlot_sems (s.semRemove l.2 1#20 i.q) i (insRing i.next))
  exact ⟨_, hruns, (hsems _).trans hsem, fun j hj => (hsems j).trans (hbut j hj), claimSlot_unshared _ i _,
    hgranted.claimSlot_becomes h.itin_eq⟩

theorem claim_obtains_group (h : s.runsIns lane 0x20 i) (hn : s.noTilesOf i) (hheld : i.heldW = none)
    (hfit : s.hallFits (insRing i.next) (s.ring (insRing i.next)).claimp = true) (hl : s.linkOf i.q (insRing i.next) = some l)
    (hmany : 1 < (s.slotRings (insRing i.next)).length) (hp : ∀ k, (s.sem k).poisoned = false)
    (heast : ∀ k ∈ s.groupSems i.q (insRing i.next), semEast k = laneEast i.lane) (hfree : s.groupFree i.q (insRing i.next) = true) :
    ∃ t, exec (.claim lane) s = .next t ∧ t.unshared i.lane i.q ∧
      s.itinBecomes t i { i.past with heldW := some ⟨insRing i.next, (s.ring (insRing i.next)).claimp⟩ } ∧
      ∀ m ∈ s.slotRings (insRing i.next), (t.ring m).claimp = ((s.ring m).claimp + 1) % s.nslot m := by
  have hruns := claim_group h hn hheld hfit hl hmany hp heast
  rw [if_pos hfree] at hruns
  have hgranted : Granted s ((s.groupSems i.q (insRing i.next)).foldl (fun a k => a.semRemove k 1#20 i.q) s) :=
    .foldl (fun a k => semRemove_granted a k 1#20 i.q) _ s
  refine ⟨_, hruns, claimSlot_unshared _ i _, hgranted.claimSlot_becomes h.itin_eq, fun m hm => ?_⟩
  rw [claimSlot_ring (slotRings_nodup _ _), hgranted.slotRings, if_pos hm, hgranted.ring]
  show advance (s.ring m).claimp 1 _ = _
  rw [hgranted.nslot]
  rfl

theorem claim_waits_group (h : s.runsIns lane 0x20 i) (hn : s.noTilesOf i) (hheld : i.heldW = none)
    (hfit : s.hallFits (insRing i.next) (s.ring (insRing i.next)).claimp = true) (hl : s.linkOf i.q (insRing i.next) = some l)
    (hmany : 1 < (s.slotRings (insRing i.next)).length) (hp : ∀ k, (s.sem k).poisoned = false)
    (heast : ∀ k ∈ s.groupSems i.q (insRing i.next), semEast k = laneEast i.lane) (hfree : s.groupFree i.q (insRing i.next) = false) :
    ∃ t, exec (.claim lane) s = .next t ∧
      (∀ k ∈ s.groupSems i.q (insRing i.next),
        (⟨.group i.lane i.slot (insRing i.next), i.q, 1#20⟩ : SemWaiter) ∈ (t.sem k).waiters) ∧
      (∀ k, (t.sem k).count = (s.sem k).count) ∧ s.itinBecomes t i { i with status := .taking, chosen := false } ∧
      t.rings = s.rings ∧ t.queues = s.queues := by
  have hruns := claim_group h hn hheld hfit hl hmany hp heast
  rw [hfree, if_neg Bool.false_ne_true, groupTake_queued heast] at hruns
  generalize hw : (⟨.group i.lane i.slot (insRing i.next), i.q, 1#20⟩ : SemWaiter) = w at hruns ⊢
  obtain ⟨hitins, hrings, hqueues⟩ := queuedAt_rest (s.taking i) (s.groupSems i.q (insRing i.next)) w
  have ⟨hwitins, hwrings, hwqueues⟩ := watchLaggards_rest ((s.taking i).queuedAt (s.groupSems i.q (insRing i.next)) w)
  refine ⟨_, hruns, fun k hk => ?_, fun k => ?_, ?_, ?_, ?_⟩
  · rw [sem_of_sems (Ticks.watchLaggards _ |>.sems)]
    exact queuedAt_waits _ w hk
  · rw [sem_of_sems (Ticks.watchLaggards _ |>.sems)]
    exact queuedAt_count _ _ w k
  · exact itinBecomes_of_itins (taking_becomes h.itin_eq) (hwitins.trans hitins)
  · exact hwrings.trans hrings
  · exact hwqueues.trans hqueues

theorem take_obtains (h : s.runsIns lane 0x22 i) (hn : s.noTilesOf i) (hheld : i.heldR = none)
    (hfit : s.hallFits (insRing i.next) (s.ring (insRing i.next)).takep = true) (hl : s.linkOf i.q (insRing i.next) = none)
    (havail : 0 < (s.ring (insRing i.next)).avail) :
    ∃ t, exec (.take lane) s = .next t ∧ t.ring (insRing i.next) = s.takenRing (insRing i.next) (s.ring (insRing i.next)) ∧
      s.itinBecomes t i { i.past with heldR := some ⟨insRing i.next, (s.ring (insRing i.next)).takep⟩ } ∧
      (∀ j, j ≠ insRing i.next → t.ring j = s.ring j) ∧ t.unshared i.lane i.q ∧
      { t with itins := s.itins, rings := s.rings, lanes := s.lanes, tally := s.tally } = s := by
  refine ⟨_, take_unlinked h hn hheld hfit hl havail, ?_, takeSlot_becomes h.itin_eq, fun j hj => ?_, takeSlot_unshared s i _,
    takeSlot_frame s i _⟩
  · rw [takeSlot_ring, if_pos rfl]
  · rw [takeSlot_ring, if_neg hj]

theorem take_obtains_linked (h : s.runsIns lane 0x22 i) (hn : s.noTilesOf i) (hheld : i.heldR = none)
    (hfit : s.hallFits (insRing i.next) (s.ring (insRing i.next)).takep = true) (hl : s.linkOf i.q (insRing i.next) = some l)
    (heast : semEast l.1 = laneEast i.lane) (hp : (s.sem l.1).poisoned = false) (hg : s.semGrantsNow l.1 1#20 = true) :
    ∃ t, exec (.take lane) s = .next t ∧
      t.sem l.1 = { s.sem l.1 with count := (s.sem l.1).count - 1 } ∧ s.semsBut t l.1 ∧ t.unshared i.lane i.q ∧
      s.itinBecomes t i { i.past with heldR := some ⟨insRing i.next, (s.ring (insRing i.next)).takep⟩ } := by
  have hgranted := semRemove_granted s l.1 1#20 i.q
  obtain ⟨hsem, hbut⟩ := semRemove_sem s l.1 1#20 i.q
  have hruns := take_linked h hn hheld hfit hl
  rw [insTake_granted heast hp hg, granted_take h.op_eq] at hruns
  have hsems := sem_of_sems (takeSlot_sems (s.semRemove l.1 1#20 i.q) i (insRing i.next))
  exact ⟨_, hruns, (hsems _).trans hsem, fun j hj => (hsems j).trans (hbut j hj), takeSlot_unshared _ i _,
    hgranted.takeSlot_becomes h.itin_eq⟩

theorem take_waits (h : s.runsIns lane 0x22 i) (hn : s.noTilesOf i) (hheld : i.heldR = none)
    (hfit : s.hallFits (insRing i.next) (s.ring (insRing i.next)).takep = true) (hl : s.linkOf i.q (insRing i.next) = some l)
    (heast : semEast l.1 = laneEast i.lane) (hp : (s.sem l.1).poisoned = false) (hg : s.semGrantsNow l.1 1#20 = false) :
    ∃ t, exec (.take lane) s = .next t ∧
      t.sem l.1 = { s.sem l.1 with waiters := (s.sem l.1).waiters ++ [⟨.itin i.lane i.slot, i.q, 1#20⟩] } ∧
      s.itinBecomes t i { i with status := .taking, chosen := false } ∧ { t with itins := s.itins, sems := s.sems } = s := by
  have hruns := take_linked h hn hheld hfit hl
  rw [insTake_waits heast hp hg] at hruns
  exact ⟨_, hruns, State.updSem_sem _ _ _, itinBecomes_of_itins (taking_becomes h.itin_eq) rfl, rfl⟩

end

-- The Hall, clause by clause.

theorem writeSlot_acts {s : State} {x : Tile} {d : BitVec 1024} {h : HeldSlot} {bytes : List (Nat × Byte)}
    (hc : s.ringClient h.ring = false) (hnd : (bytes.map (fun b => b.1)).Nodup) :
    (tdAccum d = false → ∀ b ∈ bytes, (s.writeSlot x d h bytes).hall.get (s.hallAddr h.ring h.slot b.1) = b.2) ∧
      (∀ off v, tdAccum d = true → tdDtype d = 0x9 → bytes = wordAt off v → ∀ j < 4,
        (s.writeSlot x d h bytes).hall.get (s.hallAddr h.ring h.slot (off + j)) =
          (natBytes 4 (addWord (s.hallWord h off) v).toNat).getD j 0) ∧
      (∀ a, (∀ b ∈ bytes, s.hallAddr h.ring h.slot b.1 ≠ a) → tdAccum d = false →
        (s.writeSlot x d h bytes).hall.get a = s.hall.get a) ∧
      (s.flag offRelInject 31 = false → { s.writeSlot x d h bytes with hall := s.hall, tally := s.tally } = s) := by
  have plain (ha : tdAccum d = false) : s.slotLeaves d h bytes = bytes := by simp [State.slotLeaves, ha]
  refine ⟨fun ha b hb => ?_, fun off v ha hd hw j hj => ?_, fun a hne ha => ?_, writeSlot_frame hc hnd⟩
  · exact writeSlot_leaves hc hnd (by rw [plain ha]; exact hnd) (by rw [plain ha]; exact hb)
  · have hsums : s.slotLeaves d h bytes = wordAt off (addWord (s.hallWord h off) v) := by
      rw [State.slotLeaves, if_pos ha, hd, hw, hallSums_word]
    refine writeSlot_leaves (b := (off + j, _)) hc hnd (by rw [hsums]; exact wordAt_distinct _ _) ?_
    rw [hsums]
    exact List.mem_map.2 ⟨j, List.mem_range.2 hj, rfl⟩
  · exact writeSlot_elsewhere hc hnd (by rw [plain ha]; exact hne)

/-- Settles O54: each CLAIM and TAKE by whether its ring is linked and leads a group, PUBLISH and FREE by the release they form, and the
bytes of a Hall slot by `writeSlot_eq`. -/
theorem slotsAreClaimedTakenAndGivenUp : Obligations.SlotsAreClaimedTakenAndGivenUp := by
  unfold Obligations.SlotsAreClaimedTakenAndGivenUp
  intro s lane i r hn
  refine ⟨fun h hr hheld hfit => ?claim, fun h hheld hfit => claim_beyond h hn hheld hfit, fun h hr hheld hfit => ?take,
    fun h hheld hfit => take_beyond h hn hheld hfit, fun h hrun hheld hring hone => ?publish, fun h hrun hheld hring => ?free,
    fun x d h bytes hc hnd => writeSlot_acts hc hnd⟩
  case claim =>
    subst hr
    exact ⟨fun hl hfree hone => claim_obtains h hn hheld hfit hl hfree hone,
      fun l hl hone heast hp hg => claim_obtains_linked h hn hheld hfit hl hone heast hp hg,
      fun l hl hmany hp heast => ⟨fun hfree => claim_obtains_group h hn hheld hfit hl hmany hp heast hfree,
        fun hfree => claim_waits_group h hn hheld hfit hl hmany hp heast hfree⟩⟩
  case take =>
    subst hr
    exact ⟨fun hl havail => take_obtains h hn hheld hfit hl havail,
      fun l hl heast hp => ⟨fun hg => take_obtains_linked h hn hheld hfit hl heast hp hg,
        fun hg => take_waits h hn hheld hfit hl heast hp hg⟩⟩
  case publish =>
    exact ⟨_, publish_runs hrun hn hheld hring hone, release_retired (f := fun v => { v with heldW := none }) hrun.itin_eq _ fun _ => rfl⟩
  case free =>
    exact ⟨_, free_runs hrun hn hheld hring, release_retired (f := fun v => { v with heldR := none }) hrun.itin_eq _ fun _ => rfl⟩

end Sys2Proof.Machine
end

section
/-!
PROOFS. Why O53 fails: an IXBIND takes the windows that are on their way from the binding they were fetched for.
-/

namespace Sys2Proof.Machine

/-- A vector of 128 int32 indices at address 0. -/
def indexVector : BitVec 1024 := BitVec.ofNat 1024 (4 * 2 ^ 8 + 2 ^ 16 + 128 * 2 ^ 256)

/-- Itinerary 0 of queue 0, resident in slot 0 of lane 0, at an IXBIND of cursor 0 to descriptor 0, whose cursor 0 is bound to it already
and fetches the window at address 0. -/
def rebinding : Itin := { (default : Itin) with
  place := .resident, status := .ready, chosen := true, prog := [0x1800000000000000#64]
  descs := Bank.empty.set 0 (some indexVector), ix := Bank.empty.set 0 ⟨true, indexVector, 0, 0#32, [], [0]⟩ }

/-- The read of that window is on its way. -/
def windowOnItsWay : Tile := { (default : Tile) with kind := .indexWin, stage := .issued, ref := 0 }

/-- Lane 0 runs the itinerary, of a Running queue. -/
def rebindingBesideWindow : State := { State.reset with
  pins := { State.reset.pins with poreset := false, pllLocked := true }
  queues := Bank.empty.set 0 { (default : Queue) with st := .running, task := some { (default : Task) with phase := .running } }
  lanes := Bank.empty.set 0 { (default : Lane) with run := some 0 }
  itins := [rebinding]
  tiles := [windowOnItsWay] }

/-- The window belongs to no cursor any more (R165). -/
theorem rebindingBesideWindow_drops_window :
    (stateAfter rebindingBesideWindow (exec (.ixbind 0) rebindingBesideWindow)).tiles = [{ windowOnItsWay with ref := noCursor }] := by
  decide +kernel

/-- Refutes O53: its clause of IXBIND says that nothing but the itinerary and the Tally's counters changes, and does not ask that no window
of the cursor be on its way. One that is loses its cursor, as R165 asks for. -/
theorem not_instructionsActOnTheirRegisters : ¬ Obligations.InstructionsActOnTheirRegisters := by
  unfold Obligations.InstructionsActOnTheirRegisters
  intro h
  obtain ⟨-, -, -, -, -, -, -, ixbind, -⟩ := h rebindingBesideWindow 0 rebinding rebinding.next rfl
  have hruns : rebindingBesideWindow.runsIns 0 0x18 rebinding :=
    ⟨by decide +kernel, by decide +kernel, by decide +kernel, by decide +kernel, by decide +kernel⟩
  obtain ⟨t, ht, -, hframe⟩ := ixbind indexVector hruns (by decide +kernel) (by decide +kernel) (by decide +kernel) (by decide +kernel)
  have hkept : t.tiles = [windowOnItsWay] := congrArg State.tiles hframe
  have hdropped := rebindingBesideWindow_drops_window
  rw [ht, stateAfter_next, hkept] at hdropped
  exact absurd hdropped (by decide)

end Sys2Proof.Machine
end

section
/-!
PROOFS. Why O56 fails: what a granted WAIT command leaves of the semaphore's other waiters does not hold of every state it speaks of.
-/

namespace Sys2Proof.Machine

/-- The WAIT of queue 0 for semaphore 0, which has begun and asks for a completion record. -/
def recordedWait : Cmd :=
  { idx := 0, bytes := BitVec.ofNat 512 (0x03 + 2 ^ 8), started := true, done := false, failed := false, pages := 0 }

/-- The WAIT's take, the oldest at semaphore 0, and that of a WAIT of queue 1 behind it. -/
def commandWaiter : SemWaiter := ⟨.command 0, 0, 1#20⟩
def waiterBehind : SemWaiter := ⟨.command 1, 1, 1#20⟩

/-- Semaphore 0 counts 1 and queue 0's WAIT is its oldest waiter, with no memory port up, while the record of queue 1's SNAPSHOT task has
the number that is to be given next. -/
def waitBesideRecord : State := { prewarmBesideRecord with
  queues := prewarmBesideRecord.queues.set 0 { (default : Queue) with st := .running, cmds := [recordedWait] }
  sems := Bank.empty.set 0 { (default : Sem) with count := 1#20, waiters := [commandWaiter, waiterBehind] } }

/-- The WAIT's own record takes the number that is in use. No port takes it, the SNAPSHOT task fails for it, and what its queue
waits for is dropped (R107, R397). -/
theorem waitBesideRecord_drops_waiter :
    ((stateAfter waitBesideRecord (exec (.semaphoreGrant 0) waitBesideRecord)).sem 0).waiters = [] := by
  decide +kernel

/-- Refutes O56: its clause of a grant says that the waiters behind the oldest one stay, in any state, and nothing it asks for keeps
`nextId` apart from the numbers of the records under way. With a SNAPSHOT task's record of that number beside it, the failing write of
the granted WAIT's record stops the SNAPSHOT task's queue, whose waiters leave the semaphore. -/
theorem not_itinerariesWaitAndSignal : ¬ Obligations.ItinerariesWaitAndSignal := by
  unfold Obligations.ItinerariesWaitAndSignal
  intro h
  obtain ⟨-, -, -, grant, -⟩ := h waitBesideRecord 0 default 0 0#20 ⟨fun x hx => absurd hx List.not_mem_nil, rfl⟩
  obtain ⟨near, -⟩ := grant commandWaiter [waiterBehind] (by decide +kernel) (by decide +kernel) (by decide +kernel) (by decide +kernel)
  obtain ⟨t, ht, hsem, -⟩ := near (by decide +kernel)
  have hdropped := waitBesideRecord_drops_waiter
  rw [ht, stateAfter_next, hsem] at hdropped
  exact absurd hdropped (by decide)

end Sys2Proof.Machine
end

section
/-!
PROOFS. How a publish or release of a slot, once raised, moves its ring and increments its semaphore (R169, R183, R184, R206).
-/

namespace Sys2Proof.Machine

section
variable {s u : State} {k n q num ring : Nat} {c : BitVec 20} {east : Bool} {r : Release}

-- Increments.

/-- With no ring paired with a semaphore its increments move no HEAD (R184). -/
theorem movePaired_of_unpaired (h : ∀ x ∈ s.rings.cells, x.2.pair ≠ some k) (m : Nat) : s.movePaired k m = s := by
  have hnone : s.rings.cells.filter (fun x => x.2.pair == some k && s.ringClient x.1) = [] :=
    List.filter_eq_nil_iff.2 fun x hx => by simp [h x hx]
  rw [State.movePaired, hnone, List.foldl_nil]

/-- What an increment in its turn that moves no HEAD and does not overflow changes: COUNT, and what is told and counted of it. -/
theorem semIncrement_eq (hp : (s.sem k).poisoned = false) (ho : (s.turns.get k).overflowed = false)
    (hc : (s.sem k).count.toNat + c.toNat < 2 ^ 20) (hpairs : ∀ x ∈ s.rings.cells, x.2.pair ≠ some k) (src : IncSource) :
    ∃ tally regs turns dues, s.semIncrement k c src = { s with
      sems := s.sems.set k { s.sem k with count := (s.sem k).count + c }
      tally := tally, regs := regs, turns := turns, incsDue := dues } := by
  have hfits : s.semOverflows k c = false := by
    rw [Bool.eq_false_iff, ne_eq, semOverflows_iff hp ho]
    omega
  unfold State.semIncrement
  simp only [hp, hfits, movePaired_of_unpaired hpairs, Bool.false_eq_true, if_false]
  rw [trace_eq, count_eq]
  split <;> exact ⟨_, _, _, _, rfl⟩

/-- An increment that may be raised from a wing now: the semaphore is of that wing and not poisoned, its turn has come, COUNT has room, and
no ring is paired with it. -/
structure Raisable (s : State) (east : Bool) (k : Nat) : Prop where
  east : semEast k = east
  poisoned : (s.sem k).poisoned = false
  room : (s.sem k).count.toNat + 1 < 2 ^ 20
  turn : s.outOfTurn k rankInc 1#20 = false
  overflowed : (s.turns.get k).overflowed = false
  unpaired : ∀ x ∈ s.rings.cells, x.2.pair ≠ some k

/-- What is asked of the semaphore that a linked ring names lets it be raised. -/
theorem raisable_of_linked {sem : Option Nat} (h : ∀ k, sem = some k → semEast k = east ∧ (s.sem k).poisoned = false ∧
    (s.sem k).count.toNat + 1 < 2 ^ 20 ∧ s.outOfTurn k rankInc 1#20 = false ∧ (s.turns.get k).overflowed = false ∧
    ∀ x ∈ s.rings.cells, x.2.pair ≠ some k) (k : Nat) (hk : sem = some k) : Raisable s east k := by
  obtain ⟨heast, hpoisoned, hroom, hturn, hoverflowed, hunpaired⟩ := h k hk
  exact ⟨heast, hpoisoned, hroom, hturn, hoverflowed, hunpaired⟩

theorem Raisable.incTurn (h : Raisable s east k) : s.incTurn east k 1#20 = s := by
  simp [State.incTurn, State.inTurn, h.turn]

/-- The increment of a release of a slot, if its ring is linked. -/
def State.raiseFor (s : State) (r : Release) : Option Nat → State
  | some k => s.sendIncrement r.east r.q r.itin k 1#20
  | none => s

/-- The increment adds 1 to COUNT, and leaves rings, releases and queues. -/
theorem raiseFor_adds {sem : Option Nat} (h : ∀ k, sem = some k → Raisable u r.east k) :
    (u.raiseFor r sem).rings = u.rings ∧ (u.raiseFor r sem).releases = u.releases ∧ (u.raiseFor r sem).queues = u.queues ∧
      ∀ k, (u.raiseFor r sem).sem k = if sem = some k then { u.sem k with count := (u.sem k).count + 1 } else u.sem k := by
  cases sem with
  | none => exact ⟨rfl, rfl, rfl, fun k => rfl⟩
  | some k =>
    have hk := h k rfl
    obtain ⟨tally, regs, turns, dues, hadds⟩ :=
      semIncrement_eq (c := 1#20) hk.poisoned hk.overflowed hk.room hk.unpaired (u.incSource r.q r.itin)
    have hnear : u.raiseFor r (some k) = u.semIncrement k 1#20 (u.incSource r.q r.itin) := by
      simp [State.raiseFor, State.sendIncrement, State.itinIncrement, hk.east]
    rw [hnear, hadds]
    refine ⟨rfl, rfl, rfl, fun j => ?_⟩
    by_cases hj : j = k
    · subst hj
      simp [State.sem]
    · simp [State.sem, Bank.get_set_other _ hj, Ne.symm hj]

-- The ring.

/-- Changing a ring, but not its pair, pairs no ring with a semaphore. -/
theorem updRing_unpaired {f : Ring → Ring} (hf : (f (s.ring ring)).pair = (s.ring ring).pair)
    (h : ∀ x ∈ s.rings.cells, x.2.pair ≠ some k) : ∀ x ∈ (s.updRing ring f).rings.cells, x.2.pair ≠ some k := by
  have hpairs : Every (fun v : Ring => v.pair ≠ some k) s.rings := h
  exact hpairs.set ring (hf ▸ hpairs.get (show none ≠ some k from nofun) ring)

/-- A release is dropped, and its ring changes. -/
def State.settleRelease (s : State) (id ring : Nat) (f : Ring → Ring) : State := (s.dropRelease id).updRing ring f

theorem Raisable.settleRelease {f : Ring → Ring} (hf : ∀ v, (f v).pair = v.pair) (h : Raisable s east k) (n ring : Nat) :
    Raisable (s.settleRelease n ring f) east k :=
  ⟨h.east, h.poisoned, h.room, h.turn, h.overflowed, updRing_unpaired (s := s) (hf _) h.unpaired⟩

/-- A release that is raised: its ring changes, it is gone, and the semaphore of a linked ring counts 1 more. -/
theorem settleRelease_raises {f : Ring → Ring} (hf : ∀ v, (f v).pair = v.pair) {sem : Option Nat}
    (h : ∀ k, sem = some k → Raisable s r.east k) (n ring : Nat) :
    ((s.settleRelease n ring f).raiseFor r sem).ring ring = f (s.ring ring) ∧
      (∀ j, j ≠ ring → ((s.settleRelease n ring f).raiseFor r sem).ring j = s.ring j) ∧
      ((s.settleRelease n ring f).raiseFor r sem).releases = s.releases.filter (fun x => x.id != n) ∧
      (∀ k, ((s.settleRelease n ring f).raiseFor r sem).sem k =
        if sem = some k then { s.sem k with count := (s.sem k).count + 1 } else s.sem k) ∧
      ((s.settleRelease n ring f).raiseFor r sem).queues = s.queues := by
  obtain ⟨hrings, hreleases, hqueues, hsem⟩ := raiseFor_adds fun k hk => (h k hk).settleRelease hf n ring
  have hring (j : Nat) : ((s.settleRelease n ring f).raiseFor r sem).ring j = if j = ring then f (s.ring j) else s.ring j := by
    unfold State.ring at *
    rw [hrings]
    exact updRing_ring s ring j f
  exact ⟨(hring ring).trans (if_pos rfl), fun j hj => (hring j).trans (if_neg hj), hreleases, hsem, hqueues⟩

/-- A ring one of whose claimed slots is published (R183). -/
def State.publishedRing (s : State) (ring : Nat) (v : Ring) : Ring := { v with
  tail := advance v.tail 1 (s.nslot ring), occ := v.occ + 1, avail := v.avail + 1, claimed := v.claimed - 1 }

/-- A ring one of whose slots is freed (R183, R192). -/
def State.freedRing (s : State) (ring : Nat) (v : Ring) : Ring := { v with
  head := advance v.head 1 (s.nslot ring), occ := v.occ - 1
  frees := (List.replicate 1 s.ccyc ++ v.frees).filter (fun c => decide ((s.ccyc - c).toNat < 1024)) }

/-- The slot that is freed now is the first of the drain history. -/
theorem freedRing_first (s : State) (ring : Nat) (v : Ring) : (s.freedRing ring v).frees.head? = some s.ccyc := by
  simp only [State.freedRing, List.replicate_one, List.singleton_append]
  rw [List.filter_cons_of_pos (by simp), List.head?_cons]

theorem slotPublished_runs {slot : Nat} {full : Option Nat} (ha : s.alive = true)
    (hfind : s.releases.find? (fun r => r.id == n) = some r) (hkind : r.kind = .slotPublish ring slot full)
    (htiles : r.tiles.all (s.landedFor ring) = true) (hfirst : s.firstPublish n ring = true)
    (h : ∀ k, full = some k → Raisable s r.east k) :
    exec (.slotPublished n) s = .next ((s.settleRelease n ring (s.publishedRing ring)).raiseFor r full) := by
  show execSlotPublished n s = _
  unfold execSlotPublished
  simp only [hfind, hkind]
  refine (whenever_pos (by simp [ha, htiles, hfirst]) _ _).trans ?_
  cases full with
  | none => rfl
  | some k =>
    dsimp only
    rw [(h k rfl).incTurn]
    rfl

theorem slotReleased_runs {free : Option Nat} (ha : s.alive = true)
    (hfind : s.releases.find? (fun r => r.id == n) = some r) (hkind : r.kind = .slotFree ring free)
    (htiles : r.tiles.all s.slotRead = true) (hfirst : s.firstFree n ring = true)
    (h : ∀ k, free = some k → Raisable s r.east k) :
    exec (.slotReleased n) s = .next ((s.settleRelease n ring (s.freedRing ring)).raiseFor r free) := by
  show execSlotReleased n s = _
  unfold execSlotReleased
  simp only [hfind, hkind]
  refine (whenever_pos (by simp [ha, htiles, hfirst]) _ _).trans ?_
  cases free with
  | none => rfl
  | some k =>
    dsimp only
    rw [(h k rfl).incTurn]
    rfl

end

end Sys2Proof.Machine
end

section
/-!
PROOFS. What the passing of cycles leaves of the rings, and how laggards, time-to-empty and history come of it (R192, R193, R198, R199).
-/

namespace Sys2Proof.Machine

section
variable {s : State} {n : Nat}

-- Cycles pass.

theorem judgeAll_rings (s : State) (n : Nat) : (s.judgeAll n).rings = s.rings := by
  unfold State.judgeAll
  split
  · rfl
  · refine foldl_keeps (P := fun a => a.rings = s.rings) (fun a x ha => ?_) _ rfl
    unfold State.judge
    dsimp only
    (repeat' split) <;> exact ha

theorem runLaggards_rings (s : State) (n : Nat) : (s.runLaggards n).rings = s.rings := by
  refine foldl_keeps (P := fun a => a.rings = s.rings) (fun a x ha => ?_) _ rfl
  dsimp only
  (repeat' split) <;> exact ha

theorem driveTrace_rings (s : State) (n : Nat) : (s.driveTrace n).rings = s.rings := by
  unfold State.driveTrace
  split
  · rfl
  · exact foldl_keeps (P := fun a => a.rings = s.rings) (g := fun a p => a.drive (.trace p)) (fun _ _ ha => ha) _ rfl

theorem sendSemo_rings (s : State) (i : Nat) (op : BitVec 2) (m : BitVec 20) : (s.sendSemo i op m).rings = s.rings := by
  unfold State.sendSemo
  dsimp only
  split
  · rw [count_eq]
    rfl
  · rfl

theorem flushIncs_rings (s : State) (p : Nat × Option (BitVec 20) → Bool) : (s.flushIncs p).rings = s.rings := by
  refine foldl_keeps (P := fun a => a.rings = s.rings) (fun a m ha => ?_) _ rfl
  unfold State.sendDue State.sendFull
  (repeat' split) <;> simp [sendSemo_rings, ha]

theorem liveCycles_rings (s : State) (n : Nat) : (s.liveCycles n).rings = s.rings := by
  unfold State.liveCycles
  split
  · rfl
  · calc (((((s.judgeAll n).runTimers n).watchLaggards.runLaggards n).driveTrace n).flushIncs (fun _ => true)).rings
      _ = ((s.judgeAll n).runTimers n).watchLaggards.rings := by rw [flushIncs_rings, driveTrace_rings, runLaggards_rings]
      _ = (s.judgeAll n).rings := (watchLaggards_rest _).2.1
      _ = s.rings := judgeAll_rings s n

theorem switchCycle_rings (s : State) : s.switchCycle.rings = s.rings := by
  refine foldl_keeps (P := fun a => a.rings = s.rings) (fun a l ha => ?_) _ rfl
  rw [count_eq]
  exact ha

theorem runSwitches_rings (k n : Nat) (s : State) : (State.runSwitches k n s).rings = s.rings := by
  induction k generalizing n s with
  | zero => cases n <;> exact liveCycles_rings s _
  | succ k ih =>
    cases n with
    | zero => exact liveCycles_rings s _
    | succ n => exact (ih n _).trans ((liveCycles_rings _ 1).trans (switchCycle_rings s))

/-- With no request for a Tally edge the cycles that pass leave the rings. -/
theorem passCycles_rings (h : s.tally.reqs = []) (n : Nat) : (s.passCycles n).rings = s.rings := by
  rw [State.passCycles, h, List.length_nil, State.runEdges, State.runCycles]
  split
  · exact runSwitches_rings _ n s
  · rfl

-- History and time-to-empty.

theorem ringHistory_begins (ha : s.alive = true) (hv : s.ringValid n = true) (hh : (s.ring n).hist = false) (hreqs : s.tally.reqs = []) :
    ∃ t, exec (.ringHistory n) s = .next t ∧ t.ring n = { s.ring n with hist := true } ∧ (∀ j, j ≠ n → t.ring j = s.ring j) ∧
      t.ccyc = s.ccyc + BitVec.ofNat 48 (4096 - (s.ccyc - (s.ring n).since).toNat) := by
  generalize hm : 4096 - (s.ccyc - (s.ring n).since).toNat = m
  have hruns : exec (.ringHistory n) s = .next ((s.passCycles m).updRing n (fun v => { v with hist := true })) := by
    show execRingHistory n s = _
    unfold execRingHistory
    rw [whenever_pos (by simp [ha, hv, hh]), hm]
  have hring (j : Nat) : ((s.passCycles m).updRing n (fun v => { v with hist := true })).ring j =
      if j = n then { s.ring j with hist := true } else s.ring j := by
    rw [updRing_ring]
    unfold State.ring
    rw [passCycles_rings hreqs]
  exact ⟨_, hruns, (hring n).trans (if_pos rfl), fun j hj => (hring j).trans (if_neg hj), (Passes.passCycles ha m).ccyc⟩

/-- The time-to-empty of a ring at a time (R192). -/
def Ring.emptyAt (c : BitVec 48) (v : Ring) : Nat :=
  if v.occ = 0 then 0
  else if (v.frees.filter (fun f => decide ((c - f).toNat < 1024))).length = 0 then 1048560
  else v.occ * 1024 / (v.frees.filter (fun f => decide ((c - f).toNat < 1024))).length

theorem emptyTime_eq (s : State) (r : Nat) : s.emptyTime r = (s.ring r).emptyAt s.ccyc := rfl

/-- Recomputing the time-to-empty of one ring does not change that of another. -/
theorem foldl_emptyTime (l : List Nat) (s : State) :
    l.foldl (fun a r => a.updRing r (fun v => { v with tte := a.emptyTime r })) s =
      l.foldl (fun a r => a.updRing r (fun v => { v with tte := v.emptyAt s.ccyc })) s := by
  induction l generalizing s with
  | nil => rfl
  | cons r l ih =>
    rw [List.foldl_cons, List.foldl_cons, ih]
    rfl

theorem tteRecompute_recomputes (ha : s.alive = true) : ∃ t, exec .tteRecompute s = .next t ∧
    (∀ j, t.ring j = if j < 1024 ∧ s.ringValid j = true then { s.ring j with tte := s.emptyTime j } else s.ring j) ∧
    { t with rings := s.rings } = s := by
  have hruns : exec .tteRecompute s = .next (((List.range 1024).filter s.ringValid).foldl
      (fun a r => a.updRing r (fun v => { v with tte := v.emptyAt s.ccyc })) s) := by
    show execTteRecompute s = _
    unfold execTteRecompute
    rw [whenever_pos ha, foldl_emptyTime]
  refine ⟨_, hruns, fun j => ?_, ?_⟩
  · rw [foldl_updRing_ring (fun _ v => { v with tte := v.emptyAt s.ccyc }) (List.nodup_range.filter _)]
    simp only [List.mem_filter, List.mem_range, emptyTime_eq]
  · rw [foldl_updRing_eq (fun _ v => { v with tte := v.emptyAt s.ccyc })]

-- Laggards.

theorem watchLaggards_alive (s : State) : s.watchLaggards.alive = s.alive := by
  obtain ⟨-, hpins, hpower, -⟩ := State.watchLaggards_calm s
  simp only [State.alive, State.inReset, State.clocksStopped, hpins, hpower]

/-- The laggard condition lasts out its time, and the producing queue stops with ST_LAGGARD (R199). -/
theorem laggardTimeout_stops {t0 : Nat} {i : Itin} (ha : s.alive = true) (hlag : s.watchLaggards.lag.get n = some t0)
    (hblocked : s.watchLaggards.claimBlocked n = some i) (hexp : 0 < s.fld (offMg n 0) 24 5) (hst : (s.queue i.q).st = .running)
    (hstop : (s.queue i.q).stop = none) : ∃ t, exec (.laggardTimeout n) s = .next t ∧ t.stopsWith i.q stLaggard ∧
      t.ccyc = s.ccyc + BitVec.ofNat 48 (2 ^ max 8 (s.fld (offMg n 0) 24 5) - t0) := by
  have hgo : (s.alive && decide (0 < s.fld (offMg n 0) 24 5) && (s.queue i.q).st != .suspended) = true := by
    simp [ha, hexp, hst]
  have hmay : (s.watchLaggards.passCycles (2 ^ max 8 (s.fld (offMg n 0) 24 5) - t0)).mayFail i.q :=
    ((Ticks.watchLaggards s).trans (Ticks.passCycles _ _)).mayFail ⟨.inl hst, hstop⟩
  have hccyc := (Passes.passCycles ((watchLaggards_alive s).trans ha) (2 ^ max 8 (s.fld (offMg n 0) 24 5) - t0)).ccyc
  rw [(State.watchLaggards_calm s).1] at hccyc
  show ∃ t, execLaggardTimeout n s = _ ∧ _
  unfold execLaggardTimeout
  simp only [hlag, hblocked]
  exact ⟨_, whenever_pos hgo _ _, abort_stopsWith _ hmay, (State.failCmd_calm _ _ _ _).1.trans hccyc⟩

end

/-- Settles O55: a publish and a release of a slot by `settleRelease_raises`, the laggard timeout by the cycles that pass up to it, and
time-to-empty and history by the rings that the model updates. -/
theorem ringsMoveOn : Obligations.RingsMoveOn := by
  unfold Obligations.RingsMoveOn
  intro s n r ha
  refine ⟨fun ring slot full hfind hkind htiles hfirst hfull => ?publish, fun ring free hfind hkind htiles hfirst hfree => ?release,
    fun t0 i hlag hblocked hexp hst hstop _ => laggardTimeout_stops ha hlag hblocked hexp hst hstop, tteRecompute_recomputes ha,
    fun hv hh hreqs => ringHistory_begins ha hv hh hreqs⟩
  case publish =>
    have hraise := raisable_of_linked hfull
    exact ⟨_, slotPublished_runs ha hfind hkind htiles hfirst hraise,
      settleRelease_raises (f := s.publishedRing ring) (fun _ => rfl) hraise n ring⟩
  case release =>
    have hraise := raisable_of_linked hfree
    obtain ⟨hring, hrest⟩ := settleRelease_raises (f := s.freedRing ring) (fun _ => rfl) hraise n ring
    exact ⟨_, slotReleased_runs ha hfind hkind htiles hfirst hraise, congrArg Ring.head hring, congrArg Ring.occ hring,
      (congrArg (fun v => v.frees.head?) hring).trans (freedRing_first s ring _), hrest⟩

end Sys2Proof.Machine
end

section
/-!
PROOFS. How a memory port's arbitration picks requests (R189, R190).
-/

namespace Sys2Proof.Machine

/-- A pick moves the port's arbitration counters and spends no credit, whether it follows the shares (R190) or the deadlines (R191). -/
theorem pickOne_reqCred (s : State) (p : Nat) : ∀ x ∈ s.pickOne p, x.2.1.reqCred = (s.mport p).reqCred := by
  unfold State.pickOne
  extract_lets east v all
  split
  · simp
  · extract_lets set urgent waits fixedPick
    have hfixed : ∀ x ∈ fixedPick, x.2.1.reqCred = v.reqCred := by
      intro x hx
      simp only [fixedPick] at hx
      split at hx
      · simp at hx
      · obtain ⟨r, -, rfl⟩ := Option.map_eq_some_iff.1 hx
        rfl
    split
    · split
      · exact hfixed
      · simp [v]
    · exact hfixed

/-- Picking for a slot gives the port its new counters and marks the picked request with the slot; the Tally counts it. -/
theorem pickSlot_eq {s : State} {p id : Nat} {v : MPort} {urgent : Bool} (k : Nat) (h : s.pickOne p = some (id, v, urgent)) :
    s.pickSlot p k = { s with
      mports := s.mports.set p v, tally := (s.pickSlot p k).tally
      waiting := s.waiting.map (fun r => if r.id == id then { r with slot := some k } else r) } := by
  unfold State.pickSlot
  rw [h]
  cases urgent <;> simp only [Bool.false_eq_true, if_true, if_false]
  · rw [count_eq]
    rfl
  · rw [count_eq, count_eq (s.updMport p _)]
    rfl

theorem pickSlot_none {s : State} {p : Nat} (k : Nat) (h : s.pickOne p = none) : s.pickSlot p k = s := by
  simp [State.pickSlot, h]

/-- From `s` to `t` arbitration at port `p` has marked requests with slots: which requests wait, the port's request credits, the other
ports and the rest of the block are as they were. -/
structure Arbitrated (p : Nat) (s t : State) : Prop where
  ids : t.waiting.map (fun r => r.id) = s.waiting.map (fun r => r.id)
  reqCred : (t.mport p).reqCred = (s.mport p).reqCred
  others : ∀ j, j ≠ p → t.mport j = s.mport j
  rest : { t with waiting := s.waiting, mports := s.mports, tally := s.tally } = s

namespace Arbitrated

variable {p : Nat} {s t u : State}

theorem refl (p : Nat) (s : State) : Arbitrated p s s := ⟨rfl, rfl, fun _ _ => rfl, rfl⟩

theorem trans (hst : Arbitrated p s t) (htu : Arbitrated p t u) : Arbitrated p s u where
  ids := htu.ids.trans hst.ids
  reqCred := htu.reqCred.trans hst.reqCred
  others j hj := (htu.others j hj).trans (hst.others j hj)
  rest := calc { u with waiting := s.waiting, mports := s.mports, tally := s.tally }
    _ = { { u with waiting := t.waiting, mports := t.mports, tally := t.tally } with
          waiting := s.waiting, mports := s.mports, tally := s.tally } := rfl
    _ = { t with waiting := s.waiting, mports := s.mports, tally := s.tally } := by rw [htu.rest]
    _ = s := hst.rest

theorem pickSlot (p k : Nat) (s : State) : Arbitrated p s (s.pickSlot p k) := by
  cases h : s.pickOne p with
  | none => rw [pickSlot_none k h]; exact refl p s
  | some x =>
    obtain ⟨id, v, urgent⟩ := x
    have hcred : v.reqCred = (s.mport p).reqCred := pickOne_reqCred s p _ h
    rw [pickSlot_eq k h]
    refine ⟨?_, ?_, fun j hj => Bank.get_set_other _ hj _, rfl⟩
    · rw [List.map_map]
      refine List.map_congr_left fun r _ => ?_
      dsimp only [Function.comp]
      split <;> rfl
    · rw [State.mport, Bank.get_set_same, hcred]

theorem pickSlots (p : Nat) (l : List Nat) (s : State) : Arbitrated p s (l.foldl (fun a k => a.pickSlot p k) s) :=
  foldl_keeps (P := Arbitrated p s) (fun a k h => h.trans (pickSlot p k a)) l (refl p s)

end Arbitrated

/-- With no request picked before, one pick is made for each credit, up to four (R32, R190). -/
theorem portArbitration_runs {s : State} {p : Nat} (ha : s.alive = true) (hup : s.mportUp p = true)
    (hfree : s.waiting.any (fun r => r.port == p && r.slot.isSome) = false) : exec (.portArbitration p) s = .next
      ((List.range (min 4 (s.mport p).reqCred)).foldl (fun a k => a.pickSlot p k) s) := by
  have hp : decide (p < s.cfg.mports) = true := by
    simp only [State.mportUp, Bool.and_eq_true] at hup
    exact hup.1.1
  show execPortArbitration p s = _
  rw [execPortArbitration, whenever_pos]
  rw [State.mportAlive, ha, hp, hup, hfree]
  rfl

/-- Settles O29: a pick is made for each credit by `portArbitration_runs`, and each leaves the port as `Arbitrated` says. -/
theorem arbitrationPicksByCredit : Obligations.ArbitrationPicksByCredit := by
  unfold Obligations.ArbitrationPicksByCredit
  intro s p ha hup hfree
  have hruns := portArbitration_runs ha hup hfree
  refine ⟨?frame, fun hnone => ?noCredit, fun id v urgent hone hpick => ?oneCredit⟩
  case frame =>
    obtain ⟨hids, hcred, hothers, hrest⟩ := Arbitrated.pickSlots p (List.range (min 4 (s.mport p).reqCred)) s
    exact ⟨_, hruns, hids, hcred, hothers, hrest⟩
  case noCredit =>
    rw [hruns, hnone]
    rfl
  case oneCredit =>
    rw [hone] at hruns
    refine ⟨s.pickSlot p 0, hruns, ?_⟩
    rw [pickSlot_eq 0 hpick]
    exact ⟨Bank.get_set_same _ _ _, rfl⟩

end Sys2Proof.Machine
end

section
/-!
PROOFS. Which commands can stop: none but CLAIM and TAKE, at a Hall address that does not exist (R167, R182).
-/

namespace Sys2Proof.Machine

/-- A command has an effect: it neither stops nor is refused. -/
def Goes (r : Res) : Prop := ∃ t, r = .next t

/-- It covers what takes place only under its conditions and a write through the control port: `whenever` gives a next state either way. -/
theorem goes_next (t : State) : Goes (.next t) := ⟨t, rfl⟩

theorem goes_ite {c : Prop} [Decidable c] {a b : Res} (ha : Goes a) (hb : Goes b) : Goes (if c then a else b) := by
  split
  · exact ha
  · exact hb

-- The operations that commands share.

theorem goes_onGate (s : State) (q : Nat) (isOp : Nat → Bool) (f : State → Cmd → State) : Goes (s.onGate q isOp f) := by
  unfold State.onGate
  split <;> exact goes_next _

theorem goes_onLedger (s : State) (q : Nat) (ops : List Nat) (f : State → Cmd → State) : Goes (s.onLedger q ops f) :=
  goes_ite (goes_next s) (goes_onGate _ _ _ _)

theorem goes_issueOn (s : State) (p : Nat) (k : BitVec 2) (op : BitVec 3) (tag : BitVec 17) : Goes (s.issueOn p k op tag) := by
  unfold State.issueOn
  split <;> exact goes_next _

theorem goes_pghWrite (s : State) (p o : Nat) (mid : BitVec 8) (f : State → State) : Goes (s.pghWrite p o mid f) :=
  goes_ite (goes_next _) (goes_next _)

theorem goes_transfer (s : State) (i : Itin) (t : Tile) (bad : Option Byte) (after : Itin → Itin) :
    Goes (s.transfer i t bad after) := by
  unfold State.transfer
  split
  · exact goes_next _
  · split
    · exact goes_next _
    · exact goes_ite (goes_next _) (goes_next _)

/-- What holds of every effect, and of what an instruction answers on any state, holds of the instruction. -/
theorem onIns_satisfies {P : Res → Prop} {s : State} {lane op : Nat} {f : State → Itin → BitVec 64 → Res} (hn : ∀ t, P (.next t))
    (hf : ∀ t i w, P (f t i w)) : P (s.onIns lane op f) := by
  unfold State.onIns
  split
  · exact hn s
  · split
    · exact hf _ _ _
    · exact hn s

theorem goes_onIns {s : State} {lane op : Nat} {f : State → Itin → BitVec 64 → Res} (h : ∀ t i w, Goes (f t i w)) :
    Goes (s.onIns lane op f) := onIns_satisfies goes_next h


-- The commands that decide by more than one test.

theorem descriptorRead_goes (lane slot d : Nat) (s : State) : Goes (execDescriptorRead lane slot d s) := by
  unfold execDescriptorRead
  split
  · exact goes_next _
  · refine goes_ite (goes_next _) ?_
    dsimp only
    split <;> exact goes_next _

theorem indexWindowFetch_goes (lane slot ix : Nat) (s : State) : Goes (execIndexWindowFetch lane slot ix s) := by
  unfold execIndexWindowFetch
  split
  · exact goes_next _
  · refine goes_ite (goes_next _) ?_
    split
    · exact goes_next _
    · refine goes_ite (goes_next _) (goes_ite (goes_next _) ?_)
      dsimp only
      split <;> exact goes_next _

theorem tileIssue_goes (lane : Nat) (hold : Option Nat) (s : State) : Goes (execTileIssue lane hold s) := by
  unfold execTileIssue
  dsimp only
  split
  · exact goes_next _
  · refine goes_ite (goes_next _) ?_
    split
    · exact goes_ite (goes_next _) (goes_next _)
    · split
      · exact goes_next _
      · exact goes_next _
      · exact goes_ite (goes_next _) (goes_next _)

theorem gather_goes (lane : Nat) (s : State) : Goes (execGather lane s) := by
  refine goes_onIns fun t i w => goes_ite (goes_next _) ?_
  dsimp only
  split
  · exact goes_ite (goes_next _) (goes_transfer _ _ _ _ _)
  · exact goes_next _
  · exact goes_transfer _ _ _ _ _

theorem reduce_goes (lane : Nat) (s : State) : Goes (execReduce lane s) := by
  refine goes_onIns fun t i w => goes_ite (goes_next _) ?_
  dsimp only
  split
  · exact goes_transfer _ _ _ _ _
  · exact goes_transfer _ _ _ _ _
  · exact goes_next _

theorem ixbind_goes (lane : Nat) (s : State) : Goes (execIxbind lane s) := by
  refine goes_onIns fun t i w => ?_
  split
  · exact goes_next _
  · exact goes_ite (goes_next _) (goes_ite (goes_next _) (goes_next _))

theorem ixget_goes (lane : Nat) (s : State) : Goes (execIxget lane s) := by
  refine goes_onIns fun t i w => goes_ite (goes_next _) ?_
  split <;> exact goes_next _

-- CLAIM and TAKE.

/-- An instruction has an effect or stops at a Hall address that does not exist. -/
def GoesOrStops (r : Res) : Prop := Goes r ∨ r = .fault .hallAddress

theorem claim_goesOrStops (lane : Nat) (s : State) : GoesOrStops (execClaim lane s) := by
  refine onIns_satisfies (fun t => .inl (goes_next t)) fun t i w => ?_
  dsimp only
  split
  · exact .inl (goes_next _)
  · split
    · exact .inr rfl
    · left
      split
      · exact goes_ite (goes_next _) (goes_next _)
      · refine goes_ite (goes_next _) ?_
        split
        · exact goes_next _
        · exact goes_ite (goes_next _) (goes_next _)

theorem take_goesOrStops (lane : Nat) (s : State) : GoesOrStops (execTake lane s) := by
  refine onIns_satisfies (fun t => .inl (goes_next t)) fun t i w => ?_
  dsimp only
  split
  · exact .inl (goes_next _)
  · split
    · exact .inr rfl
    · left
      split
      · exact goes_next _
      · exact goes_ite (goes_next _) (goes_next _)

-- All commands.

/-- Every command but CLAIM and TAKE has an effect on every state: the cases by the shape of the command's meaning. -/
theorem exec_goes {c : Instr} (s : State) (h : ¬ ∃ lane, c = .claim lane ∨ c = .take lane) : Goes (exec c s) := by
  cases c with
  | claim lane => exact absurd ⟨lane, .inl rfl⟩ h
  | take lane => exact absurd ⟨lane, .inr rfl⟩ h
  | descriptorRead lane slot d => exact descriptorRead_goes lane slot d s
  | indexWindowFetch lane slot ix => exact indexWindowFetch_goes lane slot ix s
  | tileIssue lane hold => exact tileIssue_goes lane hold s
  | gather lane => exact gather_goes lane s
  | reduce lane => exact reduce_goes lane s
  | ixbind lane => exact ixbind_goes lane s
  | ixget lane => exact ixget_goes lane s
  -- An instruction that has one effect or decides between two, needs a held slot, or hands a tile over.
  | nopInstruction | loop | endl | lcset | lcadd | arset | ixseek | xform | org | waitInstruction | signalInstruction =>
    simp only [exec]
    delta execNopInstruction execLoop execEndl execLcset execLcadd execArset execIxseek execXform execOrg execWaitInstruction
      execSignalInstruction
    exact goes_onIns fun _ _ _ => goes_next _
  | halt | aradd | drain =>
    simp only [exec]
    delta execHalt execAradd execDrain
    exact goes_onIns fun _ _ _ => goes_ite (goes_next _) (goes_next _)
  | publish | free =>
    simp only [exec]
    delta execPublish execFree
    refine goes_onIns fun _ _ _ => ?_
    split
    · exact goes_next _
    · exact goes_ite (goes_next _) (goes_next _)
  | move | xpand | poolout =>
    simp only [exec]
    delta execMove execXpand execPoolout
    exact goes_onIns fun _ _ _ => goes_ite (goes_next _) (goes_transfer _ _ _ _ _)
  -- A request or a write that goes by a shared operation.
  | read | write | writeFinal | atomicAddFp32 | atomicAddBf16 => exact goes_issueOn _ _ _ _ _
  | pghBind | pghPtrLoCommit | pghAck | pghRing | pghPendClear | pghMaskWrite => exact goes_pghWrite _ _ _ _ _
  | rwtStagedWrite => exact goes_ite (goes_next _) (goes_next _)
  -- A queue's command that waits for the gate, at once or unless it has begun.
  | run | marker | nopCommand | waitCommand | tableRetire =>
    simp only [exec]
    delta execRun execMarker execNopCommand execWaitCommand execTableRetire
    exact goes_onGate _ _ _ _
  | ledgerBegin | ledgerCommit | ledgerRollback =>
    simp only [exec]
    delta execLedgerBegin execLedgerCommit execLedgerRollback
    exact goes_onLedger _ _ _ _
  | fence | signalCommand | tableBind | lookup | update | prewarm =>
    simp only [exec]
    delta execFence execSignalCommand execTableBind execLookup execUpdate execPrewarm
    split
    · exact goes_next _
    · exact goes_onGate _ _ _ _
  | larderCtlInvalidate | larderCtlPreload =>
    dsimp only [exec, execLarderCtlInvalidate, execLarderCtlPreload]
    split
    · exact goes_next _
    · exact goes_ite (goes_next _) (goes_onGate _ _ _ _)
  -- A command that acts on the item it finds, and changes nothing when there is none.
  | backgroundStartAfterRun | blockCheck | blockExpand | expanderBlockStart | laggardTimeout | laneSwitch | larderInstall | larderProbe
  | missRequest | promotionInstall | taskStart =>
    dsimp only [exec, execBackgroundStartAfterRun, execBlockCheck, execBlockExpand, execExpanderBlockStart, execLaggardTimeout,
      execLaneSwitch, execLarderInstall, execLarderProbe, execMissRequest, execPromotionInstall, execTaskStart]
    split <;> exact goes_next _
  | corridorFlitArrival | finalMarking | instructionRetry | invalidationComplete | larderWriteInvalidate | loadReport | missTimeout
  | parcelSend | parcelTimeout | preemptRelease | pushLanded | rampUnitEnable | semaphoreGrant | snapshotTask | stopComplete
  | subWindowBuild | subWindowFree | subWindowPool | tallyEdge | tallyRecord | tierReadData | updateSubWindow | versionRetired
  | writeDataBeat | writeWindowClose =>
    simp only [exec]
    delta execCorridorFlitArrival execFinalMarking execInstructionRetry execInvalidationComplete execLarderWriteInvalidate
      execLoadReport execMissTimeout execParcelSend execParcelTimeout execPreemptRelease execPushLanded execRampUnitEnable
      execSemaphoreGrant execSnapshotTask execStopComplete execSubWindowBuild execSubWindowFree execSubWindowPool execTallyEdge
      execTallyRecord execTierReadData execUpdateSubWindow execVersionRetired execWriteDataBeat execWriteWindowClose
    split <;> exact goes_next _
  | pushBeat | signalRelease | slotPublished | slotReleased | taskComplete =>
    dsimp only [exec, execPushBeat, execSignalRelease, execSlotPublished, execSlotReleased, execTaskComplete]
    split
    · exact goes_next _
    · split <;> exact goes_next _
  -- The rest take place when their conditions hold, and else change nothing (log 1).
  | _ => exact goes_next _

/-- A command has an effect, or it is a CLAIM or a TAKE and stops at a Hall address that does not exist. -/
theorem exec_goes_or_stops (c : Instr) (s : State) :
    Goes (exec c s) ∨ exec c s = .fault .hallAddress ∧ ∃ lane, c = .claim lane ∨ c = .take lane := by
  by_cases h : ∃ lane, c = .claim lane ∨ c = .take lane
  · obtain ⟨lane, rfl | rfl⟩ := h
    · exact (claim_goesOrStops lane s).imp_right fun hstop => ⟨hstop, lane, .inl rfl⟩
    · exact (take_goesOrStops lane s).imp_right fun hstop => ⟨hstop, lane, .inr rfl⟩
  · exact .inl (exec_goes s h)

/-- A step has an effect, or it runs a CLAIM or a TAKE that stops. -/
theorem step_goes_or_stops (s : State) : Goes (step s) ∨
    step s = .fault .hallAddress ∧ ∃ lane rest, s.pending = .claim lane :: rest ∨ s.pending = .take lane :: rest := by
  unfold step
  cases hp : s.pending with
  | nil => exact .inl (goes_next _)
  | cons c rest =>
    refine (exec_goes_or_stops c (s.withPending rest)).imp_right fun ⟨hstop, lane, hc⟩ => ⟨hstop, lane, rest, ?_⟩
    exact hc.imp (fun h => by rw [h]) (fun h => by rw [h])

/-- Settles O4: a step with an effect answers neither a refusal nor a fault, and by `step_goes_or_stops` every other one is the stop of a
CLAIM or a TAKE. -/
theorem onlyHallAddressesStop : Obligations.OnlyHallAddressesStop := by
  unfold Obligations.OnlyHallAddressesStop
  intro s
  obtain ⟨t, hgoes⟩ | ⟨hstop, hfront⟩ := step_goes_or_stops s
  · exact ⟨fun r hr => by simp [hgoes] at hr, fun f hf => by simp [hgoes] at hf⟩
  · refine ⟨fun r hr => by simp [hstop] at hr, fun f hf => ⟨?_, hfront⟩⟩
    exact (Host.Outcome.fault.inj (hstop.symm.trans hf)).symm

end Sys2Proof.Machine
end
